-- ==== Sys2Proof/Word.lean ====
section
/-! DEFINITION. The words of the Jorlia J8 and the one shape of its tables (R12, R15). -/
namespace Sys2Proof

/-- A scalar register, a system register, an agent register: 64 bits (R15, R373). -/
abbrev Word := BitVec 64

/-- One byte of any memory (R12). -/
abbrev Byte := BitVec 8

/-- One entry of the vector file, 1,024 bits (R183). -/
abbrev VWord := BitVec 1024

/-- One vector mask, 128 bits (R189). -/
abbrev Mask := BitVec 128

/-- A table by number, kept as a list with rising numbers. A number that is not listed holds the table's default value. -/
abbrev Tbl (α : Type) := List (Nat × α)

end Sys2Proof
end

