-- ==== Sys2Proof/Machine/Bits.lean ====
section
/-! DEFINITION. Bit fields, sign extension and byte order (R11, R12). -/
namespace Sys2Proof

/-- Bits [hi:lo] of x (R11). -/
def bitsOf (x hi lo : Nat) : Nat := x / 2 ^ lo % 2 ^ (hi + 1 - lo)

/-- Bit i of x. -/
def bitAt (x i : Nat) : Bool := x / 2 ^ i % 2 == 1

/-- The two's-complement value of the low w bits of x (R72). -/
def sextInt (w x : Nat) : Int :=
  if x % 2 ^ w < 2 ^ (w - 1) then (x % 2 ^ w : Nat) else (x % 2 ^ w : Nat) - (2 ^ w : Nat)

/-- The w low bits of an integer: its residue modulo 2^w (R78, wrap). -/
def wrapInt (w : Nat) (i : Int) : Nat := (i % (2 ^ w : Nat)).toNat

/-- The w low bits of x sign-extended to v bits. -/
def sextTo (w v x : Nat) : Nat := wrapInt v (sextInt w x)

/-- The little-endian value of a list of bytes (R12). -/
def leNat : List Byte → Nat
  | [] => 0
  | b :: bs => b.toNat + 256 * leNat bs

/-- The n bytes of x, least significant first (R12). -/
def leBytes : Nat → Nat → List Byte
  | 0, _ => []
  | n + 1, x => BitVec.ofNat 8 (x % 256) :: leBytes n (x / 256)

/-- The numbers lo, lo+1, ... of which there are n. -/
def upFrom (lo : Nat) : Nat → List Nat
  | 0 => []
  | n + 1 => lo :: upFrom (lo + 1) n

/-- a rounded down to a multiple of n. -/
def alignDown (a n : Nat) : Nat := a / n * n

/-- Division rounded up. -/
def ceilDiv (a n : Nat) : Nat := (a + n - 1) / n

/-- The number of bits of x: 0 for 0. -/
def bitLen (x : Nat) : Nat := if x = 0 then 0 else Nat.log2 x + 1

/-- The number of 1 bits among the low w bits of x. -/
def popCount : Nat → Nat → Nat
  | 0, _ => 0
  | w + 1, x => x % 2 + popCount w (x / 2)

/-- The least number of trailing zeros of x, at most w. -/
def trailZeros : Nat → Nat → Nat
  | 0, _ => 0
  | w + 1, x => if x % 2 = 1 then 0 else 1 + trailZeros w (x / 2)

/-- Insertion into a list sorted by a key; among equal keys the inserted one stands first. -/
def insertBy {α : Type} (key : α → Nat) (x : α) : List α → List α
  | [] => [x]
  | y :: ys => if key x ≤ key y then x :: y :: ys else y :: insertBy key x ys

/-- A list sorted by a key, stably. -/
def sortBy {α : Type} (key : α → Nat) : List α → List α
  | [] => []
  | x :: xs => insertBy key x (sortBy key xs)

/-- The list without repeats, first occurrences kept. -/
def dedupNat : List Nat → List Nat
  | [] => []
  | x :: xs => x :: (dedupNat xs).filter (· != x)

/-- The greatest of a list of numbers, 0 for none. -/
def maxOf : List Nat → Nat
  | [] => 0
  | x :: xs => max x (maxOf xs)

/-- The least of a list of numbers and a first one. -/
def minOf (x : Nat) : List Nat → Nat
  | [] => x
  | y :: ys => min y (minOf x ys)

/-- The sum of a list of numbers. -/
def sumOf : List Nat → Nat
  | [] => 0
  | x :: xs => x + sumOf xs

/-- The i-th element of a list, or a default. -/
def nthD {α : Type} (d : α) : List α → Nat → α
  | [], _ => d
  | x :: _, 0 => x
  | _ :: xs, n + 1 => nthD d xs n

/-- The list cut into pieces of n elements; fuel bounds the number of pieces. -/
def chunks {α : Type} (n : Nat) : Nat → List α → List (List α)
  | 0, _ => []
  | _, [] => []
  | fuel + 1, xs => xs.take n :: chunks n fuel (xs.drop n)

end Sys2Proof
end

