-- ==== Sys2Proof/Machine/Numbers.lean ====
section
/-! DEFINITION. Number formats, rounding, NaN rules, conversions and summation (03, R63 to R99). -/
namespace Sys2Proof

/-- The element types of R63, in the order of their codes. -/
inductive ElemType where
  | fp32 | fp16 | bf16 | e4m3 | e5m2 | mxint8 | mxint6 | mxint4
  | i8 | i16 | i32 | i64 | n8 | n16 | n32 | n64
deriving DecidableEq, Repr

/-- The type of a 4-bit code (R63). -/
def ElemType.ofCode (c : Nat) : ElemType :=
  match c % 16 with
  | 0 => .fp32 | 1 => .fp16 | 2 => .bf16 | 3 => .e4m3 | 4 => .e5m2
  | 5 => .mxint8 | 6 => .mxint6 | 7 => .mxint4
  | 8 => .i8 | 9 => .i16 | 10 => .i32 | 11 => .i64
  | 12 => .n8 | 13 => .n16 | 14 => .n32 | _ => .n64

/-- The width of an element in bits (R64, R70, R72). -/
def ElemType.width : ElemType → Nat
  | .fp32 => 32 | .fp16 => 16 | .bf16 => 16 | .e4m3 => 8 | .e5m2 => 8
  | .mxint8 => 8 | .mxint6 => 6 | .mxint4 => 4
  | .i8 => 8 | .i16 => 16 | .i32 => 32 | .i64 => 64
  | .n8 => 8 | .n16 => 16 | .n32 => 32 | .n64 => 64

/-- Whether the type is a floating-point format (R64). -/
def ElemType.isFloat : ElemType → Bool
  | .fp32 | .fp16 | .bf16 | .e4m3 | .e5m2 => true
  | _ => false

/-- Whether the type is one of the MXINT element types (R70). -/
def ElemType.isMx : ElemType → Bool
  | .mxint8 | .mxint6 | .mxint4 => true
  | _ => false

/-- Whether the type is an integer type IW or NW (R72). -/
def ElemType.isInt : ElemType → Bool
  | .i8 | .i16 | .i32 | .i64 | .n8 | .n16 | .n32 | .n64 => true
  | _ => false

/-- Whether the type is signed two's complement (R70, R72). -/
def ElemType.isSigned : ElemType → Bool
  | .i8 | .i16 | .i32 | .i64 | .mxint8 | .mxint6 | .mxint4 => true
  | _ => false

/-- Fraction bits of a floating format (R64). -/
def ElemType.frac : ElemType → Nat
  | .fp32 => 23 | .fp16 => 10 | .bf16 => 7 | .e4m3 => 3 | .e5m2 => 2
  | _ => 0

/-- Exponent bias of a floating format (R64). -/
def ElemType.bias : ElemType → Nat
  | .fp32 => 127 | .bf16 => 127 | .fp16 => 15 | .e5m2 => 15 | .e4m3 => 7
  | _ => 0

/-- The sign bit of a floating format (R64). -/
def ElemType.signBit (t : ElemType) : Nat := 2 ^ (t.width - 1)

/-- The encoding of the largest finite value, sign 0 (R65). -/
def ElemType.largest : ElemType → Nat
  | .fp32 => 0x7F7FFFFF | .fp16 => 0x7BFF | .bf16 => 0x7F7F | .e4m3 => 0x7E | .e5m2 => 0x7B
  | _ => 0

/-- The encoding of +infinity; E4M3 has none, and its NaN stands there (R65, R76). -/
def ElemType.infinity : ElemType → Nat
  | .fp32 => 0x7F800000 | .fp16 => 0x7C00 | .bf16 => 0x7F80 | .e4m3 => 0x7F | .e5m2 => 0x7C
  | _ => 0

/-- The quiet bit of a NaN; 0 where the format has none (R64). -/
def ElemType.quietBit : ElemType → Nat
  | .fp32 => 0x400000 | .fp16 => 0x200 | .bf16 => 0x40 | .e5m2 => 2
  | _ => 0

/-- The least value of an integer type (R72). -/
def ElemType.minInt (t : ElemType) : Int :=
  if t.isSigned then -(2 ^ (t.width - 1) : Nat) else 0

/-- The greatest value of an integer type (R72). -/
def ElemType.maxInt (t : ElemType) : Int :=
  if t.isSigned then (2 ^ (t.width - 1) : Nat) - 1 else (2 ^ t.width : Nat) - 1

/-- The rounding modes of R73, codes 6 and 7 reserved. -/
inductive Rnd where
  | rne | rtz | rup | rdn | rna | rsd
deriving DecidableEq, Repr

/-- The mode of a 3-bit code; a reserved code is refused before it is used (R73). -/
def Rnd.ofCode (c : Nat) : Rnd :=
  match c with
  | 0 => .rne | 1 => .rtz | 2 => .rup | 3 => .rdn | 4 => .rna | _ => .rsd

/-- The flags of FSTATUS as bits of a number (R80). -/
def flagNV : Nat := 1
def flagDZ : Nat := 2
def flagOF : Nat := 4
def flagUF : Nat := 8
def flagNX : Nat := 16
def flagSAT : Nat := 32
def flagNSC : Nat := 64

/-- A result and the flags that it raises (R80, R81). -/
structure Rounded where
  bits : Nat
  flags : Nat
deriving DecidableEq, Repr

/-- A finite value (-1)^neg * mag * 2^exp; with sticky the true magnitude lies strictly between mag and mag + 1 units. -/
structure Exact where
  neg : Bool
  mag : Nat
  exp : Int
  sticky : Bool := false
deriving DecidableEq, Repr

/-- The bits that a float encoding decodes to (R64, R65). -/
inductive Decoded where
  | nan (signalling : Bool)
  | inf (neg : Bool)
  | fin (x : Exact)
deriving DecidableEq, Repr

/-- Sign of an encoding (R64). -/
def ElemType.signOf (t : ElemType) (b : Nat) : Bool := bitAt b (t.width - 1)

/-- Decodes a float encoding (R64 to R67). -/
def decodeFloat (t : ElemType) (b : Nat) : Decoded :=
  let s := t.signOf b
  let m := b % t.signBit
  if m > t.infinity ∨ (t = .e4m3 ∧ m = 0x7F) then .nan (t.quietBit != 0 && m &&& t.quietBit == 0)
  else if m = t.infinity then .inf s
  else
    let e := m / 2 ^ t.frac
    let f := m % 2 ^ t.frac
    if e = 0 then .fin { neg := s, mag := f, exp := 1 - (t.bias : Int) - (t.frac : Int) }
    else .fin { neg := s, mag := f + 2 ^ t.frac, exp := (e : Int) - (t.bias : Int) - (t.frac : Int) }

/-- rsd_bits() of R77 from SEED, gang identity, slot code, element index and issue cycle. -/
def rsdBits (seed g o e c : Nat) : Nat :=
  let m := 2 ^ 64
  let ctr := (c % 2 ^ 40 * 2 ^ 24 + o * 2 ^ 21 + e % 2 ^ 21) % m
  let z := (ctr + seed + g * 0x9E3779B97F4A7C15) % m
  let z := ((z ^^^ (z / 2 ^ 30)) * 0xBF58476D1CE4E5B9) % m
  let z := ((z ^^^ (z / 2 ^ 27)) * 0x94D049BB133111EB) % m
  let z := z ^^^ (z / 2 ^ 31)
  z / 2 ^ 32

/-- Whether the magnitude is rounded up: num / 2^k is the part d below one unit, sticky adds to it (R74). -/
def roundsUp (mode : Rnd) (neg : Bool) (last num k : Nat) (sticky : Bool) (rsd : Nat) : Bool :=
  let half2 := 2 * num
  match mode with
  | .rne => 2 ^ k < half2 || (half2 == 2 ^ k && (sticky || last % 2 == 1))
  | .rna => 2 ^ k ≤ half2
  | .rtz => false
  | .rup => !neg && (num != 0 || sticky)
  | .rdn => neg && (num != 0 || sticky)
  | .rsd => rsd < num * 2 ^ 32 / 2 ^ k

/-- The result of an overflow of sign neg before saturation: infinity or the largest finite value (R75). -/
def overflowIsInf (mode : Rnd) (neg : Bool) : Bool :=
  match mode with
  | .rne | .rna | .rsd => true
  | .rtz => false
  | .rup => !neg
  | .rdn => neg

/-- Adds the sign bit. -/
def ElemType.withSign (t : ElemType) (neg : Bool) (b : Nat) : Nat := if neg then b + t.signBit else b

/-- An infinite result in T: saturated where the operation selects it, a NaN of that sign in E4M3 (R76, R78). -/
def infResult (t : ElemType) (sat neg : Bool) (flags : Nat) : Rounded :=
  if sat then { bits := t.withSign neg t.largest, flags := flags ||| flagSAT }
  else { bits := t.withSign neg t.infinity, flags := flags }

/-- round(x, T, mode) for a floating T, with sat applied where selected (R74 to R78). -/
def roundFloat (t : ElemType) (mode : Rnd) (sat : Bool) (rsd : Nat) (x : Exact) : Rounded :=
  if x.mag = 0 ∧ x.sticky = false then { bits := t.withSign x.neg 0, flags := 0 }
  else
    let lsbMin : Int := 1 - (t.bias : Int) - (t.frac : Int)
    let msb : Int := (Nat.log2 x.mag : Int) + x.exp
    let lsb : Int := max (msb - (t.frac : Int)) lsbMin
    let sh : Int := lsb - x.exp
    let k := sh.toNat
    let whole := if sh ≤ 0 then x.mag * 2 ^ (-sh).toNat else x.mag / 2 ^ k
    let part := if sh ≤ 0 then 0 else x.mag % 2 ^ k
    let inexact := part != 0 || x.sticky
    let up := inexact && roundsUp mode x.neg whole part k x.sticky rsd
    let m := if up then whole + 1 else whole
    let enc := (lsb - lsbMin).toNat * 2 ^ t.frac + m
    let tiny := inexact && msb < 1 - (t.bias : Int)
    if enc > t.largest then
      if overflowIsInf mode x.neg then infResult t sat x.neg (flagOF ||| flagNX)
      else { bits := t.withSign x.neg t.largest, flags := flagOF ||| flagNX }
    else { bits := t.withSign x.neg enc,
           flags := (if inexact then flagNX else 0) ||| (if tiny then flagUF else 0) }

/-- round(x, T, mode) for an integer T: the integer and whether it differs from x (R74). -/
def roundInt (mode : Rnd) (rsd : Nat) (x : Exact) : Int × Bool :=
  let k := (-x.exp).toNat
  let whole := if 0 ≤ x.exp then x.mag * 2 ^ x.exp.toNat else x.mag / 2 ^ k
  let part := if 0 ≤ x.exp then 0 else x.mag % 2 ^ k
  let inexact := part != 0 || x.sticky
  let up := inexact && roundsUp mode x.neg whole part k x.sticky rsd
  let m := if up then whole + 1 else whole
  (if x.neg then -(m : Int) else m, inexact)

/-- sat(i, T) for an integer T, with the SAT flag when it clamps (R78). -/
def satInt (t : ElemType) (i : Int) : Rounded :=
  if i < t.minInt then { bits := wrapInt t.width t.minInt, flags := flagSAT }
  else if i > t.maxInt then { bits := wrapInt t.width t.maxInt, flags := flagSAT }
  else { bits := wrapInt t.width i, flags := 0 }

/-- The value of an integer element (R72). -/
def intValue (t : ElemType) (b : Nat) : Int :=
  if t.isSigned then sextInt t.width b else (b % 2 ^ t.width : Nat)

/-- sat or wrap to an integer type, by the operation's selection (R78). -/
def fitInt (t : ElemType) (sat : Bool) (i : Int) : Rounded :=
  if sat then satInt t i else { bits := wrapInt t.width i, flags := 0 }

/-- An integer as an exact value. -/
def Exact.ofInt (i : Int) : Exact := { neg := i < 0, mag := i.natAbs, exp := 0 }

/-- The quiet NaN that the device generates for a cause (R83), FP32. -/
def nanFp32 (cause : Nat) : Nat := 0x7FC00000 + cause * 0x00040000

/-- Whether generating the NaN of a cause raises NV (R83). -/
def nanFlags (cause : Nat) : Nat := if cause = 1 ∨ cause = 2 ∨ cause = 8 ∨ cause = 9 then 0 else flagNV

/-- The FP32 form of a NaN of type t, quieted (R83 cause 1, R84). -/
def nanWiden (t : ElemType) (b : Nat) : Nat :=
  let s := if t.signOf b then 2 ^ 31 else 0
  match t with
  | .fp32 => b ||| 0x400000
  | .bf16 => s + 0x7F800000 + (b % 0x80 ||| 0x40) * 0x10000
  | .fp16 => s + 0x7F800000 + (b % 0x400 ||| 0x200) * 0x2000
  | _ => s + nanFp32 1

/-- An FP32 NaN in type T (R84). -/
def nanNarrow (t : ElemType) (b : Nat) : Nat :=
  let s := bitAt b 31
  match t with
  | .fp32 => b ||| 0x400000
  | .bf16 => t.withSign s (0x7F80 + (b / 0x10000 % 0x80 ||| 0x40))
  | .fp16 => t.withSign s (0x7C00 + (b / 0x2000 % 0x400 ||| 0x200))
  | .e5m2 => t.withSign s 0x7E
  | _ => t.withSign s 0x7F

/-- A NaN operand as a result of type dst, quieted (R84, R85); R84's table has no row for E4M3 to E5M2, which takes the row
of E5M2 (DESIGN CHOICE, log 25). -/
def nanConvert (src dst : ElemType) (b : Nat) : Nat :=
  if src = dst then (b ||| src.quietBit)
  else if src = .e4m3 ∧ dst = .e5m2 ∨ src = .e5m2 ∧ dst = .e4m3 then
    (if dst = .e4m3 then dst.withSign (src.signOf b) 0x7F else dst.withSign (src.signOf b) 0x7E)
  else nanNarrow dst (nanWiden src b)

/-- Whether an encoding is a NaN. -/
def isNanBits (t : ElemType) (b : Nat) : Bool :=
  t.isFloat && (match decodeFloat t b with
    | .nan _ => true
    | _ => false)

/-- Whether an encoding is a signalling NaN (R67). -/
def isSnanBits (t : ElemType) (b : Nat) : Bool :=
  t.isFloat && (match decodeFloat t b with
    | .nan q => q
    | _ => false)

/-- The generated NaN of a cause in type T, with its flags (R83, R84). -/
def genNan (t : ElemType) (cause : Nat) : Rounded :=
  { bits := nanNarrow t (nanFp32 cause), flags := nanFlags cause }

/-- The NaN result among operands in priority order: the first NaN, quieted; NV for any signalling operand (R85, R86). -/
def firstNan (dst : ElemType) : List (ElemType × Nat) → Option Rounded
  | [] => none
  | (t, b) :: rest =>
    if isNanBits t b then
      some { bits := nanConvert t dst b,
             flags := if isSnanBits t b || rest.any (fun p => isSnanBits p.1 p.2) then flagNV else 0 }
    else
      match firstNan dst rest with
      | none => none
      | some r => some r

/-- The exact sum of two finite values; an exact zero is -0 under RDN and where both operands are -0, else +0 (R79). -/
def addExact (mode : Rnd) (x y : Exact) : Exact :=
  let e := min x.exp y.exp
  let xm : Int := x.mag * 2 ^ (x.exp - e).toNat
  let ym : Int := y.mag * 2 ^ (y.exp - e).toNat
  let v := (if x.neg then -xm else xm) + (if y.neg then -ym else ym)
  let neg :=
    if v = 0 then decide (mode = .rdn) || (x.mag == 0 && y.mag == 0 && x.neg && y.neg)
    else decide (v < 0)
  { neg := neg, mag := v.natAbs, exp := e }

/-- The exact product of two finite values; a zero takes the exclusive-or of the signs (R79). -/
def mulExact (x y : Exact) : Exact :=
  { neg := x.neg != y.neg, mag := x.mag * y.mag, exp := x.exp + y.exp }

/-- a + b in a floating type (R74 to R86). -/
def addFloat (t : ElemType) (mode : Rnd) (sat : Bool) (rsd a b : Nat) : Rounded :=
  match firstNan t [(t, a), (t, b)] with
  | some r => r
  | none =>
    match decodeFloat t a, decodeFloat t b with
    | .inf s, .inf u => if s = u then infResult t sat s 0 else genNan t 3
    | .inf s, _ => infResult t sat s 0
    | _, .inf u => infResult t sat u 0
    | .fin x, .fin y => roundFloat t mode sat rsd (addExact mode x y)
    | _, _ => genNan t 3

/-- The negation of an encoding: its sign bit inverted, a NaN too. -/
def negBits (t : ElemType) (b : Nat) : Nat := b ^^^ t.signBit

/-- a - b: the addition of b with its sign inverted, a NaN operand keeping its own sign (R85). -/
def subFloat (t : ElemType) (mode : Rnd) (sat : Bool) (rsd a b : Nat) : Rounded :=
  match firstNan t [(t, a), (t, b)] with
  | some r => r
  | none => addFloat t mode sat rsd a (negBits t b)

/-- a * b in a floating type (R74 to R86). -/
def mulFloat (t : ElemType) (mode : Rnd) (sat : Bool) (rsd a b : Nat) : Rounded :=
  match firstNan t [(t, a), (t, b)] with
  | some r => r
  | none =>
    let s := t.signOf a != t.signOf b
    match decodeFloat t a, decodeFloat t b with
    | .inf _, .fin y => if y.mag = 0 then genNan t 4 else infResult t sat s 0
    | .fin x, .inf _ => if x.mag = 0 then genNan t 4 else infResult t sat s 0
    | .fin x, .fin y => roundFloat t mode sat rsd (mulExact x y)
    | _, _ => infResult t sat s 0

/-- (-1)^nd * d + (-1)^np * a * b rounded once; the priority of NaN operands is d, a, b (R85, R177, R194). -/
def fmaFloat (t : ElemType) (mode : Rnd) (sat : Bool) (rsd : Nat) (nd np : Bool) (d a b : Nat) : Rounded :=
  match firstNan t [(t, d), (t, a), (t, b)] with
  | some r => r
  | none =>
    let s := (t.signOf a != t.signOf b) != np
    let d' := if nd then negBits t d else d
    let withInfProduct : Rounded :=
      match decodeFloat t d' with
      | .inf u => if u = s then infResult t sat s 0 else genNan t 3
      | _ => infResult t sat s 0
    match decodeFloat t a, decodeFloat t b with
    | .inf _, .fin y => if y.mag = 0 then genNan t 4 else withInfProduct
    | .fin x, .inf _ => if x.mag = 0 then genNan t 4 else withInfProduct
    | .fin x, .fin y =>
      (match decodeFloat t d' with
       | .inf u => infResult t sat u 0
       | .fin z =>
         let p := mulExact x y
         roundFloat t mode sat rsd (addExact mode z { p with neg := p.neg != np })
       | .nan _ => genNan t 3)
    | _, _ => withInfProduct

/-- The order of two finite or infinite encodings that are no NaN, -0 below +0 when zeros are told apart (R87). -/
def floatKey (t : ElemType) (b : Nat) : Int :=
  let m := b % t.signBit
  if t.signOf b then -(m : Int) - 1 else m

/-- Whether a < b as numbers, -0 equal to +0; neither is a NaN (R178). -/
def floatLt (t : ElemType) (a b : Nat) : Bool :=
  let ka := if a % t.signBit = 0 then 0 else floatKey t a
  let kb := if b % t.signBit = 0 then 0 else floatKey t b
  ka < kb

/-- Whether a and b are equal as numbers, -0 equal to +0; neither is a NaN (R178). -/
def floatEq (t : ElemType) (a b : Nat) : Bool :=
  a == b || (a % t.signBit == 0 && b % t.signBit == 0)

/-- The minimum or maximum by R87. -/
def minMaxFloat (t : ElemType) (wantMax : Bool) (a b : Nat) : Rounded :=
  match firstNan t [(t, a), (t, b)] with
  | some r => r
  | none =>
    if wantMax then { bits := if floatKey t a < floatKey t b then b else a, flags := 0 }
    else { bits := if floatKey t b < floatKey t a then b else a, flags := 0 }

/-- Conversion between floating formats; FP16 and BF16 round once from the exact value (R76, R78, R84, R88).
Identical types return the operand, a signalling NaN quieted (R179). -/
def floatToFloat (src dst : ElemType) (mode : Rnd) (sat : Bool) (rsd b : Nat) : Rounded :=
  match decodeFloat src b with
  | .nan sig => { bits := nanConvert src dst b, flags := if sig then flagNV else 0 }
  | .inf s => if src = dst then { bits := b, flags := 0 } else infResult dst sat s 0
  | .fin x => roundFloat dst mode sat rsd x

/-- Conversion from a floating format to an integer type (R89); where the value is clamped NV alone is raised, also when the
rounding was inexact (DESIGN CHOICE, log 25). -/
def floatToInt (src dst : ElemType) (mode : Rnd) (rsd b : Nat) : Rounded :=
  match decodeFloat src b with
  | .nan _ => { bits := 0, flags := flagNV }
  | .inf s => { bits := wrapInt dst.width (if s then dst.minInt else dst.maxInt), flags := flagNV }
  | .fin x =>
    let (i, inexact) := roundInt mode rsd x
    if i < dst.minInt then { bits := wrapInt dst.width dst.minInt, flags := flagNV }
    else if i > dst.maxInt then { bits := wrapInt dst.width dst.maxInt, flags := flagNV }
    else { bits := wrapInt dst.width i, flags := if inexact then flagNX else 0 }

/-- Conversion between any two of the plain types (R88 to R90). -/
def convert (src dst : ElemType) (mode : Rnd) (sat : Bool) (rsd b : Nat) : Rounded :=
  if src.isFloat then
    if dst.isFloat then floatToFloat src dst mode sat rsd b else floatToInt src dst mode rsd b
  else if dst.isFloat then roundFloat dst mode sat rsd (Exact.ofInt (intValue src b))
  else fitInt dst sat (intValue src b)

/-- The value of an MXINTw code q under scale byte e, or none for the NaN scale (R68, R70). -/
def mxExact (w q e : Nat) : Option Exact :=
  if e = 255 then none
  else
    let i := sextInt w q
    some { neg := i < 0, mag := i.natAbs, exp := (e : Int) - 127 - ((w : Int) - 2) }

/-- Conversion of one finite value to MXINTw under a scale (R91): the code and its flags. -/
def toMx (w : Nat) (e : Nat) (mode : Rnd) (rsd : Nat) (x : Exact) : Rounded :=
  let lim : Int := (2 ^ (w - 1) : Nat) - 1
  let (i, inexact) := roundInt mode rsd { x with exp := x.exp - ((e : Int) - 127 - ((w : Int) - 2)) }
  let nx := if inexact then flagNX else 0
  if i > lim then { bits := wrapInt w lim, flags := nx ||| flagSAT }
  else if i < -lim then { bits := wrapInt w (-lim), flags := nx ||| flagSAT }
  else { bits := wrapInt w i, flags := nx }

/-- Dequantisation of an MXINT, E4M3 or E5M2 element under a scale (R92); the NaN scale gives cause 2 and raises NSC. -/
def fromMx (src dst : ElemType) (mode : Rnd) (sat : Bool) (rsd e b : Nat) : Rounded :=
  if e = 255 then { bits := nanNarrow dst (nanFp32 2), flags := flagNSC }
  else if src.isMx then
    match mxExact src.width b e with
    | some x => roundFloat dst mode sat rsd x
    | none => genNan dst 2
  else
    match decodeFloat src b with
    | .nan sig => { bits := nanConvert src dst b, flags := if sig then flagNV else 0 }
    | .inf s => infResult dst sat s 0
    | .fin x => roundFloat dst mode sat rsd { x with exp := x.exp + (e : Int) - 127 }

/-- Whether |x| is at most (or below, when strict) |y| for exact values. -/
def absLe (x y : Exact) : Bool :=
  let e := min x.exp y.exp
  x.mag * 2 ^ (x.exp - e).toNat ≤ y.mag * 2 ^ (y.exp - e).toNat

/-- The value of greatest magnitude of a list, 0 for none. -/
def absMax : List Exact → Exact
  | [] => { neg := false, mag := 0, exp := 0 }
  | x :: xs => let m := absMax xs; if absLe x m then m else { x with neg := false }

/-- Clamps an exponent to a byte of E8M0 that is no NaN (R93). -/
def clampScale (e : Int) : Nat := if e < 0 then 0 else if e > 254 then 254 else e.toNat

/-- The scale byte of a block of finite values with MXINTw elements (R93). -/
def mxScaleInt (w : Nat) (amax : Exact) : Nat :=
  if amax.mag = 0 then 0
  else
    let e : Int := (Nat.log2 amax.mag : Int) + amax.exp + 127
    let lim : Exact := { neg := false, mag := 2 ^ w - 1, exp := e - 127 - 1 - ((w : Int) - 2) }
    clampScale (if absLe lim amax then e + 1 else e)

/-- The scale byte of a block with E4M3 or E5M2 elements: the least e with amax at most 2^(e-127) times the largest
finite value (R93). -/
def mxScaleFloat (t : ElemType) (amax : Exact) : Nat :=
  if amax.mag = 0 then 0
  else
    match decodeFloat t t.largest with
    | .fin big =>
      let e0 : Int := (Nat.log2 amax.mag : Int) + amax.exp - ((Nat.log2 big.mag : Int) + big.exp)
      clampScale ((if absLe amax { big with exp := big.exp + e0 } then e0 else e0 + 1) + 127)
    | _ => 0

/-- The scale byte for elements of type t (R93). -/
def mxScale (t : ElemType) (amax : Exact) : Nat :=
  if t.isMx then mxScaleInt t.width amax else mxScaleFloat t amax

/-- One element of a block under the chosen scale: MXINTw by R91, E4M3 and E5M2 by R88 with saturation (R93). -/
def mxElem (t : ElemType) (e : Nat) (mode : Rnd) (rsd : Nat) (x : Exact) : Rounded :=
  if t.isMx then toMx t.width e mode rsd x
  else roundFloat t mode true rsd { x with exp := x.exp - ((e : Int) - 127) }

/-- One term of a group sum: a product of two operands, each with its type, encoding and scale byte
(127 for an operand without scales). -/
structure GroupTerm where
  ta : ElemType
  a : Nat
  ea : Nat
  tb : ElemType
  b : Nat
  eb : Nat
deriving DecidableEq, Repr

/-- An operand of a product decoded under its scale: the NaN of the block's scale comes first (R95). -/
def termOperand (t : ElemType) (b e : Nat) : Decoded :=
  if e = 255 then .nan false
  else if t.isFloat then
    match decodeFloat t b with
    | .fin x => .fin { x with exp := x.exp + (e : Int) - 127 }
    | d => d
  else
    match mxExact t.width b e with
    | some x => .fin x
    | none => .nan false

/-- The NaN that an operand of a product gives, FP32: cause 2 for a NaN scale (R95). -/
def termNan (t : ElemType) (b e : Nat) : Nat :=
  if e = 255 then nanFp32 2 else nanConvert t .fp32 b

/-- The first NaN operand of a group in increasing k, A before B (R95). -/
def groupNan : List GroupTerm → Option Nat
  | [] => none
  | p :: ps =>
    match termOperand p.ta p.a p.ea, termOperand p.tb p.b p.eb with
    | .nan _, _ => some (termNan p.ta p.a p.ea)
    | _, .nan _ => some (termNan p.tb p.b p.eb)
    | _, _ => groupNan ps

/-- Flags of reading the operands of a group: NV for a signalling NaN, NSC for a NaN scale (R80, R86). -/
def groupFlags : List GroupTerm → Nat
  | [] => 0
  | p :: ps =>
    (if p.ea = 255 ∨ p.eb = 255 then flagNSC else 0)
      ||| (if (p.ea ≠ 255 ∧ p.ta.isFloat ∧ isSnanBits p.ta p.a) ∨ (p.eb ≠ 255 ∧ p.tb.isFloat ∧ isSnanBits p.tb p.b)
           then flagNV else 0)
      ||| groupFlags ps

/-- What the products of a group hold: an invalid product, an infinity of each sign, and the exact sum so far. -/
structure GroupSum where
  invalid : Bool
  posInf : Bool
  negInf : Bool
  sum : Exact
  allNegZero : Bool
deriving DecidableEq, Repr

/-- The exact sum of the products of a group without NaN operands (R94, R95). -/
def groupSum : List GroupTerm → GroupSum
  | [] => { invalid := false, posInf := false, negInf := false,
            sum := { neg := false, mag := 0, exp := 0 }, allNegZero := true }
  | p :: ps =>
    let r := groupSum ps
    let withInf (s : Bool) : GroupSum :=
      if s then { r with negInf := true, allNegZero := false } else { r with posInf := true, allNegZero := false }
    match termOperand p.ta p.a p.ea, termOperand p.tb p.b p.eb with
    | .inf s, .fin y => if y.mag = 0 then { r with invalid := true } else withInf (s != y.neg)
    | .fin x, .inf s => if x.mag = 0 then { r with invalid := true } else withInf (s != x.neg)
    | .inf s, .inf u => withInf (s != u)
    | .fin x, .fin y =>
      let q := mulExact x y
      { r with sum := addExact .rne q r.sum, allNegZero := r.allNegZero && (q.mag == 0 && q.neg) }
    | _, _ => r

/-- The value S of one group of products, FP32, RNE, with its flags (R94, R95). -/
def groupValue (full : Bool) (ts : List GroupTerm) : Rounded :=
  let fl := groupFlags ts
  match groupNan ts with
  | some n => { bits := n, flags := fl }
  | none =>
    let g := groupSum ts
    if g.invalid then let r := genNan .fp32 4; { r with flags := r.flags ||| fl }
    else if g.posInf && g.negInf then let r := genNan .fp32 3; { r with flags := r.flags ||| fl }
    else if g.posInf then { bits := 0x7F800000, flags := fl }
    else if g.negInf then { bits := 0xFF800000, flags := fl }
    else if g.sum.mag = 0 then { bits := if full && g.allNegZero then 0x80000000 else 0, flags := fl }
    else let r := roundFloat .fp32 .rne false 0 g.sum; { r with flags := r.flags ||| fl }

/-- One group added to an output element: C := round(C + S, FP32, RNE), C the first operand (R94). -/
def groupStep (full : Bool) (c : Nat) (ts : List GroupTerm) : Rounded :=
  let s := groupValue full ts
  let r := addFloat .fp32 .rne false 0 c s.bits
  { r with flags := r.flags ||| s.flags }

/-- The integer square root by bits, from bit i downwards: the greatest r with r^2 at most n. -/
def sqrtBits (n : Nat) : Nat → Nat → Nat
  | 0, r => if (r + 1) * (r + 1) ≤ n then r + 1 else r
  | i + 1, r =>
    let c := r + 2 ^ (i + 1)
    sqrtBits n i (if c * c ≤ n then c else r)

/-- The integer square root of a number. -/
def natSqrt (n : Nat) : Nat := sqrtBits n (bitLen n / 2 + 1) 0

/-- The square root of a finite value that is not negative, with at least p significant bits (R222). -/
def sqrtExact (p : Nat) (x : Exact) : Exact :=
  let k := 2 * p + (if (x.exp - 2 * (p : Int)) % 2 = 0 then 0 else 1)
  let n := x.mag * 2 ^ k
  let r := natSqrt n
  { neg := false, mag := r, exp := (x.exp - (k : Int)) / 2, sticky := r * r != n }

/-- The quotient of two finite values, y not 0, with at least p significant bits. -/
def divExact (p : Nat) (x y : Exact) : Exact :=
  let k := p + bitLen y.mag
  let n := x.mag * 2 ^ k
  { neg := x.neg != y.neg, mag := n / y.mag, exp := x.exp - (k : Int) - y.exp, sticky := n % y.mag != 0 }

/-- a / b in a floating type (R79, R83 causes 6 and 7, R85). -/
def divFloat (t : ElemType) (mode : Rnd) (sat : Bool) (rsd a b : Nat) : Rounded :=
  match firstNan t [(t, a), (t, b)] with
  | some r => r
  | none =>
    let s := t.signOf a != t.signOf b
    match decodeFloat t a, decodeFloat t b with
    | .inf _, .inf _ => genNan t 7
    | .inf _, _ => infResult t sat s 0
    | .fin _, .inf _ => { bits := t.withSign s 0, flags := 0 }
    | .fin x, .fin y =>
      if y.mag = 0 then
        (if x.mag = 0 then genNan t 6 else infResult t sat s flagDZ)
      else if x.mag = 0 then { bits := t.withSign s 0, flags := 0 }
      else roundFloat t mode sat rsd (divExact 80 x y)
    | _, _ => genNan t 6

/-- The square root in a floating type: NaN cause 5 below -0, and -0 for -0 (R83, R222). -/
def sqrtFloat (t : ElemType) (mode : Rnd) (sat : Bool) (rsd a : Nat) : Rounded :=
  match firstNan t [(t, a)] with
  | some r => r
  | none =>
    match decodeFloat t a with
    | .inf s => if s then genNan t 5 else infResult t sat false 0
    | .fin x =>
      if x.mag = 0 then { bits := a, flags := 0 }
      else if x.neg then genNan t 5
      else roundFloat t mode sat rsd (sqrtExact 80 x)
    | .nan _ => genNan t 5

/-- One MX interior partial: the integers of a block and the exponent byte (R99). -/
structure MxPartial where
  ws : List Int
  e : Nat
deriving DecidableEq, Repr

/-- round(i / 2^d, I, RNE), 0 when d exceeds 31 (R99). -/
def shiftRne (i : Int) (d : Nat) : Int :=
  if d > 31 then 0
  else (roundInt .rne 0 { neg := i < 0, mag := i.natAbs, exp := -(d : Int) }).1

/-- Two lists of integers added element by element. -/
def addInts : List Int → List Int → List Int
  | x :: xs, y :: ys => (x + y) :: addInts xs ys
  | xs, [] => xs
  | [], ys => ys

/-- Two MX interior partials combined (R99). -/
def mxCombine (a b : MxPartial) : MxPartial :=
  if a.e = 255 ∨ b.e = 255 then { a with e := 255 }
  else if b.e ≤ a.e then { ws := addInts a.ws (b.ws.map (fun w => shiftRne w (a.e - b.e))), e := a.e }
  else { ws := addInts b.ws (a.ws.map (fun w => shiftRne w (b.e - a.e))), e := b.e }

end Sys2Proof
end

