-- ==== Sys2Proof/Syntax.lean ====
section
/-! DEFINITION. The steps of the Jorlia J8: one constructor of `Instr` for each row of spec/opcode_table.json.
First stand the instructions of the C, S, V, X, M and D slots (05, 07, 09, 11, 15, 17, 19, 21) and of the agent cores (23),
then the events of the device and of the outside world. Fields are named as the table and the layouts of the spec name
them and hold the field's bits as a number; `WellFormed` says which values the encoding admits. -/
namespace Sys2Proof

/-- A vector operand descriptor (R124). -/
structure Opd where
  kind : Nat
  reg : Nat
  off : Nat
  step : Nat
  fill : Nat
deriving DecidableEq, Repr

/-- A vector operation: the fields of its control word but the opcode (R123), and the BIAS of its syllable (R120). -/
structure VOp where
  td : Nat
  ta : Nat
  tb : Nat
  wid : Nat
  lgb : Nat
  rm : Nat
  sat : Nat
  zm : Nat
  pg : Nat
  pn : Nat
  msk : Nat
  sf : Nat
  od : Opd
  oa : Opd
  ob : Opd
  oc : Opd
  aux : Nat
  bias : Nat
deriving DecidableEq, Repr

/-- The steps of the part, one constructor for each row of the table. An event takes no operands: what it happens to (a
tile of a task, a package, a core, the parameters that the outside world gives) stands in the state when it happens
(`State.cur`), in the order that its docstring names. -/
inductive Instr where
  | nop
  | sync
  | loop (count endw lb : Nat)
  | loops (a endw lb : Nat)
  | br (g n d : Nat)
  | join (x : Nat)
  | call (r d : Nat)
  | ret (a : Nat)
  | halt
  | trapInstr (code : Nat)
  | fmt (v : Nat)
  | segchk (seg : Nat)
  | crgnOpen (d : Nat)
  | crgnClose
  | resync (a : Nat)
  | phase (bank : Nat)
  | tlaunch (a : Nat)
  | dbgb (tag : Nat)
  | sysrd (d sreg : Nat)
  | syswr (a sreg : Nat)
  | ringc (h base ls clr : Nat)
  | add (d a b g n : Nat)
  | sub (d a b g n : Nat)
  | mul (d a b g n : Nat)
  | mulh (d a b g n : Nat)
  | mulhn (d a b g n : Nat)
  | div (d a b g n : Nat)
  | divn (d a b g n : Nat)
  | rem (d a b g n : Nat)
  | remn (d a b g n : Nat)
  | and (d a b g n : Nat)
  | or (d a b g n : Nat)
  | xor (d a b g n : Nat)
  | andn (d a b g n : Nat)
  | orn (d a b g n : Nat)
  | shl (d a b g n : Nat)
  | shr (d a b g n : Nat)
  | sha (d a b g n : Nat)
  | rotr (d a b g n : Nat)
  | clz (d a g n : Nat)
  | ctz (d a g n : Nat)
  | popc (d a g n : Nat)
  | min (d a b g n : Nat)
  | max (d a b g n : Nat)
  | minn (d a b g n : Nat)
  | maxn (d a b g n : Nat)
  | slt (d a b g n : Nat)
  | sltn (d a b g n : Nat)
  | sel (d a b p n : Nat)
  | pcmp (d a b g n f : Nat)
  | plog (d f a b g n : Nat)
  | addi (d a i : Nat)
  | andi (d a i : Nat)
  | ori (d a i : Nat)
  | xori (d a i : Nat)
  | shli (d a i : Nat)
  | shri (d a i : Nat)
  | shai (d a i : Nat)
  | limm (d i : Nat)
  | limmh (d i : Nat)
  | lds (d a z o : Nat)
  | sts (d a z o : Nat)
  | ldsAgent (d a z c o : Nat)
  | stsAgent (d a z c o : Nat)
  | fadd (d a b g n f : Nat)
  | fsub (d a b g n f : Nat)
  | fmul (d a b g n f : Nat)
  | ffma (d a b g n f : Nat)
  | fmin (d a b g n : Nat)
  | fmax (d a b g n : Nat)
  | fcmp (d a b g n f : Nat)
  | fcvt (d a g n f : Nat)
  | vadd (v : VOp)
  | vsub (v : VOp)
  | vmul (v : VOp)
  | vfma (v : VOp)
  | vfms (v : VOp)
  | vfnma (v : VOp)
  | vmin (v : VOp)
  | vmax (v : VOp)
  | vabs (v : VOp)
  | vneg (v : VOp)
  | vmulh (v : VOp)
  | vand (v : VOp)
  | vor (v : VOp)
  | vxor (v : VOp)
  | vandn (v : VOp)
  | vnot (v : VOp)
  | vshl (v : VOp)
  | vshr (v : VOp)
  | vsha (v : VOp)
  | vclz (v : VOp)
  | vpopc (v : VOp)
  | vcmp (v : VOp)
  | vsel (v : VOp)
  | vcvt (v : VOp)
  | vqmx (v : VOp)
  | vdqmx (v : VOp)
  | vscl (v : VOp)
  | vrsum (v : VOp)
  | vrmax (v : VOp)
  | vrmin (v : VOp)
  | vrarg (v : VOp)
  | vscan (v : VOp)
  | vtopk (v : VOp)
  | vxpnd (v : VOp)
  | vcount (v : VOp)
  | viota (v : VOp)
  | vbrd (v : VOp)
  | vextr (v : VOp)
  | vexp2 (v : VOp)
  | vlog2 (v : VOp)
  | vrcp (v : VOp)
  | vrsq (v : VOp)
  | vsqrt (v : VOp)
  | vtanh (v : VOp)
  | vsig (v : VOp)
  | vsin (v : VOp)
  | vcos (v : VOp)
  | vld (v : VOp)
  | vst (v : VOp)
  | vlds (v : VOp)
  | vsts (v : VOp)
  | vgath (v : VOp)
  | vscat (v : VOp)
  | vldb (v : VOp)
  | advr (v : VOp)
  | vNop
  | xNop
  | xperm (hd hs n : Nat)
  | xrot (hd hs n : Nat)
  | xshuf (hd hs mode g : Nat)
  | xtrn (hd hs p : Nat)
  | xbrd (hd hs j : Nat)
  | xpat (hs n : Nat)
  | mNop
  | mnest (lv c s : Nat)
  | mnestClr
  | mgo
  | mcfg (n a : Nat)
  | mzero (ag bank nb : Nat)
  | mmul (a b c ag : Nat)
  | mmulg (a b c ag h : Nat)
  | mchk (a c ag : Nat)
  | mldacc (a l ag bank : Nat)
  | mstacc (a l ag bank : Nat)
  | mpermAcc (ag x inv w : Nat)
  | mpermScratch (x inv w : Nat)
  | aballoc (ag count : Nat)
  | abfree (ag : Nat)
  | mflu (ag t : Nat)
  | mfch (ag t : Nat)
  | mfqr (ag t : Nat)
  | mtrs (ag t x up tr u : Nat)
  | dNop
  | xfer (buf d s dsp ssp nb : Nat)
  | xferr (buf d s dsp ssp nb b arv : Nat)
  | rld (buf d a sp z o : Nat)
  | rst (buf d a sp z o : Nat)
  | chsend (buf a ch astep : Nat)
  | chrecv (buf a ch astep : Nat)
  | chbind (buf n chs chr : Nat)
  | sacc (buf a hi hv it ioff voff istep vstep : Nat)
  | shist (buf a hi it ioff istep : Nat)
  | ctrsnap (buf a : Nat)
  | atomAdd (buf d a b w : Nat)
  | atomAnd (buf d a b w : Nat)
  | atomOr (buf d a b w : Nat)
  | atomXor (buf d a b w : Nat)
  | atomMin (buf d a b w : Nat)
  | atomMax (buf d a b w : Nat)
  | atomMinn (buf d a b w : Nat)
  | atomMaxn (buf d a b w : Nat)
  | atomSwap (buf d a b w : Nat)
  | atomCas (buf d a b c w : Nat)
  | atomFadd (buf d a b : Nat)
  | atomArv (buf d a b : Nat)
  | atomBreg (buf d a b : Nat)
  | atomBcpl (buf d a b : Nat)
  | snap (buf d dom : Nat)
  | genq (buf d dom : Nat)
  | tarm (buf handle s aix : Nat)
  | tpost (buf handle s a step : Nat)
  | trecv (buf handle s a step : Nat)
  | tstat (buf handle d clr : Nat)
  | waita (d a b g n : Nat)
  | waitt (d a b g n : Nat)
  | batchClose (d a g n : Nat)
  | waitb (d a b g n : Nat)
  | lda (d a c s w : Nat)
  | stl (a b c s w : Nat)
  | fence (m s : Nat)
  | amoAdd (d a b c : Nat)
  | amoOr (d a b c : Nat)
  | amoAnd (d a b c : Nat)
  | amoSwap (d a b c : Nat)
  | amoMaxn (d a b c : Nat)
  | amoCas (d a b c : Nat)
  | amoArv (d a b c : Nat)
  | amoBreg (d a b c : Nat)
  | copy (d a b g n : Nat)
  | taskq (d a g n : Nat)
  | tkill (d a g n : Nat)
  | tpreDrain (d a b g n : Nat)
  | tpreCheckpoint (d a b g n : Nat)
  | tpreRequeue (d a b g n : Nat)
  | tstatus (d a g n : Nat)
  | cplpost (d a g n : Nat)
  | intr (a g n : Nat)
  | scall (c : Nat)
  | eret
  | csrr (d c : Nat)
  | csrw (a c : Nat)
  | scrub (d a g n : Nat)
  | keyz (d a g n : Nat)
  | keyld (d a b g n : Nat)
  | migr (d a g n : Nat)
  | imgchk (d a b g n : Nat)
  | treeCreate (d a : Nat)
  | treeEdit (d a : Nat)
  | treeAlt (d a b : Nat)
  | treeFreeze (d a : Nat)
  | treeThaw (d a : Nat)
  | treeDestroy (d a : Nat)
  /-- BUNDLE_ISSUE, an event (R24); of task, gid. -/
  | bundleIssue
  /-- STICKY_REISSUE, an event (R27); of task, gid. -/
  | stickyReissue
  /-- TRAP, an event (R40); of task, gid. -/
  | trap
  /-- QUIESCENCE_OVERDUE, an event (R42); of task, gid. -/
  | quiescenceOverdue
  /-- SYNC_RESOLVE, an event (R34); of task. -/
  | syncResolve
  /-- PHASE_SWITCH, an event (R36); of task. -/
  | phaseSwitch
  /-- HOLD_FREEZE, an event (R43); of task. -/
  | holdFreeze
  /-- HOLD_RESUME, an event (R45); of task. -/
  | holdResume
  /-- DRAIN_STOP, an event (R48); of task. -/
  | drainStop
  /-- DRAIN_LIMIT_EXPIRY, an event (R48); of task. -/
  | drainLimitExpiry
  /-- IMAGE_SAVE_COMPLETE, an event (R405); of task. -/
  | imageSaveComplete
  /-- DRAIN_RESTORE, an event (R49); of task. -/
  | drainRestore
  /-- FREEZE_RESTORE, an event (R52); of task. -/
  | freezeRestore
  /-- TASK_LAUNCH, an event (R257); of task. -/
  | taskLaunch
  /-- TASK_RETIRE, an event (R54); of task. -/
  | taskRetire
  /-- COMPLETION_RECORD_WRITE, an event (R399); of fn. -/
  | completionRecordWrite
  /-- SLICE_BOUNDARY, an event (R404); of part. -/
  | sliceBoundary
  /-- SCHEDULER_DECISION, an event (R405); of part. -/
  | schedulerDecision
  /-- EXTENSION_REDECIDE, an event (R405); of task. -/
  | extensionRedecide
  /-- SCALAR_RESULT_WRITE, an event (R144); of task, gid. -/
  | scalarResultWrite
  /-- VECTOR_RESULT_WRITE, an event (R191); of task, gid. -/
  | vectorResultWrite
  /-- FMT_APPLY, an event (R162); of task, gid. -/
  | fmtApply
  /-- SYSTEM_REGISTER_WRITE, an event (R167); of task, gid. -/
  | systemRegisterWrite
  /-- XPAT_WRITE, an event (R229); of task, gid. -/
  | xpatWrite
  /-- D_ACCESS_PERFORM, an event (R270); of task, gid. -/
  | dAccessPerform
  /-- BEAT_READ, an event (R271); of task, gid. -/
  | beatRead
  /-- BEAT_WRITE, an event (R271); of task, gid. -/
  | beatWrite
  /-- BARRIER_REGISTER, an event (R263); of task, gid. -/
  | barrierRegister
  /-- BARRIER_COMPLETE_BEATS, an event (R263); of task, gid. -/
  | barrierCompleteBeats
  /-- BARRIER_ARRIVAL, an event (R263); of task, gid. -/
  | barrierArrival
  /-- CHSEND_PUSH, an event (R283); of task, gid. -/
  | chsendPush
  /-- CHANNEL_DEPART, an event (R281); of task, gid. -/
  | channelDepart
  /-- CHANNEL_ARRIVE, an event (R281); of task, gid. -/
  | channelArrive
  /-- SACC_UPDATE, an event (R284); of task, gid. -/
  | saccUpdate
  /-- SHIST_INCREMENT, an event (R286); of task, gid. -/
  | shistIncrement
  /-- CTRSNAP_WRITE, an event (R287); of task, gid. -/
  | ctrsnapWrite
  /-- NEST_START, an event (R309); of task, gid. -/
  | nestStart
  /-- NEST_STEP, an event (R310); of task, gid. -/
  | nestStep
  /-- NEST_C_WRITE, an event (R310); of task, gid. -/
  | nestCWrite
  /-- ACC_LINE_MOVE, an event (R315); of task, gid. -/
  | accLineMove
  /-- MCHK_WRITE, an event (R316); of task, gid. -/
  | mchkWrite
  /-- FACTORISATION_STEP, an event (R331); of task, gid. -/
  | factorisationStep
  /-- FACTORISATION_END, an event (R323); of task, gid. -/
  | factorisationEnd
  /-- MPERM_ROW_WRITE, an event (R337); of task, gid. -/
  | mpermRowWrite
  /-- SNAP_CYCLE, an event (R292); of task. -/
  | snapCycle
  /-- SNAP_RESULT, an event (R292); of task. -/
  | snapResult
  /-- GENQ_SAMPLE, an event (R294); of task. -/
  | genqSample
  /-- GENQ_RESULT, an event (R294); of task. -/
  | genqResult
  /-- GENERATION_DRAIN_COMPLETE, an event (R293); of task, dom, stk. -/
  | generationDrainComplete
  /-- TREE_FOLD, an event (R347); of task. -/
  | treeFold
  /-- TREE_DELIVERY, an event (R347); of task, gid. -/
  | treeDelivery
  /-- HANDLER_ENTRY, an event (R428); of task, gid. -/
  | handlerEntry
  /-- DEBUG_STEP, an event (R61); of task. -/
  | debugStep
  /-- DCTL_WRITE, an event (R435); of task, value. -/
  | dctlWrite
  /-- DEBUG_REGISTER_WRITE, an event (R432); of pkg, tile, reg, value. -/
  | debugRegisterWrite
  /-- DEBUG_RELEASE, an event (R418); of task. -/
  | debugRelease
  /-- FREEZE_IMAGE_EDIT, an event (R436); of task, kind, place, number, value, mark. -/
  | freezeImageEdit
  /-- WAITA_RETURN, an event (R393); of core. -/
  | waitaReturn
  /-- WAITA_TIMEOUT, an event (R393); of core. -/
  | waitaTimeout
  /-- WAITT_RETURN, an event (R254); of core. -/
  | waittReturn
  /-- WAITB_RETURN, an event (R255); of core. -/
  | waitbReturn
  /-- COPY_COMPLETE, an event (R390); of core, ctx. -/
  | copyComplete
  /-- SCRUB_UNIT_DONE, an event (R409); of pkg. -/
  | scrubUnitDone
  /-- MIGRATION_COMPLETE, an event (R410); of index. -/
  | migrationComplete
  /-- PATROL_SCRUB, an event (R454); of pkg, stk. -/
  | patrolScrub
  /-- POWER_ON, an event (R461); of pkg. -/
  | powerOn
  /-- WARM_RESET, an event (R385); of pkg. -/
  | warmReset
  /-- FUNCTION_RESET, an event (R462); of fn. -/
  | functionReset
  /-- PARTITION_REQUEST, an event (R402); of kind, part, value, tiles. -/
  | partitionRequest
  /-- FRAME_GRANT, an event (R467); of fn, pkg, stk, first, count. -/
  | frameGrant
  /-- ERROR_INJECTION, an event (R437); of kind, and what the kind names. -/
  | errorInjection
  /-- LOG_READ, an event (R431); of pkg, index. -/
  | logRead
  /-- SENSOR_READ, an event (R456); of pkg, kind, index. -/
  | sensorRead
  /-- WARNING_TEMPERATURE, an event (R457); of pkg, on. -/
  | warningTemperature
  /-- CRITICAL_TEMPERATURE, an event (R457); of pkg. -/
  | criticalTemperature
  /-- FIRMWARE_UPDATE, an event (R458); of pkg, version, signature, length of Pewter's part, bytes. -/
  | firmwareUpdate
  /-- GET_VERSION, an event (R459); of pkg. -/
  | getVersion
  /-- GET_CAPABILITIES, an event (R459); of pkg. -/
  | getCapabilities
  /-- NEGOTIATE_ALGORITHMS, an event (R459); of pkg, asym, hash, aead. -/
  | negotiateAlgorithms
  /-- GET_DIGESTS, an event (R459); of pkg. -/
  | getDigests
  /-- GET_CERTIFICATE, an event (R459); of pkg, slot, offset, length. -/
  | getCertificate
  /-- CHALLENGE, an event (R459); of pkg, slot, nonce. -/
  | challenge
  /-- GET_MEASUREMENTS, an event (R459); of pkg, index, nonce. -/
  | getMeasurements
  /-- KEY_EXCHANGE, an event (R459); of pkg, slot, nonce. -/
  | keyExchange
  /-- FINISH, an event (R459); of pkg, mac, what the session brings, number, key. -/
  | finish
  /-- LINK_TRAINING, an event (R446); of pkg, link. -/
  | linkTraining
  /-- PTM_SYNC, an event (R465); of time. -/
  | ptmSync
  /-- FLIT_RECEIVE, an event (R445); of pkg, link, task, count, what the beats belong to, symbols. -/
  | flitReceive
  /-- LANE_RETIRE, an event (R449); of pkg, link, lane. -/
  | laneRetire
  /-- LMAP_WRITE, an event (R447); of pkg, link, value. -/
  | lmapWrite
  /-- LINK_WIDTH_CHANGE, an event (R449); of pkg, link. -/
  | linkWidthChange
  /-- HOST_PORT_TRAINING, an event (R440); of mode, width, rate, flit size, HDM decoders. -/
  | hostPortTraining
  /-- BAR2_ACCESS, an event (R441); of fn, write, offset, size, value, poison. -/
  | bar2Access
  /-- CXL_MEM_ACCESS, an event (R261); of write, addr, size, value, poison, cached. -/
  | cxlMemAccess
  /-- CQHEAD_WRITE, an event (R462); of fn, value. -/
  | cqheadWrite
  /-- CTXERR_WRITE, an event (R383); of core, ctx. -/
  | ctxerrWrite
  /-- REGISTER_WRITE, an event (R382); of core, csr, value. -/
  | registerWrite
  /-- DEBUG_HOLD_RELEASE, an event (R435); of task. -/
  | debugHoldRelease
deriving DecidableEq, Repr

end Sys2Proof
end

