-- ==== Sys2Proof/Machine/ControlWord.lean ====
section
/-! DEFINITION. Which vector control words are valid (R123 to R129 and the tables of 09 and 11). -/
namespace Sys2Proof

/-- An absent operand (R124). -/
def Opd.none : Opd := { kind := 0, reg := 0, off := 0, step := 0, fill := 0 }

/-- A descriptor without reserved values by R124 and R125; `dest` says that it is OD. -/
def Opd.ok (dest : Bool) (o : Opd) : Bool :=
  match o.kind with
  | 0 => o.reg == 0 && o.off == 0 && o.step == 0 && o.fill == 0
  | 1 => o.reg < 16 && o.off < 128 && o.step < 16 && o.fill ≤ 128 && (!dest || o.fill == 0)
  | 2 => o.reg < 8 && o.off == 0 && o.step == 0 && o.fill == 0
  | 3 => o.reg < 0x28 && o.off == 0 && o.step == 0 && o.fill == 0
  | _ => false

/-- The width in bits of an operation (R123). -/
def VOp.w (v : VOp) : Nat := 256 * 2 ^ v.wid

/-- The element types of the destination and of the sources, the rounding mode, saturation (R123). -/
def VOp.dt (v : VOp) : ElemType := ElemType.ofCode v.td
def VOp.at_ (v : VOp) : ElemType := ElemType.ofCode v.ta
def VOp.bt (v : VOp) : ElemType := ElemType.ofCode v.tb
def VOp.mode (v : VOp) : Rnd := Rnd.ofCode v.rm
def VOp.sats (v : VOp) : Bool := v.sat == 1

/-- The lane groups that an operation uses (R126). -/
def VOp.groups (v : VOp) : List Nat := upFrom v.lgb (2 ^ v.wid)

/-- No reserved value by R123 to R126. -/
def VOp.generalOk (v : VOp) : Bool :=
  v.td < 16 && v.ta < 16 && v.tb < 16 && v.wid < 3 && v.lgb < 4 && v.lgb % 2 ^ v.wid == 0
    && v.rm < 6 && v.sat < 2 && v.zm < 2 && v.pg < 8 && v.pn < 2 && !(v.pg == 0 && v.pn == 1)
    && v.msk < 8 && v.sf < 16 && v.aux < 2 ^ 64 && v.bias < 128
    && v.od.ok true && v.oa.ok false && v.ob.ok false && v.oc.ok false

/-- F of R193: FP32, FP16, BF16. -/
def isF (c : Nat) : Bool := c == 0 || c == 1 || c == 2

/-- Z of R193: I8 to I64 and N8 to N64. -/
def isZ (c : Nat) : Bool := 8 ≤ c

/-- Any type but MXINT8, MXINT6 and MXINT4. -/
def isNonMx (c : Nat) : Bool := !(c == 5 || c == 6 || c == 7)

/-- The element types of an MX operand: the MXINT types, E4M3 and E5M2 (R202, R219). -/
def isMxElem (c : Nat) : Bool := c == 3 || c == 4 || c == 5 || c == 6 || c == 7

/-- The width of the type of a code. -/
def codeWidth (c : Nat) : Nat := (ElemType.ofCode c).width

/-- The kinds of OD, OA, OB and OC are among those accepted. -/
def VOp.kinds (v : VOp) (d a b c : List Nat) : Bool :=
  d.contains v.od.kind && a.contains v.oa.kind && b.contains v.ob.kind && c.contains v.oc.kind

/-- RM and SAT are 0 where the form neither rounds nor saturates (R193, R196; DEDUCED, log 22). -/
def VOp.modes (v : VOp) (rounds sats : Bool) : Bool := (rounds || v.rm == 0) && (sats || v.sat == 0)

/-- Two-source elementwise forms (R194, R197). -/
def VOp.okTwo (v : VOp) (types : Nat → Bool) (rounds sats : Bool) : Bool :=
  v.kinds [1] [1, 3] [1, 3] [0] && v.td == v.ta && v.td == v.tb && types v.td && v.aux == 0
    && v.modes (rounds && isF v.td) sats

/-- One-source elementwise forms (R194, R197). -/
def VOp.okOne (v : VOp) (types : Nat → Bool) (rounds sats : Bool) : Bool :=
  v.kinds [1] [1, 3] [0] [0] && v.td == v.ta && v.tb == 0 && types v.td && v.aux == 0 && v.modes rounds sats

/-- The multiply-add family (R194). -/
def VOp.okFma (v : VOp) : Bool :=
  v.kinds [1] [1, 3] [1, 3] [1, 3] && v.ta == v.tb && v.aux == 0
    && ((v.td == v.ta && (isF v.td || isZ v.td)) || (v.td == 0 && (v.ta == 1 || v.ta == 2)))
    && v.modes (isF v.td) true

/-- Shifts: the count in OB, or in AUX[5:0] below the element size (R198; DEDUCED, log 22). -/
def VOp.okShift (v : VOp) : Bool :=
  v.kinds [1] [1, 3] [0, 1, 3] [0] && v.td == v.ta && v.td == v.tb && isZ v.td && v.modes false false
    && (if v.ob.kind == 0 then v.aux < codeWidth v.td else v.aux == 0)

/-- VCMP (R199). -/
def VOp.okCmp (v : VOp) : Bool :=
  v.kinds [2] [1, 3] [1, 3] [0] && v.td == v.ta && v.td == v.tb && (isF v.td || isZ v.td)
    && (v.aux < 6 || (v.aux == 6 && isF v.td)) && v.modes false false

/-- VSEL (R200). -/
def VOp.okSel (v : VOp) : Bool :=
  v.kinds [1] [1, 3] [1, 3] [2] && v.td == v.ta && v.td == v.tb && isNonMx v.td && v.aux == 0 && v.modes false false

/-- VCVT (R201): a conversion between integer types does not round. -/
def VOp.okCvt (v : VOp) : Bool :=
  v.kinds [1] [1, 3] [0] [0] && isNonMx v.td && isNonMx v.ta && v.tb == 0 && v.aux == 0
    && v.modes (!(isZ v.td && isZ v.ta)) true

/-- The blocks of an MX operand fit its width (R185). -/
def mxFits (w width blocks : Nat) : Bool := blocks ≤ 8 && 32 * width * blocks + 64 ≤ w

/-- VQMX (R202). -/
def VOp.okQmx (v : VOp) : Bool :=
  let n := v.w / codeWidth v.ta
  v.kinds [1] [1] [0] [0] && isF v.ta && isMxElem v.td && v.tb == 0 && v.aux == 0 && v.sat == 0
    && n % 32 == 0 && mxFits v.w (codeWidth v.td) (n / 32)

/-- VDQMX (R203). -/
def VOp.okDqmx (v : VOp) : Bool :=
  let n := v.w / codeWidth v.td
  v.kinds [1] [1] [0] [0] && isF v.td && isMxElem v.ta && v.tb == 0 && v.aux == 0 && v.sat == 0
    && n % 32 == 0 && mxFits v.w (codeWidth v.ta) (n / 32)

/-- VSCL (R204): d takes no element type, so TB is 0 (DEDUCED, log 22). -/
def VOp.okScl (v : VOp) : Bool :=
  v.kinds [1] [1] [0, 3] [0] && v.td == v.ta && v.tb == 0
    && (if isF v.td then
          v.aux % 256 == 0 && v.aux / 65536 == 0 && (v.ob.kind == 0 || v.aux == 0)
        else
          isMxElem v.td && 1 ≤ v.aux % 16 && v.aux % 16 ≤ 8 && bitsOf v.aux 7 4 == 0 && v.aux / 65536 == 0
            && mxFits v.w (codeWidth v.td) (v.aux % 16) && (v.ob.kind == 0 || v.aux < 16)
            && v.msk == 0 && v.zm == 0 && v.modes false false)

/-- VRSUM (R205). -/
def VOp.okRsum (v : VOp) : Bool :=
  v.kinds [1, 3] [1] [0] [0] && v.tb == 0 && v.aux == 0 && v.zm == 0 && v.modes (isF v.ta) true
    && ((isF v.ta && (v.td == v.ta || v.td == 0))
        || (isZ v.ta && isZ v.td && (ElemType.ofCode v.td).isSigned == (ElemType.ofCode v.ta).isSigned
            && codeWidth v.ta ≤ codeWidth v.td))

/-- VRMAX and VRMIN (R205). -/
def VOp.okRmm (v : VOp) : Bool :=
  v.kinds [1, 3] [1] [0] [0] && v.tb == 0 && v.aux == 0 && v.zm == 0 && v.modes false false
    && v.td == v.ta && (isF v.ta || isZ v.ta)

/-- VRARG (R206). -/
def VOp.okRarg (v : VOp) : Bool :=
  v.kinds [1, 3] [1] [0] [0] && v.tb == 0 && v.aux < 2 && v.zm == 0 && v.modes false false
    && (v.td == 14 || v.td == 15) && (isF v.ta || isZ v.ta)

/-- VSCAN (R207). -/
def VOp.okScan (v : VOp) : Bool :=
  v.kinds [1] [1] [0] [0] && v.tb == 0 && v.aux < 3 && v.td == v.ta && (isF v.ta || isZ v.ta)
    && v.modes (isF v.td && v.aux == 0) (v.aux == 0)

/-- VTOPK (R208). -/
def VOp.okTopk (v : VOp) : Bool :=
  v.kinds [1] [1] [0] [0] && v.tb == 0 && 1 ≤ v.aux && v.aux ≤ 16 && v.zm == 0 && v.modes false false
    && v.td == v.ta && (isF v.ta || isZ v.ta) && codeWidth v.ta ≤ 32 && (v.w / codeWidth v.ta) % 32 == 0

/-- VXPND (R209). -/
def VOp.okXpnd (v : VOp) : Bool :=
  v.kinds [1] [1] [0] [0] && v.tb == 0 && v.aux == 0 && v.td == v.ta && isNonMx v.td && v.modes false false

/-- VCOUNT (R209). -/
def VOp.okCount (v : VOp) : Bool :=
  v.kinds [1, 3] [1] [0] [0] && v.tb == 0 && v.aux == 0 && isNonMx v.ta && v.zm == 0
    && (v.td == 13 || v.td == 14 || v.td == 15) && v.modes false false

/-- VIOTA (R209). -/
def VOp.okIota (v : VOp) : Bool :=
  v.kinds [1] [0] [0] [0] && v.ta == 0 && v.tb == 0 && isZ v.td && v.aux < 2 ^ 32 && v.modes false false

/-- VBRD (R209): an index at or beyond n is reserved. -/
def VOp.okBrd (v : VOp) : Bool :=
  v.kinds [1] [1, 3] [0] [0] && v.tb == 0 && v.td == v.ta && isNonMx v.td && v.modes false false
    && (if v.oa.kind == 1 then v.aux < v.w / codeWidth v.td else v.aux == 0)

/-- VEXTR (R209). -/
def VOp.okExtr (v : VOp) : Bool :=
  v.kinds [3] [1] [0] [0] && v.tb == 0 && v.td == v.ta && isNonMx v.td && v.modes false false
    && v.msk == 0 && v.zm == 0 && v.aux < v.w / codeWidth v.td

/-- The special functions (R222). -/
def VOp.okSpecial (v : VOp) : Bool := v.okOne isF true true

/-- The fields of AUX of a vector memory instruction (R210). -/
def VOp.auxRa (v : VOp) : Nat := bitsOf v.aux 63 58
def VOp.auxAstep (v : VOp) : Nat := bitsOf v.aux 57 47
def VOp.auxSstep (v : VOp) : Nat := bitsOf v.aux 46 42
def VOp.auxSoff (v : VOp) : Nat := bitsOf v.aux 41 21
def VOp.auxOff (v : VOp) : Nat := bitsOf v.aux 20 0

/-- The blocks of an MX load or store (R219). -/
def mxBlocks (w width : Nat) : Nat := min 8 ((w - 64) / (32 * width))

/-- VLD and VST with their value type (R217, R219). -/
def VOp.okLdSt (v : VOp) (t : Nat) : Bool :=
  v.auxRa < 0x28 && v.modes false false
    && (if isMxElem t then 0 < mxBlocks v.w (codeWidth t) && v.msk == 0 && v.zm == 0
        else v.auxSoff == 0 && v.auxSstep == 0)

def VOp.okVld (v : VOp) : Bool := v.kinds [1] [0] [0] [0] && v.ta == 0 && v.tb == 0 && v.okLdSt v.td
/-- A store does not use ZM, which is reserved there (R108, R210). -/
def VOp.okVst (v : VOp) : Bool := v.kinds [0] [1] [0] [0] && v.td == 0 && v.tb == 0 && v.zm == 0 && v.okLdSt v.ta
def VOp.okVlds (v : VOp) : Bool :=
  v.kinds [1] [0] [0] [0] && v.ta == 0 && v.tb == 0 && isNonMx v.td && v.auxRa < 0x28 && v.auxSstep == 0
    && v.modes false false
def VOp.okVsts (v : VOp) : Bool :=
  v.kinds [0] [1] [0] [0] && v.td == 0 && v.tb == 0 && v.zm == 0 && isNonMx v.ta && v.auxRa < 0x28 && v.auxSstep == 0
    && v.modes false false

/-- The index types of VGATH and VSCAT (R217). -/
def isIndexType (c : Nat) : Bool := c == 9 || c == 10 || c == 13 || c == 14

def VOp.okVgath (v : VOp) : Bool :=
  v.kinds [1] [0] [1] [0] && v.ta == 0 && isNonMx v.td && isIndexType v.tb && v.auxRa < 0x28
    && v.auxSstep == 0 && v.auxSoff == 0 && v.modes false false
def VOp.okVscat (v : VOp) : Bool :=
  v.kinds [0] [1] [1] [0] && v.td == 0 && v.zm == 0 && isNonMx v.ta && isIndexType v.tb && v.auxRa < 0x28
    && v.auxSstep == 0 && v.auxSoff == 0 && v.modes false false
def VOp.okVldb (v : VOp) : Bool :=
  v.kinds [1] [0] [0] [0] && v.ta == 0 && v.tb == 0 && isNonMx v.td && v.auxRa < 0x28
    && v.auxSstep == 0 && v.auxSoff == 0 && v.modes false false

/-- ADVR (R221). -/
def VOp.okAdvr (v : VOp) : Bool :=
  v.kinds [1] [0] [0] [0] && v.od.off == 0 && v.od.step == 0 && v.aux < 65536 && v.td == 0 && v.ta == 0
    && v.tb == 0 && v.wid == 0 && v.lgb == 0 && v.rm == 0 && v.sat == 0 && v.zm == 0 && v.msk == 0

/-- The opcode, the special-function selector and the validity of a vector instruction; none for any other (R127 to R129). -/
def vectorRow (i : Instr) : Option (Nat × Nat × VOp × Bool) :=
  match i with
  | .vadd v => some (0x001, 0, v, v.okTwo (fun t => isF t || isZ t) true true)
  | .vsub v => some (0x002, 0, v, v.okTwo (fun t => isF t || isZ t) true true)
  | .vmul v => some (0x003, 0, v, v.okTwo (fun t => isF t || isZ t) true true)
  | .vfma v => some (0x004, 0, v, v.okFma)
  | .vfms v => some (0x005, 0, v, v.okFma)
  | .vfnma v => some (0x006, 0, v, v.okFma)
  | .vmin v => some (0x007, 0, v, v.okTwo (fun t => isF t || isZ t) false false)
  | .vmax v => some (0x008, 0, v, v.okTwo (fun t => isF t || isZ t) false false)
  | .vabs v => some (0x009, 0, v, v.okOne (fun t => isF t || isZ t) false true)
  | .vneg v => some (0x00A, 0, v, v.okOne (fun t => isF t || isZ t) false true)
  | .vmulh v => some (0x00B, 0, v, v.okTwo isZ false false)
  | .vand v => some (0x010, 0, v, v.okTwo isZ false false)
  | .vor v => some (0x011, 0, v, v.okTwo isZ false false)
  | .vxor v => some (0x012, 0, v, v.okTwo isZ false false)
  | .vandn v => some (0x013, 0, v, v.okTwo isZ false false)
  | .vnot v => some (0x014, 0, v, v.okOne isZ false false)
  | .vshl v => some (0x015, 0, v, v.okShift)
  | .vshr v => some (0x016, 0, v, v.okShift)
  | .vsha v => some (0x017, 0, v, v.okShift)
  | .vclz v => some (0x018, 0, v, v.okOne isZ false false)
  | .vpopc v => some (0x019, 0, v, v.okOne isZ false false)
  | .vcmp v => some (0x01A, 0, v, v.okCmp)
  | .vsel v => some (0x01B, 0, v, v.okSel)
  | .vcvt v => some (0x020, 0, v, v.okCvt)
  | .vqmx v => some (0x021, 0, v, v.okQmx)
  | .vdqmx v => some (0x022, 0, v, v.okDqmx)
  | .vscl v => some (0x023, 0, v, v.okScl)
  | .vrsum v => some (0x028, 0, v, v.okRsum)
  | .vrmax v => some (0x029, 0, v, v.okRmm)
  | .vrmin v => some (0x02A, 0, v, v.okRmm)
  | .vrarg v => some (0x02B, 0, v, v.okRarg)
  | .vscan v => some (0x02C, 0, v, v.okScan)
  | .vtopk v => some (0x02D, 0, v, v.okTopk)
  | .vxpnd v => some (0x030, 0, v, v.okXpnd)
  | .vcount v => some (0x031, 0, v, v.okCount)
  | .viota v => some (0x032, 0, v, v.okIota)
  | .vbrd v => some (0x033, 0, v, v.okBrd)
  | .vextr v => some (0x034, 0, v, v.okExtr)
  | .vexp2 v => some (0x040, 0, v, v.okSpecial)
  | .vlog2 v => some (0x040, 1, v, v.okSpecial)
  | .vrcp v => some (0x040, 2, v, v.okSpecial)
  | .vrsq v => some (0x040, 3, v, v.okSpecial)
  | .vsqrt v => some (0x040, 4, v, v.okSpecial)
  | .vtanh v => some (0x040, 5, v, v.okSpecial)
  | .vsig v => some (0x040, 6, v, v.okSpecial)
  | .vsin v => some (0x040, 7, v, v.okSpecial)
  | .vcos v => some (0x040, 8, v, v.okSpecial)
  | .vld v => some (0x050, 0, v, v.okVld)
  | .vst v => some (0x051, 0, v, v.okVst)
  | .vlds v => some (0x052, 0, v, v.okVlds)
  | .vsts v => some (0x053, 0, v, v.okVsts)
  | .vgath v => some (0x054, 0, v, v.okVgath)
  | .vscat v => some (0x055, 0, v, v.okVscat)
  | .vldb v => some (0x056, 0, v, v.okVldb)
  | .advr v => some (0x057, 0, v, v.okAdvr)
  | _ => none

/-- Whether a vector instruction carries a valid control word: no reserved value, its selector, its own table (R127). -/
def vectorOk (i : Instr) : Bool :=
  match vectorRow i with
  | none => false
  | some (_, sf, v, ok) => v.generalOk && v.sf == sf && ok

end Sys2Proof
end

