-- ==== Sys2Proof/Machine/Layout.lean ====
section
/-! DEFINITION. Where each field of an instruction stands in its word (05, 07 R148, 11 R226, 15, 17 R303, 19 R322, 21 R352,
23 R378) and which values a field admits (R107, R108). -/
namespace Sys2Proof

/-- The fields of an instruction's word: value, lowest bit, width; the opcode among them. Events of the device have no word. -/
def layoutOf (i : Instr) : List (Nat × Nat × Nat) :=
  match i with
  | .nop => [(0, 25, 7)]
  | .sync => [(1, 25, 7)]
  | .loop count endw lb => [(2, 25, 7), (count, 19, 6), (endw, 11, 8), (lb, 0, 11)]
  | .loops a endw lb => [(3, 25, 7), (a, 19, 6), (endw, 11, 8), (lb, 0, 11)]
  | .br g n d => [(4, 25, 7), (g, 22, 3), (n, 21, 1), (d, 0, 21)]
  | .join x => [(5, 25, 7), (x, 0, 20)]
  | .call r d => [(6, 25, 7), (r, 19, 6), (d, 0, 19)]
  | .ret a => [(7, 25, 7), (a, 19, 6)]
  | .halt => [(8, 25, 7)]
  | .trapInstr code => [(9, 25, 7), (code, 0, 16)]
  | .fmt v => [(0xa, 25, 7), (v, 0, 16)]
  | .segchk seg => [(0xb, 25, 7), (seg, 0, 16)]
  | .crgnOpen d => [(0xc, 25, 7), (d, 0, 21)]
  | .crgnClose => [(0xd, 25, 7)]
  | .resync a => [(0xe, 25, 7), (a, 19, 6)]
  | .phase bank => [(0xf, 25, 7), (bank, 0, 1)]
  | .tlaunch a => [(0x10, 25, 7), (a, 19, 6)]
  | .dbgb tag => [(0x11, 25, 7), (tag, 0, 8)]
  | .sysrd d sreg => [(0x12, 25, 7), (d, 19, 6), (sreg, 7, 12)]
  | .syswr a sreg => [(0x13, 25, 7), (a, 19, 6), (sreg, 7, 12)]
  | .ringc h base ls clr => [(0x14, 25, 7), (h, 21, 4), (base, 14, 7), (ls, 11, 3), (clr, 10, 1)]
  | .add d a b g n => [(0x20, 25, 7), (d, 19, 6), (a, 13, 6), (b, 7, 6), (g, 4, 3), (n, 3, 1)]
  | .sub d a b g n => [(0x21, 25, 7), (d, 19, 6), (a, 13, 6), (b, 7, 6), (g, 4, 3), (n, 3, 1)]
  | .mul d a b g n => [(0x22, 25, 7), (d, 19, 6), (a, 13, 6), (b, 7, 6), (g, 4, 3), (n, 3, 1)]
  | .mulh d a b g n => [(0x23, 25, 7), (d, 19, 6), (a, 13, 6), (b, 7, 6), (g, 4, 3), (n, 3, 1)]
  | .mulhn d a b g n => [(0x24, 25, 7), (d, 19, 6), (a, 13, 6), (b, 7, 6), (g, 4, 3), (n, 3, 1)]
  | .div d a b g n => [(0x25, 25, 7), (d, 19, 6), (a, 13, 6), (b, 7, 6), (g, 4, 3), (n, 3, 1)]
  | .divn d a b g n => [(0x26, 25, 7), (d, 19, 6), (a, 13, 6), (b, 7, 6), (g, 4, 3), (n, 3, 1)]
  | .rem d a b g n => [(0x27, 25, 7), (d, 19, 6), (a, 13, 6), (b, 7, 6), (g, 4, 3), (n, 3, 1)]
  | .remn d a b g n => [(0x28, 25, 7), (d, 19, 6), (a, 13, 6), (b, 7, 6), (g, 4, 3), (n, 3, 1)]
  | .and d a b g n => [(0x29, 25, 7), (d, 19, 6), (a, 13, 6), (b, 7, 6), (g, 4, 3), (n, 3, 1)]
  | .or d a b g n => [(0x2a, 25, 7), (d, 19, 6), (a, 13, 6), (b, 7, 6), (g, 4, 3), (n, 3, 1)]
  | .xor d a b g n => [(0x2b, 25, 7), (d, 19, 6), (a, 13, 6), (b, 7, 6), (g, 4, 3), (n, 3, 1)]
  | .andn d a b g n => [(0x2c, 25, 7), (d, 19, 6), (a, 13, 6), (b, 7, 6), (g, 4, 3), (n, 3, 1)]
  | .orn d a b g n => [(0x2d, 25, 7), (d, 19, 6), (a, 13, 6), (b, 7, 6), (g, 4, 3), (n, 3, 1)]
  | .shl d a b g n => [(0x2e, 25, 7), (d, 19, 6), (a, 13, 6), (b, 7, 6), (g, 4, 3), (n, 3, 1)]
  | .shr d a b g n => [(0x2f, 25, 7), (d, 19, 6), (a, 13, 6), (b, 7, 6), (g, 4, 3), (n, 3, 1)]
  | .sha d a b g n => [(0x30, 25, 7), (d, 19, 6), (a, 13, 6), (b, 7, 6), (g, 4, 3), (n, 3, 1)]
  | .rotr d a b g n => [(0x31, 25, 7), (d, 19, 6), (a, 13, 6), (b, 7, 6), (g, 4, 3), (n, 3, 1)]
  | .clz d a g n => [(0x32, 25, 7), (d, 19, 6), (a, 13, 6), (g, 4, 3), (n, 3, 1)]
  | .ctz d a g n => [(0x33, 25, 7), (d, 19, 6), (a, 13, 6), (g, 4, 3), (n, 3, 1)]
  | .popc d a g n => [(0x34, 25, 7), (d, 19, 6), (a, 13, 6), (g, 4, 3), (n, 3, 1)]
  | .min d a b g n => [(0x35, 25, 7), (d, 19, 6), (a, 13, 6), (b, 7, 6), (g, 4, 3), (n, 3, 1)]
  | .max d a b g n => [(0x36, 25, 7), (d, 19, 6), (a, 13, 6), (b, 7, 6), (g, 4, 3), (n, 3, 1)]
  | .minn d a b g n => [(0x37, 25, 7), (d, 19, 6), (a, 13, 6), (b, 7, 6), (g, 4, 3), (n, 3, 1)]
  | .maxn d a b g n => [(0x38, 25, 7), (d, 19, 6), (a, 13, 6), (b, 7, 6), (g, 4, 3), (n, 3, 1)]
  | .slt d a b g n => [(0x39, 25, 7), (d, 19, 6), (a, 13, 6), (b, 7, 6), (g, 4, 3), (n, 3, 1)]
  | .sltn d a b g n => [(0x3a, 25, 7), (d, 19, 6), (a, 13, 6), (b, 7, 6), (g, 4, 3), (n, 3, 1)]
  | .sel d a b p n => [(0x3b, 25, 7), (d, 19, 6), (a, 13, 6), (b, 7, 6), (p, 4, 3), (n, 3, 1)]
  | .pcmp d a b g n f => [(0x3c, 25, 7), (d, 19, 3), (a, 13, 6), (b, 7, 6), (g, 4, 3), (n, 3, 1), (f, 0, 3)]
  | .plog d f a b g n => [(0x3d, 25, 7), (d, 19, 3), (f, 16, 3), (a, 13, 3), (b, 7, 3), (g, 4, 3), (n, 3, 1)]
  | .addi d a i => [(0x40, 25, 7), (d, 19, 6), (a, 13, 6), (i, 0, 13)]
  | .andi d a i => [(0x41, 25, 7), (d, 19, 6), (a, 13, 6), (i, 0, 13)]
  | .ori d a i => [(0x42, 25, 7), (d, 19, 6), (a, 13, 6), (i, 0, 13)]
  | .xori d a i => [(0x43, 25, 7), (d, 19, 6), (a, 13, 6), (i, 0, 13)]
  | .shli d a i => [(0x44, 25, 7), (d, 19, 6), (a, 13, 6), (i, 0, 6)]
  | .shri d a i => [(0x45, 25, 7), (d, 19, 6), (a, 13, 6), (i, 0, 6)]
  | .shai d a i => [(0x46, 25, 7), (d, 19, 6), (a, 13, 6), (i, 0, 6)]
  | .limm d i => [(0x47, 25, 7), (d, 19, 6), (i, 0, 19)]
  | .limmh d i => [(0x48, 25, 7), (d, 19, 6), (i, 0, 19)]
  | .lds d a z o => [(0x49, 25, 7), (d, 19, 6), (a, 13, 6), (z, 10, 3), (o, 0, 10)]
  | .sts d a z o => [(0x4a, 25, 7), (d, 19, 6), (a, 13, 6), (z, 10, 3), (o, 0, 10)]
  | .ldsAgent d a z c o => [(0x49, 25, 7), (d, 19, 6), (a, 13, 6), (z, 10, 3), (c, 6, 4), (o, 0, 6)]
  | .stsAgent d a z c o => [(0x4a, 25, 7), (d, 19, 6), (a, 13, 6), (z, 10, 3), (c, 6, 4), (o, 0, 6)]
  | .fadd d a b g n f => [(0x50, 25, 7), (d, 19, 6), (a, 13, 6), (b, 7, 6), (g, 4, 3), (n, 3, 1), (f, 0, 3)]
  | .fsub d a b g n f => [(0x51, 25, 7), (d, 19, 6), (a, 13, 6), (b, 7, 6), (g, 4, 3), (n, 3, 1), (f, 0, 3)]
  | .fmul d a b g n f => [(0x52, 25, 7), (d, 19, 6), (a, 13, 6), (b, 7, 6), (g, 4, 3), (n, 3, 1), (f, 0, 3)]
  | .ffma d a b g n f => [(0x53, 25, 7), (d, 19, 6), (a, 13, 6), (b, 7, 6), (g, 4, 3), (n, 3, 1), (f, 0, 3)]
  | .fmin d a b g n => [(0x54, 25, 7), (d, 19, 6), (a, 13, 6), (b, 7, 6), (g, 4, 3), (n, 3, 1)]
  | .fmax d a b g n => [(0x55, 25, 7), (d, 19, 6), (a, 13, 6), (b, 7, 6), (g, 4, 3), (n, 3, 1)]
  | .fcmp d a b g n f => [(0x56, 25, 7), (d, 19, 3), (a, 13, 6), (b, 7, 6), (g, 4, 3), (n, 3, 1), (f, 0, 3)]
  | .fcvt d a g n f => [(0x57, 25, 7), (d, 19, 6), (a, 13, 6), (g, 4, 3), (n, 3, 1), (f, 0, 3)]
  | .vNop => [(0x1ff, 0, 9)]
  | .xNop => [(0, 13, 3)]
  | .xperm hd hs n => [(1, 13, 3), (hd, 9, 4), (hs, 5, 4), (n, 0, 3)]
  | .xrot hd hs n => [(2, 13, 3), (hd, 9, 4), (hs, 5, 4), (n, 0, 5)]
  | .xshuf hd hs mode g => [(3, 13, 3), (hd, 9, 4), (hs, 5, 4), (mode, 3, 2), (g, 0, 3)]
  | .xtrn hd hs p => [(4, 13, 3), (hd, 9, 4), (hs, 5, 4), (p, 0, 2)]
  | .xbrd hd hs j => [(5, 13, 3), (hd, 9, 4), (hs, 5, 4), (j, 0, 5)]
  | .xpat hs n => [(6, 13, 3), (hs, 5, 4), (n, 0, 3)]
  | .mNop => [(0, 26, 6)]
  | .mnest lv c s => [(1, 26, 6), (lv, 23, 3), (c, 17, 6), (s, 11, 6)]
  | .mnestClr => [(1, 26, 6), (1, 10, 1)]
  | .mgo => [(2, 26, 6)]
  | .mcfg n a => [(3, 26, 6), (n, 24, 2), (a, 18, 6)]
  | .mzero ag bank nb => [(4, 26, 6), (ag, 23, 3), (bank, 14, 9), (nb, 5, 9)]
  | .mmul a b c ag => [(5, 26, 6), (a, 20, 6), (b, 14, 6), (c, 8, 6), (ag, 5, 3)]
  | .mmulg a b c ag h => [(6, 26, 6), (a, 20, 6), (b, 14, 6), (c, 8, 6), (ag, 5, 3), (h, 1, 4)]
  | .mchk a c ag => [(7, 26, 6), (a, 20, 6), (c, 14, 6), (ag, 11, 3)]
  | .mldacc a l ag bank => [(8, 26, 6), (a, 20, 6), (l, 14, 6), (ag, 11, 3), (bank, 2, 9)]
  | .mstacc a l ag bank => [(9, 26, 6), (a, 20, 6), (l, 14, 6), (ag, 11, 3), (bank, 2, 9)]
  | .mpermAcc ag x inv w => [(0xa, 26, 6), (ag, 22, 3), (x, 16, 6), (inv, 15, 1), (w, 8, 7)]
  | .mpermScratch x inv w => [(0xa, 26, 6), (1, 25, 1), (x, 16, 6), (inv, 15, 1), (w, 8, 7)]
  | .aballoc ag count => [(0xb, 26, 6), (ag, 23, 3), (count, 13, 10)]
  | .abfree ag => [(0xc, 26, 6), (ag, 23, 3)]
  | .mflu ag t => [(0xd, 26, 6), (ag, 23, 3), (t, 17, 6)]
  | .mfch ag t => [(0xe, 26, 6), (ag, 23, 3), (t, 17, 6)]
  | .mfqr ag t => [(0xf, 26, 6), (ag, 23, 3), (t, 17, 6)]
  | .mtrs ag t x up tr u => [(0x10, 26, 6), (ag, 23, 3), (t, 17, 6), (x, 11, 6), (up, 10, 1), (tr, 9, 1), (u, 8, 1)]
  | .dNop => [(0, 56, 8)]
  | .xfer buf d s dsp ssp nb => [(1, 56, 8), (buf, 50, 6), (d, 44, 6), (s, 38, 6), (dsp, 36, 2), (ssp, 34, 2), (nb, 20, 14)]
  | .xferr buf d s dsp ssp nb b arv => [(2, 56, 8), (buf, 50, 6), (d, 44, 6), (s, 38, 6), (dsp, 36, 2), (ssp, 34, 2), (nb, 20, 14), (b, 14, 6), (arv, 13, 1)]
  | .rld buf d a sp z o => [(3, 56, 8), (buf, 50, 6), (d, 44, 6), (a, 38, 6), (sp, 36, 2), (z, 33, 3), (o, 13, 20)]
  | .rst buf d a sp z o => [(4, 56, 8), (buf, 50, 6), (d, 44, 6), (a, 38, 6), (sp, 36, 2), (z, 33, 3), (o, 13, 20)]
  | .chsend buf a ch astep => [(8, 56, 8), (buf, 50, 6), (a, 44, 6), (ch, 38, 6), (astep, 30, 8)]
  | .chrecv buf a ch astep => [(9, 56, 8), (buf, 50, 6), (a, 44, 6), (ch, 38, 6), (astep, 30, 8)]
  | .chbind buf n chs chr => [(0xa, 56, 8), (buf, 50, 6), (n, 47, 3), (chs, 40, 7), (chr, 33, 7)]
  | .sacc buf a hi hv it ioff voff istep vstep => [(0xc, 56, 8), (buf, 50, 6), (a, 44, 6), (hi, 40, 4), (hv, 36, 4), (it, 34, 2), (ioff, 27, 7), (voff, 20, 7), (istep, 16, 4), (vstep, 12, 4)]
  | .shist buf a hi it ioff istep => [(0xd, 56, 8), (buf, 50, 6), (a, 44, 6), (hi, 40, 4), (it, 34, 2), (ioff, 27, 7), (istep, 16, 4)]
  | .ctrsnap buf a => [(0xe, 56, 8), (buf, 50, 6), (a, 44, 6)]
  | .atomAdd buf d a b w => [(0x10, 56, 8), (buf, 50, 6), (d, 44, 6), (a, 38, 6), (b, 32, 6), (0, 22, 4), (w, 21, 1)]
  | .atomAnd buf d a b w => [(0x10, 56, 8), (buf, 50, 6), (d, 44, 6), (a, 38, 6), (b, 32, 6), (1, 22, 4), (w, 21, 1)]
  | .atomOr buf d a b w => [(0x10, 56, 8), (buf, 50, 6), (d, 44, 6), (a, 38, 6), (b, 32, 6), (2, 22, 4), (w, 21, 1)]
  | .atomXor buf d a b w => [(0x10, 56, 8), (buf, 50, 6), (d, 44, 6), (a, 38, 6), (b, 32, 6), (3, 22, 4), (w, 21, 1)]
  | .atomMin buf d a b w => [(0x10, 56, 8), (buf, 50, 6), (d, 44, 6), (a, 38, 6), (b, 32, 6), (4, 22, 4), (w, 21, 1)]
  | .atomMax buf d a b w => [(0x10, 56, 8), (buf, 50, 6), (d, 44, 6), (a, 38, 6), (b, 32, 6), (5, 22, 4), (w, 21, 1)]
  | .atomMinn buf d a b w => [(0x10, 56, 8), (buf, 50, 6), (d, 44, 6), (a, 38, 6), (b, 32, 6), (6, 22, 4), (w, 21, 1)]
  | .atomMaxn buf d a b w => [(0x10, 56, 8), (buf, 50, 6), (d, 44, 6), (a, 38, 6), (b, 32, 6), (7, 22, 4), (w, 21, 1)]
  | .atomSwap buf d a b w => [(0x10, 56, 8), (buf, 50, 6), (d, 44, 6), (a, 38, 6), (b, 32, 6), (8, 22, 4), (w, 21, 1)]
  | .atomCas buf d a b c w => [(0x10, 56, 8), (buf, 50, 6), (d, 44, 6), (a, 38, 6), (b, 32, 6), (c, 26, 6), (9, 22, 4), (w, 21, 1)]
  | .atomFadd buf d a b => [(0x10, 56, 8), (buf, 50, 6), (d, 44, 6), (a, 38, 6), (b, 32, 6), (0xa, 22, 4)]
  | .atomArv buf d a b => [(0x10, 56, 8), (buf, 50, 6), (d, 44, 6), (a, 38, 6), (b, 32, 6), (0xb, 22, 4)]
  | .atomBreg buf d a b => [(0x10, 56, 8), (buf, 50, 6), (d, 44, 6), (a, 38, 6), (b, 32, 6), (0xc, 22, 4)]
  | .atomBcpl buf d a b => [(0x10, 56, 8), (buf, 50, 6), (d, 44, 6), (a, 38, 6), (b, 32, 6), (0xd, 22, 4)]
  | .snap buf d dom => [(0x14, 56, 8), (buf, 50, 6), (d, 44, 6), (dom, 41, 3)]
  | .genq buf d dom => [(0x15, 56, 8), (buf, 50, 6), (d, 44, 6), (dom, 41, 3)]
  | .tarm buf handle s aix => [(0x18, 56, 8), (buf, 50, 6), (handle, 34, 16), (s, 28, 6), (aix, 16, 12)]
  | .tpost buf handle s a step => [(0x19, 56, 8), (buf, 50, 6), (handle, 34, 16), (s, 28, 6), (a, 22, 6), (step, 21, 1)]
  | .trecv buf handle s a step => [(0x1a, 56, 8), (buf, 50, 6), (handle, 34, 16), (s, 28, 6), (a, 22, 6), (step, 21, 1)]
  | .tstat buf handle d clr => [(0x1b, 56, 8), (buf, 50, 6), (handle, 34, 16), (d, 28, 6), (clr, 27, 1)]
  | .waita d a b g n => [(0x60, 25, 7), (d, 19, 6), (a, 13, 6), (b, 7, 6), (g, 4, 3), (n, 3, 1)]
  | .waitt d a b g n => [(0x61, 25, 7), (d, 19, 6), (a, 13, 6), (b, 7, 6), (g, 4, 3), (n, 3, 1)]
  | .batchClose d a g n => [(0x62, 25, 7), (d, 19, 6), (a, 13, 6), (g, 4, 3), (n, 3, 1)]
  | .waitb d a b g n => [(0x63, 25, 7), (d, 19, 6), (a, 13, 6), (b, 7, 6), (g, 4, 3), (n, 3, 1)]
  | .lda d a c s w => [(0x64, 25, 7), (d, 19, 6), (a, 13, 6), (c, 3, 4), (s, 1, 2), (w, 0, 1)]
  | .stl a b c s w => [(0x65, 25, 7), (a, 13, 6), (b, 7, 6), (c, 3, 4), (s, 1, 2), (w, 0, 1)]
  | .fence m s => [(0x66, 25, 7), (m, 7, 16), (s, 1, 2)]
  | .amoAdd d a b c => [(0x67, 25, 7), (d, 19, 6), (a, 13, 6), (b, 7, 6), (c, 3, 4), (0, 0, 3)]
  | .amoOr d a b c => [(0x67, 25, 7), (d, 19, 6), (a, 13, 6), (b, 7, 6), (c, 3, 4), (1, 0, 3)]
  | .amoAnd d a b c => [(0x67, 25, 7), (d, 19, 6), (a, 13, 6), (b, 7, 6), (c, 3, 4), (2, 0, 3)]
  | .amoSwap d a b c => [(0x67, 25, 7), (d, 19, 6), (a, 13, 6), (b, 7, 6), (c, 3, 4), (3, 0, 3)]
  | .amoMaxn d a b c => [(0x67, 25, 7), (d, 19, 6), (a, 13, 6), (b, 7, 6), (c, 3, 4), (4, 0, 3)]
  | .amoCas d a b c => [(0x67, 25, 7), (d, 19, 6), (a, 13, 6), (b, 7, 6), (c, 3, 4), (5, 0, 3)]
  | .amoArv d a b c => [(0x67, 25, 7), (d, 19, 6), (a, 13, 6), (b, 7, 6), (c, 3, 4), (6, 0, 3)]
  | .amoBreg d a b c => [(0x67, 25, 7), (d, 19, 6), (a, 13, 6), (b, 7, 6), (c, 3, 4), (7, 0, 3)]
  | .copy d a b g n => [(0x68, 25, 7), (d, 19, 6), (a, 13, 6), (b, 7, 6), (g, 4, 3), (n, 3, 1)]
  | .taskq d a g n => [(0x69, 25, 7), (d, 19, 6), (a, 13, 6), (g, 4, 3), (n, 3, 1)]
  | .tkill d a g n => [(0x6a, 25, 7), (d, 19, 6), (a, 13, 6), (g, 4, 3), (n, 3, 1)]
  | .tpreDrain d a b g n => [(0x6b, 25, 7), (d, 19, 6), (a, 13, 6), (b, 7, 6), (g, 4, 3), (n, 3, 1)]
  | .tpreCheckpoint d a b g n => [(0x6b, 25, 7), (d, 19, 6), (a, 13, 6), (b, 7, 6), (g, 4, 3), (n, 3, 1)]
  | .tpreRequeue d a b g n => [(0x6b, 25, 7), (d, 19, 6), (a, 13, 6), (b, 7, 6), (g, 4, 3), (n, 3, 1)]
  | .tstatus d a g n => [(0x6c, 25, 7), (d, 19, 6), (a, 13, 6), (g, 4, 3), (n, 3, 1)]
  | .cplpost d a g n => [(0x6d, 25, 7), (d, 19, 6), (a, 13, 6), (g, 4, 3), (n, 3, 1)]
  | .intr a g n => [(0x6e, 25, 7), (a, 13, 6), (g, 4, 3), (n, 3, 1)]
  | .scall c => [(0x6f, 25, 7), (c, 0, 16)]
  | .eret => [(0x70, 25, 7)]
  | .csrr d c => [(0x71, 25, 7), (d, 19, 6), (c, 7, 12)]
  | .csrw a c => [(0x72, 25, 7), (a, 19, 6), (c, 7, 12)]
  | .scrub d a g n => [(0x73, 25, 7), (d, 19, 6), (a, 13, 6), (g, 4, 3), (n, 3, 1)]
  | .keyz d a g n => [(0x74, 25, 7), (d, 19, 6), (a, 13, 6), (g, 4, 3), (n, 3, 1)]
  | .keyld d a b g n => [(0x75, 25, 7), (d, 19, 6), (a, 13, 6), (b, 7, 6), (g, 4, 3), (n, 3, 1)]
  | .migr d a g n => [(0x76, 25, 7), (d, 19, 6), (a, 13, 6), (g, 4, 3), (n, 3, 1)]
  | .imgchk d a b g n => [(0x77, 25, 7), (d, 19, 6), (a, 13, 6), (b, 7, 6), (g, 4, 3), (n, 3, 1)]
  | .treeCreate d a => [(0x78, 25, 7), (d, 19, 6), (a, 13, 6)]
  | .treeEdit d a => [(0x79, 25, 7), (d, 19, 6), (a, 13, 6)]
  | .treeAlt d a b => [(0x7a, 25, 7), (d, 19, 6), (a, 13, 6), (b, 7, 6)]
  | .treeFreeze d a => [(0x7b, 25, 7), (d, 19, 6), (a, 13, 6)]
  | .treeThaw d a => [(0x7c, 25, 7), (d, 19, 6), (a, 13, 6)]
  | .treeDestroy d a => [(0x7d, 25, 7), (d, 19, 6), (a, 13, 6)]
  | _ => []

/-- The scalar register codes that an instruction's word names (R109). -/
def codesOf (i : Instr) : List Nat :=
  match i with
  | .loops a _ _ => [a]
  | .resync a => [a]
  | .tlaunch a => [a]
  | .sysrd d _ => [d]
  | .syswr a _ => [a]
  | .add d a b _ _ => [d, a, b]
  | .sub d a b _ _ => [d, a, b]
  | .mul d a b _ _ => [d, a, b]
  | .mulh d a b _ _ => [d, a, b]
  | .mulhn d a b _ _ => [d, a, b]
  | .div d a b _ _ => [d, a, b]
  | .divn d a b _ _ => [d, a, b]
  | .rem d a b _ _ => [d, a, b]
  | .remn d a b _ _ => [d, a, b]
  | .and d a b _ _ => [d, a, b]
  | .or d a b _ _ => [d, a, b]
  | .xor d a b _ _ => [d, a, b]
  | .andn d a b _ _ => [d, a, b]
  | .orn d a b _ _ => [d, a, b]
  | .shl d a b _ _ => [d, a, b]
  | .shr d a b _ _ => [d, a, b]
  | .sha d a b _ _ => [d, a, b]
  | .rotr d a b _ _ => [d, a, b]
  | .clz d a _ _ => [d, a]
  | .ctz d a _ _ => [d, a]
  | .popc d a _ _ => [d, a]
  | .min d a b _ _ => [d, a, b]
  | .max d a b _ _ => [d, a, b]
  | .minn d a b _ _ => [d, a, b]
  | .maxn d a b _ _ => [d, a, b]
  | .slt d a b _ _ => [d, a, b]
  | .sltn d a b _ _ => [d, a, b]
  | .sel d a b _ _ => [d, a, b]
  | .pcmp _ a b _ _ _ => [a, b]
  | .addi d a _ => [d, a]
  | .andi d a _ => [d, a]
  | .ori d a _ => [d, a]
  | .xori d a _ => [d, a]
  | .shli d a _ => [d, a]
  | .shri d a _ => [d, a]
  | .shai d a _ => [d, a]
  | .limm d _ => [d]
  | .limmh d _ => [d]
  | .lds d a _ _ => [d, a]
  | .sts d a _ _ => [d, a]
  | .ldsAgent d a _ _ _ => [d, a]
  | .stsAgent d a _ _ _ => [d, a]
  | .fadd d a b _ _ _ => [d, a, b]
  | .fsub d a b _ _ _ => [d, a, b]
  | .fmul d a b _ _ _ => [d, a, b]
  | .ffma d a b _ _ _ => [d, a, b]
  | .fmin d a b _ _ => [d, a, b]
  | .fmax d a b _ _ => [d, a, b]
  | .fcmp _ a b _ _ _ => [a, b]
  | .fcvt d a _ _ _ => [d, a]
  | .mnest _ c s => [c, s]
  | .mcfg _ a => [a]
  | .mmul a b c _ => [a, b, c]
  | .mmulg a b c _ _ => [a, b, c]
  | .mchk a c _ => [a, c]
  | .mldacc a l _ _ => [a, l]
  | .mstacc a l _ _ => [a, l]
  | .mpermAcc _ x _ _ => [x]
  | .mpermScratch x _ _ => [x]
  | .mflu _ t => [t]
  | .mfch _ t => [t]
  | .mfqr _ t => [t]
  | .mtrs _ t x _ _ _ => [t, x]
  | .xfer _ d s _ _ _ => [d, s]
  | .xferr _ d s _ _ _ b _ => [d, s, b]
  | .rld _ d a _ _ _ => [d, a]
  | .rst _ d a _ _ _ => [d, a]
  | .chsend _ a _ _ => [a]
  | .chrecv _ a _ _ => [a]
  | .sacc _ a _ _ _ _ _ _ _ => [a]
  | .shist _ a _ _ _ _ => [a]
  | .ctrsnap _ a => [a]
  | .atomAdd _ d a b _ => [d, a, b]
  | .atomAnd _ d a b _ => [d, a, b]
  | .atomOr _ d a b _ => [d, a, b]
  | .atomXor _ d a b _ => [d, a, b]
  | .atomMin _ d a b _ => [d, a, b]
  | .atomMax _ d a b _ => [d, a, b]
  | .atomMinn _ d a b _ => [d, a, b]
  | .atomMaxn _ d a b _ => [d, a, b]
  | .atomSwap _ d a b _ => [d, a, b]
  | .atomCas _ d a b c _ => [d, a, b, c]
  | .atomFadd _ d a b => [d, a, b]
  | .atomArv _ d a b => [d, a, b]
  | .atomBreg _ d a b => [d, a, b]
  | .atomBcpl _ d a b => [d, a, b]
  | .snap _ d _ => [d]
  | .genq _ d _ => [d]
  | .tarm _ _ s _ => [s]
  | .tpost _ _ s a _ => [s, a]
  | .trecv _ _ s a _ => [s, a]
  | .tstat _ _ d _ => [d]
  | .waita d a b _ _ => [d, a, b]
  | .waitt d a b _ _ => [d, a, b]
  | .batchClose d a _ _ => [d, a]
  | .waitb d a b _ _ => [d, a, b]
  | .lda d a _ _ _ => [d, a]
  | .stl a b _ _ _ => [a, b]
  | .amoAdd d a b _ => [d, a, b]
  | .amoOr d a b _ => [d, a, b]
  | .amoAnd d a b _ => [d, a, b]
  | .amoSwap d a b _ => [d, a, b]
  | .amoMaxn d a b _ => [d, a, b]
  | .amoCas d a b _ => [d, a, b]
  | .amoArv d a b _ => [d, a, b]
  | .amoBreg d a b _ => [d, a, b]
  | .copy d a b _ _ => [d, a, b]
  | .taskq d a _ _ => [d, a]
  | .tkill d a _ _ => [d, a]
  | .tpreDrain d a b _ _ => [d, a, b]
  | .tpreCheckpoint d a b _ _ => [d, a, b]
  | .tpreRequeue d a b _ _ => [d, a, b]
  | .tstatus d a _ _ => [d, a]
  | .cplpost d a _ _ => [d, a]
  | .intr a _ _ => [a]
  | .csrr d _ => [d]
  | .csrw a _ => [a]
  | .scrub d a _ _ => [d, a]
  | .keyz d a _ _ => [d, a]
  | .keyld d a b _ _ => [d, a, b]
  | .migr d a _ _ => [d, a]
  | .imgchk d a b _ _ => [d, a, b]
  | .treeCreate d a => [d, a]
  | .treeEdit d a => [d, a]
  | .treeAlt d a b => [d, a, b]
  | .treeFreeze d a => [d, a]
  | .treeThaw d a => [d, a]
  | .treeDestroy d a => [d, a]
  | _ => []

/-- A guard is no reserved value: PG = 0 with PN = 1 is (R113). -/
def guardOk (g n : Nat) : Bool := !(g == 0 && n == 1)

/-- The value of an FMT names plain conversion types and a rounding mode (R162). -/
def fmtOk (v : Nat) : Bool :=
  isNonMx (bitsOf v 15 12) && isNonMx (bitsOf v 11 8) && bitsOf v 2 0 < 6

/-- A system register number that is not reserved (R168). -/
def sregDefined (r : Nat) : Bool :=
  r ≤ 0x011 || (0x018 ≤ r && r ≤ 0x01B) || r == 0x020 || r == 0x021 || (0x028 ≤ r && r ≤ 0x02F)
    || (0x030 ≤ r && r ≤ 0x033) || (0x040 ≤ r && r ≤ 0x05F) || (0x070 ≤ r && r ≤ 0x07F)
    || (0x100 ≤ r && r ≤ 0x1BF) || (0x200 ≤ r && r ≤ 0x23F)

/-- A system register number whose register is RW (R168). -/
def sregWritable (r : Nat) : Bool :=
  (0x002 ≤ r && r ≤ 0x005) || r == 0x010 || r == 0x011 || (0x028 ≤ r && r ≤ 0x02F)
    || (0x040 ≤ r && r ≤ 0x05F) || (0x100 ≤ r && r ≤ 0x1BF)

/-- The limits of single fields beyond their widths (R107, R113, R114, R148, R162, R167, R226, R303, R276 to R291). -/
def extraOk (i : Instr) : Bool :=
  match i with
  | .loop _ endw lb => 1 ≤ endw && 1 ≤ lb
  | .loops _ endw lb => 1 ≤ endw && 1 ≤ lb
  | .br g n _ => guardOk g n
  | .call r _ => r < 32
  | .ret a => a < 32
  | .fmt v => fmtOk v
  | .sysrd _ sreg => sregDefined sreg
  | .syswr _ sreg => sregWritable sreg
  | .ringc _ base ls _ => base + 2 ^ ls ≤ 128
  | .add _ _ _ g n => guardOk g n
  | .sub _ _ _ g n => guardOk g n
  | .mul _ _ _ g n => guardOk g n
  | .mulh _ _ _ g n => guardOk g n
  | .mulhn _ _ _ g n => guardOk g n
  | .div _ _ _ g n => guardOk g n
  | .divn _ _ _ g n => guardOk g n
  | .rem _ _ _ g n => guardOk g n
  | .remn _ _ _ g n => guardOk g n
  | .and _ _ _ g n => guardOk g n
  | .or _ _ _ g n => guardOk g n
  | .xor _ _ _ g n => guardOk g n
  | .andn _ _ _ g n => guardOk g n
  | .orn _ _ _ g n => guardOk g n
  | .shl _ _ _ g n => guardOk g n
  | .shr _ _ _ g n => guardOk g n
  | .sha _ _ _ g n => guardOk g n
  | .rotr _ _ _ g n => guardOk g n
  | .clz _ _ g n => guardOk g n
  | .ctz _ _ g n => guardOk g n
  | .popc _ _ g n => guardOk g n
  | .min _ _ _ g n => guardOk g n
  | .max _ _ _ g n => guardOk g n
  | .minn _ _ _ g n => guardOk g n
  | .maxn _ _ _ g n => guardOk g n
  | .slt _ _ _ g n => guardOk g n
  | .sltn _ _ _ g n => guardOk g n
  | .pcmp _ _ _ g n f => guardOk g n && f < 6
  | .plog _ _ _ _ g n => guardOk g n
  | .lds _ _ z _ => z < 7
  | .sts _ _ z _ => z < 4
  | .ldsAgent _ _ z _ _ => z < 7
  | .stsAgent _ _ z _ _ => z < 4
  | .fadd _ _ _ g n f => guardOk g n && f < 6
  | .fsub _ _ _ g n f => guardOk g n && f < 6
  | .fmul _ _ _ g n f => guardOk g n && f < 6
  | .ffma _ _ _ g n f => guardOk g n && f < 6
  | .fmin _ _ _ g n => guardOk g n
  | .fmax _ _ _ g n => guardOk g n
  | .fcmp _ _ _ g n f => guardOk g n && f < 7
  | .fcvt _ _ g n f => guardOk g n && f < 6
  | .xshuf _ _ _ g => g < 6
  | .xtrn _ _ p => p < 3
  | .mnest lv _ _ => lv < 6
  | .aballoc _ count => 1 ≤ count && count ≤ 512
  | .xfer _ _ _ dsp ssp _ => dsp < 3 && ssp < 3
  | .xferr _ _ _ dsp ssp _ _ _ => dsp < 3 && ssp < 3
  | .rld _ _ _ sp z _ => 1 ≤ sp && sp < 3 && z < 7
  | .rst _ _ _ sp z _ => 1 ≤ sp && sp < 3 && z < 4
  | .chbind _ _ chs chr => (chs < 64 || chs == 127) && (chr < 64 || chr == 127)
  | .snap _ _ dom => 1 ≤ dom
  | .genq _ _ dom => 1 ≤ dom
  | .waita _ _ _ g n => guardOk g n
  | .waitt _ _ _ g n => guardOk g n
  | .batchClose _ _ g n => guardOk g n
  | .waitb _ _ _ g n => guardOk g n
  | .copy _ _ _ g n => guardOk g n
  | .taskq _ _ g n => guardOk g n
  | .tkill _ _ g n => guardOk g n
  | .tpreDrain _ _ _ g n => guardOk g n
  | .tpreCheckpoint _ _ _ g n => guardOk g n
  | .tpreRequeue _ _ _ g n => guardOk g n
  | .tstatus _ _ g n => guardOk g n
  | .cplpost _ _ g n => guardOk g n
  | .intr _ g n => guardOk g n
  | .scrub _ _ g n => guardOk g n
  | .keyz _ _ g n => guardOk g n
  | .keyld _ _ _ g n => guardOk g n
  | .migr _ _ g n => guardOk g n
  | .imgchk _ _ _ g n => guardOk g n
  | _ => true

/-- Whether every field of an instruction fits its place and its limits; lim is the first scalar code that is reserved:
0x28 on a tile, 0x20 on an agent core (R109). -/
def limitsOk (lim : Nat) (i : Instr) : Bool :=
  (layoutOf i).all (fun f => f.1 < 2 ^ f.2.2) && (codesOf i).all (fun c => c < lim) && extraOk i

/-- The word of a layout: each field in its place. -/
def packFields : List (Nat × Nat × Nat) → Nat
  | [] => 0
  | (v, lo, _) :: fs => v * 2 ^ lo + packFields fs

end Sys2Proof
end

