-- ==== Sys2Proof/WellFormed.lean ====
section
/-! DEFINITION. Well-formed instructions: every field fits its place and holds no reserved value (R107 to R114, R123 to
R129, R148). -/
namespace Sys2Proof

/-- Where an instruction's word stands: in a slot of a bundle, in a tile's control table, in an agent stream, nowhere (R107,
R115 to R120, R378). -/
inductive Stream where
  | c | s | v | x | m | d | agent | event
deriving DecidableEq, Repr

/-- The S-class instructions that tiles and agent cores share (R116, R147). -/
def Instr.inSClass : Instr → Bool
  | .add .. | .sub .. | .mul .. | .mulh .. | .mulhn .. | .div .. | .divn .. | .rem .. | .remn .. | .and .. | .or .. | .xor ..
  | .andn .. | .orn .. | .shl .. | .shr .. | .sha .. | .rotr .. | .clz .. | .ctz .. | .popc .. | .min .. | .max .. | .minn ..
  | .maxn .. | .slt .. | .sltn .. | .sel .. | .pcmp .. | .plog .. | .addi .. | .andi .. | .ori .. | .xori .. | .shli ..
  | .shri .. | .shai .. | .limm .. | .limmh .. | .fadd .. | .fsub .. | .fmul .. | .ffma .. | .fmin .. | .fmax .. | .fcmp ..
  | .fcvt .. => true
  | _ => false

/-- Whether a stream accepts an instruction. -/
def Instr.standsIn (i : Instr) (p : Stream) : Bool :=
  match p with
  | .c => match i with
    | .nop | .sync | .loop .. | .loops .. | .br .. | .join .. | .call .. | .ret .. | .halt | .trapInstr .. | .fmt ..
    | .segchk .. | .crgnOpen .. | .crgnClose | .resync .. | .phase .. | .tlaunch .. | .dbgb .. | .sysrd .. | .syswr ..
    | .ringc .. => true
    | _ => false
  | .s => match i with
    | .nop | .lds .. | .sts .. => true
    | _ => i.inSClass
  | .v => match i with
    | .vNop => true
    | _ => (vectorRow i).isSome
  | .x => match i with
    | .xNop | .xperm .. | .xrot .. | .xshuf .. | .xtrn .. | .xbrd .. | .xpat .. => true
    | _ => false
  | .m => match i with
    | .mNop | .mnest .. | .mnestClr | .mgo | .mcfg .. | .mzero .. | .mmul .. | .mmulg .. | .mchk .. | .mldacc .. | .mstacc ..
    | .mpermAcc .. | .mpermScratch .. | .aballoc .. | .abfree .. | .mflu .. | .mfch .. | .mfqr .. | .mtrs .. => true
    | _ => false
  | .d => match i with
    | .dNop | .xfer .. | .xferr .. | .rld .. | .rst .. | .chsend .. | .chrecv .. | .chbind .. | .sacc .. | .shist ..
    | .ctrsnap .. | .atomAdd .. | .atomAnd .. | .atomOr .. | .atomXor .. | .atomMin .. | .atomMax .. | .atomMinn ..
    | .atomMaxn .. | .atomSwap .. | .atomCas .. | .atomFadd .. | .atomArv .. | .atomBreg .. | .atomBcpl .. | .snap ..
    | .genq .. | .tarm .. | .tpost .. | .trecv .. | .tstat .. => true
    | _ => false
  | .agent => match i with
    | .nop | .br .. | .call .. | .ret .. | .ldsAgent .. | .stsAgent .. | .waita .. | .waitt .. | .batchClose .. | .waitb ..
    | .lda .. | .stl .. | .fence .. | .amoAdd .. | .amoOr .. | .amoAnd .. | .amoSwap .. | .amoMaxn .. | .amoCas .. | .amoArv ..
    | .amoBreg .. | .copy .. | .taskq .. | .tkill .. | .tpreDrain .. | .tpreCheckpoint .. | .tpreRequeue .. | .tstatus ..
    | .cplpost .. | .intr .. | .scall .. | .eret | .csrr .. | .csrw .. | .scrub .. | .keyz .. | .keyld .. | .migr ..
    | .imgchk .. | .treeCreate .. | .treeEdit .. | .treeAlt .. | .treeFreeze .. | .treeThaw .. | .treeDestroy .. => true
    | _ => i.inSClass
  | .event => (layoutOf i).isEmpty && (vectorRow i).isNone

/-- An instruction of a tile, or an event: its fields fit the layout, its scalar codes are those of a tile (R109), a
vector instruction carries a valid control word (R127). -/
def Instr.wf (i : Instr) : Bool :=
  match vectorRow i with
  | some _ => vectorOk i
  | none => limitsOk 0x28 i

/-- An instruction of an agent core: the same with the scalar codes of a core, s0 to s31 (R109, R147). -/
def Instr.wfAgent (i : Instr) : Bool := limitsOk 0x20 i && i.standsIn .agent

end Sys2Proof
end

