-- ==== Sys2Proof/Decode.lean ====
section
/-! DEFINITION. The decoders of the agent stream and of the seven slots, and the encoder (05, 23 R378). Each decoder reads
the opcode and the fields from their places, then refuses by name a word with a bit outside them or a field value outside
its limits (R107, R108, R379). -/
namespace Sys2Proof

/-- Why a word is no instruction. -/
inductive DecodeReject where
  /-- Fewer bytes than an instruction. -/
  | short
  /-- The opcode is reserved or is not accepted in this place (R107, R116). -/
  | opcode
  /-- A field holds a reserved value or a reserved bit is 1 (R107, R108). -/
  | field
deriving DecidableEq, Repr

/-- A decoded instruction or the reason that there is none. -/
abbrev Dec := Except DecodeReject Instr

/-- The word of an instruction of a C, S, X, M or D slot, of the vector NOP, or of an agent core. -/
def encode (i : Instr) : Nat := packFields (layoutOf i)

/-- A candidate is the instruction when it is within its limits and its word is the word read. -/
def settle (lim w : Nat) (c : Dec) : Dec :=
  match c with
  | .error e => .error e
  | .ok i => if limitsOk lim i && encode i == w then .ok i else .error .field

/-- The S-class instruction that a major opcode names; LDS and STS differ between tiles and agents (R115, R147). -/
def readSClass (w : Nat) : Dec :=
  match w / 2 ^ 25 with
  | 0x20 => .ok (.add (bitsOf w 24 19) (bitsOf w 18 13) (bitsOf w 12 7) (bitsOf w 6 4) (bitsOf w 3 3))
  | 0x21 => .ok (.sub (bitsOf w 24 19) (bitsOf w 18 13) (bitsOf w 12 7) (bitsOf w 6 4) (bitsOf w 3 3))
  | 0x22 => .ok (.mul (bitsOf w 24 19) (bitsOf w 18 13) (bitsOf w 12 7) (bitsOf w 6 4) (bitsOf w 3 3))
  | 0x23 => .ok (.mulh (bitsOf w 24 19) (bitsOf w 18 13) (bitsOf w 12 7) (bitsOf w 6 4) (bitsOf w 3 3))
  | 0x24 => .ok (.mulhn (bitsOf w 24 19) (bitsOf w 18 13) (bitsOf w 12 7) (bitsOf w 6 4) (bitsOf w 3 3))
  | 0x25 => .ok (.div (bitsOf w 24 19) (bitsOf w 18 13) (bitsOf w 12 7) (bitsOf w 6 4) (bitsOf w 3 3))
  | 0x26 => .ok (.divn (bitsOf w 24 19) (bitsOf w 18 13) (bitsOf w 12 7) (bitsOf w 6 4) (bitsOf w 3 3))
  | 0x27 => .ok (.rem (bitsOf w 24 19) (bitsOf w 18 13) (bitsOf w 12 7) (bitsOf w 6 4) (bitsOf w 3 3))
  | 0x28 => .ok (.remn (bitsOf w 24 19) (bitsOf w 18 13) (bitsOf w 12 7) (bitsOf w 6 4) (bitsOf w 3 3))
  | 0x29 => .ok (.and (bitsOf w 24 19) (bitsOf w 18 13) (bitsOf w 12 7) (bitsOf w 6 4) (bitsOf w 3 3))
  | 0x2A => .ok (.or (bitsOf w 24 19) (bitsOf w 18 13) (bitsOf w 12 7) (bitsOf w 6 4) (bitsOf w 3 3))
  | 0x2B => .ok (.xor (bitsOf w 24 19) (bitsOf w 18 13) (bitsOf w 12 7) (bitsOf w 6 4) (bitsOf w 3 3))
  | 0x2C => .ok (.andn (bitsOf w 24 19) (bitsOf w 18 13) (bitsOf w 12 7) (bitsOf w 6 4) (bitsOf w 3 3))
  | 0x2D => .ok (.orn (bitsOf w 24 19) (bitsOf w 18 13) (bitsOf w 12 7) (bitsOf w 6 4) (bitsOf w 3 3))
  | 0x2E => .ok (.shl (bitsOf w 24 19) (bitsOf w 18 13) (bitsOf w 12 7) (bitsOf w 6 4) (bitsOf w 3 3))
  | 0x2F => .ok (.shr (bitsOf w 24 19) (bitsOf w 18 13) (bitsOf w 12 7) (bitsOf w 6 4) (bitsOf w 3 3))
  | 0x30 => .ok (.sha (bitsOf w 24 19) (bitsOf w 18 13) (bitsOf w 12 7) (bitsOf w 6 4) (bitsOf w 3 3))
  | 0x31 => .ok (.rotr (bitsOf w 24 19) (bitsOf w 18 13) (bitsOf w 12 7) (bitsOf w 6 4) (bitsOf w 3 3))
  | 0x32 => .ok (.clz (bitsOf w 24 19) (bitsOf w 18 13) (bitsOf w 6 4) (bitsOf w 3 3))
  | 0x33 => .ok (.ctz (bitsOf w 24 19) (bitsOf w 18 13) (bitsOf w 6 4) (bitsOf w 3 3))
  | 0x34 => .ok (.popc (bitsOf w 24 19) (bitsOf w 18 13) (bitsOf w 6 4) (bitsOf w 3 3))
  | 0x35 => .ok (.min (bitsOf w 24 19) (bitsOf w 18 13) (bitsOf w 12 7) (bitsOf w 6 4) (bitsOf w 3 3))
  | 0x36 => .ok (.max (bitsOf w 24 19) (bitsOf w 18 13) (bitsOf w 12 7) (bitsOf w 6 4) (bitsOf w 3 3))
  | 0x37 => .ok (.minn (bitsOf w 24 19) (bitsOf w 18 13) (bitsOf w 12 7) (bitsOf w 6 4) (bitsOf w 3 3))
  | 0x38 => .ok (.maxn (bitsOf w 24 19) (bitsOf w 18 13) (bitsOf w 12 7) (bitsOf w 6 4) (bitsOf w 3 3))
  | 0x39 => .ok (.slt (bitsOf w 24 19) (bitsOf w 18 13) (bitsOf w 12 7) (bitsOf w 6 4) (bitsOf w 3 3))
  | 0x3A => .ok (.sltn (bitsOf w 24 19) (bitsOf w 18 13) (bitsOf w 12 7) (bitsOf w 6 4) (bitsOf w 3 3))
  | 0x3B => .ok (.sel (bitsOf w 24 19) (bitsOf w 18 13) (bitsOf w 12 7) (bitsOf w 6 4) (bitsOf w 3 3))
  | 0x3C => .ok (.pcmp (bitsOf w 21 19) (bitsOf w 18 13) (bitsOf w 12 7) (bitsOf w 6 4) (bitsOf w 3 3) (bitsOf w 2 0))
  | 0x3D => .ok (.plog (bitsOf w 21 19) (bitsOf w 18 16) (bitsOf w 15 13) (bitsOf w 9 7) (bitsOf w 6 4) (bitsOf w 3 3))
  | 0x40 => .ok (.addi (bitsOf w 24 19) (bitsOf w 18 13) (bitsOf w 12 0))
  | 0x41 => .ok (.andi (bitsOf w 24 19) (bitsOf w 18 13) (bitsOf w 12 0))
  | 0x42 => .ok (.ori (bitsOf w 24 19) (bitsOf w 18 13) (bitsOf w 12 0))
  | 0x43 => .ok (.xori (bitsOf w 24 19) (bitsOf w 18 13) (bitsOf w 12 0))
  | 0x44 => .ok (.shli (bitsOf w 24 19) (bitsOf w 18 13) (bitsOf w 5 0))
  | 0x45 => .ok (.shri (bitsOf w 24 19) (bitsOf w 18 13) (bitsOf w 5 0))
  | 0x46 => .ok (.shai (bitsOf w 24 19) (bitsOf w 18 13) (bitsOf w 5 0))
  | 0x47 => .ok (.limm (bitsOf w 24 19) (bitsOf w 18 0))
  | 0x48 => .ok (.limmh (bitsOf w 24 19) (bitsOf w 18 0))
  | 0x50 => .ok (.fadd (bitsOf w 24 19) (bitsOf w 18 13) (bitsOf w 12 7) (bitsOf w 6 4) (bitsOf w 3 3) (bitsOf w 2 0))
  | 0x51 => .ok (.fsub (bitsOf w 24 19) (bitsOf w 18 13) (bitsOf w 12 7) (bitsOf w 6 4) (bitsOf w 3 3) (bitsOf w 2 0))
  | 0x52 => .ok (.fmul (bitsOf w 24 19) (bitsOf w 18 13) (bitsOf w 12 7) (bitsOf w 6 4) (bitsOf w 3 3) (bitsOf w 2 0))
  | 0x53 => .ok (.ffma (bitsOf w 24 19) (bitsOf w 18 13) (bitsOf w 12 7) (bitsOf w 6 4) (bitsOf w 3 3) (bitsOf w 2 0))
  | 0x54 => .ok (.fmin (bitsOf w 24 19) (bitsOf w 18 13) (bitsOf w 12 7) (bitsOf w 6 4) (bitsOf w 3 3))
  | 0x55 => .ok (.fmax (bitsOf w 24 19) (bitsOf w 18 13) (bitsOf w 12 7) (bitsOf w 6 4) (bitsOf w 3 3))
  | 0x56 => .ok (.fcmp (bitsOf w 21 19) (bitsOf w 18 13) (bitsOf w 12 7) (bitsOf w 6 4) (bitsOf w 3 3) (bitsOf w 2 0))
  | 0x57 => .ok (.fcvt (bitsOf w 24 19) (bitsOf w 18 13) (bitsOf w 6 4) (bitsOf w 3 3) (bitsOf w 2 0))
  | _ => .error .opcode

/-- The instruction that an S syllable names (R116). -/
def readS (w : Nat) : Dec :=
  match w / 2 ^ 25 with
  | 0x00 => .ok .nop
  | 0x49 => .ok (.lds (bitsOf w 24 19) (bitsOf w 18 13) (bitsOf w 12 10) (bitsOf w 9 0))
  | 0x4A => .ok (.sts (bitsOf w 24 19) (bitsOf w 18 13) (bitsOf w 12 10) (bitsOf w 9 0))
  | _ => readSClass w

/-- The instruction that a C syllable names (R148). -/
def readC (w : Nat) : Dec :=
  match w / 2 ^ 25 with
  | 0x00 => .ok .nop
  | 0x01 => .ok .sync
  | 0x02 => .ok (.loop (bitsOf w 24 19) (bitsOf w 18 11) (bitsOf w 10 0))
  | 0x03 => .ok (.loops (bitsOf w 24 19) (bitsOf w 18 11) (bitsOf w 10 0))
  | 0x04 => .ok (.br (bitsOf w 24 22) (bitsOf w 21 21) (bitsOf w 20 0))
  | 0x05 => .ok (.join (bitsOf w 19 0))
  | 0x06 => .ok (.call (bitsOf w 24 19) (bitsOf w 18 0))
  | 0x07 => .ok (.ret (bitsOf w 24 19))
  | 0x08 => .ok .halt
  | 0x09 => .ok (.trapInstr (bitsOf w 15 0))
  | 0x0A => .ok (.fmt (bitsOf w 15 0))
  | 0x0B => .ok (.segchk (bitsOf w 15 0))
  | 0x0C => .ok (.crgnOpen (bitsOf w 20 0))
  | 0x0D => .ok .crgnClose
  | 0x0E => .ok (.resync (bitsOf w 24 19))
  | 0x0F => .ok (.phase (bitsOf w 0 0))
  | 0x10 => .ok (.tlaunch (bitsOf w 24 19))
  | 0x11 => .ok (.dbgb (bitsOf w 7 0))
  | 0x12 => .ok (.sysrd (bitsOf w 24 19) (bitsOf w 18 7))
  | 0x13 => .ok (.syswr (bitsOf w 24 19) (bitsOf w 18 7))
  | 0x14 => .ok (.ringc (bitsOf w 24 21) (bitsOf w 20 14) (bitsOf w 13 11) (bitsOf w 10 10))
  | _ => .error .opcode

/-- The instruction that an agent word names (R116, R378); the three TPRE rows share one word, and the mode in their
register tells them apart when the word is executed (R398). -/
def readAgent (w : Nat) : Dec :=
  match w / 2 ^ 25 with
  | 0x00 => .ok .nop
  | 0x04 => .ok (.br (bitsOf w 24 22) (bitsOf w 21 21) (bitsOf w 20 0))
  | 0x06 => .ok (.call (bitsOf w 24 19) (bitsOf w 18 0))
  | 0x07 => .ok (.ret (bitsOf w 24 19))
  | 0x49 => .ok (.ldsAgent (bitsOf w 24 19) (bitsOf w 18 13) (bitsOf w 12 10) (bitsOf w 9 6) (bitsOf w 5 0))
  | 0x4A => .ok (.stsAgent (bitsOf w 24 19) (bitsOf w 18 13) (bitsOf w 12 10) (bitsOf w 9 6) (bitsOf w 5 0))
  | 0x60 => .ok (.waita (bitsOf w 24 19) (bitsOf w 18 13) (bitsOf w 12 7) (bitsOf w 6 4) (bitsOf w 3 3))
  | 0x61 => .ok (.waitt (bitsOf w 24 19) (bitsOf w 18 13) (bitsOf w 12 7) (bitsOf w 6 4) (bitsOf w 3 3))
  | 0x62 => .ok (.batchClose (bitsOf w 24 19) (bitsOf w 18 13) (bitsOf w 6 4) (bitsOf w 3 3))
  | 0x63 => .ok (.waitb (bitsOf w 24 19) (bitsOf w 18 13) (bitsOf w 12 7) (bitsOf w 6 4) (bitsOf w 3 3))
  | 0x64 => .ok (.lda (bitsOf w 24 19) (bitsOf w 18 13) (bitsOf w 6 3) (bitsOf w 2 1) (bitsOf w 0 0))
  | 0x65 => .ok (.stl (bitsOf w 18 13) (bitsOf w 12 7) (bitsOf w 6 3) (bitsOf w 2 1) (bitsOf w 0 0))
  | 0x66 => .ok (.fence (bitsOf w 22 7) (bitsOf w 2 1))
  | 0x67 =>
    match w % 8 with
    | 0 => .ok (.amoAdd (bitsOf w 24 19) (bitsOf w 18 13) (bitsOf w 12 7) (bitsOf w 6 3))
    | 1 => .ok (.amoOr (bitsOf w 24 19) (bitsOf w 18 13) (bitsOf w 12 7) (bitsOf w 6 3))
    | 2 => .ok (.amoAnd (bitsOf w 24 19) (bitsOf w 18 13) (bitsOf w 12 7) (bitsOf w 6 3))
    | 3 => .ok (.amoSwap (bitsOf w 24 19) (bitsOf w 18 13) (bitsOf w 12 7) (bitsOf w 6 3))
    | 4 => .ok (.amoMaxn (bitsOf w 24 19) (bitsOf w 18 13) (bitsOf w 12 7) (bitsOf w 6 3))
    | 5 => .ok (.amoCas (bitsOf w 24 19) (bitsOf w 18 13) (bitsOf w 12 7) (bitsOf w 6 3))
    | 6 => .ok (.amoArv (bitsOf w 24 19) (bitsOf w 18 13) (bitsOf w 12 7) (bitsOf w 6 3))
    | _ => .ok (.amoBreg (bitsOf w 24 19) (bitsOf w 18 13) (bitsOf w 12 7) (bitsOf w 6 3))
  | 0x68 => .ok (.copy (bitsOf w 24 19) (bitsOf w 18 13) (bitsOf w 12 7) (bitsOf w 6 4) (bitsOf w 3 3))
  | 0x69 => .ok (.taskq (bitsOf w 24 19) (bitsOf w 18 13) (bitsOf w 6 4) (bitsOf w 3 3))
  | 0x6A => .ok (.tkill (bitsOf w 24 19) (bitsOf w 18 13) (bitsOf w 6 4) (bitsOf w 3 3))
  | 0x6B => .ok (.tpreDrain (bitsOf w 24 19) (bitsOf w 18 13) (bitsOf w 12 7) (bitsOf w 6 4) (bitsOf w 3 3))
  | 0x6C => .ok (.tstatus (bitsOf w 24 19) (bitsOf w 18 13) (bitsOf w 6 4) (bitsOf w 3 3))
  | 0x6D => .ok (.cplpost (bitsOf w 24 19) (bitsOf w 18 13) (bitsOf w 6 4) (bitsOf w 3 3))
  | 0x6E => .ok (.intr (bitsOf w 18 13) (bitsOf w 6 4) (bitsOf w 3 3))
  | 0x6F => .ok (.scall (bitsOf w 15 0))
  | 0x70 => .ok .eret
  | 0x71 => .ok (.csrr (bitsOf w 24 19) (bitsOf w 18 7))
  | 0x72 => .ok (.csrw (bitsOf w 24 19) (bitsOf w 18 7))
  | 0x73 => .ok (.scrub (bitsOf w 24 19) (bitsOf w 18 13) (bitsOf w 6 4) (bitsOf w 3 3))
  | 0x74 => .ok (.keyz (bitsOf w 24 19) (bitsOf w 18 13) (bitsOf w 6 4) (bitsOf w 3 3))
  | 0x75 => .ok (.keyld (bitsOf w 24 19) (bitsOf w 18 13) (bitsOf w 12 7) (bitsOf w 6 4) (bitsOf w 3 3))
  | 0x76 => .ok (.migr (bitsOf w 24 19) (bitsOf w 18 13) (bitsOf w 6 4) (bitsOf w 3 3))
  | 0x77 => .ok (.imgchk (bitsOf w 24 19) (bitsOf w 18 13) (bitsOf w 12 7) (bitsOf w 6 4) (bitsOf w 3 3))
  | 0x78 => .ok (.treeCreate (bitsOf w 24 19) (bitsOf w 18 13))
  | 0x79 => .ok (.treeEdit (bitsOf w 24 19) (bitsOf w 18 13))
  | 0x7A => .ok (.treeAlt (bitsOf w 24 19) (bitsOf w 18 13) (bitsOf w 12 7))
  | 0x7B => .ok (.treeFreeze (bitsOf w 24 19) (bitsOf w 18 13))
  | 0x7C => .ok (.treeThaw (bitsOf w 24 19) (bitsOf w 18 13))
  | 0x7D => .ok (.treeDestroy (bitsOf w 24 19) (bitsOf w 18 13))
  | _ => readSClass w

/-- The instruction that an X syllable names (R118, R226). -/
def readX (w : Nat) : Dec :=
  match w / 2 ^ 13 with
  | 0 => .ok .xNop
  | 1 => .ok (.xperm (bitsOf w 12 9) (bitsOf w 8 5) (bitsOf w 2 0))
  | 2 => .ok (.xrot (bitsOf w 12 9) (bitsOf w 8 5) (bitsOf w 4 0))
  | 3 => .ok (.xshuf (bitsOf w 12 9) (bitsOf w 8 5) (bitsOf w 4 3) (bitsOf w 2 0))
  | 4 => .ok (.xtrn (bitsOf w 12 9) (bitsOf w 8 5) (bitsOf w 1 0))
  | 5 => .ok (.xbrd (bitsOf w 12 9) (bitsOf w 8 5) (bitsOf w 4 0))
  | 6 => .ok (.xpat (bitsOf w 8 5) (bitsOf w 2 0))
  | _ => .error .opcode

/-- The instruction that an M syllable names (R117, R303, R322). -/
def readM (w : Nat) : Dec :=
  match w / 2 ^ 26 with
  | 0 => .ok .mNop
  | 1 => if bitAt w 10 then .ok .mnestClr else .ok (.mnest (bitsOf w 25 23) (bitsOf w 22 17) (bitsOf w 16 11))
  | 2 => .ok .mgo
  | 3 => .ok (.mcfg (bitsOf w 25 24) (bitsOf w 23 18))
  | 4 => .ok (.mzero (bitsOf w 25 23) (bitsOf w 22 14) (bitsOf w 13 5))
  | 5 => .ok (.mmul (bitsOf w 25 20) (bitsOf w 19 14) (bitsOf w 13 8) (bitsOf w 7 5))
  | 6 => .ok (.mmulg (bitsOf w 25 20) (bitsOf w 19 14) (bitsOf w 13 8) (bitsOf w 7 5) (bitsOf w 4 1))
  | 7 => .ok (.mchk (bitsOf w 25 20) (bitsOf w 19 14) (bitsOf w 13 11))
  | 8 => .ok (.mldacc (bitsOf w 25 20) (bitsOf w 19 14) (bitsOf w 13 11) (bitsOf w 10 2))
  | 9 => .ok (.mstacc (bitsOf w 25 20) (bitsOf w 19 14) (bitsOf w 13 11) (bitsOf w 10 2))
  | 10 => if bitAt w 25 then .ok (.mpermScratch (bitsOf w 21 16) (bitsOf w 15 15) (bitsOf w 14 8)) else .ok (.mpermAcc (bitsOf w 24 22) (bitsOf w 21 16) (bitsOf w 15 15) (bitsOf w 14 8))
  | 11 => .ok (.aballoc (bitsOf w 25 23) (bitsOf w 22 13))
  | 12 => .ok (.abfree (bitsOf w 25 23))
  | 13 => .ok (.mflu (bitsOf w 25 23) (bitsOf w 22 17))
  | 14 => .ok (.mfch (bitsOf w 25 23) (bitsOf w 22 17))
  | 15 => .ok (.mfqr (bitsOf w 25 23) (bitsOf w 22 17))
  | 16 => .ok (.mtrs (bitsOf w 25 23) (bitsOf w 22 17) (bitsOf w 16 11) (bitsOf w 10 10) (bitsOf w 9 9) (bitsOf w 8 8))
  | _ => .error .opcode

/-- The instruction that a D syllable names (R119, 15, R352). -/
def readD (w : Nat) : Dec :=
  match w / 2 ^ 56 with
  | 0 => .ok .dNop
  | 1 => .ok (.xfer (bitsOf w 55 50) (bitsOf w 49 44) (bitsOf w 43 38) (bitsOf w 37 36) (bitsOf w 35 34) (bitsOf w 33 20))
  | 2 => .ok (.xferr (bitsOf w 55 50) (bitsOf w 49 44) (bitsOf w 43 38) (bitsOf w 37 36) (bitsOf w 35 34) (bitsOf w 33 20) (bitsOf w 19 14) (bitsOf w 13 13))
  | 3 => .ok (.rld (bitsOf w 55 50) (bitsOf w 49 44) (bitsOf w 43 38) (bitsOf w 37 36) (bitsOf w 35 33) (bitsOf w 32 13))
  | 4 => .ok (.rst (bitsOf w 55 50) (bitsOf w 49 44) (bitsOf w 43 38) (bitsOf w 37 36) (bitsOf w 35 33) (bitsOf w 32 13))
  | 8 => .ok (.chsend (bitsOf w 55 50) (bitsOf w 49 44) (bitsOf w 43 38) (bitsOf w 37 30))
  | 9 => .ok (.chrecv (bitsOf w 55 50) (bitsOf w 49 44) (bitsOf w 43 38) (bitsOf w 37 30))
  | 10 => .ok (.chbind (bitsOf w 55 50) (bitsOf w 49 47) (bitsOf w 46 40) (bitsOf w 39 33))
  | 12 => .ok (.sacc (bitsOf w 55 50) (bitsOf w 49 44) (bitsOf w 43 40) (bitsOf w 39 36) (bitsOf w 35 34) (bitsOf w 33 27) (bitsOf w 26 20) (bitsOf w 19 16) (bitsOf w 15 12))
  | 13 => .ok (.shist (bitsOf w 55 50) (bitsOf w 49 44) (bitsOf w 43 40) (bitsOf w 35 34) (bitsOf w 33 27) (bitsOf w 19 16))
  | 14 => .ok (.ctrsnap (bitsOf w 55 50) (bitsOf w 49 44))
  | 16 =>
    match bitsOf w 25 22 with
    | 0 => .ok (.atomAdd (bitsOf w 55 50) (bitsOf w 49 44) (bitsOf w 43 38) (bitsOf w 37 32) (bitsOf w 21 21))
    | 1 => .ok (.atomAnd (bitsOf w 55 50) (bitsOf w 49 44) (bitsOf w 43 38) (bitsOf w 37 32) (bitsOf w 21 21))
    | 2 => .ok (.atomOr (bitsOf w 55 50) (bitsOf w 49 44) (bitsOf w 43 38) (bitsOf w 37 32) (bitsOf w 21 21))
    | 3 => .ok (.atomXor (bitsOf w 55 50) (bitsOf w 49 44) (bitsOf w 43 38) (bitsOf w 37 32) (bitsOf w 21 21))
    | 4 => .ok (.atomMin (bitsOf w 55 50) (bitsOf w 49 44) (bitsOf w 43 38) (bitsOf w 37 32) (bitsOf w 21 21))
    | 5 => .ok (.atomMax (bitsOf w 55 50) (bitsOf w 49 44) (bitsOf w 43 38) (bitsOf w 37 32) (bitsOf w 21 21))
    | 6 => .ok (.atomMinn (bitsOf w 55 50) (bitsOf w 49 44) (bitsOf w 43 38) (bitsOf w 37 32) (bitsOf w 21 21))
    | 7 => .ok (.atomMaxn (bitsOf w 55 50) (bitsOf w 49 44) (bitsOf w 43 38) (bitsOf w 37 32) (bitsOf w 21 21))
    | 8 => .ok (.atomSwap (bitsOf w 55 50) (bitsOf w 49 44) (bitsOf w 43 38) (bitsOf w 37 32) (bitsOf w 21 21))
    | 9 => .ok (.atomCas (bitsOf w 55 50) (bitsOf w 49 44) (bitsOf w 43 38) (bitsOf w 37 32) (bitsOf w 31 26) (bitsOf w 21 21))
    | 10 => .ok (.atomFadd (bitsOf w 55 50) (bitsOf w 49 44) (bitsOf w 43 38) (bitsOf w 37 32))
    | 11 => .ok (.atomArv (bitsOf w 55 50) (bitsOf w 49 44) (bitsOf w 43 38) (bitsOf w 37 32))
    | 12 => .ok (.atomBreg (bitsOf w 55 50) (bitsOf w 49 44) (bitsOf w 43 38) (bitsOf w 37 32))
    | 13 => .ok (.atomBcpl (bitsOf w 55 50) (bitsOf w 49 44) (bitsOf w 43 38) (bitsOf w 37 32))
    | _ => .error .field
  | 20 => .ok (.snap (bitsOf w 55 50) (bitsOf w 49 44) (bitsOf w 43 41))
  | 21 => .ok (.genq (bitsOf w 55 50) (bitsOf w 49 44) (bitsOf w 43 41))
  | 24 => .ok (.tarm (bitsOf w 55 50) (bitsOf w 49 34) (bitsOf w 33 28) (bitsOf w 27 16))
  | 25 => .ok (.tpost (bitsOf w 55 50) (bitsOf w 49 34) (bitsOf w 33 28) (bitsOf w 27 22) (bitsOf w 21 21))
  | 26 => .ok (.trecv (bitsOf w 55 50) (bitsOf w 49 34) (bitsOf w 33 28) (bitsOf w 27 22) (bitsOf w 21 21))
  | 27 => .ok (.tstat (bitsOf w 55 50) (bitsOf w 49 34) (bitsOf w 33 28) (bitsOf w 27 27))
  | _ => .error .opcode

/-- The first reserved scalar code on a tile (R109). -/
def tileCodes : Nat := 0x28

/-- The first reserved scalar code on an agent core (R109). -/
def agentCodes : Nat := 0x20

def decodeC (w : Nat) : Dec := settle tileCodes w (readC w)
def decodeS (w : Nat) : Dec := settle tileCodes w (readS w)
def decodeX (w : Nat) : Dec := settle tileCodes w (readX w)
def decodeM (w : Nat) : Dec := settle tileCodes w (readM w)
def decodeD (w : Nat) : Dec := settle tileCodes w (readD w)

/-- An agent instruction from its 32-bit word (R116, R378). -/
def decodeAgent (w : Nat) : Dec := settle agentCodes w (readAgent w)

/-- An operand descriptor from its 28 bits (R124). -/
def readOpd (w : Nat) : Opd :=
  { kind := bitsOf w 27 26, reg := bitsOf w 25 20, off := bitsOf w 19 13, step := bitsOf w 12 9, fill := bitsOf w 8 1 }

/-- The bits of an operand descriptor (R124). -/
def packOpd (o : Opd) : Nat :=
  o.kind * 2 ^ 26 + o.reg * 2 ^ 20 + o.off * 2 ^ 13 + o.step * 2 ^ 9 + o.fill * 2

/-- The operation of a control word and a BIAS (R120, R123). -/
def readVOp (w bias : Nat) : VOp :=
  { td := bitsOf w 245 242, ta := bitsOf w 241 238, tb := bitsOf w 237 234, wid := bitsOf w 233 232,
    lgb := bitsOf w 231 230, rm := bitsOf w 229 227, sat := bitsOf w 226 226, zm := bitsOf w 225 225,
    pg := bitsOf w 224 222, pn := bitsOf w 221 221, msk := bitsOf w 220 218, sf := bitsOf w 217 214,
    od := readOpd (bitsOf w 213 186), oa := readOpd (bitsOf w 185 158), ob := readOpd (bitsOf w 157 130),
    oc := readOpd (bitsOf w 129 102), aux := bitsOf w 63 0, bias := bias }

/-- The control word of an opcode and an operation (R123). -/
def packVOp (opc : Nat) (v : VOp) : Nat :=
  opc * 2 ^ 246 + v.td * 2 ^ 242 + v.ta * 2 ^ 238 + v.tb * 2 ^ 234 + v.wid * 2 ^ 232 + v.lgb * 2 ^ 230
    + v.rm * 2 ^ 227 + v.sat * 2 ^ 226 + v.zm * 2 ^ 225 + v.pg * 2 ^ 222 + v.pn * 2 ^ 221 + v.msk * 2 ^ 218
    + v.sf * 2 ^ 214 + packOpd v.od * 2 ^ 186 + packOpd v.oa * 2 ^ 158 + packOpd v.ob * 2 ^ 130
    + packOpd v.oc * 2 ^ 102 + v.aux

/-- The control word of a vector instruction, 0 for any other (R123, R128, R129). -/
def encodeControl (i : Instr) : Nat :=
  match vectorRow i with
  | none => 0
  | some (opc, _, v, _) => packVOp opc v

/-- The instruction that a vector opcode and its selector name (R128, R129). -/
def readVector (opc : Nat) (v : VOp) : Dec :=
  match opc with
  | 0x001 => .ok (.vadd v)
  | 0x002 => .ok (.vsub v)
  | 0x003 => .ok (.vmul v)
  | 0x004 => .ok (.vfma v)
  | 0x005 => .ok (.vfms v)
  | 0x006 => .ok (.vfnma v)
  | 0x007 => .ok (.vmin v)
  | 0x008 => .ok (.vmax v)
  | 0x009 => .ok (.vabs v)
  | 0x00A => .ok (.vneg v)
  | 0x00B => .ok (.vmulh v)
  | 0x010 => .ok (.vand v)
  | 0x011 => .ok (.vor v)
  | 0x012 => .ok (.vxor v)
  | 0x013 => .ok (.vandn v)
  | 0x014 => .ok (.vnot v)
  | 0x015 => .ok (.vshl v)
  | 0x016 => .ok (.vshr v)
  | 0x017 => .ok (.vsha v)
  | 0x018 => .ok (.vclz v)
  | 0x019 => .ok (.vpopc v)
  | 0x01A => .ok (.vcmp v)
  | 0x01B => .ok (.vsel v)
  | 0x020 => .ok (.vcvt v)
  | 0x021 => .ok (.vqmx v)
  | 0x022 => .ok (.vdqmx v)
  | 0x023 => .ok (.vscl v)
  | 0x028 => .ok (.vrsum v)
  | 0x029 => .ok (.vrmax v)
  | 0x02A => .ok (.vrmin v)
  | 0x02B => .ok (.vrarg v)
  | 0x02C => .ok (.vscan v)
  | 0x02D => .ok (.vtopk v)
  | 0x030 => .ok (.vxpnd v)
  | 0x031 => .ok (.vcount v)
  | 0x032 => .ok (.viota v)
  | 0x033 => .ok (.vbrd v)
  | 0x034 => .ok (.vextr v)
  | 0x040 =>
    match v.sf with
    | 0 => .ok (.vexp2 v)
    | 1 => .ok (.vlog2 v)
    | 2 => .ok (.vrcp v)
    | 3 => .ok (.vrsq v)
    | 4 => .ok (.vsqrt v)
    | 5 => .ok (.vtanh v)
    | 6 => .ok (.vsig v)
    | 7 => .ok (.vsin v)
    | 8 => .ok (.vcos v)
    | _ => .error .field
  | 0x050 => .ok (.vld v)
  | 0x051 => .ok (.vst v)
  | 0x052 => .ok (.vlds v)
  | 0x053 => .ok (.vsts v)
  | 0x054 => .ok (.vgath v)
  | 0x055 => .ok (.vscat v)
  | 0x056 => .ok (.vldb v)
  | 0x057 => .ok (.advr v)
  | _ => .error .opcode

/-- The vector instruction of a control word under a BIAS (R123 to R129). -/
def decodeControl (w bias : Nat) : Dec :=
  match readVector (w / 2 ^ 246) (readVOp w bias) with
  | .error e => .error e
  | .ok i => if vectorOk i && encodeControl i == w then .ok i else .error .field

/-- The instruction of a V syllable, with the tile's control table given as a function of the entry (R120, R121). -/
def decodeV (entry : Nat → Nat) (syl : Nat) : Dec :=
  let index := bitsOf syl 8 0
  let bias := bitsOf syl 15 9
  if index = 0x1FF then (if bias = 0 then .ok .vNop else .error .field)
  else decodeControl (entry index) bias

/-- The next instruction of an agent stream: four bytes, little-endian, and the bytes after them (R12, R112). -/
def decode (bs : List Byte) : Except DecodeReject (Instr × List Byte) :=
  match bs with
  | a :: b :: c :: d :: rest =>
    match decodeAgent (leNat [a, b, c, d]) with
    | .ok i => .ok (i, rest)
    | .error e => .error e
  | _ => .error .short

/-- The bytes of an agent instruction (R12). -/
def encodeBytes (i : Instr) : List Byte := leBytes 4 (encode i)

/-- What the decoder reads from an instruction whose first nbits bits are w and whose further bits are 0. -/
def decodeTableWord (nbits w : Nat) : Option Instr :=
  match decode (leBytes 4 (w % 2 ^ nbits)) with
  | .ok (i, _) => some i
  | .error _ => none

end Sys2Proof
end

