-- ==== Sys2Proof/Machine/Alu.lean ====
section
/-! DEFINITION. What the integer instructions compute (R170 to R175). -/
namespace Sys2Proof

/-- Bits [127:64] of the signed product (R170). -/
def aluMulh (a b : Word) : Word := BitVec.ofInt 64 (a.toInt * b.toInt / (2 ^ 64 : Int))

/-- Bits [127:64] of the unsigned product (R170). -/
def aluMulhn (a b : Word) : Word := BitVec.ofNat 64 (a.toNat * b.toNat / 2 ^ 64)

/-- Signed quotient, truncated towards zero (R171). -/
def aluDiv (a b : Word) : Word :=
  if b = 0 then BitVec.allOnes 64 else BitVec.ofInt 64 (a.toInt.tdiv b.toInt)

/-- Signed remainder, of the sign of a (R171). -/
def aluRem (a b : Word) : Word :=
  if b = 0 then a else BitVec.ofInt 64 (a.toInt.tmod b.toInt)

/-- Unsigned quotient (R171). -/
def aluDivn (a b : Word) : Word := if b = 0 then BitVec.allOnes 64 else BitVec.ofNat 64 (a.toNat / b.toNat)

/-- Unsigned remainder (R171). -/
def aluRemn (a b : Word) : Word := if b = 0 then a else BitVec.ofNat 64 (a.toNat % b.toNat)

/-- The shift count b[5:0] (R170). -/
def shiftCount (b : Word) : Nat := b.toNat % 64

def aluShl (a b : Word) : Word := a <<< shiftCount b
def aluShr (a b : Word) : Word := a >>> shiftCount b
def aluSha (a b : Word) : Word := a.sshiftRight (shiftCount b)
def aluRotr (a b : Word) : Word := a.rotateRight (shiftCount b)

/-- Leading zero bits, 64 for 0 (R170). -/
def aluClz (a : Word) : Word := BitVec.ofNat 64 (64 - bitLen a.toNat)

/-- Trailing zero bits, 64 for 0 (R170). -/
def aluCtz (a : Word) : Word := BitVec.ofNat 64 (trailZeros 64 a.toNat)

/-- The number of 1 bits (R170). -/
def aluPopc (a : Word) : Word := BitVec.ofNat 64 (popCount 64 a.toNat)

def aluMin (a b : Word) : Word := if b.toInt < a.toInt then b else a
def aluMax (a b : Word) : Word := if a.toInt < b.toInt then b else a
def aluMinn (a b : Word) : Word := if b.toNat < a.toNat then b else a
def aluMaxn (a b : Word) : Word := if a.toNat < b.toNat then b else a
def aluSlt (a b : Word) : Word := if a.toInt < b.toInt then 1 else 0
def aluSltn (a b : Word) : Word := if a.toNat < b.toNat then 1 else 0

/-- IMM13 sign-extended (R170). -/
def imm13 (i : Nat) : Word := BitVec.ofInt 64 (sextInt 13 i)

/-- LIMM: IMM19 sign-extended (R173). -/
def limmValue (i : Nat) : Word := BitVec.ofInt 64 (sextInt 19 i)

/-- LIMMH: the register moved up by 19 bits, IMM19 below (R173). -/
def limmhValue (d : Word) (i : Nat) : Word := BitVec.ofNat 64 (d.toNat * 2 ^ 19 + i)

/-- The condition of PCMP (R174). -/
def pcmpHolds (f : Nat) (a b : Word) : Bool :=
  match f with
  | 0 => a == b
  | 1 => a != b
  | 2 => a.toInt < b.toInt
  | 3 => b.toInt ≤ a.toInt
  | 4 => a.toNat < b.toNat
  | _ => b.toNat ≤ a.toNat

/-- The function of PLOG (R175). -/
def plogValue (f : Nat) (a b : Bool) : Bool :=
  match f with
  | 0 => a && b
  | 1 => a || b
  | 2 => a != b
  | 3 => a && !b
  | 4 => a || !b
  | 5 => !(a && b)
  | 6 => !(a || b)
  | _ => a == b

/-- A value read with a size code: extended to 64 bits (R114). -/
def extendLoad (sz v : Nat) : Word :=
  match sz with
  | 0 => BitVec.ofNat 64 (v % 2 ^ 8)
  | 1 => BitVec.ofNat 64 (v % 2 ^ 16)
  | 2 => BitVec.ofNat 64 (v % 2 ^ 32)
  | 3 => BitVec.ofNat 64 v
  | 4 => BitVec.ofInt 64 (sextInt 8 v)
  | 5 => BitVec.ofInt 64 (sextInt 16 v)
  | _ => BitVec.ofInt 64 (sextInt 32 v)

/-- The access size in bytes of a size code (R114). -/
def accessSize (sz : Nat) : Nat :=
  match sz with
  | 0 => 1 | 4 => 1 | 1 => 2 | 5 => 2 | 2 => 4 | 6 => 4 | _ => 8

end Sys2Proof
end

