-- ==== Sys2Proof/Config.lean ====
section
/-! DEFINITION. What the implementation fixes and the spec does not: free values. Each is a constant without a body, so
nothing in Lean can evaluate it and every statement holds for whatever value it has. -/
namespace Sys2Proof

/-- The n-th choice among the things that may happen next: which agent core, engine or background duty moves, and when a
wait of unstated length ends (R5; DESIGN CHOICE, log 1). -/
opaque Config.choice : Nat → Nat

/-- The mesh hops between two endpoints whose route the configuration does not list (R269; DESIGN CHOICE, log 5). -/
opaque Config.hops : Nat → Nat → Nat

/-- Whether a beat between two endpoints whose path the configuration does not list meets, from a logical cycle on, a router
output that the slot tables do not give it (R273; DESIGN CHOICE, log 5). -/
opaque Config.strays : Nat → Nat → Nat → Bool

/-- The stochastic-rounding draw of an agent core, whose SEED, gang identity and logical cycle the spec does not give
(R77, R147; DESIGN CHOICE, log 14). -/
opaque Config.agentRsd : Nat → Nat

/-- The FMTR that an FCVT of an agent core uses; a core has no FMTR of its own (R147, R179; DESIGN CHOICE, log 14). -/
opaque Config.agentFmtr : Nat

/-- The reading of a sensor (R457; DESIGN CHOICE, log 14). -/
opaque Config.sensor : Nat → Nat → Nat

/-- The cycle latency that link training measures (R446; DESIGN CHOICE, log 5). -/
opaque Config.linkLatency : Nat → Nat → Nat

/-- A byte of a response of the SPDM responder whose content the spec leaves to SPDM 1.3: random data and
signatures (R459; PRESUMED, log 16). -/
opaque Config.spdmByte : Nat → Nat → BitVec 8

/-- The length and the bytes of a package's certificate chain before its identity key (R459; PRESUMED, log 16). -/
opaque Config.certLength : Nat → Nat
opaque Config.certByte : Nat → Nat → BitVec 8

/-- Whether a signature under the Ngueranex signing key is valid for a message digest: the key is not in the spec
(R458; PRESUMED, log 15). -/
opaque Config.sm2Valid : Nat → Nat → Bool

/-- Whether an SPDM peer's authentication message is valid (R459; PRESUMED, log 16). -/
opaque Config.spdmPeerValid : Nat → Bool

/-- A byte of a tree contribution that is late or was never posted, of the result of a broadcast without any contribution, and
of a save area that a freeze writes (R341, R349, R350, R366; DESIGN CHOICE, log 17). -/
opaque Config.treeByte : Nat → BitVec 8

/-- A field of a completion record of KIND 0x04 that the spec does not state: ID, OSIG, LTIME (R409; DESIGN CHOICE, log 14). -/
opaque Config.recordField : Nat → Nat

end Sys2Proof
end

