-- ==== Sys2Proof/Machine/State.lean ====
section
/-! DEFINITION. The state of the machine as plain data: tiles, gangs, tasks, agent cores, memories, the scheduler, trees,
links and Pewter, with the agenda that orders their turns (01, 13, 15, 17, 19, 21, 23, 25, 27). -/
namespace Sys2Proof.Machine

/-- One byte that moves, with the poison of the word that it comes from (R421, R422). -/
structure PByte where
  b : Byte
  p : Bool
deriving DecidableEq, Repr

/-- A scalar register: 64 bits and one poison mark (R15, R422). -/
structure Scalar where
  val : Word
  poison : Bool
deriving DecidableEq, Repr

/-- An entry of the vector file: 1,024 bits and one poison mark per 32-bit word (R183, R422). -/
structure VEntry where
  bits : VWord
  poison : BitVec 32
deriving DecidableEq, Repr

/-- A ring descriptor (R180). -/
structure Ring where
  base : Nat
  size : Nat
  head : Nat
  tail : Nat
deriving DecidableEq, Repr

/-- An entry of the loop stack (R22). -/
structure LoopEntry where
  count : Nat
  idx : Nat
  start : Nat
  stop : Nat
  lb : Nat
  ib : Nat
deriving DecidableEq, Repr

/-- A sticky operation: its syllable and its re-issue count (R22, R122). -/
structure Sticky where
  syl : Nat
  k : Nat
deriving DecidableEq, Repr

/-- An entry of the channel table (R280). -/
structure Chan where
  mode : Nat
  esz : Nat
  depth : Nat
  peer : Nat
  pch : Nat
  first : Nat
  per : Nat
  lat : Nat
deriving DecidableEq, Repr

/-- An element in a channel FIFO and the cycle at which it was pushed (R281). -/
structure Elem where
  data : List PByte
  pushed : Nat
deriving DecidableEq, Repr

/-- The FIFO of a channel end and the last departure from it (R281). -/
structure Fifo where
  elems : List Elem
  departed : Option Nat
deriving DecidableEq, Repr

/-- What a k register is bound to: a send and a receive channel, 127 for none (R282). -/
structure KBind where
  chs : Nat
  chr : Nat
deriving DecidableEq, Repr

/-- FAULTREC0 to FAULTREC3 by field (R417). -/
structure FaultRec where
  v : Bool
  ovf : Nat
  slot : Nat
  cls : Nat
  detail : Nat
  cycle : Nat
  addr : Nat
  info : Word
deriving DecidableEq, Repr

/-- A device-memory location reached through a translation entry: device address, key slot in use, generation domain
(R236, R237). -/
structure DevLoc where
  addr : Nat
  ke : Bool
  key : Nat
  dom : Nat
deriving DecidableEq, Repr

/-- A containment region: its CRSTK entry, whether its failure is in the log, and the values that it saved (R425, R426, R431). -/
structure Region where
  v : Bool
  failed : Bool
  logged : Bool
  pseen : Bool
  point : Nat
  ldep : Nat
  mg : Nat
  haddr : Nat
  saved : List (DevLoc × PByte)
deriving DecidableEq, Repr

/-- The bundle that a tile is issuing (R24); k is 0 for a clear K bit, 1 for a sync mark, 2 for a K bit that is ignored
(R35); quiet is R464's test. -/
structure Active where
  t0 : Nat
  addr : Nat
  next : Nat
  rep : Nat
  i : Nat
  present : Nat
  k : Nat
  q : Bool
  quiet : Bool
  halt : Bool
  branch : Option Nat
  loop : Option LoopEntry
  skipLoop : Option Nat
  resync : Option Nat
  sync : Option Nat
  issued : Nat
deriving DecidableEq, Repr

/-- A SYNC that waits for its pair: level, number, issue cycle, whether its bundle was quiescent (R34, R48). -/
structure SyncWait where
  level : Nat
  number : Nat
  issue : Nat
  quiet : Bool
deriving DecidableEq, Repr

/-- One nest level of the matrix array (R305). -/
structure NestLevel where
  count : Nat
  sa : Int
  sb : Int
  sc : Int
deriving DecidableEq, Repr

/-- The shadow or the active set of the matrix array (R305); kind 0 none, 1 MUL, 2 MULG. -/
structure NestSet where
  mxc0 : Word
  mxc1 : Word
  mxc2 : Word
  levels : Tbl NestLevel
  kind : Nat
  a : Nat
  b : Nat
  c : Nat
  ag : Nat
  rows : List Nat
deriving DecidableEq, Repr

/-- One group of a nest whose operands have been read: where its C words lie, its types, and of each run the bytes, the scale
and whether any of it is poisoned (R310 to R312). -/
structure Group where
  ag : Nat
  cbase : Int
  n : Nat
  ta : Nat
  tb : Nat
  a : List (Nat × Nat × Bool)
  b : List (Nat × Nat × Bool)
deriving DecidableEq, Repr

/-- A nest: its set, its first step cycle, the MGO that started it, its number of steps, whether it has dropped a line
(R309 to R311). -/
structure Nest where
  set : NestSet
  t0 : Nat
  mgo : Nat
  addr : Nat
  steps : Nat
  dropped : Bool
deriving DecidableEq, Repr

/-- A tile descriptor: offset, edge, effective pitch (R320). -/
structure TileDesc where
  off : Nat
  edge : Nat
  pitch : Nat
deriving DecidableEq, Repr

/-- A factorisation instruction in progress (R323, R338): kind 1 MFLU, 2 MFCH, 3 MFQR, 4 MTRS, 5 MPERM; its operands; its
private copy, by rows, for MFQR by columns; the largest element that was read, with the flags of that; what its finished steps
gave. -/
structure Factor where
  kind : Nat
  ag : Nat
  d1 : TileDesc
  d2 : TileDesc
  up : Bool
  tr : Bool
  unit : Bool
  scratch : Bool
  words : Nat
  issue : Nat
  addr : Nat
  pthr : Nat
  a : List (List Nat)
  tri : List (List Nat)
  taus : List Nat
  perm : List Nat
  rows : List (List PByte)
  poison : List Bool
  ma : Nat
  maFlags : Nat
  flags : Nat
  stop : Option Nat
deriving DecidableEq, Repr

/-- What the tile knows of one tree handle: the sticky bits and one above the highest segment delivered (R360). -/
structure TreeStat where
  armed : Bool
  sticky : Nat
  next : Nat
deriving DecidableEq, Repr

/-- A part of a posted beat as it was read: where it lies in the beat, the cycles of its read and of its arrival (R357). -/
structure TreeBeat where
  seg : Nat
  beat : Nat
  off : Nat
  read : Nat
  arrive : Nat
  data : List PByte
deriving DecidableEq, Repr

/-- A TPOST made: its segment, its issue cycle, the offset of its bytes (R357). -/
structure Post where
  seg : Nat
  issue : Nat
  base : Nat
deriving DecidableEq, Repr

/-- An arm of a range by TARM (R354): the member that it stands for and whether as its alternate; whether its slots are
pinned; the range that it belongs to once that is open, and whether it differs from the reference there (R356). -/
structure Arm where
  handle : Nat
  s0 : Nat
  n : Nat
  c : Nat
  issue : Nat
  addr : Nat
  buf : Nat
  cpl : Bool
  irq : Bool
  mi : Nat
  alt : Bool
  live : Bool
  pinned : Bool
  bad : Bool
  range : Option Nat
  posts : List Post
  beats : List TreeBeat
deriving DecidableEq, Repr

/-- A TRECV in force: the segment, where its bytes go, its last delivery cycle, the beats written (R358). -/
structure Cover where
  handle : Nat
  seg : Nat
  base : Nat
  issue : Nat
  addr : Nat
  buf : Nat
  last : Nat
  got : List Nat
deriving DecidableEq, Repr

/-- An entry of the tree-arm list (R353). -/
structure ArmEntry where
  handle : Nat
  cpl : Bool
  irq : Bool
  count : Nat
  coff : Nat
deriving DecidableEq, Repr

/-- A segment signature (R419). -/
structure SegSig where
  count : Nat
  crc : Nat
  nocrc : Bool
deriving DecidableEq, Repr

/-- What this issue cycle has used so far: k heads popped, k registers found empty, V0's lane groups, banks of direct
reads and writes (R111, R187, R214). -/
structure Cycle where
  at_ : Nat
  popped : List (Nat × Elem)
  emptied : List Nat
  lanes : List Nat
  reads : List Nat
  writes : List Nat
deriving DecidableEq, Repr

/-- A tile of a gang (R21, R22, R57, R168, and the chapters of its units); `quietWas` holds, until the end of a cycle in which a
quiescent bundle issued, the one before it (R464); `issuedAt` is the address of the bundle that issued last (R42, R281). -/
structure Tile where
  gid : Nat
  s : Tbl Scalar
  p : Tbl Bool
  m : Tbl Mask
  v : Tbl VEntry
  rings : Tbl Ring
  vct : Tbl Nat
  xp : Tbl (List Nat)
  chans : Tbl Chan
  fifos : Tbl Fifo
  kbind : Tbl KBind
  pc : Nat
  base : Nat
  last : Int
  issuedAt : Nat
  sticky : Tbl Sticky
  loops : List LoopEntry
  jbase : Nat
  syncs : Tbl Nat
  active : Option Active
  late : Int
  wait : Option SyncWait
  halted : Option Nat
  trapped : Option Nat
  quietAt : Nat
  quietWas : Option Nat
  overdue : Option Nat
  code : Tbl Nat
  codeLen : Nat
  badWords : List Nat
  dmr : Nat
  fstatus : Nat
  fmtr : Nat
  seed : Word
  estm : Word
  qbound : Nat
  drnlim : Nat
  fault : FaultRec
  grow : Nat
  fstat : Nat
  perm : Tbl Nat
  quietMap : List Nat
  regions : Tbl Region
  depth : Nat
  mg : Nat
  pmc : Tbl Word
  pmcev : Tbl Nat
  brd : Tbl Word
  bwr : Tbl Word
  bhc : Tbl Word
  hc : Tbl Nat
  segBase : Nat
  segCrc : Nat
  trees : Tbl TreeStat
  arms : List Arm
  covers : List Cover
  armList : List ArmEntry
  segs : List SegSig
  prim : Tbl Nat
  shadow : Tbl Nat
  scratch : List Host.Cell
  scratchPoison : List Nat
  size : Nat
  wsize : Nat
  sbase : Nat
  acc : List Host.Cell
  accPoison : List Nat
  groups : Tbl (List Nat)
  accBound : Nat
  mxc3 : Word
  nestShadow : NestSet
  nestPending : Option Nest
  nest : Option Nest
  factor : Option Factor
  unitTo : Option Nat
  accPath : Option Nat
  agUse : Tbl Nat
  gatherPort : Option Nat
  saccs : List Nat
  dEnds : List Nat
  busyTo : Int
  addrTo : Int
  bpa : Tbl Word
  wr : Tbl Word
  now : Cycle
deriving DecidableEq, Repr

/-- The operation that an effect belongs to: gang identity, slot, bundle address, issue cycle, buffer number (R417). -/
structure Origin where
  gid : Nat
  slot : Nat
  addr : Nat
  issue : Nat
  buf : Nat
deriving DecidableEq, Repr

/-- Where an access goes: a tile's scratch slice by mapped offset, device memory, nowhere because it is denied, or
unresolved (R230, R239, R241). -/
inductive Place where
  | scratch (gid off : Nat)
  | dev (loc : DevLoc)
  | denied
  | unresolved
deriving DecidableEq, Repr

/-- What a read is for: a register; the destination of a beat, with the endpoints of its route; the element of a CHSEND, with
the beats read so far and the lines left; a beat of a tree post; a line of accumulator memory; a piece
of a row of MPERM. -/
inductive After where
  | toReg (code size sz : Nat) (due : Nat)
  | toBeat (dst : Place) (due src end_ : Nat)
  | toPush (ch at_ due : Nat) (sofar : List PByte) (rest : List Nat)
  | toPost (handle seg beat off node : Nat)
  | toAcc (ag off due : Nat)
  | toRow (r : Nat)
deriving DecidableEq, Repr

/-- A write to the shadow set of the matrix array (R305 to R308). -/
inductive ShadowWrite where
  | mxc (n : Nat) (v : Word)
  | level (lv : Nat) (l : NestLevel)
  | clear
  | op (kind a b c ag : Nat) (rows : List Nat)
deriving DecidableEq, Repr

/-- An update of a barrier record (R263): 0 register, 1 complete_beats, 2 arrival; whether its beat was lost on a link (R445). -/
structure BarrierUpdate where
  kind : Nat
  n : Nat
  loc : DevLoc
  poison : Bool := false
deriving DecidableEq, Repr

/-- An effect that is due at a later cycle (R50, R144, R191, R270, R271). -/
inductive Job where
  | sreg (code : Nat) (v : Word) (poison : Bool)
  | pred (n : Nat) (v : Bool)
  | mask (n : Nat) (v en : Mask)
  | vent (entry : Nat) (v en : VWord) (poison : BitVec 32)
  | flags (f : Nat)
  | sysw (r : Nat) (v : Word)
  | fmt (v : Nat)
  | xpat (n : Nat) (ports : List Nat)
  | ringc (h base size : Nat) (clr : Bool)
  | advr (h : Nat) (dh dt : Int)
  | hist (bins : List Nat)
  | chbind (n chs chr : Nat)
  | shadow (w : ShadowWrite)
  | banks (ag : Nat) (bs : List Nat)
  | unbank (ag : Nat)
  | mzero (ag bank nb : Nat)
  | charge (buf rd wr : Nat)
  | read (port : Nat) (src : Place) (len : Nat) (after : After)
  | write (port : Nat) (dst : Place) (data : List PByte)
  | put (bytes : List (Nat × PByte))
  | vread (reads : List Nat) (pieces : List (Nat × Nat)) (entry : Nat) (en : VWord) (due : Nat)
  | atom (op : Nat) (loc : DevLoc) (w : Nat) (b c : Nat) (poison : Bool) (code : Nat) (due : Nat)
  | barrier (u : BarrierUpdate) (rest : List (Nat × BarrierUpdate)) (code : Option Nat) (due : Nat)
  | sacc (off p : Nat) (poison : Bool) (draw sty mode : Nat) (sat : Bool)
  | ctrsnap (off : Nat) (bytes : List PByte)
  | push (ch at_ : Nat) (data : List PByte)
  | arrive (ch : Nat) (data : List PByte)
  | accGet (ag off dst due : Nat)
  | accPut (ag off : Nat) (data : List PByte)
  | mchk (ag c me ne base due : Nat)
  | deliver (handle seg beat flags : Nat) (dst : Place) (data : List PByte)
  | nestC (g : Group)
  | permRow (ag off : Nat) (data : List PByte)
  | permGet (r : Nat)
  | trapFault (cls detail : Nat) (info : Word)
  | copyNest (n : Nest)
deriving DecidableEq, Repr

/-- A due effect with its operation. -/
structure Due where
  due : Nat
  o : Origin
  job : Job
deriving DecidableEq, Repr

/-- A write staged in a cycle: memory kind (0 scratch, 1 accumulator, 2 device), tile, address, byte, and whether it is
atomic (R245). -/
structure Staged where
  space : Nat
  gid : Nat
  addr : Nat
  o : Origin
  atomic : Bool
  bytes : List PByte
  loc : Option DevLoc
  act : Option Job
deriving DecidableEq, Repr

/-- A hold that is announced: cause, announcement, target, whom it charges (R43, R44). Causes: 0 tree-slot miss,
1 refetch, 2 checkpoint, 3 debug, 4 link width, 5 fault. -/
structure Hold where
  cause : Nat
  ta : Nat
  th : Nat
  gid : Nat
  buf : Nat
deriving DecidableEq, Repr

/-- A SNAP in progress (R292). -/
structure SnapReq where
  dom : Nat
  t : Nat
  c : Nat
  code : Nat
  gid : Nat
  addr : Nat
  status : Nat
  g : Nat
deriving DecidableEq, Repr

/-- A GENQ in progress: the samples of the stacks so far (R294). -/
structure GenqReq where
  dom : Nat
  t : Nat
  code : Nat
  gid : Nat
  addr : Nat
  left : List (Nat × Nat)
  live : Nat
  blocks : Nat
  g : Nat
deriving DecidableEq, Repr

/-- A live generation of a domain of a task: its pages (base and length), the words that later writes replaced, by bytes, those
of them that were uncorrectable, the blocks of the domain by stack (package and stack as one number), the operation number of
the drain context of each package, the spare blocks taken (R290, R293, R389, R437). -/
structure Gen where
  task : Nat
  dom : Nat
  number : Nat
  pages : List (Nat × Nat)
  old : Tbl PByte
  bad : List Nat
  left : List (Nat × Nat)
  ops : List (Nat × Nat)
  blocks : List Nat
deriving DecidableEq, Repr

/-- How a gang stands. -/
inductive Run where
  | running
  | frozen (th : Nat)
  | drained (newBase : Nat)
deriving DecidableEq, Repr

/-- A TLAUNCH request held in step mode (R62). -/
structure HeldLaunch where
  gid : Nat
  t : Nat
  loc : DevLoc
deriving DecidableEq, Repr

/-- A gang: the tiles running one task, its logical time and what the gang shares (01, 15, 25); `design` the link widths that its
image was compiled for, by twelve times the logical package plus the link (R448), `mask` the slot-table entries that it owns,
`smask` the slots of each stack (R452, R453), `places` its placements; `doom` says that poison was consumed outside any region,
so that the task ends with CONTAINMENT: the tile, the point and INFO (R424). -/
structure Gang where
  p : Nat
  t : Nat
  pkgs : List Nat
  placeIdx : Nat
  lcyc : Nat
  tiles : Tbl Tile
  dues : List Due
  staged : List Staged
  run : Run
  holds : List Hold
  hclass : Option (Nat × Nat × Nat)
  heldSince : Nat
  resumeAt : Option Nat
  drain : Option (Nat × Nat)
  stopAt : Option Nat
  bank : Nat
  phase : Option (Nat × Nat)
  slots : Tbl (List Nat)
  quota : Tbl (Nat × Nat)
  design : Tbl Nat
  mask : Nat
  smask : Nat
  places : List Nat
  table : Tbl Nat
  tableBad : Bool
  gnum : Tbl Nat
  snaps : List SnapReq
  genqs : List GenqReq
  dctl : Nat
  dctlNext : Option Nat
  launches : List HeldLaunch
  h : Nat
  anyFault : Bool
  doom : Option (Nat × Nat × Word)
deriving DecidableEq, Repr

/-- A dependence of a task (R396): kind 1 a barrier record with the GEN read at acceptance, kind 2 a timeline. -/
structure Dep where
  kind : Nat
  addr : Nat
  g0 : Nat
  core : Nat
  ctx : Nat
  n : Nat
deriving DecidableEq, Repr

/-- A task descriptor (R394). -/
structure TaskDesc where
  image : Nat
  prio : Nat
  policy : Nat
  flags : Nat
  place : Nat
  keysel : Nat
  estm : Nat
  fmap : Nat
  deps : List Nat
deriving DecidableEq, Repr

/-- The states of a task (R398). -/
inductive TaskState where
  | ended (status : Nat)
  | waiting
  | queued
  | running
  | held
  | saving (kind next : Nat)
  | parked
  | restoring
deriving DecidableEq, Repr

/-- An in-flight record of a freeze image (R51). -/
structure FlightRec where
  value : Nat
  src : Nat
  dkind : Nat
  dst : Nat
  due : Nat
  kind : Nat
  len : Nat
  buf : Nat
  orig : Nat
  poison : Nat
  low : Nat
deriving DecidableEq, Repr

/-- A saved image: 1 drain, 2 freeze; the gang as it was saved, its records, whether the digest holds, the number of the
generation into which it was written, 0 for one that a debugger's hold or the end of a task leaves (R48 to R52, R405, R411, R436). -/
structure Image where
  kind : Nat
  gang : Gang
  records : List FlightRec
  intact : Bool
  gen : Nat
deriving DecidableEq, Repr

/-- A task (R394 to R400): its place in its function's queue, the core, the package and the operation number of its TASKQ, the
slices that it has spent at the head of its queue, its gang, its saved image, its frames as runs of frames; whether it was
extended at the last decision and when it is decided on again; whether it parks after its save; whether a freeze image was saved
for FIMG; whether it was restarted; the wall cycle of a kill that is decided; the freeze image that a debug hold, a fault hold or
FIMG leaves to be read (R41, R424, R436); the wall cycle by which the scheduler takes its next step with it (R56). -/
structure Task where
  id : Nat
  fn : Nat
  desc : TaskDesc
  st : TaskState
  deps : List Dep
  order : Int
  core : Nat
  home : Nat
  op : Nat
  parent : Option Nat
  waited : Nat
  gang : Option Gang
  image : Option Image
  frames : List (Nat × Nat)
  extended : Bool
  redecide : Option Nat
  park : Bool
  fimg : Bool
  restarted : Bool
  killAt : Option Nat
  snap : Option Image
  dueBy : Option Nat
deriving DecidableEq, Repr

/-- An operation of a copy context (R390, R391): its descriptor, the level and function of its core, the bytes done, whether
its register is made, whether it was refused or met a frame that is not accessible. -/
structure CopyOp where
  n : Nat
  dst : Nat
  src : Nat
  len : Nat
  bar : Option Nat
  arv : Bool
  lv : Nat
  fn : Nat
  started : Bool
  at_ : Nat
  refused : Bool
deriving DecidableEq, Repr

/-- An engine context: submissions, the copies that are not complete, open batch and closed batches, refusals (R255, R389 to
R391). -/
structure Ctx where
  sub : Nat
  ops : List CopyOp
  openBatch : List Nat
  closed : List (List Nat)
  errCount : Nat
  errOpn : Nat
deriving DecidableEq, Repr

/-- What an agent core waits for (R392, R393). -/
inductive Wait where
  | line (addr : Nat) (limit : Option Nat) (since : Nat) (hit : Bool) (d : Nat)
  | timeline (ctx n d : Nat)
  | batches (ctx n d : Nat)
deriving DecidableEq, Repr

/-- A store of an agent core that has not performed: class and bytes from an address (R250, R251). -/
structure Store where
  cls : Nat
  addr : Nat
  bytes : List PByte
deriving DecidableEq, Repr

/-- An agent core (R373 to R385). -/
structure AgentCore where
  s : Tbl Word
  p : Tbl Bool
  pc : Word
  fstatus : Nat
  plv : Nat
  lv : Nat
  ecause : Word
  epc : Word
  eval : Word
  etvec : Word
  afunc : Nat
  tsel : Nat
  sram : List Host.Cell
  sramPoison : List Nat
  lines : List Nat
  ctxs : Tbl Ctx
  wait : Option Wait
  stores : List Store
deriving DecidableEq, Repr

/-- A completion record that waits for its queue, 32 bytes but SEQ (R369, R399). -/
structure CplRec where
  kind : Nat
  status : Nat
  id : Nat
  osig : Nat
  ltime : Nat
  wtime : Nat
  flags : Nat
  raw : Option (List Byte)
deriving DecidableEq, Repr

/-- What an event does when the serialiser accepts it: a record of a function, a TLAUNCH request, a generation that is counted, or
nothing beside its serial number (R59, R165, R389, R399). -/
inductive EvAct where
  | note
  | record (fn : Nat) (r : CplRec)
  | launch (loc : DevLoc)
  | gen (task dom number : Nat)
deriving DecidableEq, Repr

/-- An event on its way to the serialiser: its source in the order of R59 (0 reset, 1 Pewter, 2 fault, 3 instant, 4 completion
record, 5 barrier arrival, 6 task request, 7 host write), the task that produced it, LCYC and gang identity, the physical place
by package and tile (R59, R60). -/
structure Ev where
  source : Nat
  task : Option Nat
  lcyc : Nat
  gid : Nat
  place : Nat
  act : EvAct
deriving DecidableEq, Repr

/-- A function of the host port: completion queue, waiting records, the last task number (R399, R462, R395). -/
structure Fn where
  cqbase : Nat
  cqsize : Nat
  cqhead : Nat
  cqtail : Nat
  cqlost : Nat
  cqvec : Nat
  pending : List CplRec
  seq : Nat
deriving DecidableEq, Repr

/-- A key slot: empty 0, 1 AES-256-XTS, 2 SM4-XTS, and its two keys (R408, R455). -/
structure KeySlot where
  alg : Nat
  k1 : Nat
  k2 : Nat
deriving DecidableEq, Repr

/-- The last scrub that was accepted: its tiles, its frames, its units done (R409, R414). -/
structure ScrubJob where
  tiles : Nat
  frames : List Nat
  done : Nat
deriving DecidableEq, Repr

/-- A Rosondent link: status register with W as the number of working lanes, the lane map that is wanted, the lanes to be
retired, the corrected symbols by lane since the last training, measured latency (R445 to R449). -/
structure Link where
  unc : Nat
  corr : Nat
  w : Nat
  lmap : Nat
  next : Option Nat
  drop : Nat
  errs : Tbl Nat
  latency : Option Nat
deriving DecidableEq, Repr

/-- A tree slot of a router: its handle, when it was last armed, the arms that pin it by task, tile and first segment
(R355). -/
structure TreeSlot where
  handle : Nat
  used : Nat
  pins : List (Nat × Nat × Nat)
deriving DecidableEq, Repr

/-- An entry of the error log (R431). -/
structure LogEntry where
  wtime : Nat
  sev : Nat
  unit : Nat
  place : Nat
  task : Nat
  addr : Nat
  code : Nat
deriving DecidableEq, Repr

/-- A firmware bank (R458): Pewter's firmware and the agent firmware (R385). -/
structure FwBank where
  version : Nat
  bytes : List Byte
  agent : List Byte
  valid : Bool
deriving DecidableEq, Repr

/-- The SPDM responder's connection (R459): the requests answered so far in order. -/
structure Spdm where
  version : Bool
  caps : Bool
  algs : Bool
  session : Nat
  authed : Bool
deriving DecidableEq, Repr

/-- Pewter, the management controller of a package (R1, R431, R407, R456 to R459): the error log, the firmware banks, the least
version, the SPDM responder, the attestation log, the device identity key; whether the warning temperature is reported, whether
the package has power. -/
structure Pewter where
  log : List LogEntry
  banks : Tbl FwBank
  activeBank : Nat
  minVersion : Nat
  spdm : Spdm
  attested : List (List Byte)
  idKey : Nat
  hotWarn : Bool
  powered : Bool
deriving DecidableEq, Repr

/-- A physical tile that runs no task, as its last one left it, with the logical cycle and the T of that one's gang: what the
tile window of a core shows and writes (R383). -/
structure IdleTile where
  tile : Tile
  lcyc : Nat
  t : Nat
deriving DecidableEq, Repr

/-- What a package holds beside its tiles and cores (23, 27): `limits` QBOUND and DRNLIM of its physical tiles, `idle` the
tiles on which a task has been or the window has written (R383), `debug` the
debug registers of its physical tiles, 0 to 7 BPA and 8 to 11 WR (R432), `since` the wall cycle of its last module reset, from which
WCYC counts (R57). -/
structure Pkg where
  spres : Nat
  drnslot : Nat
  quarTiles : Nat
  quarFrames : List Nat
  scrub : Option ScrubJob
  keys : Tbl KeySlot
  links : Tbl Link
  drainSub : Nat
  limits : Tbl (Nat × Nat)
  idle : Tbl IdleTile
  treeSlots : Tbl (Tbl TreeSlot)
  wrapKey : Nat
  scrPos : Nat
  debug : Tbl (Tbl Word)
  since : Nat
  pewter : Pewter
deriving DecidableEq, Repr

/-- A partition of a package's tiles: its admitted functions, the one whose turn it is, the one whose turn is decided to be
next, 256 while that is not decided (R402, R403). -/
structure Partition where
  pkg : Nat
  tiles : Nat
  fns : List Nat
  turn : Nat
  next : Nat
deriving DecidableEq, Repr

/-- An edit of the membership from a segment on, and whether an arm has reached it (R364). -/
structure TreeEdit where
  at_ : Nat
  changes : List (Nat × Bool)
  reached : Bool
deriving DecidableEq, Repr

/-- A range of a tree that is open: the task, what its reference arm says, its completion cycle, the members and edits with which
it was folded once that is over, the beats that a router between two nodes spoiled, by segment and beat (R273, R354 to R356, R364). -/
structure TreeRange where
  id : Nat
  task : Nat
  s0 : Nat
  n : Nat
  c : Nat
  complete : Option Nat
  folded : Option (List Nat × List TreeEdit)
  spoiled : List (Nat × Nat)
deriving DecidableEq, Repr

/-- A delivery of a result beat to a tile: the cycles of its emission and of its write, whether a router spoils it (R273, R347,
R358). -/
structure Delivery where
  range : Nat
  task : Nat
  gid : Nat
  seg : Nat
  beat : Nat
  from_ : Nat
  due : Nat
  lost : Bool
deriving DecidableEq, Repr

/-- A live tree of the tree table (R341 to R346, R363 to R367): its attributes, its member words, its edits, its open ranges,
the deliveries on their way, the number of its next range. -/
structure Tree where
  frozen : Bool
  op : Nat
  fmt : Nat
  kind : Nat
  wide : Bool
  segu : Nat
  root : Nat
  t : Nat
  fn : Nat
  save : Nat
  saveSize : Nat
  members : List Nat
  edits : List TreeEdit
  ranges : List TreeRange
  out : List Delivery
  users : List Nat
  next : Nat
deriving DecidableEq, Repr

/-- What the device tells the outside world: an interrupt, a response to a request (R399, R441, R456, R459). -/
structure Out where
  kind : Nat
  who : Nat
  value : List Nat
deriving DecidableEq, Repr

/-- A page move in progress (R410). -/
structure Migration where
  task : Nat
  va : Nat
  dst : Nat
  key : Nat
  entry : Nat
deriving DecidableEq, Repr

/-- A router output that a beat meets: router, output port, input port, cycles after it leaves its source (R273, R452). -/
structure Crossing where
  router : Nat
  output : Nat
  input : Nat
  after : Nat
deriving DecidableEq, Repr

/-- A generation as the drain engine has written it to the lower tier: its bytes and the words with the poison indication (R293,
R439). -/
structure Drained where
  task : Nat
  dom : Nat
  number : Nat
  bytes : List Host.Cell
  poison : List Nat
deriving DecidableEq, Repr

/-- The signed configuration record as data (R2, R401, R447, R449, R450, R467): packages, the placement table, reserved frames; for
listed routes the mesh hops and the router outputs on the way; the design widths of links by sixteen times the package plus the
link, the corrected symbols above which a lane is retired (0 for no limit), its bytes as they are signed. -/
structure Cfg where
  packages : Nat
  stepping : Nat
  placements : Tbl (List Nat)
  reserved : List Nat
  hops : List (Nat × Nat × Nat)
  paths : List (Nat × Nat × List Crossing)
  dw : Tbl Nat
  laneLimit : Nat
  bytes : List Byte
  verified : Bool
deriving DecidableEq, Repr

/-- An event of the outside world, from a wall cycle on (R5): a step with its parameters and the function that asks for it, 255 the
physical one, 256 the management bus (R456); or a write by the host of its own system space, with the poison indication (R440). -/
inductive Input where
  | event (at_ : Nat) (act : Instr) (by_ : Nat) (args : List Nat)
  | hostWrite (at_ addr : Nat) (bytes : List Byte) (ep : Bool)
deriving DecidableEq, Repr

/-- Whose turn it is. -/
inductive Actor where
  | none
  | agent (core : Nat)
  | tile (task gid slot k addr : Nat)
  | event (task gid : Nat)
  | outside (args : List Nat)
deriving DecidableEq, Repr

/-- A turn of the wall cycle in progress: a core fetches, a tile issues a syllable in a slot with a re-issue count, an event
happens, a part of a gang's cycle begins, the serialiser accepts what has arrived, the drain engine goes on with the part of a
generation on a stack. -/
inductive Turn where
  | agentFetch (core : Nat)
  | issue (task gid slot k addr syl : Nat)
  | act (i : Instr) (who : Actor)
  | phase (task ph : Nat)
  | tileTurn (task gid : Nat)
  | endBundle (task gid : Nat)
  | drainStore (core : Nat)
  | hostWrite (addr : Nat) (bytes : List Byte) (ep : Bool)
  | serialise
  | drainGen (task dom number stk : Nat)
deriving DecidableEq, Repr

/-- A fault that ends a run: no step of this model raises one; the type is kept for the interface (safe). -/
inductive Fault where
  /-- Raised by nothing in this model: every fault of the spec is a state (safe). -/
  | none
deriving DecidableEq, Repr

/-- Why a step is refused. -/
inductive Refusal where
  /-- Raised by an arm of Dispatch whose instruction has no meaning yet (safe). -/
  | notModelled (mnemonic : String)
deriving DecidableEq, Repr

/-- The state of the machine: `tier` what the drain engine has written to the lower tier (R293); of the host port the mode, width,
rate in tenths of GT/s and flit size that it trained to, the HDM decoders as host base, size and device base, the IDE streams, the device-memory
lines that the host caches (R261, R440, R442). -/
structure State where
  wall : Nat
  agenda : List Turn
  cur : Actor
  inputs : List Input
  tape : Nat
  cfg : Cfg
  cores : Tbl AgentCore
  dev : List Host.Cell
  devPoison : List Nat
  devBad : List Nat
  sys : List Host.Cell
  sysPoison : List Nat
  tasks : Tbl Task
  fns : Tbl Fn
  pkgs : Tbl Pkg
  parts : Tbl Partition
  grants : Tbl Nat
  slice : Nat
  sepoch : Word
  dcycStart : Option Nat
  ptm : Option (Nat × Nat)
  serial : Nat
  arrivals : List Ev
  imageGens : Nat
  order : Nat
  front : Nat
  trees : Tbl Tree
  migrations : List Migration
  gens : List Gen
  tier : List Drained
  hostMode : Nat
  hostWidth : Nat
  hostRate : Nat
  hostFlit : Nat
  hdm : List (Nat × Nat × Nat)
  ide : Tbl Nat
  hostLines : List Nat
  out : List Out
deriving DecidableEq, Repr

/-- An engine context that has had no operation (R385). -/
def Ctx.reset : Ctx :=
  { sub := 0, ops := [], openBatch := [], closed := [], errCount := 0, errOpn := 0 }

/-- An agent core at release (R383 to R385); ECAUSE, EPC and EVAL have no reset value in the spec and hold 0 (DESIGN CHOICE, log 12). -/
def AgentCore.reset : AgentCore :=
  { s := [], p := [], pc := 0x800000000000, fstatus := 0, plv := 1, lv := 1, ecause := 0, epc := 0, eval := 0,
    etvec := 0x800000000100, afunc := 0xFF, tsel := 0, sram := [], sramPoison := [], lines := [], ctxs := [],
    wait := none, stores := [] }

/-- A function after its reset (R462); its task sequence number starts at 0 (DESIGN CHOICE, log 12). -/
def Fn.reset : Fn :=
  { cqbase := 0, cqsize := 0, cqhead := 0, cqtail := 0, cqlost := 0, cqvec := 0, pending := [], seq := 0 }

/-- An empty key slot (R408). -/
def KeySlot.empty : KeySlot := { alg := 0, k1 := 0, k2 := 0 }

/-- A link after reset, trained with all its lanes; its measured latency is listed once it trains again (R447, R461; DESIGN CHOICE,
log 11). -/
def Link.reset : Link :=
  { unc := 0, corr := 0, w := 16, lmap := 0xFFFF, next := none, drop := 0, errs := [], latency := none }

/-- Pewter of a package at release; the firmware banks, the least version and the identity key have no reset value (DESIGN CHOICE,
log 12). -/
def Pewter.reset : Pewter :=
  { log := [], banks := [], activeBank := 0, minVersion := 0,
    spdm := { version := false, caps := false, algs := false, session := 0, authed := false }, attested := [],
    idKey := 0, hotWarn := false, powered := true }

/-- A package at release (R384, R408, R409); the wrapping key and the router tree slots have no reset value (DESIGN CHOICE, log 12). -/
def Pkg.reset : Pkg :=
  { spres := 3, drnslot := 4, quarTiles := 0, quarFrames := [], scrub := none, keys := [], links := [], drainSub := 0,
    limits := [], idle := [], treeSlots := [], wrapKey := 0, scrPos := 0, debug := [], since := 0,
    pewter := Pewter.reset }

/-- The first partition: every tile of package 0, admitting the 64 functions 255 and 0 to 62 (DESIGN CHOICE, log 13). -/
def Partition.whole (pkg : Nat) : Partition :=
  { pkg := pkg, tiles := 0xFFFFFFFF, fns := 255 :: List.range 63, turn := 255, next := 256 }

/-- The configuration record of a module by itself: one package, the identity placement, no reserved frame (DESIGN CHOICE, log 4). -/
def Cfg.single : Cfg :=
  { packages := 1, stepping := 1, placements := [(0, List.range 32)], reserved := [], hops := [], paths := [],
    dw := [], laneLimit := 0, bytes := [], verified := true }

/-- The machine right after reset: the release point of R385 and R461. -/
def State.reset : State :=
  { wall := 0, agenda := [.agentFetch 0], cur := .none, inputs := [], tape := 0, cfg := Cfg.single, cores := [],
    dev := [], devPoison := [], devBad := [], sys := [], sysPoison := [], tasks := [], fns := [], pkgs := [],
    parts := [(0, Partition.whole 0)], grants := [], slice := 1000, sepoch := 0, dcycStart := some 0, ptm := none,
    serial := 0, arrivals := [], imageGens := 0, order := 0, front := 0, trees := [], migrations := [], gens := [], tier := [],
    hostMode := 1, hostWidth := 16, hostRate := 640, hostFlit := 256, hdm := [], ide := [], hostLines := [], out := [] }

end Sys2Proof.Machine
end

