-- ==== Sys2Proof/Machine/Tables.lean ====
section
/-! DEFINITION. Tables by number and byte memories: rising keys, no entry equal to what an unlisted key holds. -/
namespace Sys2Proof

/-- What a key of a table holds; d stands for an unlisted key. -/
def look {α : Type} (d : α) : Tbl α → Nat → α
  | [], _ => d
  | (k, v) :: t, n => if n = k then v else look d t n

/-- What a key of a table holds, if it is listed. -/
def find? {α : Type} : Tbl α → Nat → Option α
  | [], _ => none
  | (k, v) :: t, n => if n = k then some v else find? t n

/-- The table with a key set, whatever the value. -/
def setKey {α : Type} (t : Tbl α) (n : Nat) (x : α) : Tbl α :=
  match t with
  | [] => [(n, x)]
  | (k, v) :: r => if n < k then (n, x) :: (k, v) :: r else if n = k then (n, x) :: r else (k, v) :: setKey r n x

/-- The table without a key. -/
def dropKey {α : Type} (t : Tbl α) (n : Nat) : Tbl α :=
  match t with
  | [] => []
  | (k, v) :: r => if n < k then (k, v) :: r else if n = k then r else (k, v) :: dropKey r n

/-- The table with a key put to a value; the default value is not listed. -/
def put {α : Type} [DecidableEq α] (d : α) (t : Tbl α) (n : Nat) (x : α) : Tbl α :=
  if x = d then dropKey t n else setKey t n x

/-- The keys rise and none is at or below lo. -/
def risesFrom {α : Type} (lo : Nat) : Tbl α → Bool
  | [] => true
  | (k, _) :: t => lo ≤ k && risesFrom (k + 1) t

/-- The canonical form of a table: rising keys, no entry equal to the default. -/
def tableWf {α : Type} [DecidableEq α] (d : α) (t : Tbl α) : Bool := risesFrom 0 t && t.all (fun e => e.2 ≠ d)

/-- What an unlisted byte of memory reads as (DESIGN CHOICE, log 3). -/
def emptyByte : Byte := 0

/-- The canonical form of a memory. -/
def Memory.wf (m : List Host.Cell) : Bool := tableWf emptyByte m

/-- One byte of a memory. -/
def readByte (m : List Host.Cell) (a : Nat) : Byte := look emptyByte m a

/-- A memory with one byte written. -/
def writeByte (m : List Host.Cell) (a : Nat) (b : Byte) : List Host.Cell := put emptyByte m a b

/-- n bytes from an address. -/
def readBytes (m : List Host.Cell) (a : Nat) : Nat → List Byte
  | 0 => []
  | n + 1 => readByte m a :: readBytes m (a + 1) n

/-- Bytes written from an address on. -/
def writeBytes (m : List Host.Cell) (a : Nat) : List Byte → List Host.Cell
  | [] => m
  | b :: bs => writeBytes (writeByte m a b) (a + 1) bs

/-- A number added to a rising list of numbers. -/
def addNum (xs : List Nat) (n : Nat) : List Nat :=
  match xs with
  | [] => [n]
  | x :: r => if n < x then n :: x :: r else if n = x then x :: r else x :: addNum r n

/-- A number taken out of a list of numbers. -/
def delNum (xs : List Nat) (n : Nat) : List Nat := xs.filter (· != n)

end Sys2Proof
end

