-- ==== Sys2Proof/Machine/Ops.lean ====
section
/-! DEFINITION. The named operations over the state: cores, tasks, gangs and tiles, device and system memory with poison
and preserved generations, agent registers, agent exceptions and their return (13, 23, 25). -/
namespace Sys2Proof.Machine

abbrev Outcome := Host.Outcome State Fault Refusal

/-! ### Cores, functions, packages, tasks, tiles -/

/-- An agent core by its number: package times 8 plus the core of the package (R373). -/
def State.core (s : State) (c : Nat) : AgentCore := look AgentCore.reset s.cores c

def State.setCore (s : State) (c : Nat) (x : AgentCore) : State := { s with cores := setKey s.cores c x }

def State.fn (s : State) (f : Nat) : Fn := look Fn.reset s.fns f

def State.setFn (s : State) (f : Nat) (x : Fn) : State := { s with fns := setKey s.fns f x }

def State.pkg (s : State) (p : Nat) : Pkg := look Pkg.reset s.pkgs p

def State.setPkg (s : State) (p : Nat) (x : Pkg) : State := { s with pkgs := setKey s.pkgs p x }

def State.task (s : State) (t : Nat) : Option Task := find? s.tasks t

def State.setTask (s : State) (x : Task) : State := { s with tasks := setKey s.tasks x.id x }

/-- A change of a task that exists. -/
def State.onTask (s : State) (t : Nat) (f : Task → Task) : State :=
  match s.task t with
  | none => s
  | some x => s.setTask { f x with id := t }

/-- The gang of a task that has tiles (R16). -/
def State.gang (s : State) (t : Nat) : Option Gang :=
  match s.task t with
  | none => none
  | some x => x.gang

def State.onGang (s : State) (t : Nat) (f : Gang → Gang) : State :=
  s.onTask t (fun x => match x.gang with
    | none => x
    | some g => { x with gang := some (f g) })

/-- A tile of a gang by its gang identity (R18). -/
def Gang.tile (g : Gang) (i : Nat) : Option Tile := find? g.tiles i

def Gang.onTile (g : Gang) (i : Nat) (f : Tile → Tile) : Gang :=
  match g.tile i with
  | none => g
  | some x => { g with tiles := setKey g.tiles i (f x) }

def State.tile (s : State) (t i : Nat) : Option Tile :=
  match s.gang t with
  | none => none
  | some g => g.tile i

def State.onTile (s : State) (t i : Nat) (f : Tile → Tile) : State := s.onGang t (fun g => g.onTile i f)

/-- The core whose turn it is; core 0 when it is nobody's. -/
def State.coreId (s : State) : Nat :=
  match s.cur with
  | .agent c => c
  | _ => 0

/-- The core whose turn it is. -/
def State.me (s : State) : AgentCore := s.core s.coreId

def State.onMe (s : State) (f : AgentCore → AgentCore) : State := s.setCore s.coreId (f s.me)

/-- The package of the core whose turn it is. -/
def State.myPkg (s : State) : Nat := s.coreId / 8

/-- The task of the event or tile whose turn it is. -/
def State.evTask (s : State) : Nat :=
  match s.cur with
  | .event t _ => t
  | .tile t _ _ _ _ => t
  | .outside (t :: _) => t
  | _ => 0

/-- The tile of the event or issue whose turn it is. -/
def State.evGid (s : State) : Nat :=
  match s.cur with
  | .event _ g => g
  | .tile _ g _ _ _ => g
  | .outside (_ :: g :: _) => g
  | _ => 0

/-- The i-th parameter that the outside world gives with its event. -/
def State.arg (s : State) (i : Nat) : Nat :=
  match s.cur with
  | .outside as => nthD 0 as i
  | .event t g => if i = 0 then t else g
  | _ => 0

/-- The next free value of the interleaving, below n (DESIGN CHOICE, log 1). -/
def State.choose (s : State) (n : Nat) : Nat × State :=
  (Config.choice s.tape % (if n = 0 then 1 else n), { s with tape := s.tape + 1 })

/-- The device tells the outside world something. -/
def State.emit (s : State) (kind who : Nat) (value : List Nat) : State :=
  { s with out := s.out ++ [{ kind := kind, who := who, value := value }] }

/-- Pewter's log holds 4,096 entries: a full log loses its oldest entry of severity 0, else its oldest (R431). -/
def logAdd (l : List LogEntry) (e : LogEntry) : List LogEntry :=
  if l.length < 4096 then l ++ [e]
  else
    match l.findIdx? (fun x => x.sev == 0) with
    | some i => l.eraseIdx i ++ [e]
    | none => l.drop 1 ++ [e]

/-- Pewter of a package, changed. -/
def State.onPewter (s : State) (p : Nat) (f : Pewter → Pewter) : State :=
  s.setPkg p { s.pkg p with pewter := f (s.pkg p).pewter }

/-- An entry of the log of the package that `place` names above its lowest nine bits (R1, R431). -/
def State.logEvent (s : State) (sev unit place task addr code : Nat) : State :=
  s.onPewter (place / 512) (fun w =>
    { w with log := logAdd w.log { wtime := s.wall, sev := sev, unit := unit, place := place, task := task, addr := addr,
                                   code := code } })

/-! ### Bytes with poison -/

/-- Bytes as they are, without poison. -/
def clean (bs : List Byte) : List PByte := bs.map (fun b => { b := b, p := false })

/-- n bytes of a number, all with one mark. -/
def pbytes (n x : Nat) (p : Bool) : List PByte := (leBytes n x).map (fun b => { b := b, p := p })

/-- The value of bytes (R12). -/
def pval (bs : List PByte) : Nat := leNat (bs.map (·.b))

/-- Whether any byte is poisoned. -/
def anyPoison (bs : List PByte) : Bool := bs.any (·.p)

/-- n zero bytes with the poison mark: a dropped read (R272, R311). -/
def droppedBytes (n : Nat) : List PByte := pbytes n 0 true

/-- n bytes of words 0x7FE4_0000 with the poison mark, from an address (R421). -/
def poisonedBytes (a : Nat) : Nat → List PByte
  | 0 => []
  | n + 1 => { b := BitVec.ofNat 8 (0x7FE40000 / 2 ^ (8 * (a % 4)) % 256), p := true } :: poisonedBytes (a + 1) n

/-- n bytes of a memory with the marks of their words. -/
def readP (m : List Host.Cell) (marks : List Nat) (a : Nat) : Nat → List PByte
  | 0 => []
  | n + 1 => { b := readByte m a, p := marks.contains (a / 4) } :: readP m marks (a + 1) n

/-- The poison marks after one byte is written at an address: a byte alone ORs its mark into its word (R422). -/
def markByte (marks : List Nat) (a : Nat) (p : Bool) : List Nat := if p then addNum marks (a / 4) else marks

/-- The marks after bytes are written from an address: a whole word takes the OR of its bytes, a part of one ORs (R422). -/
def markBytes (marks : List Nat) (a : Nat) : List PByte → List Nat
  | [] => marks
  | b :: bs =>
    if a % 4 = 0 ∧ bs.drop 2 ≠ [] then
      markBytes (if anyPoison (b :: bs.take 3) then addNum marks (a / 4) else delNum marks (a / 4)) (a + 1) bs
    else markBytes (markByte marks a b.p) (a + 1) bs

/-! ### Device and system memory -/

/-- The bytes of a device address that fall below 48 GiB of a stack (R376). -/
def stackLimit : Nat := 0xC00000000

/-- A device address from its parts (R376). -/
def devAddr (pkg stk a : Nat) : Nat := pkg * 2 ^ 39 + stk * 2 ^ 36 + a

/-- The 2 MiB frame of a device address, numbered over the domain. -/
def frameOf (a : Nat) : Nat := a / 2 ^ 21

/-- Marks the watched lines that a write of n bytes at an agent address meets (R393). -/
def wakeCores (cores : Tbl AgentCore) (a n : Nat) : Tbl AgentCore :=
  cores.map (fun e => match e.2.wait with
    | some (.line w l sn _ d) =>
      if a < w + 64 ∧ w < a + n then (e.1, { e.2 with wait := some (.line w l sn true d) }) else e
    | _ => e)

/-- A read of device memory; an uncorrectable word delivers the poison value (R421). -/
def State.devRead (s : State) (a : Nat) : Nat → List PByte
  | 0 => []
  | n + 1 =>
    (if s.devBad.contains (a / 4) then
       { b := BitVec.ofNat 8 (0x7FE40000 / 2 ^ (8 * (a % 4)) % 256), p := true }
     else { b := readByte s.dev a, p := s.devPoison.contains (a / 4) }) :: s.devRead (a + 1) n

/-- Whether a generation has an address. -/
def Gen.has (g : Gen) (a : Nat) : Bool := g.pages.any (fun p => p.1 ≤ a && a < p.1 + p.2)

/-- A generation keeps a word before a write replaces it, the first time (R290). -/
def Gen.keepWord (g : Gen) (s : State) (w : Nat) : Gen :=
  if !g.has (4 * w) ∨ (find? g.old (4 * w)).isSome then g
  else
    { g with
      old := (((upFrom (4 * w) 4).zip (s.devRead (4 * w) 4)).foldl (fun t e => setKey t e.1 e.2) g.old)
      bad := if s.devBad.contains w then addNum g.bad w else g.bad }

/-- The words that n bytes from an address meet. -/
def wordsOf (a n : Nat) : List Nat := if n = 0 then [] else upFrom (a / 4) ((a + n - 1) / 4 + 1 - a / 4)

/-- The first write of a block since the newest snapshot of a page's domain takes a spare block (R290). -/
def redirectBlock : List Gen → Nat → List Gen
  | [], _ => []
  | g :: gs, a =>
    if g.pages.any (fun p => p.1 ≤ a && a < p.1 + p.2) then
      (if gs.any (fun h => h.task == g.task && h.dom == g.dom) then g :: redirectBlock gs a
       else { g with blocks := addNum g.blocks (a / 65536) } :: gs)
    else g :: redirectBlock gs a

/-- The uncorrectable words that n bytes from an address meet. -/
def State.badHit (s : State) (a n : Nat) : List Nat := s.devBad.filter (fun w => (wordsOf a n).contains w)

/-- Device memory with the bytes of a list of words as an uncorrectable word delivers them (R421). -/
def fillBad (m : List Host.Cell) (ws : List Nat) : List Host.Cell :=
  ws.foldl (fun m w => writeBytes m (4 * w) (leBytes 4 0x7FE40000)) m

/-- A write of device memory: the bytes, their marks, the generations that keep the old ones, the watched lines. A write to an
uncorrectable word clears it; the bytes of the word that it does not write are those that the word delivers
(R244, R250, R290, R393, R422, R437). -/
def State.devWrite (s : State) (a : Nat) (bs : List PByte) : State :=
  { s with
    gens := redirectBlock (s.gens.map (fun g => (wordsOf a bs.length).foldl (fun g w => g.keepWord s w) g)) a
    dev := writeBytes (fillBad s.dev (s.badHit a bs.length)) a (bs.map (·.b))
    devPoison := markBytes ((s.badHit a bs.length).foldl addNum s.devPoison) a bs
    devBad := s.devBad.filter (fun w => !(wordsOf a bs.length).contains w)
    hostLines := s.hostLines.filter (fun l => !(l < a + bs.length && a < l + 64))
    cores := wakeCores s.cores a bs.length }

/-- The agent address of a system-space address (R375). -/
def sysBase : Nat := 2 ^ 46

/-- A write of system space; poisoned words carry the poison indication (R390). -/
def State.sysWrite (s : State) (a : Nat) (bs : List PByte) : State :=
  { s with
    sys := writeBytes s.sys a (bs.map (·.b))
    sysPoison := markBytes s.sysPoison a bs
    cores := wakeCores s.cores (sysBase + a) bs.length }

/-- Device memory and system memory are in their canonical form. -/
def State.memWf (s : State) : Prop := Memory.wf s.dev = true ∧ Memory.wf s.sys = true

def State.sysRead (s : State) (a n : Nat) : List PByte := readP s.sys s.sysPoison a n

/-! ### Agent addresses -/

/-- The space of an agent address (R375). -/
inductive Space where
  | dev (a : Nat)
  | sys (a : Nat)
  | sram (a : Nat)
deriving DecidableEq, Repr

/-- Whether a device address exists: its package is there and its stack address lies below the limit (R376). -/
def State.devExists (s : State) (a : Nat) : Bool := a / 2 ^ 39 < s.cfg.packages && a % 2 ^ 36 < stackLimit

/-- Whether a frame is quarantined (R409). -/
def State.frameQuarantined (s : State) (f : Nat) : Bool :=
  (s.pkg (f / 2 ^ 18)).quarFrames.contains f

/-- Whether a frame is granted to a function and neither reserved nor quarantined (R376, R467). -/
def State.frameOpen (s : State) (fn f : Nat) : Bool :=
  find? s.grants f == some fn && !s.cfg.reserved.contains f && !s.frameQuarantined f

/-- An agent address checked at a level for a function: its space, or none for an access exception (R375, R376). -/
def State.space (s : State) (lv fn a : Nat) : Option Space :=
  if a / 2 ^ 48 ≠ 0 then none
  else
    let x := a % 2 ^ 46
    match a / 2 ^ 46 with
    | 0 => if s.devExists x ∧ (lv = 1 ∨ s.frameOpen fn (frameOf x)) then some (.dev x) else none
    | 1 => some (.sys x)
    | 2 => if x < 2 ^ 16 then some (.sram x) else none
    | _ => none

/-- Whether the n bytes from an address all lie in accessible space, of one kind (R375, R376, R379). -/
def State.spaceOk (s : State) (lv fn a n : Nat) : Bool :=
  (s.space lv fn a).isSome && (s.space lv fn (a + n - 1)).isSome && a / 2 ^ 46 == (a + n - 1) / 2 ^ 46

/-- The bytes of an agent read, stores of the core already performed; poison with each byte. -/
def State.agentRead (s : State) (c a n : Nat) : List PByte :=
  match a / 2 ^ 46 with
  | 0 => s.devRead (a % 2 ^ 46) n
  | 1 => s.sysRead (a % 2 ^ 46) n
  | _ => readP (s.core c).sram (s.core c).sramPoison (a % 2 ^ 16) n

/-- The bytes of an agent write performed. -/
def State.agentWrite (s : State) (c a : Nat) (bs : List PByte) : State :=
  match a / 2 ^ 46 with
  | 0 => s.devWrite (a % 2 ^ 46) bs
  | 1 => s.sysWrite (a % 2 ^ 46) bs
  | _ =>
    let x := s.core c
    s.setCore c { x with sram := writeBytes x.sram (a % 2 ^ 16) (bs.map (·.b)),
                         sramPoison := markBytes x.sramPoison (a % 2 ^ 16) bs }

/-! ### Uncorrectable words that are read (R421, R431) -/

/-- A read of n bytes of device memory from an address for a task, 0 for none: when it meets an uncorrectable word, Pewter logs
that poison was created on that stack (R421, R431; DEDUCED, log 21). -/
def State.noteBad (s : State) (task a n : Nat) : State :=
  match (wordsOf a n).find? (fun w => s.devBad.contains w) with
  | none => s
  | some w => s.logEvent 1 1 (4 * w / 2 ^ 39 * 512 + 4 * w / 2 ^ 36 % 8) task (4 * w) 0

/-- The same for a read of an agent address. -/
def State.noteAgent (s : State) (a n : Nat) : State := if a / 2 ^ 46 = 0 then s.noteBad 0 (a % 2 ^ 46) n else s

/-! ### Stores of a core that have not performed (R250 to R253) -/

/-- Whether a store meets n bytes from an address. -/
def Store.meets (x : Store) (a n : Nat) : Bool := a < x.addr + x.bytes.length && x.addr < a + n

/-- A store performs before another, later one: they are of one class, or meet (R250, R251). -/
def Store.leads (x y : Store) : Bool := x.cls == y.cls || x.meets y.addr y.bytes.length

/-- Stores from the oldest on, each with whether it must perform: a test picks it, or it leads one that must. -/
def markStores (pick : Store → Bool) : List Store → List (Store × Bool)
  | [] => []
  | x :: xs =>
    let rest := markStores pick xs
    (x, pick x || rest.any (fun e => e.2 && x.leads e.1)) :: rest

/-- Performs the stores of a core that are marked, oldest first, and keeps the others. -/
def performStores (s : State) (c : Nat) : List (Store × Bool) → State × List Store
  | [] => (s, [])
  | x :: xs =>
    if x.2 then performStores (s.agentWrite c x.1.addr x.1.bytes) c xs
    else
      let r := performStores s c xs
      (r.1, x.1 :: r.2)

/-- The core's stores that a test picks are performed, and before them those that lead them (R250, R251). -/
def State.flush (s : State) (c : Nat) (pick : Store → Bool) : State :=
  let r := performStores s c (markStores pick (s.core c).stores)
  r.1.setCore c { r.1.core c with stores := r.2 }

/-- Every store of the core is performed: what a release, an acquire and a submission need (R253, R257, R390). -/
def State.flushAll (s : State) (c : Nat) : State := s.flush c (fun _ => true)

/-- A store of a core: private SRAM at once, other spaces when its turn comes (R251). -/
def State.agentStore (s : State) (c cls a : Nat) (bs : List PByte) : State :=
  if a / 2 ^ 46 = 2 then s.agentWrite c a bs
  else s.setCore c { s.core c with stores := (s.core c).stores ++ [{ cls := cls, addr := a, bytes := bs }] }

/-- What a load of a core needs first: its stores of that class and those that meet the bytes are performed (R250, R251). -/
def State.beforeLoad (s : State) (c cls a n : Nat) : State := s.flush c (fun x => x.cls == cls || x.meets a n)

/-! ### Agent registers and control -/

/-- A scalar register of a core; s0 reads 0 (R109). -/
def AgentCore.reg (x : AgentCore) (r : Nat) : Word := if r = 0 then 0 else look 0 x.s r

/-- A core with a scalar register written; s0 ignores it. -/
def AgentCore.setReg (x : AgentCore) (r : Nat) (v : Word) : AgentCore :=
  if r = 0 then x else { x with s := put 0 x.s r v }

/-- A predicate of a core; p0 is true (R15). -/
def AgentCore.pred (x : AgentCore) (p : Nat) : Bool := if p = 0 then true else look false x.p p

/-- A core with a predicate written; p0 ignores it. -/
def AgentCore.setPred (x : AgentCore) (p : Nat) (v : Bool) : AgentCore :=
  if p = 0 then x else { x with p := put false x.p p v }

/-- The guard of an SR instruction (R113). -/
def AgentCore.guard (x : AgentCore) (g n : Nat) : Bool := x.pred g != (n == 1)

/-- The core goes on to its next instruction (R147). -/
def AgentCore.advance (x : AgentCore) : AgentCore := { x with pc := x.pc + 4 }

/-- The function that a core acts for (R374, R383). -/
def AgentCore.fnOf (x : AgentCore) : Nat := x.afunc

/-! ### Exceptions of an agent core (R379, R380) -/

/-- Taking an exception: the pc, the cause, the faulting address and the level are saved, the core runs at device level at
ETVEC (R380). -/
def AgentCore.takeException (x : AgentCore) (cause : Nat) (epc eval : Word) : AgentCore :=
  { x with epc := epc, ecause := BitVec.ofNat 64 cause, eval := eval, plv := x.lv, lv := 1, pc := x.etvec }

/-- An exception of the instruction that the core is executing: EPC is its address (R379, R380). -/
def State.exception (s : State) (cause eval : Nat) : State :=
  s.onMe (fun x => x.takeException cause x.pc (BitVec.ofNat 64 eval))

/-- SCALL: EPC is the next address, EVAL the code (R380). -/
def State.systemCall (s : State) (code : Nat) : State :=
  s.onMe (fun x => x.takeException 4 (x.pc + 4) (BitVec.ofNat 64 code))

/-- ERET: back to EPC at the level that was left (R380). -/
def AgentCore.returnFrom (x : AgentCore) : AgentCore := { x with pc := x.epc, lv := x.plv }

/-- An instruction of a core completes with a value in a register. -/
def State.finish (s : State) (d : Nat) (v : Word) : State := s.onMe (fun x => (x.setReg d v).advance)

/-- An instruction of a core completes with a status in s(RD)[15:0] and a value above (R378). -/
def State.status (s : State) (d st : Nat) : State := s.finish d (BitVec.ofNat 64 st)

/-- Statuses of R378. -/
def stOK : Nat := 0
def stNOTASK : Nat := 1
def stBUSY : Nat := 3
def stBADBLOCK : Nat := 4
def stNOTOWNED : Nat := 5
def stDENIED : Nat := 8
def stFULL : Nat := 9
def stNOTSUBMITTED : Nat := 10
def stTIMEOUT : Nat := 11

/-- A host-level instruction of a core under its guard; with a false guard it only advances (R113). -/
def State.guarded (s : State) (g n : Nat) (k : State → Outcome) : Outcome :=
  if s.me.guard g n then k s else .next (s.onMe (·.advance))

/-- A device-level instruction: at host level it raises the privilege exception (R379, R382). -/
def State.deviceLevel (s : State) (k : State → Outcome) : Outcome :=
  if s.me.lv = 1 then k s else .next (s.exception 2 0)

end Sys2Proof.Machine
end

