-- ==== Sys2Proof/Machine/Flags.lean ====
section
/-! DEFINITION. The sticky arithmetic flags (R80, R81) and the fault record of a tile (R39, R416, R417). -/
namespace Sys2Proof.Machine

/-- The flags raised on an agent core (R80, R147). -/
def AgentCore.raise (x : AgentCore) (f : Nat) : AgentCore := { x with fstatus := x.fstatus ||| f % 128 }

/-- The flags raised on a tile (R80, R81). -/
def Tile.raise (x : Tile) (f : Nat) : Tile := { x with fstatus := x.fstatus ||| f % 128 }

/-- A write of FSTATUS: bits [6:0] (R80). -/
def Tile.setFlags (x : Tile) (v : Nat) : Tile := { x with fstatus := v % 128 }

/-- No fault is recorded (R417). -/
def FaultRec.empty : FaultRec :=
  { v := false, ovf := 0, slot := 0, cls := 0, detail := 0, cycle := 0, addr := 0, info := 0 }

/-- The performance counters that count an event grow by n (R169). -/
def Tile.count (x : Tile) (event n : Nat) : Tile :=
  { x with pmc := x.pmcev.foldl (fun c e => if e.2 = event then put 0 c e.1 (look 0 c e.1 + BitVec.ofNat 64 n) else c) x.pmc }

/-- A fault detected at a cycle for an operation in a slot of the bundle at an address: the first is recorded, of several in
one cycle the first slot, every other one before the trap raises OVF; after the trap nothing is recorded (R39, R417). -/
def Tile.record (x : Tile) (cls detail slot addr cycle : Nat) (info : Word) : Tile :=
  let new : FaultRec :=
    { v := true, ovf := 0, slot := slot, cls := cls, detail := detail % 65536, cycle := cycle, addr := addr, info := info }
  let y := x.count 0x0B 1
  if x.trapped.isSome then x
  else if x.fault.v = false then { y with fault := new }
  else if x.fault.cycle = cycle ∧ slot < x.fault.slot then
    { y with fault := { new with ovf := min 255 (x.fault.ovf + 1) } }
  else { y with fault := { x.fault with ovf := min 255 (x.fault.ovf + 1) } }

/-- FAULTREC0 as a word (R417). -/
def FaultRec.word0 (f : FaultRec) : Word :=
  BitVec.ofNat 64 ((if f.v then 2 ^ 63 else 0) + f.ovf * 2 ^ 40 + f.slot * 2 ^ 32 + f.cls * 2 ^ 16 + f.detail)

/-- A fault recorded on a tile of a gang for an operation. -/
def Gang.record (g : Gang) (o : Origin) (cls detail cycle : Nat) (info : Word) : Gang :=
  g.onTile o.gid (fun x => x.record cls detail o.slot o.addr cycle info)

end Sys2Proof.Machine
end

