-- ==== Sys2Proof/Machine/Operands.lean ====
section
/-! DEFINITION. Operands of a tile's instructions: scalar codes with the k registers, predicates, masks, rings; and how a
result is put off to its cycle (R109 to R113, R124, R125, R144, R180 to R186, R282). -/
namespace Sys2Proof.Machine

/-! ### Registers -/

/-- A scalar register without poison that holds 0. -/
def Scalar.zero : Scalar := { val := 0, poison := false }

/-- s0 to s31 of a tile; s0 reads 0 (R109). -/
def Tile.sreg (x : Tile) (r : Nat) : Scalar := if r = 0 then Scalar.zero else look Scalar.zero x.s r

def Tile.setSreg (x : Tile) (r : Nat) (v : Scalar) : Tile :=
  if r = 0 then x else { x with s := put Scalar.zero x.s r v }

/-- A predicate; p0 is true (R15). -/
def Tile.pred (x : Tile) (n : Nat) : Bool := if n = 0 then true else look false x.p n

def Tile.setPred (x : Tile) (n : Nat) (v : Bool) : Tile :=
  if n = 0 then x else { x with p := put false x.p n v }

/-- A guard is true when p(PG) xor PN = 1 (R113). -/
def Tile.guard (x : Tile) (g n : Nat) : Bool := x.pred g != (n == 1)

/-- A mask; m0 is all ones (R189). -/
def Tile.mask (x : Tile) (n : Nat) : Mask := if n = 0 then BitVec.allOnes 128 else look 0 x.m n

/-- The masks with the bits of `en` written; m0 ignores it (R186). -/
def Tile.setMask (x : Tile) (n : Nat) (v en : Mask) : Tile :=
  if n = 0 then x else { x with m := put 0 x.m n ((x.mask n &&& ~~~en) ||| (v &&& en)) }

/-- An empty entry of the vector file (R21). -/
def VEntry.zero : VEntry := { bits := 0, poison := 0 }

def Tile.entry (x : Tile) (e : Nat) : VEntry := look VEntry.zero x.v (e % 128)

/-- The 32-bit words whose bits `en` all selects. -/
def wholeWords (en : VWord) : BitVec 32 :=
  BitVec.ofNat 32 ((upFrom 0 32).foldl (fun a w =>
    if (en.extractLsb' (32 * w) 32) = BitVec.allOnes 32 then a + 2 ^ w else a) 0)

/-- The 32-bit words of which `en` selects a bit. -/
def hitWords (en : VWord) : BitVec 32 :=
  BitVec.ofNat 32 ((upFrom 0 32).foldl (fun a w => if en.extractLsb' (32 * w) 32 = 0 then a else a + 2 ^ w) 0)

/-- A write of the selected bits of an entry: a whole word takes the mark of the result, a part of one ORs it (R422). -/
def Tile.setEntry (x : Tile) (e : Nat) (v en : VWord) (poison : BitVec 32) : Tile :=
  let old := x.entry e
  let whole := wholeWords en
  let new : VEntry := { bits := (old.bits &&& ~~~en) ||| (v &&& en), poison := (old.poison &&& ~~~whole) ||| poison }
  { x with v := put VEntry.zero x.v (e % 128) new }

/-- The default descriptor of a ring (R142). -/
def Ring.default : Ring := { base := 0, size := 1, head := 0, tail := 0 }

def Tile.ring (x : Tile) (h : Nat) : Ring := look Ring.default x.rings h

def Tile.setRing (x : Tile) (h : Nat) (r : Ring) : Tile := { x with rings := setKey x.rings h r }

/-- The fill of a ring (R180). -/
def Ring.fill (r : Ring) : Nat := (r.tail + r.size - r.head % r.size) % r.size

/-- The entry at an offset of a ring (R180). -/
def Ring.at (r : Ring) (off : Int) : Nat := r.base + (off % (r.size : Int)).toNat

/-! ### What an issue cycle has used -/

/-- Nothing used yet in cycle c. -/
def Cycle.fresh (c : Nat) : Cycle :=
  { at_ := c, popped := [], emptied := [], lanes := [], reads := [], writes := [] }

/-- The tile's record of cycle c. -/
def Tile.nowAt (x : Tile) (c : Nat) : Cycle := if x.now.at_ = c then x.now else Cycle.fresh c

/-! ### Containment: what a poisoned operand that steers does (R422 to R426) -/

/-- The depth of the innermost open region, if any. -/
def Tile.inner (x : Tile) : Option Nat := if x.depth = 0 then none else some (x.depth - 1)

/-- An empty CRSTK entry (R21, R426). -/
def Region.empty : Region :=
  { v := false, failed := false, logged := false, pseen := false, point := 0, ldep := 0, mg := 0, haddr := 0, saved := [] }

def Tile.region (x : Tile) (d : Nat) : Region := look Region.empty x.regions d

def Tile.onRegion (x : Tile) (d : Nat) (f : Region → Region) : Tile :=
  { x with regions := setKey x.regions d (f (x.region d)) }

/-- An operation of the tile read a poisoned word: PSEEN of the innermost open region (R426). -/
def Tile.sawPoison (x : Tile) : Tile :=
  match x.inner with
  | none => x
  | some d => x.onRegion d (fun r => { r with pseen := true })

/-- The first failure of a region sets F and POINT (R426). -/
def Tile.failRegion (x : Tile) (d point : Nat) : Tile :=
  x.onRegion d (fun r => if r.failed then r else { r with failed := true, point := point })

/-- The gang's task must end with CONTAINMENT; the cycle ends with the kill. The first consumption is the one that is kept. -/
def Gang.killMark (g : Gang) (gid point : Nat) (info : Word) : Gang :=
  if g.doom.isSome then g else { g with doom := some (gid, point, info) }

/-- A consumption of poison at a point by an operation (R423, R424): inside an open region the innermost one fails; outside
any, the task is killed, or records a containment fault when the debugger has claimed it. -/
def Gang.consume (g : Gang) (o : Origin) (point cycle : Nat) (info : Word) : Gang :=
  match g.tile o.gid with
  | none => g
  | some x =>
    match x.inner with
    | some d => g.onTile o.gid (fun y => y.failRegion d point)
    | none =>
      if bitAt g.dctl 4 then g.record o 11 point cycle info
      else g.killMark o.gid point info

/-! ### Reading scalar codes at issue -/

/-- What an instruction of a tile has read so far: the tile, the values, whether one was poisoned. -/
structure Reads where
  x : Tile
  vals : List Word
  poison : Bool

/-- The value of an element in a k register's FIFO, 8 bytes (R282). -/
def Elem.word (e : Elem) : Word := BitVec.ofNat 64 (pval e.data)

/-- An empty FIFO (R21). -/
def Fifo.empty : Fifo := { elems := [], departed := none }

def Tile.fifo (x : Tile) (ch : Nat) : Fifo := look Fifo.empty x.fifos ch

def Tile.setFifo (x : Tile) (ch : Nat) (f : Fifo) : Tile := { x with fifos := setKey x.fifos ch f }

/-- No binding (R282). -/
def KBind.none : KBind := { chs := 127, chr := 127 }

def Tile.bound (x : Tile) (k : Nat) : KBind := look KBind.none x.kbind k

/-- A read of k register k at cycle c by a slot of a bundle: one head element for every read of the cycle, one pop, one
fault for an empty FIFO (R37, R111, R146). -/
def Tile.readK (x : Tile) (k c slot addr : Nat) : Tile × Scalar :=
  let now := x.nowAt c
  match find? now.popped k with
  | some e => ({ x with now := now }, { val := e.word, poison := anyPoison e.data })
  | none =>
    if now.emptied.contains k then ({ x with now := now }, Scalar.zero)
    else
      match (x.fifo (x.bound k).chr).elems, (x.bound k).chr with
      | e :: es, ch =>
        if ch < 64 then
          let y : Tile := { x with now := { now with popped := setKey now.popped k e } }
          (y.setFifo ch { elems := es, departed := (x.fifo ch).departed }, { val := e.word, poison := anyPoison e.data })
        else
          let y : Tile := { x with now := { now with emptied := k :: now.emptied } }
          (y.record 1 3 slot addr c 0, Scalar.zero)
      | [], _ =>
        let y : Tile := { x with now := { now with emptied := k :: now.emptied } }
        (y.record 1 3 slot addr c 0, Scalar.zero)

/-- A read of a scalar code at cycle c (R109, R111). -/
def Tile.readCode (x : Tile) (code c slot addr : Nat) : Tile × Scalar :=
  if code < 0x20 then (x, x.sreg code) else x.readK (code - 0x20) c slot addr

/-- The scalar codes read in order; a poisoned one marks the innermost open region (R426). -/
def Tile.readCodes (x : Tile) (c slot addr : Nat) : List Nat → Reads
  | [] => { x := x, vals := [], poison := false }
  | r :: rs =>
    let (y, v) := x.readCode r c slot addr
    let y := if v.poison then y.sawPoison else y
    let rest : Reads := Tile.readCodes y c slot addr rs
    { rest with vals := v.val :: rest.vals, poison := v.poison || rest.poison }

/-! ### Putting a result off -/

/-- An effect of an operation put off to a cycle; the operation is in flight until then (R464). -/
def Gang.later (g : Gang) (o : Origin) (due : Nat) (j : Job) : Gang :=
  let d : Due := { due := due, o := o, job := j }
  ({ g with dues := g.dues ++ [d] } : Gang).onTile o.gid (fun x => { x with busyTo := max x.busyTo (due : Int) })

/-- An operation is in flight until a cycle (R464). -/
def Gang.busy (g : Gang) (o : Origin) (due : Nat) : Gang :=
  g.onTile o.gid (fun x => { x with busyTo := max x.busyTo (due : Int) })

/-- Another tile that an operation addresses sees it in flight until a cycle (R464). -/
def Gang.addresses (g : Gang) (o : Origin) (target due : Nat) : Gang :=
  if target = o.gid then g else g.onTile target (fun x => { x with addrTo := max x.addrTo (due : Int) })

/-- A result for a scalar code: a register, or a push of a k register's channel (R144 to R146). -/
def Gang.laterReg (g : Gang) (o : Origin) (due code : Nat) (v : Word) (poison : Bool) : Gang :=
  g.later o due (.sreg code v poison)

/-- A result for a predicate; p0 discards it, and a poisoned source is a consumption (R145, R422, R423). -/
def Gang.laterPred (g : Gang) (o : Origin) (now due n : Nat) (v poison : Bool) : Gang :=
  let g := g.later o due (.pred n v)
  if poison ∧ n ≠ 0 then g.consume o 1 now 0 else g

/-- Flags raised at a cycle (R81). -/
def Gang.laterFlags (g : Gang) (o : Origin) (due f : Nat) : Gang := if f = 0 then g else g.later o due (.flags f)

/-- The operation of a tile whose turn it is, in this cycle of its gang. -/
def originOf (g : Gang) (gid slot addr buf : Nat) : Origin :=
  { gid := gid, slot := slot, addr := addr, issue := g.lcyc, buf := buf }

/-- What a tile's instruction does in its issue cycle, as a change of its gang: nothing when it is not a tile's turn. -/
def State.issueOn (s : State) (k : Gang → Tile → Nat → Origin → Gang) : State :=
  match s.cur with
  | .tile t gid slot kk addr =>
    s.onGang t (fun g => match g.tile gid with
      | none => g
      | some x => k g x kk (originOf g gid slot addr 0))
  | _ => s

end Sys2Proof.Machine
end

