-- ==== Sys2Proof/Machine/Scalar.lean ====
section
/-! DEFINITION. The S-class instructions, on a tile with their latencies and on an agent core in program order (07 R144 to
R147 and R170 to R179, 23 R377). -/
namespace Sys2Proof.Machine

/-- Where a scalar instruction writes. -/
inductive Dst where
  | reg (code : Nat)
  | pred (n : Nat)
deriving DecidableEq, Repr

/-- What a scalar instruction computes from: FMTR, a stochastic-rounding draw, and its sources in order. -/
structure Inputs where
  fmtr : Nat
  draw : Nat
  vals : List Word

/-- The i-th source. -/
def Inputs.src (x : Inputs) (i : Nat) : Word := nthD 0 x.vals i

/-- The guard of an instruction that may have one. -/
def guardOf (guard : Option (Nat × Nat)) (test : Nat → Nat → Bool) : Bool :=
  match guard with
  | none => true
  | some (g, n) => test g n

/-- A core with a result written. -/
def AgentCore.result (x : AgentCore) (d : Dst) (v : Word) : AgentCore :=
  match d with
  | .reg r => x.setReg r v
  | .pred p => x.setPred p (v != 0)

/-- A scalar instruction on an agent core: at once, in program order (R147). -/
def AgentCore.scalar (x : AgentCore) (guard : Option (Nat × Nat)) (srcs : List Nat) (d : Dst) (draw : Nat)
    (f : Inputs → Word × Nat) : AgentCore :=
  if guardOf guard x.guard then
    let r := f { fmtr := Config.agentFmtr % 2 ^ 16, draw := draw, vals := srcs.map x.reg }
    ((x.result d r.1).raise r.2).advance
  else x.advance

/-- A result of a tile put off to its cycle (R144). -/
def Gang.laterDst (g : Gang) (o : Origin) (due : Nat) (d : Dst) (v : Word) (poison : Bool) : Gang :=
  match d with
  | .reg r => g.laterReg o due r v poison
  | .pred p => g.laterPred o g.lcyc due p (v != 0) poison

/-- A scalar instruction on a tile: sources and guard read at issue, the result and the flags at t + L (R81, R144). -/
def Gang.scalar (g : Gang) (x : Tile) (o : Origin) (guard : Option (Nat × Nat)) (srcs : List Nat) (d : Dst) (lat : Nat)
    (f : Inputs → Word × Nat) : Gang :=
  if guardOf guard x.guard then
    let rd := x.readCodes g.lcyc o.slot o.addr srcs
    let r := f { fmtr := x.fmtr, draw := rsdBits x.seed.toNat o.gid o.slot 0 g.lcyc, vals := rd.vals }
    ((g.onTile o.gid (fun _ => rd.x)).laterDst o (g.lcyc + lat) d r.1 rd.poison).laterFlags o (g.lcyc + lat) r.2
  else g

/-- A scalar instruction, on whichever of the two has the turn. -/
def State.scalar (s : State) (guard : Option (Nat × Nat)) (srcs : List Nat) (d : Dst) (lat : Nat)
    (f : Inputs → Word × Nat) : Outcome :=
  match s.cur with
  | .agent _ => .next (s.onMe (fun x => x.scalar guard srcs d (Config.agentRsd s.tape % 2 ^ 32) f))
  | _ => .next (s.issueOn (fun g x _ o => g.scalar x o guard srcs d lat f))

/-- A scalar instruction of two sources that raises no flag. -/
def State.alu2 (s : State) (d a b g n lat : Nat) (f : Word → Word → Word) : Outcome :=
  s.scalar (some (g, n)) [a, b] (.reg d) lat (fun x => (f (x.src 0) (x.src 1), 0))

/-- A scalar instruction of one source that raises no flag. -/
def State.alu1 (s : State) (d a g n : Nat) (f : Word → Word) : Outcome :=
  s.scalar (some (g, n)) [a] (.reg d) 1 (fun x => (f (x.src 0), 0))

/-- A scalar instruction of one source and an immediate, without guard (R112). -/
def State.alui (s : State) (d a : Nat) (f : Word → Word) : Outcome :=
  s.scalar none [a] (.reg d) 1 (fun x => (f (x.src 0), 0))

/-! ### Integer instructions (R170 to R175) -/

def execAdd (d a b g n : Nat) (s : State) : Outcome := s.alu2 d a b g n 1 (· + ·)
def execSub (d a b g n : Nat) (s : State) : Outcome := s.alu2 d a b g n 1 (· - ·)
def execMul (d a b g n : Nat) (s : State) : Outcome := s.alu2 d a b g n 3 (· * ·)
def execMulh (d a b g n : Nat) (s : State) : Outcome := s.alu2 d a b g n 3 aluMulh
def execMulhn (d a b g n : Nat) (s : State) : Outcome := s.alu2 d a b g n 3 aluMulhn
def execDiv (d a b g n : Nat) (s : State) : Outcome := s.alu2 d a b g n 34 aluDiv
def execDivn (d a b g n : Nat) (s : State) : Outcome := s.alu2 d a b g n 34 aluDivn
def execRem (d a b g n : Nat) (s : State) : Outcome := s.alu2 d a b g n 34 aluRem
def execRemn (d a b g n : Nat) (s : State) : Outcome := s.alu2 d a b g n 34 aluRemn
def execAnd (d a b g n : Nat) (s : State) : Outcome := s.alu2 d a b g n 1 (· &&& ·)
def execOr (d a b g n : Nat) (s : State) : Outcome := s.alu2 d a b g n 1 (· ||| ·)
def execXor (d a b g n : Nat) (s : State) : Outcome := s.alu2 d a b g n 1 (· ^^^ ·)
def execAndn (d a b g n : Nat) (s : State) : Outcome := s.alu2 d a b g n 1 (fun x y => x &&& ~~~y)
def execOrn (d a b g n : Nat) (s : State) : Outcome := s.alu2 d a b g n 1 (fun x y => x ||| ~~~y)
def execShl (d a b g n : Nat) (s : State) : Outcome := s.alu2 d a b g n 1 aluShl
def execShr (d a b g n : Nat) (s : State) : Outcome := s.alu2 d a b g n 1 aluShr
def execSha (d a b g n : Nat) (s : State) : Outcome := s.alu2 d a b g n 1 aluSha
def execRotr (d a b g n : Nat) (s : State) : Outcome := s.alu2 d a b g n 1 aluRotr
def execClz (d a g n : Nat) (s : State) : Outcome := s.alu1 d a g n aluClz
def execCtz (d a g n : Nat) (s : State) : Outcome := s.alu1 d a g n aluCtz
def execPopc (d a g n : Nat) (s : State) : Outcome := s.alu1 d a g n aluPopc
def execMin (d a b g n : Nat) (s : State) : Outcome := s.alu2 d a b g n 1 aluMin
def execMax (d a b g n : Nat) (s : State) : Outcome := s.alu2 d a b g n 1 aluMax
def execMinn (d a b g n : Nat) (s : State) : Outcome := s.alu2 d a b g n 1 aluMinn
def execMaxn (d a b g n : Nat) (s : State) : Outcome := s.alu2 d a b g n 1 aluMaxn
def execSlt (d a b g n : Nat) (s : State) : Outcome := s.alu2 d a b g n 1 aluSlt
def execSltn (d a b g n : Nat) (s : State) : Outcome := s.alu2 d a b g n 1 aluSltn

/-- A predicate as a word, for the shared operation. -/
def boolWord (b : Bool) : Word := if b then 1 else 0

/-- The predicate that the instruction reads, on the core or the tile whose turn it is. -/
def State.predAt (s : State) (n : Nat) : Bool :=
  match s.cur with
  | .agent c => (s.core c).pred n
  | .tile t g _ _ _ =>
    match s.tile t g with
    | some x => x.pred n
    | none => n == 0
  | _ => n == 0

/-- SEL: both sources are read; the selector is p(PG) xor PN (R172). -/
def execSel (d a b p n : Nat) (s : State) : Outcome :=
  s.scalar none [a, b] (.reg d) 1 (fun x => (if s.predAt p != (n == 1) then x.src 0 else x.src 1, 0))

/-- PCMP (R174). -/
def execPcmp (d a b g n f : Nat) (s : State) : Outcome :=
  s.scalar (some (g, n)) [a, b] (.pred d) 1 (fun x => (boolWord (pcmpHolds f (x.src 0) (x.src 1)), 0))

/-- PLOG (R175). -/
def execPlog (d f a b g n : Nat) (s : State) : Outcome :=
  s.scalar (some (g, n)) [] (.pred d) 1 (fun _ => (boolWord (plogValue f (s.predAt a) (s.predAt b)), 0))

def execAddi (d a i : Nat) (s : State) : Outcome := s.alui d a (· + imm13 i)
def execAndi (d a i : Nat) (s : State) : Outcome := s.alui d a (· &&& imm13 i)
def execOri (d a i : Nat) (s : State) : Outcome := s.alui d a (· ||| imm13 i)
def execXori (d a i : Nat) (s : State) : Outcome := s.alui d a (· ^^^ imm13 i)
def execShli (d a i : Nat) (s : State) : Outcome := s.alui d a (fun x => aluShl x (BitVec.ofNat 64 i))
def execShri (d a i : Nat) (s : State) : Outcome := s.alui d a (fun x => aluShr x (BitVec.ofNat 64 i))
def execShai (d a i : Nat) (s : State) : Outcome := s.alui d a (fun x => aluSha x (BitVec.ofNat 64 i))

/-- LIMM (R173). -/
def execLimm (d i : Nat) (s : State) : Outcome := s.scalar none [] (.reg d) 1 (fun _ => (limmValue i, 0))

/-- LIMMH reads its destination as a source (R173). -/
def execLimmh (d i : Nat) (s : State) : Outcome := s.scalar none [d] (.reg d) 1 (fun x => (limmhValue (x.src 0) i, 0))

/-! ### Scalar floating point (R177 to R179) -/

/-- Bits [31:0] of a source: its FP32 operand (R177). -/
def fpArg (w : Word) : Nat := w.toNat % 2 ^ 32

/-- A rounded FP32 result zero-extended, with its flags. -/
def fpResult (r : Rounded) : Word × Nat := (BitVec.ofNat 64 r.bits, r.flags)

/-- A floating instruction of two sources. -/
def State.fp2 (s : State) (d a b g n : Nat) (f : Nat → Nat → Nat → Rounded) : Outcome :=
  s.scalar (some (g, n)) [a, b] (.reg d) 4 (fun x => fpResult (f x.draw (fpArg (x.src 0)) (fpArg (x.src 1))))

def execFadd (d a b g n f : Nat) (s : State) : Outcome :=
  s.fp2 d a b g n (fun r x y => addFloat .fp32 (Rnd.ofCode f) false r x y)
def execFsub (d a b g n f : Nat) (s : State) : Outcome :=
  s.fp2 d a b g n (fun r x y => subFloat .fp32 (Rnd.ofCode f) false r x y)
def execFmul (d a b g n f : Nat) (s : State) : Outcome :=
  s.fp2 d a b g n (fun r x y => mulFloat .fp32 (Rnd.ofCode f) false r x y)

/-- FFMA: d + a * b, exact before rounding, d the old s(RD) (R177). -/
def execFfma (d a b g n f : Nat) (s : State) : Outcome :=
  s.scalar (some (g, n)) [d, a, b] (.reg d) 4 (fun x =>
    fpResult (fmaFloat .fp32 (Rnd.ofCode f) false x.draw false false (fpArg (x.src 0)) (fpArg (x.src 1)) (fpArg (x.src 2))))

def execFmin (d a b g n : Nat) (s : State) : Outcome := s.fp2 d a b g n (fun _ x y => minMaxFloat .fp32 false x y)
def execFmax (d a b g n : Nat) (s : State) : Outcome := s.fp2 d a b g n (fun _ x y => minMaxFloat .fp32 true x y)

/-- A floating comparison by its condition code and the flags that it raises (R178, R199). -/
def floatCompare (t : ElemType) (f a b : Nat) : Bool × Nat :=
  let nan := isNanBits t a || isNanBits t b
  let snan := isSnanBits t a || isSnanBits t b
  match f with
  | 0 => (!nan && floatEq t a b, if snan then flagNV else 0)
  | 1 => (nan || !floatEq t a b, if snan then flagNV else 0)
  | 2 => (!nan && floatLt t a b, if nan then flagNV else 0)
  | 3 => (!nan && !floatLt t a b, if nan then flagNV else 0)
  | 4 => (!nan && !floatLt t b a, if nan then flagNV else 0)
  | 5 => (!nan && floatLt t b a, if nan then flagNV else 0)
  | _ => (nan, if snan then flagNV else 0)

/-- FCMP (R178). -/
def execFcmp (d a b g n f : Nat) (s : State) : Outcome :=
  s.scalar (some (g, n)) [a, b] (.pred d) 4 (fun x =>
    let r := floatCompare .fp32 f (fpArg (x.src 0)) (fpArg (x.src 1))
    (boolWord r.1, r.2))

/-- A converted value as a register holds it: sign-extended for an I type, else zero-extended (R179, R186). -/
def extendElem (t : ElemType) (b : Nat) : Word :=
  if t.isInt ∧ t.isSigned then BitVec.ofInt 64 (sextInt t.width b) else BitVec.ofNat 64 (b % 2 ^ t.width)

/-- FCVT between the types that FMTR names (R161, R179). -/
def fcvt (fmtr mode draw : Nat) (v : Word) : Word × Nat :=
  let src := ElemType.ofCode (bitsOf fmtr 11 8)
  let dst := ElemType.ofCode (bitsOf fmtr 15 12)
  let r := convert src dst (Rnd.ofCode mode) (bitAt fmtr 3) draw (v.toNat % 2 ^ src.width)
  (extendElem dst r.bits, r.flags)

def execFcvt (d a g n f : Nat) (s : State) : Outcome :=
  s.scalar (some (g, n)) [a] (.reg d) 4 (fun x => fcvt x.fmtr f x.draw (x.src 0))

/-! ### Loads and stores (R176, R232, R377) -/

/-- scratch_map: the slice offset of a scratch address (R232). -/
def Tile.map (x : Tile) (a : Nat) : Nat := x.sbase + a % 2 ^ 21 % x.wsize

/-- The effective address of LDS and STS, aligned down to the access size (R176). -/
def scratchAddr (base : Word) (z o : Nat) : Nat :=
  alignDown ((base + BitVec.ofInt 64 (sextInt 10 o * (accessSize z : Int))).toNat % 2 ^ 21) (accessSize z)

/-- LDS on a tile: reads at t + 2, writes its register at t + 4 (R144, R176). -/
def Gang.ldsTile (g : Gang) (x : Tile) (o : Origin) (d a z off : Nat) : Gang :=
  let rd := x.readCodes g.lcyc o.slot o.addr [a]
  let n := accessSize z
  let at_ := x.map (scratchAddr (nthD 0 rd.vals 0) z off)
  let g := g.onTile o.gid (fun _ => rd.x)
  let g := if rd.poison then g.consume o 1 g.lcyc (BitVec.ofNat 64 (scratchAddr (nthD 0 rd.vals 0) z off)) else g
  (g.later o (g.lcyc + 2) (.read 1 (.scratch o.gid at_) n (.toReg d n z (g.lcyc + 4)))).busy o (g.lcyc + 4)

/-- STS on a tile: writes at t + 2 (R144, R176). -/
def Gang.stsTile (g : Gang) (x : Tile) (o : Origin) (d a z off : Nat) : Gang :=
  let ra := x.readCodes g.lcyc o.slot o.addr [a]
  let rv := ra.x.readCodes g.lcyc o.slot o.addr [d]
  let n := accessSize z
  let at_ := x.map (scratchAddr (nthD 0 ra.vals 0) z off)
  let g := g.onTile o.gid (fun _ => rv.x)
  let g := if ra.poison then g.consume o 1 g.lcyc (BitVec.ofNat 64 (scratchAddr (nthD 0 ra.vals 0) z off)) else g
  g.later o (g.lcyc + 2) (.write 1 (.scratch o.gid at_) (pbytes n (nthD 0 rv.vals 0).toNat rv.poison))

/-- LDS of a tile (R176). -/
def execLds (d a z o : Nat) (s : State) : Outcome := .next (s.issueOn (fun g x _ w => g.ldsTile x w d a z o))

/-- STS of a tile (R176). -/
def execSts (d a z o : Nat) (s : State) : Outcome := .next (s.issueOn (fun g x _ w => g.stsTile x w d a z o))

/-- The address of an agent load or store (R377). -/
def agentAddr (base : Word) (z o : Nat) : Nat := (base + BitVec.ofInt 64 (sextInt 6 o * (accessSize z : Int))).toNat

/-- A line of the system space enters the data cache when the port trained as CXL (R375, R442). -/
def State.cacheLine (s : State) (a : Nat) : State :=
  if s.hostMode = 1 ∧ a / 2 ^ 46 = 1 then s.onMe (fun x => { x with lines := (addNum x.lines (a / 64)).take 512 }) else s

/-- A load of a core: its space is checked, its stores that must come first perform, poison raises cause 5 (R375, R379). -/
def State.agentLoad (s : State) (cls a n : Nat) (k : State → Nat → State) : State :=
  if s.spaceOk s.me.lv s.me.afunc a n then
    let s := (s.beforeLoad s.coreId cls a n).cacheLine a
    let bs := s.agentRead s.coreId a n
    if anyPoison bs then (s.noteAgent a n).exception 5 a else k s (pval bs)
  else s.exception 3 a

/-- LDS of an agent core (R377). -/
def execLdsAgent (d a z c o : Nat) (s : State) : Outcome :=
  .next (s.agentLoad c (agentAddr (s.me.reg a) z o) (accessSize z) (fun s v => s.finish d (extendLoad z v)))

/-- STS of an agent core (R377). -/
def execStsAgent (d a z c o : Nat) (s : State) : Outcome :=
  let at_ := agentAddr (s.me.reg a) z o
  if s.spaceOk s.me.lv s.me.afunc at_ (accessSize z) then
    let s1 := (s.agentStore s.coreId c at_ (pbytes (accessSize z) (s.me.reg d).toNat false)).cacheLine at_
    .next (s1.onMe (·.advance))
  else .next (s.exception 3 at_)

end Sys2Proof.Machine
end

