-- ==== Sys2Proof/Machine/Agents.lean ====
section
/-! DEFINITION. The fetch of an agent core and the placing of a word where it fetches (R375, R379, R385). -/
namespace Sys2Proof.Machine

/-- The four bytes at a core's pc, or none where the fetch has no access or is misaligned: cause 3 (R375, R379, R385). -/
def State.fetchBytes (s : State) (c : Nat) : Option (List PByte) :=
  let x := s.core c
  let a := x.pc.toNat
  if a % 4 = 0 ∧ s.spaceOk x.lv x.afunc a 4 then some (s.agentRead c a 4) else none

/-- The three TPRE rows share one word: s(RB)[1:0] names the row, 2 checkpoint, 3 requeue, else drain (R398). -/
def resolveTpre (x : AgentCore) (i : Instr) : Instr :=
  match i with
  | .tpreDrain d a b g n =>
    match (x.reg b).toNat % 4 with
    | 2 => .tpreCheckpoint d a b g n
    | 3 => .tpreRequeue d a b g n
    | _ => .tpreDrain d a b g n
  | _ => i

/-- What a core fetches: an instruction, or the cause of an exception (R379, R421). -/
def State.fetchAgent (s : State) (c : Nat) : Except Nat Instr :=
  match s.fetchBytes c with
  | none => .error 3
  | some bs =>
    if anyPoison bs then .error 5
    else
      match decode (bs.map (·.b)) with
      | .ok (i, _) => .ok (resolveTpre (s.core c) i)
      | .error _ => .error 1

/-- A fetch that gives no instruction: the exception of its cause, an uncorrectable word is logged (R379, R431). -/
def State.fetchFails (s : State) (c cause : Nat) : State :=
  let a := (s.core c).pc.toNat
  (if cause = 5 then s.noteAgent a 4 else s).exception cause a

/-- The SRAM of core 0 with a word at its pc, and core 0's turn first: the next step runs that word (DESIGN CHOICE, log 2). -/
def State.placeWord (s : State) (w : Nat) : State :=
  let x := s.core 0
  let y := { x with sram := writeBytes x.sram (x.pc.toNat % 2 ^ 16) (leBytes 4 w) }
  { s.setCore 0 y with agenda := .agentFetch 0 :: s.agenda }

end Sys2Proof.Machine
end

