-- ==== Sys2Proof/Machine/Control.lean ====
section
/-! DEFINITION. The C-slot instructions on a tile, BR, CALL and RET on an agent core, and the system registers of a tile
(01 R22 to R36, 07 R144 to R169, 25 R416 to R427). -/
namespace Sys2Proof.Machine

/-! ### System registers (R168) -/

/-- A CRSTK entry as a register (R426). -/
def Region.word (r : Region) : Word :=
  BitVec.ofNat 64 ((if r.v then 2 ^ 63 else 0) + (if r.failed then 2 ^ 62 else 0) + (if r.pseen then 2 ^ 61 else 0)
    + r.point * 2 ^ 57 + r.ldep * 2 ^ 54 + r.mg * 2 ^ 32 + r.haddr)

/-- A ring descriptor as RINGD (R168). -/
def Ring.word (r : Ring) : Word :=
  BitVec.ofNat 64 (r.tail * 2 ^ 24 + r.head * 2 ^ 16 + (r.size - 1) * 2 ^ 8 + r.base)

/-- PERMi: entries 8i to 8i + 7 of PERM, six bits each (R168); PERM is the identity at task start (R21). -/
def Tile.permWord (x : Tile) (i : Nat) : Word :=
  BitVec.ofNat 64 (sumOf ((List.range 8).map (fun j => look (8 * i + j) x.perm (8 * i + j) * 2 ^ (6 * j))))

/-- PERM with the eight entries of PERMi written (R168). -/
def Tile.setPermWord (x : Tile) (i v : Nat) : Tile :=
  { x with perm := (List.range 8).foldl (fun p j => setKey p (8 * i + j) (v / 2 ^ (6 * j) % 64)) x.perm }

/-- A system register of a tile that task code may read (R168). -/
def Tile.sysReg (x : Tile) (lcyc t r : Nat) : Word :=
  if r = 0x000 then BitVec.ofNat 64 lcyc
  else if r = 0x002 then x.estm
  else if r = 0x003 then BitVec.ofNat 64 x.dmr
  else if r = 0x004 then BitVec.ofNat 64 x.fstatus
  else if r = 0x005 then x.seed
  else if r = 0x006 then BitVec.ofNat 64 x.fmtr
  else if r = 0x007 then BitVec.ofNat 64 x.jbase
  else if r = 0x008 then BitVec.ofNat 64 (x.gid % t)
  else if r = 0x009 then BitVec.ofNat 64 (x.gid % t / 4)
  else if r = 0x00A then BitVec.ofNat 64 (x.gid % t / 16)
  else if r = 0x00B then BitVec.ofNat 64 (x.gid / t)
  else if r = 0x010 then BitVec.ofNat 64 x.qbound
  else if r = 0x011 then BitVec.ofNat 64 x.drnlim
  else if r = 0x018 then x.fault.word0
  else if r = 0x019 then BitVec.ofNat 64 x.fault.cycle
  else if r = 0x01A then BitVec.ofNat 64 x.fault.addr
  else if r = 0x01B then x.fault.info
  else if r = 0x020 then BitVec.ofNat 64 x.grow
  else if r = 0x021 then BitVec.ofNat 64 x.fstat
  else if r < 0x030 then x.permWord (r - 0x028)
  else if r < 0x040 then (x.region (r - 0x030)).word
  else if r < 0x050 then look 0 x.pmc (r - 0x040)
  else if r < 0x060 then BitVec.ofNat 64 (look 0 x.pmcev (r - 0x050))
  else if r < 0x080 then (x.ring (r - 0x070)).word
  else if r < 0x140 then look 0 x.brd (r - 0x100)
  else if r < 0x180 then look 0 x.bwr (r - 0x140)
  else if r < 0x1C0 then look 0 x.bhc (r - 0x180)
  else BitVec.ofNat 64 (look 0 x.hc (r - 0x200))

/-- Registers that need device privilege (R57, R168). -/
def sregPrivileged (r : Nat) : Bool := r == 0x001 || (0x00C ≤ r && r ≤ 0x011)

/-- Whether a value is within the limits of the register that it is written to (R33, R169). -/
def sregValueOk (r : Nat) (v : Word) : Bool :=
  if r = 0x003 then v.toNat % 8 < 6
  else if 0x050 ≤ r ∧ r < 0x060 then v.toNat < 0x0C
  else true

/-- A system register of a tile written (R168). -/
def Tile.setSysReg (x : Tile) (r : Nat) (v : Word) : Tile :=
  if r = 0x002 then { x with estm := v }
  else if r = 0x003 then { x with dmr := v.toNat % 8 }
  else if r = 0x004 then x.setFlags v.toNat
  else if r = 0x005 then { x with seed := v }
  else if r = 0x010 then { x with qbound := v.toNat % 2 ^ 32 }
  else if r = 0x011 then { x with drnlim := v.toNat % 2 ^ 32 }
  else if 0x028 ≤ r ∧ r < 0x030 then x.setPermWord (r - 0x028) v.toNat
  else if 0x040 ≤ r ∧ r < 0x050 then { x with pmc := put 0 x.pmc (r - 0x040) v }
  else if 0x050 ≤ r ∧ r < 0x060 then { x with pmcev := put 0 x.pmcev (r - 0x050) v.toNat }
  else if 0x100 ≤ r ∧ r < 0x140 then { x with brd := put 0 x.brd (r - 0x100) v }
  else if 0x140 ≤ r ∧ r < 0x180 then { x with bwr := put 0 x.bwr (r - 0x140) v }
  else if 0x180 ≤ r ∧ r < 0x1C0 then { x with bhc := put 0 x.bhc (r - 0x180) v }
  else x

/-! ### Holds (R43, R44, R434) -/

/-- The horizon of a hold: 0 in exact-stop mode, else 256 or 4,096 (R43, R434, R435); 0 in step mode too, where the rules give
none (R61; DESIGN CHOICE, log 29). -/
def Gang.horizon (g : Gang) : Nat := if g.dctl % 8 = 0 then g.h else 0

/-- A hold announced in this cycle: its target is the horizon ahead, a debug match's at least one cycle (R41 to R43, R433); a
target that equals the cycle in progress freezes the gang at the end of that cycle (DEDUCED, log 29). -/
def Gang.announce (g : Gang) (cause gid buf : Nat) : Gang :=
  let hold : Hold := { cause := cause, ta := g.lcyc, th := g.lcyc + (if cause = 3 then max 1 g.horizon else g.horizon),
                       gid := gid, buf := buf }
  { g with holds := g.holds ++ [hold] }

/-- A fault hold announced for a tile; the first one's class is the task's, and in one cycle that of the lowest gang
identity (R41). -/
def Gang.faultHold (g : Gang) (gid cls : Nat) : Gang :=
  let h : Option (Nat × Nat × Nat) := match g.hclass with
    | none => some (g.lcyc, gid, cls)
    | some (c, i, k) => if c = g.lcyc ∧ gid < i then some (c, gid, cls) else some (c, i, k)
  { g.announce 5 gid 0 with hclass := h, anyFault := true }

/-! ### The sequencer's own operations -/

/-- A C syllable of the bundle that a tile is issuing, as a change of its gang. -/
def State.control (s : State) (f : Gang → Tile → Active → Origin → Gang) : State :=
  s.issueOn (fun g x _ o => match x.active with
    | none => g
    | some a => f g x a o)

/-- The bundle that a tile is issuing, changed. -/
def Gang.onActive (g : Gang) (o : Origin) (f : Active → Active) : Gang :=
  g.onTile o.gid (fun x => match x.active with
    | none => x
    | some a => { x with active := some (f a) })

/-- A fault of a C syllable in its issue cycle. -/
def Gang.cFault (g : Gang) (o : Origin) (cls detail : Nat) (info : Word) : Gang := g.record o cls detail g.lcyc info

/-- A word-scaled displacement from an address, as a 32-bit byte offset, and whether it is negative (R148). -/
def displaced (a w d : Nat) : Int := (a : Int) + 4 * sextInt w d

/-- Whether a branch to a target is taken; `inLoop` asks for R153's third case. -/
def Tile.branchOk (x : Tile) (addr : Nat) (target : Int) (inLoop : Bool) : Bool :=
  target % 4 = 0 && 0 ≤ target && target < (4 * x.codeLen : Nat)
    && (!inLoop || (match x.loops with
      | [] => true
      | l :: _ => (l.start : Int) ≤ target && target ≤ (l.stop : Int)))
    && !(x.loops.any (fun l => l.stop == addr))

/-- A branch of a tile: taken after the bundle's last repeat, or refused with a fault (R151, R153). -/
def Gang.branch (g : Gang) (x : Tile) (o : Origin) (target : Int) (inLoop : Bool) : Gang :=
  if x.branchOk o.addr target inLoop then g.onActive o (fun a => { a with branch := some target.toNat })
  else g.cFault o 2 0 0

/-! ### NOP, SYNC, LOOP, LOOPS -/

/-- NOP: an agent core goes on; a tile's slot does nothing, and the sequencer idles a sticky slot (R28, R116). -/
def execNop (s : State) : Outcome :=
  match s.cur with
  | .agent _ => .next (s.onMe (·.advance))
  | _ => .next s

/-- Whether the gang holds every tile of every package of the domain (R33). -/
def State.wholeDomain (s : State) (g : Gang) : Bool := g.p == s.cfg.packages && g.t == 32

/-- The level at which a SYNC is performed (R33). -/
def syncLevel (whole : Bool) (dmr : Nat) : Nat := if dmr = 5 ∧ !whole then 4 else dmr

/-- SYNC: counted at its level, the wait begins when the bundle ends; with K clear it is a fault and a NOP (R33 to R35). In a
bundle whose K bit is ignored it is a NOP beside the header's fault, with no second one (R35; DESIGN CHOICE, log 30). -/
def Gang.sync (g : Gang) (x : Tile) (a : Active) (o : Origin) (whole : Bool) : Gang :=
  if a.k = 0 then g.cFault o 2 3 0
  else if a.k = 2 then g
  else
    let lv := syncLevel whole x.dmr
    let g := if lv = x.dmr then g else g.cFault o 2 3 0
    (g.onTile o.gid (fun y => { y with syncs := setKey y.syncs lv (look 0 y.syncs lv + 1) })).onActive o
      (fun b => { b with sync := some lv })

def execSync (s : State) : Outcome :=
  .next (s.control (fun g x a o => g.sync x a o (s.wholeDomain g)))

/-- LOOP and LOOPS once the count is known: an entry to push, or a way past END for a count of 0 or a seventh loop
(R30, R38, R149). -/
def Gang.loop (g : Gang) (x : Tile) (o : Origin) (count endw lb : Nat) : Gang :=
  let stop := o.addr + 4 * endw
  let full : Bool := 6 ≤ x.loops.length
  let g := if full then g.cFault o 2 9 0 else g
  if count = 0 ∨ full then g.onActive o (fun a => { a with skipLoop := some stop })
  else g.onActive o (fun a =>
    let e : LoopEntry := { count := count, idx := 0, start := a.next, stop := stop, lb := lb, ib := 0 }
    { a with loop := some e })

def execLoop (count endw lb : Nat) (s : State) : Outcome :=
  .next (s.control (fun g x _ o => g.loop x o count endw lb))

/-- LOOPS: the count is s(RA); above 2^32 - 1 it is a fault and 0; a poisoned one is a consumption (R149, R423). -/
def Gang.loops (g : Gang) (x : Tile) (o : Origin) (ra endw lb : Nat) : Gang :=
  let rd := x.readCodes g.lcyc o.slot o.addr [ra]
  let v := (nthD 0 rd.vals 0).toNat
  let g := g.onTile o.gid (fun _ => rd.x)
  let g := if rd.poison then g.consume o 1 g.lcyc 0 else g
  if v < 2 ^ 32 then g.loop rd.x o v endw lb else (g.cFault o 2 10 0).loop rd.x o 0 endw lb

def execLoops (a endw lb : Nat) (s : State) : Outcome :=
  .next (s.control (fun g x _ o => g.loops x o a endw lb))

/-! ### BR, CALL, RET, JOIN -/

/-- BR on a tile: JBASE := B whether or not the guard is true (R151). -/
def Gang.br (g : Gang) (x : Tile) (o : Origin) (pg pn d : Nat) : Gang :=
  let g := g.onTile o.gid (fun y => { y with jbase := y.base })
  if x.guard pg pn then g.branch x o (displaced o.addr 21 d) true else g

/-- A relative jump of an agent core, from the instruction itself (R148). -/
def AgentCore.jump (x : AgentCore) (w d : Nat) : AgentCore := { x with pc := x.pc + BitVec.ofInt 64 (4 * sextInt w d) }

def execBr (pg pn d : Nat) (s : State) : Outcome :=
  match s.cur with
  | .agent _ => .next (s.onMe (fun x => if x.guard pg pn then x.jump 21 d else x.advance))
  | _ => .next (s.control (fun g x _ o => g.br x o pg pn d))

/-- CALL on a tile: the link is written at t + 1 unless the branch is refused (R152, R153). -/
def Gang.call (g : Gang) (x : Tile) (a : Active) (o : Origin) (rd d : Nat) : Gang :=
  let target := displaced o.addr 19 d
  let h := g.branch x o target false
  if x.branchOk o.addr target false then h.laterReg o (g.lcyc + 1) rd (BitVec.ofNat 64 a.next) false else h

def execCall (r d : Nat) (s : State) : Outcome :=
  match s.cur with
  | .agent _ => .next (s.onMe (fun x => (x.setReg r (x.pc + 4)).jump 19 d))
  | _ => .next (s.control (fun g x a o => g.call x a o r d))

/-- RET on a tile (R152, R423). -/
def Gang.ret (g : Gang) (x : Tile) (o : Origin) (ra : Nat) : Gang :=
  let rd := x.readCodes g.lcyc o.slot o.addr [ra]
  let g := g.onTile o.gid (fun _ => rd.x)
  let g := if rd.poison then g.consume o 1 g.lcyc 0 else g
  g.branch rd.x o ((nthD 0 rd.vals 0).toNat : Int) false

def execRet (a : Nat) (s : State) : Outcome :=
  match s.cur with
  | .agent _ => .next (s.onMe (fun x => { x with pc := x.reg a }))
  | _ => .next (s.control (fun g x _ o => g.ret x o a))

/-- JOIN (R154). -/
def execJoin (e : Nat) (s : State) : Outcome :=
  .next (s.control (fun g x a o =>
    if (a.t0 : Int) - (x.jbase : Int) = (e : Int) then g else g.cFault o 1 5 (BitVec.ofNat 64 e)))

/-! ### HALT, TRAP, DBGB -/

/-- HALT: its tile retires at this cycle; the bundle's other slots still issue once (R54, R158). -/
def execHalt (s : State) : Outcome :=
  .next (s.control (fun g _ _ o => (g.onTile o.gid (fun y => { y with halted := some g.lcyc })).onActive o
    (fun a => { a with halt := true })))

/-- TRAP: a fault of the debug class (R159). -/
def execTrapInstr (code : Nat) (s : State) : Outcome := .next (s.control (fun g _ _ o => g.cFault o 12 code 0))

/-- DBGB: a debug hold when the debugger has armed it, and the tag is reported (R160). -/
def execDbgb (tag : Nat) (s : State) : Outcome :=
  let armed := match s.gang s.evTask with
    | some g => bitAt g.dctl 3
    | none => false
  let s1 := s.control (fun g _ _ o => if armed then g.announce 3 o.gid 0 else g)
  .next (if armed then s1.emit 10 s.evTask [s.evGid, tag] else s1)

/-! ### FMT, SEGCHK, RESYNC, PHASE, RINGC -/

/-- FMT: FMTR changes at t + 4 (R162). -/
def execFmt (v : Nat) (s : State) : Outcome := .next (s.control (fun g _ _ o => g.later o (g.lcyc + 4) (.fmt v)))

/-- CRC-32C over a byte, bit-reflected (R370). -/
def crcBits : Nat → Nat → Nat
  | 0, c => c
  | n + 1, c => crcBits n (if c % 2 = 1 then (c / 2) ^^^ 0x82F63B78 else c / 2)

/-- A running CRC-32C taken over bytes (R370). -/
def crcBytes (c : Nat) : List Byte → Nat
  | [] => c
  | b :: bs => crcBytes (crcBits 8 (c ^^^ b.toNat)) bs

/-- The CRC before any byte, and the final exclusive-or (R370). -/
def crcStart : Nat := 0xFFFFFFFF
def crcEnd (c : Nat) : Nat := c ^^^ 0xFFFFFFFF

/-- SEGCHK: the running segment against its signature (R163, R416, R419, R420). -/
def Gang.segchk (g : Gang) (x : Tile) (o : Origin) (seg : Nat) : Gang :=
  let count := g.lcyc - x.segBase
  let crc := crcEnd x.segCrc
  let info := BitVec.ofNat 64 (crc * 2 ^ 32 + count % 2 ^ 32)
  match x.segs[seg]? with
  | none => g.cFault o 10 2 info
  | some e =>
    if count % 2 ^ 32 ≠ e.count then g.cFault o 10 0 info
    else if e.nocrc = false ∧ crc ≠ e.crc then g.cFault o 10 1 info
    else g

def execSegchk (seg : Nat) (s : State) : Outcome := .next (s.control (fun g x _ o => g.segchk x o seg))

/-- RESYNC: applied after the last repeat; in a loop body or with K set it is a NOP (R157). -/
def Gang.resync (g : Gang) (x : Tile) (a : Active) (o : Origin) (ra : Nat) : Gang :=
  if x.loops ≠ [] ∨ a.k ≠ 0 then g.cFault o 2 3 0
  else
    let rd := x.readCodes g.lcyc o.slot o.addr [ra]
    let g := g.onTile o.gid (fun _ => rd.x)
    let g := if rd.poison then g.consume o 1 g.lcyc 0 else g
    g.onActive o (fun b => { b with resync := some (nthD 0 rd.vals 0).toNat })

def execResync (a : Nat) (s : State) : Outcome := .next (s.control (fun g x b o => g.resync x b o a))

/-- The first cycle at or after c that is a multiple of 256 (R36). -/
def nextRound (c : Nat) : Nat := (c + 255) / 256 * 256

/-- PHASE (R36). -/
def execPhase (bank : Nat) (s : State) : Outcome :=
  .next (s.control (fun g _ _ o =>
    if o.gid = 0 ∧ g.phase.isNone then { g with phase := some (bank, nextRound (g.lcyc + g.h)) } else g.cFault o 2 3 0))

/-- RINGC: the descriptor changes at t + 1 (R166). -/
def execRingc (h base ls clr : Nat) (s : State) : Outcome :=
  .next (s.control (fun g _ _ o => g.later o (g.lcyc + 1) (.ringc h base (2 ^ ls) (clr == 1))))

/-! ### CRGN.OPEN, CRGN.CLOSE (R164, R425 to R427, R438) -/

/-- CRGN.OPEN pushes a region with the next micro-generation number. -/
def Gang.openRegion (g : Gang) (x : Tile) (a : Active) (o : Origin) (d : Nat) : Gang :=
  if a.q = false then g.cFault o 2 0 0
  else if 4 ≤ x.depth then g.cFault o 2 9 0
  else
    let mg := (x.mg + 1) % 2 ^ 16
    let r : Region := { v := true, failed := false, logged := false, pseen := false, point := 0, ldep := x.loops.length, mg := mg,
                        haddr := (displaced o.addr 21 d % (2 ^ 32 : Int)).toNat, saved := [] }
    g.onTile o.gid (fun y => { y with regions := setKey y.regions y.depth r, depth := y.depth + 1, mg := mg })

def execCrgnOpen (d : Nat) (s : State) : Outcome := .next (s.control (fun g x a o => g.openRegion x a o d))

/-- The mark that saved bytes give a word, if they hold a byte of it. -/
def savedMark (saved : List (DevLoc × PByte)) (a : Nat) : Option Bool :=
  (saved.find? (fun f => f.1.addr / 4 == a / 4)).map (fun f => f.2.p)

/-- The older of two records of saved bytes, by address: the outer region's value stands, and its mark for the word (R427). -/
def mergeSaved (outer inner : List (DevLoc × PByte)) : List (DevLoc × PByte) :=
  outer ++ (inner.filter (fun e => !(outer.any (fun f => f.1.addr == e.1.addr)))).map (fun e =>
    (e.1, { e.2 with p := (savedMark outer e.1.addr).getD e.2.p }))

/-- The innermost region popped, its records merged into the outer one (R427). -/
def Tile.popRegion (x : Tile) : Tile :=
  let d := x.depth - 1
  let r := x.region d
  let y := x.onRegion d (fun r => { r with v := false, saved := [] })
  let z := if d = 0 then y else y.onRegion (d - 1) (fun q => { q with saved := mergeSaved q.saved r.saved })
  { z with depth := d }

/-- CRGN.CLOSE: a clean close pops; PSEEN fails the region; a failed region stays open until handler entry
(R164, R426, R427). -/
def Gang.closeRegion (g : Gang) (x : Tile) (a : Active) (o : Origin) : Gang :=
  if a.q = false ∨ x.depth = 0 then g.cFault o 2 0 0
  else
    let d := x.depth - 1
    let r := x.region d
    if r.pseen then g.onTile o.gid (fun y => y.failRegion d 5)
    else if r.failed then g
    else g.onTile o.gid Tile.popRegion

def execCrgnClose (s : State) : Outcome := .next (s.control (fun g x a o => g.closeRegion x a o))

/-! ### SYSRD, SYSWR (R57, R167) -/

/-- SYSRD: the value read at t is written at t + 2; a device register is a privilege fault and gives 0. -/
def Gang.sysrd (g : Gang) (x : Tile) (o : Origin) (d r : Nat) : Gang :=
  if sregPrivileged r then (g.cFault o 5 r 0).laterReg o (g.lcyc + 2) d 0 false
  else g.laterReg o (g.lcyc + 2) d (x.sysReg g.lcyc g.t r) false

def execSysrd (d sreg : Nat) (s : State) : Outcome := .next (s.control (fun g x _ o => g.sysrd x o d sreg))

/-- SYSWR: the value read at t performs at t + 1; a device register is a privilege fault, a value out of limits an
illegal-schedule fault, a poisoned value a consumption. -/
def Gang.syswr (g : Gang) (x : Tile) (o : Origin) (ra r : Nat) : Gang :=
  if sregPrivileged r then g.cFault o 5 r 0
  else
    let rd := x.readCodes g.lcyc o.slot o.addr [ra]
    let v := nthD 0 rd.vals 0
    let g := g.onTile o.gid (fun _ => rd.x)
    let g := if rd.poison then g.consume o 1 g.lcyc 0 else g
    if sregValueOk r v then g.later o (g.lcyc + 1) (.sysw r v) else g.cFault o 2 10 0

def execSyswr (a sreg : Nat) (s : State) : Outcome := .next (s.control (fun g x _ o => g.syswr x o a sreg))

end Sys2Proof.Machine
end

