-- ==== Sys2Proof/Machine/Special.lean ====
section
/-! DEFINITION. The special functions of R222 and R223: each value is computed to 256 bits, cut to 224 with the rest kept
as a sticky mark, and rounded once; the exact cases are told apart before (DESIGN CHOICE, log 14). -/
namespace Sys2Proof

/-- The bits after the point of the working values. -/
def spP : Nat := 256

/-- 1 as a working value. -/
def spOne : Nat := 2 ^ spP

/-- pi, ln 2 and 1 / ln 2 cut to 256 bits after the point. -/
def spPi : Nat := 0x3243f6a8885a308d313198a2e03707344a4093822299f31d0082efa98ec4e6c89
def spLn2 : Nat := 0xb17217f7d1cf79abc9e3b39803f2f6af40f343267298b62d8a0d175b8baafa2b
def spLog2e : Nat := 0x171547652b82fe1777d0ffda0d23a7d11d6aef551bad2b4b1164a2cd9a3426491

/-- The product of two working values. -/
def spMul (a b : Nat) : Nat := a * b / spOne

/-- The quotient of two working values. -/
def spDiv (a b : Nat) : Nat := a * spOne / b

/-- A value mag * 2^exp as a working value. -/
def spOf (mag : Nat) (exp : Int) : Nat :=
  if 0 ≤ exp + spP then mag * 2 ^ (exp + spP).toNat else mag / 2 ^ (-(exp + spP)).toNat

/-- 1 + x/n (1 + x/(n+1) (...)) for the remaining terms: the series of the exponential from term n on. -/
def spExpTerms (x : Nat) : Nat → Nat → Nat
  | 0, _ => spOne
  | k + 1, n => spOne + spMul x (spExpTerms x k (n + 1)) / n

/-- e^x for a working value below 1. -/
def spExp (x : Nat) : Nat := spExpTerms x 80 1

/-- sin(x)/x or sinh(x)/x from x squared: terms x^2/((n)(n+1)), alternating for the sine. -/
def spSinTerms (alt : Bool) (xx : Nat) : Nat → Nat → Nat
  | 0, _ => spOne
  | k + 1, n =>
    let t := spMul xx (spSinTerms alt xx k (n + 2)) / (n * (n + 1))
    if alt then spOne - t else spOne + t

/-- atanh(z)/z from z squared: the sum of z^(2j)/(2j+1). -/
def spAtanhTerms (zz : Nat) : Nat → Nat → Nat
  | 0, _ => 0
  | k + 1, n => spOne / n + spMul zz (spAtanhTerms zz k (n + 2))

/-- A positive working value times 2^exp, cut to 224 bits with the rest as a sticky mark. -/
def spCut (neg : Bool) (v : Nat) (exp : Int) : Exact :=
  { neg := neg, mag := v / 2 ^ 32, exp := exp - spP + 32, sticky := true }

/-- The value just below a number in magnitude. -/
def justBelow (neg : Bool) (mag : Nat) (exp : Int) : Exact :=
  { neg := neg, mag := mag * 2 ^ 224 - 1, exp := exp - 224, sticky := true }

/-- An exact number. -/
def exactly (neg : Bool) (mag : Nat) (exp : Int) : Exact := { neg := neg, mag := mag, exp := exp }

/-- Whether mag * 2^exp is an integer. -/
def isInteger (mag : Nat) (exp : Int) : Bool := mag = 0 || 0 ≤ exp || mag % 2 ^ (-exp).toNat = 0

/-- The integer part of mag * 2^exp. -/
def intPart (mag : Nat) (exp : Int) : Nat := if 0 ≤ exp then mag * 2 ^ exp.toNat else mag / 2 ^ (-exp).toNat

/-- The part below 1 of mag * 2^exp, as a magnitude over the same exponent. -/
def fracPart (mag : Nat) (exp : Int) : Nat := if 0 ≤ exp then 0 else mag % 2 ^ (-exp).toNat

/-- 2^x for x = k + f, f a working value below 1. -/
def spPow2 (k : Int) (f : Nat) : Exact := spCut false (spExp (spMul f spLn2)) k

/-- 2^a, a finite and not 0 (R222). -/
def exp2Exact (x : Exact) : Exact :=
  if isInteger x.mag x.exp then
    let i : Int := min (2 ^ 20) (intPart x.mag x.exp)
    exactly false 1 (if x.neg then -i else i)
  else
    let i : Int := intPart x.mag x.exp
    let f := spOf (fracPart x.mag x.exp) x.exp
    if x.neg then (if f = 0 then justBelow false 1 (-i) else spPow2 (-i - 1) (spOne - f)) else spPow2 i f

/-- log2 of a positive finite value (R222). -/
def log2Exact (x : Exact) : Exact :=
  let n := Nat.log2 x.mag
  let k : Int := (n : Int) + x.exp
  if x.mag = 2 ^ n then exactly (k < 0) k.natAbs 0
  else
    let m := spOf x.mag (-(n : Int))
    let up : Bool := m * m > 2 * spOne * spOne
    let k' : Int := if up then k + 1 else k
    let m' := if up then m / 2 else m
    let neg := m' < spOne
    let d := if neg then spOne - m' else m' - spOne
    let z := spDiv d (m' + spOne)
    let l := spMul (2 * spMul z (spAtanhTerms (spMul z z) 120 1)) spLog2e
    let total : Int := k' * (spOne : Int) + (if neg then -(l : Int) else (l : Int))
    spCut (total < 0) total.natAbs 0

/-- e^-y for a positive working-scaled value y = mag * 2^exp below 2^10, as mantissa and exponent. -/
def spExpNeg (mag : Nat) (exp : Int) : Nat × Int :=
  let t := mag * spLog2e
  let i := intPart t (exp - spP)
  let f := spOf (fracPart t (exp - spP)) (exp - spP)
  (spExp (spMul (spOne - f) spLn2), -(i : Int) - 1)

/-- Whether mag * 2^exp is at least 2^n. -/
def atLeastPow2 (mag : Nat) (exp n : Int) : Bool := mag ≠ 0 && n ≤ (Nat.log2 mag : Int) + exp

/-- tanh of the magnitude of a finite value that is not 0 (R222). -/
def tanhExact (x : Exact) : Exact :=
  if !(atLeastPow2 x.mag x.exp (-60)) then justBelow x.neg x.mag x.exp
  else if atLeastPow2 x.mag x.exp 6 then justBelow x.neg 1 0
  else if atLeastPow2 x.mag x.exp (-1) then
    let q := spExpNeg (2 * x.mag) x.exp
    let v := spOf q.1 (q.2 - spP)
    spCut x.neg (spDiv (spOne - v) (spOne + v)) 0
  else
    let a := spOf x.mag x.exp
    let aa := spMul a a
    let sh := spSinTerms false aa 60 2
    let ch := spOne + spMul aa (spSinTerms false aa 60 3) / 2
    { spCut x.neg (x.mag * spDiv sh ch) x.exp with sticky := true }

/-- 1/(1 + e^-a), a finite and not 0; from |a| = 1024 on the value is nearer to 0 or 1 than any rounding tells (R222). -/
def sigExact (x : Exact) : Exact :=
  if atLeastPow2 x.mag x.exp 10 then
    (if x.neg then { neg := false, mag := 1, exp := -1024, sticky := true } else justBelow false 1 0)
  else
    let q := spExpNeg x.mag x.exp
    let v := spOf q.1 (q.2 - spP)
    if x.neg then spCut false (spDiv q.1 (spOne + v)) q.2 else spCut false (spDiv spOne (spOne + v)) 0

/-- sin(pi r) for r = mag * 2^exp above 0 and at most 1/2. -/
def sinPi (neg : Bool) (mag : Nat) (exp : Int) : Exact :=
  if mag * 2 = 2 ^ (-exp).toNat then exactly neg 1 0
  else
    let r := spOf mag exp
    let x := spMul spPi r
    { spCut neg (mag * spMul spPi (spSinTerms true (spMul x x) 60 2)) exp with sticky := true }

/-- cos(pi r) for r = mag * 2^exp above 0 and below 1/2. -/
def cosPi (neg : Bool) (mag : Nat) (exp : Int) : Exact :=
  if !(atLeastPow2 mag exp (-64)) then justBelow neg 1 0
  else sinPi neg (2 ^ ((-exp) - 1).toNat - mag) exp

/-- sin(pi a) for a finite a that is no integer (R222): by quadrants of the half-turn. -/
def sinExact (x : Exact) : Exact :=
  let odd := intPart x.mag x.exp % 2 == 1
  let f := fracPart x.mag x.exp
  let one := 2 ^ (-x.exp).toNat
  if 2 * f ≤ one then sinPi (x.neg != odd) f x.exp else sinPi (x.neg != odd) (one - f) x.exp

/-- cos(pi a) for a finite a that is neither an integer nor an odd multiple of 1/2 (R222). -/
def cosExact (x : Exact) : Exact :=
  let odd := intPart x.mag x.exp % 2 == 1
  let f := fracPart x.mag x.exp
  let one := 2 ^ (-x.exp).toNat
  if 2 * f < one then cosPi odd f x.exp else cosPi (!odd) (one - f) x.exp

/-- 1/sqrt of a positive finite value (R222). -/
def rsqrtExact (x : Exact) : Exact :=
  let odd := x.exp % 2 ≠ 0
  let m := if odd then 2 * x.mag else x.mag
  let e := if odd then x.exp - 1 else x.exp
  let k := 160 + bitLen m
  let y := 2 ^ (2 * k) / m
  let r := natSqrt y
  { neg := false, mag := r, exp := -(e / 2) - (k : Int), sticky := r * r * m != 2 ^ (2 * k) }

/-- The special functions by their SF (R129). -/
inductive Special where
  | exp2 | log2 | rcp | rsq | sqrt | tanh | sig | sin | cos
deriving DecidableEq, Repr

/-- f(a) for a finite operand that is not a zero. -/
def Special.finite (f : Special) (t : ElemType) (mode : Rnd) (sat : Bool) (rsd : Nat) (x : Exact) : Rounded :=
  let out (y : Exact) : Rounded := roundFloat t mode sat rsd y
  match f with
  | .exp2 => out (exp2Exact x)
  | .log2 => if x.neg then genNan t 5 else out (log2Exact x)
  | .rcp => out (divExact 160 (exactly false 1 0) x)
  | .rsq => if x.neg then genNan t 5 else out (rsqrtExact x)
  | .sqrt => if x.neg then genNan t 5 else out (sqrtExact 80 x)
  | .tanh => out (tanhExact x)
  | .sig => out (sigExact x)
  | .sin => if isInteger x.mag x.exp then { bits := t.withSign x.neg 0, flags := 0 } else out (sinExact x)
  | .cos =>
    if isInteger x.mag x.exp then out (exactly (intPart x.mag x.exp % 2 == 1) 1 0)
    else if isInteger (2 * x.mag) x.exp then { bits := 0, flags := 0 }
    else out (cosExact x)

/-- f(±0) (R223). -/
def Special.zero (f : Special) (t : ElemType) (mode : Rnd) (sat neg : Bool) : Rounded :=
  match f with
  | .exp2 => roundFloat t mode sat 0 (exactly false 1 0)
  | .log2 => infResult t sat true flagDZ
  | .rcp => infResult t sat neg flagDZ
  | .rsq => infResult t sat neg flagDZ
  | .sqrt => { bits := t.withSign neg 0, flags := 0 }
  | .tanh => { bits := t.withSign neg 0, flags := 0 }
  | .sig => roundFloat t mode sat 0 (exactly false 1 (-1))
  | .sin => { bits := t.withSign neg 0, flags := 0 }
  | .cos => roundFloat t mode sat 0 (exactly false 1 0)

/-- f(±infinity) (R223). -/
def Special.infinite (f : Special) (t : ElemType) (mode : Rnd) (sat neg : Bool) : Rounded :=
  let one (n : Bool) : Rounded := roundFloat t mode sat 0 (exactly n 1 0)
  match f with
  | .exp2 => if neg then { bits := 0, flags := 0 } else infResult t sat false 0
  | .log2 => if neg then genNan t 5 else infResult t sat false 0
  | .rcp => { bits := t.withSign neg 0, flags := 0 }
  | .rsq => if neg then genNan t 5 else { bits := 0, flags := 0 }
  | .sqrt => if neg then genNan t 5 else infResult t sat false 0
  | .tanh => one neg
  | .sig => if neg then { bits := 0, flags := 0 } else one false
  | .sin => { bits := t.withSign neg 0, flags := 0 }
  | .cos => one false

/-- A special function of one element (R222, R223). -/
def Special.apply (f : Special) (t : ElemType) (mode : Rnd) (sat : Bool) (rsd a : Nat) : Rounded :=
  match firstNan t [(t, a)] with
  | some r => r
  | none =>
    match decodeFloat t a with
    | .inf s => f.infinite t mode sat s
    | .fin x => if x.mag = 0 then f.zero t mode sat x.neg else f.finite t mode sat rsd x
    | .nan _ => genNan t 5

end Sys2Proof
end

