-- ==== Sys2Proof/Machine/Vector.lean ====
section
/-! DEFINITION. The vector arithmetic instructions and the special functions (09 R180 to R209, 11 R222 and R223). -/
namespace Sys2Proof.Machine

/-! ### Operands (R125, R180 to R189) -/

/-- A source element and whether a word that holds it is poisoned. -/
structure Lane where
  val : Nat
  poison : Bool
deriving DecidableEq, Repr

/-- The entry that a source operand addresses (R125). -/
def Tile.srcEntry (x : Tile) (v : VOp) (k : Nat) (d : Opd) : Nat :=
  let r := x.ring d.reg
  r.at ((r.head : Int) + d.off + sextInt 7 v.bias + (k : Int) * sextInt 4 d.step)

/-- The entry that a destination operand addresses (R125). -/
def Tile.dstEntry (x : Tile) (k : Nat) (d : Opd) : Nat :=
  let r := x.ring d.reg
  r.at ((r.tail : Int) + d.off + (k : Int) * sextInt 4 d.step)

/-- The W bits of an entry from a lane group on, and the poison marks of their words (R183). -/
def VEntry.slice (e : VEntry) (v : VOp) : Nat × Nat :=
  (e.bits.toNat / 2 ^ (256 * v.lgb) % 2 ^ v.w, e.poison.toNat / 2 ^ (8 * v.lgb) % 2 ^ (v.w / 32))

/-- Whether a word that holds any of the bits from pos on, w of them, is marked. -/
def marked (marks pos w : Nat) : Bool := (upFrom (pos / 32) ((pos + w - 1) / 32 + 1 - pos / 32)).any (bitAt marks)

/-- The i-th element of width w of a slice (R184). -/
def laneOf (sl : Nat × Nat) (w i : Nat) : Lane := { val := sl.1 / 2 ^ (w * i) % 2 ^ w, poison := marked sl.2 (w * i) w }

/-- A source operand read at issue: n lanes, and the tile after a k pop (R184, R186, R191). -/
def Tile.readOperand (x : Tile) (c : Nat) (o : Origin) (v : VOp) (k : Nat) (d : Opd) (w n : Nat) : Tile × List Lane :=
  match d.kind with
  | 1 => (x, (List.range n).map (laneOf ((x.entry (x.srcEntry v k d)).slice v) w))
  | 3 =>
    let r := x.readCode d.reg c o.slot o.addr
    (r.1, List.replicate n { val := r.2.val.toNat % 2 ^ w, poison := r.2.poison })
  | _ => (x, [])

/-- The mask bit of the lowest byte of element i of width s (R189, R200). -/
def Tile.maskBit (x : Tile) (v : VOp) (m s i : Nat) : Bool := (x.mask m).getLsbD (32 * v.lgb + i * s / 8)

/-- Element i is enabled (R189). -/
def Tile.enabled (x : Tile) (v : VOp) (s i : Nat) : Bool := x.maskBit v v.msk s i

/-- The expected fill of the first source ring whose fill differs (R181). -/
def Tile.badFill (x : Tile) (v : VOp) : Option Nat :=
  (([v.oa, v.ob, v.oc].filter (fun d => d.kind == 1)).find? (fun d =>
    d.fill % (x.ring d.reg).size != (x.ring d.reg).fill)).map (·.fill)

/-- The stochastic draw of an element (R77). -/
def Tile.draw (x : Tile) (o : Origin) (e : Nat) : Nat := rsdBits x.seed.toNat o.gid o.slot e o.issue

/-! ### Results -/

/-- Bits to write into an entry: values, the bits they cover, the marks of their words. -/
structure EntryWrite where
  v : Nat
  en : Nat
  poison : Nat

def EntryWrite.empty : EntryWrite := { v := 0, en := 0, poison := 0 }

/-- A field of w bits at a position of the entry. -/
def EntryWrite.put (e : EntryWrite) (pos w val : Nat) (p : Bool) : EntryWrite :=
  { v := e.v + val % 2 ^ w * 2 ^ pos
    en := e.en + (2 ^ w - 1) * 2 ^ pos
    poison := if p then (upFrom (pos / 32) ((pos + w - 1) / 32 + 1 - pos / 32)).foldl (fun a i => a ||| 2 ^ i) e.poison
              else e.poison }

/-- A write of an entry put off to its cycle (R191). -/
def Gang.laterEntry (g : Gang) (o : Origin) (due entry : Nat) (e : EntryWrite) : Gang :=
  if e.en = 0 then g.busy o due
  else g.later o due (.vent entry (BitVec.ofNat 1024 e.v) (BitVec.ofNat 1024 e.en) (BitVec.ofNat 32 e.poison))

/-- What becomes of one element: a value with its flags and mark, or nothing because it is disabled. -/
structure LaneOut where
  val : Rounded
  poison : Bool

/-- The elements of a ring destination; a disabled one is kept, or zeroed under ZM (R184, R189). -/
def ringWrite (v : VOp) (w : Nat) : Nat → List (Option LaneOut) → EntryWrite → EntryWrite
  | _, [], e => e
  | i, some r :: rs, e => ringWrite v w (i + 1) rs (e.put (256 * v.lgb + w * i) w r.val.bits r.poison)
  | i, none :: rs, e => ringWrite v w (i + 1) rs (if v.zm = 1 then e.put (256 * v.lgb + w * i) w 0 false else e)

/-- The flags of all elements. -/
def outFlags (rs : List (Option LaneOut)) : Nat := rs.foldl (fun a r => match r with
  | some x => a ||| x.val.flags
  | none => a) 0

/-- Whether an element that took part was poisoned. -/
def outPoison (rs : List (Option LaneOut)) : Bool := rs.any (fun r => match r with
  | some x => x.poison
  | none => false)

/-- The tile of an operation that read poison (R426). -/
def Gang.sawPoison (g : Gang) (o : Origin) (p : Bool) : Gang := if p then g.onTile o.gid Tile.sawPoison else g

/-! ### The frame of a vector operation (R181, R187, R188) -/

/-- A vector operation at an issue cycle: lane groups, fill check, then its own work, which is told its guard; `slip` is what an
operation with a wrong fill does beside its fault. A V0 operation that its fill check makes a NOP has used its lane groups
(R187; DESIGN CHOICE, log 26). -/
def Gang.vectorWith (g : Gang) (x : Tile) (o : Origin) (v : VOp) (slip : Gang → Gang) (run : Gang → Tile → Bool → Gang) : Gang :=
  let c := g.lcyc
  let now := x.nowAt c
  let x := (x.count 0x05 1)
  if o.slot = 3 ∧ v.groups.any now.lanes.contains then
    g.onTile o.gid (fun _ => x.record 2 4 o.slot o.addr c 0)
  else
    let y := if o.slot = 2 then { x with now := { now with lanes := v.groups } } else x
    match y.badFill v with
    | some f => slip (g.onTile o.gid (fun _ => y.record 1 2 o.slot o.addr c (BitVec.ofNat 64 f)))
    | none => run (g.onTile o.gid (fun _ => y)) y (y.guard v.pg v.pn)

/-- A vector operation whose wrong fill has no effect but its fault. -/
def Gang.vectorAny (g : Gang) (x : Tile) (o : Origin) (v : VOp) (run : Gang → Tile → Bool → Gang) : Gang :=
  g.vectorWith x o v id run

/-- A vector operation that does nothing under a false guard (R188). -/
def Gang.vector (g : Gang) (x : Tile) (o : Origin) (v : VOp) (run : Gang → Tile → Gang) : Gang :=
  g.vectorAny x o v (fun g x ok => if ok then run g x else g)

/-- A vector operation of the tile whose turn it is. -/
def State.vector (s : State) (v : VOp) (run : Gang → Tile → Nat → Origin → Gang) : Outcome :=
  .next (s.issueOn (fun g x k o => g.vector x o v (fun g x => run g x k o)))

/-- An operation with its operands and the width of their elements. -/
structure Source where
  d : Opd
  w : Nat

/-- Lanes regrouped by element. -/
def byElement (n : Nat) (ls : List (List Lane)) : List (List Lane) :=
  (List.range n).map (fun i => ls.map (fun l => nthD { val := 0, poison := false } l i))

/-- The sources read in order. -/
def Tile.readSources (x : Tile) (c : Nat) (o : Origin) (v : VOp) (k n : Nat) : List Source → Tile × List (List Lane)
  | [] => (x, [])
  | s :: ss =>
    let r := x.readOperand c o v k s.d s.w n
    let rest := Tile.readSources r.1 c o v k n ss
    (rest.1, r.2 :: rest.2)

/-- The elements of an elementwise operation: f takes the draw and the source values (R188 to R190). -/
def Tile.elements (x : Tile) (o : Origin) (v : VOp) (s n : Nat) (lanes : List (List Lane))
    (f : Nat → List Nat → Rounded) : List (Option LaneOut) :=
  ((List.range n).zip (byElement n lanes)).map (fun e =>
    if x.enabled v s e.1 then
      some { val := f (x.draw o e.1) (e.2.map (·.val)), poison := e.2.any (·.poison) }
    else none)

/-- An elementwise operation with a ring destination of type dst (R184, R189 to R191). -/
def Gang.vmap (g : Gang) (x : Tile) (o : Origin) (v : VOp) (k lat : Nat) (srcs : List Source) (dst : ElemType)
    (f : Nat → List Nat → Rounded) : Gang :=
  let s := maxOf (dst.width :: srcs.map (·.w))
  let n := v.w / s
  let rd := x.readSources g.lcyc o v k n srcs
  let rs := x.elements o v s n rd.2 f
  let w := ringWrite v dst.width 0 rs EntryWrite.empty
  ((((g.onTile o.gid (fun _ => rd.1)).sawPoison o (outPoison rs)).laterEntry o (g.lcyc + lat)
    (x.dstEntry k v.od) w).laterFlags o (g.lcyc + lat) (outFlags rs))


/-- Operands OA and OB as sources. -/
def srcA (v : VOp) : Source := { d := v.oa, w := v.at_.width }
def srcB (v : VOp) : Source := { d := v.ob, w := v.bt.width }

/-- A bit pattern without flags. -/
def plain (n : Nat) : Rounded := { bits := n, flags := 0 }

/-- The i-th of the values. -/
def argAt (xs : List Nat) (i : Nat) : Nat := nthD 0 xs i

/-- The latency of an operation that has one for F and one for Z types (R194, R199). -/
def latFZ (t : ElemType) : Nat := if t.isFloat then 4 else 2

/-- An operation of two sources of one type (R194 to R197). -/
def State.vec2 (s : State) (v : VOp) (lat : Nat) (f : ElemType → Nat → Nat → Nat → Rounded) : Outcome :=
  s.vector v (fun g x k o => g.vmap x o v k lat [srcA v, srcB v] v.dt (fun r a => f v.dt r (argAt a 0) (argAt a 1)))

/-- An operation of one source. -/
def State.vec1 (s : State) (v : VOp) (lat : Nat) (f : ElemType → Nat → Nat → Rounded) : Outcome :=
  s.vector v (fun g x k o => g.vmap x o v k lat [srcA v] v.dt (fun r a => f v.dt r (argAt a 0)))

/-! ### Elementwise arithmetic (R194 to R196) -/

/-- A floating or an integer operation by the type. -/
def byType (v : VOp) (t : ElemType) (ff : Rounded) (fi : Int) : Rounded := if t.isFloat then ff else fitInt t v.sats fi

def execVadd (v : VOp) (s : State) : Outcome :=
  s.vec2 v (latFZ v.dt) (fun t r a b => byType v t (addFloat t v.mode v.sats r a b) (intValue t a + intValue t b))
def execVsub (v : VOp) (s : State) : Outcome :=
  s.vec2 v (latFZ v.dt) (fun t r a b => byType v t (subFloat t v.mode v.sats r a b) (intValue t a - intValue t b))
def execVmul (v : VOp) (s : State) : Outcome :=
  s.vec2 v (latFZ v.dt) (fun t r a b => byType v t (mulFloat t v.mode v.sats r a b) (intValue t a * intValue t b))

/-- A BF16 or FP16 operand widened exactly for the widening form; NV for a signalling NaN (R86, R194). -/
def widen (src dst : ElemType) (b : Nat) : Rounded := if src = dst then plain b else floatToFloat src dst .rne false 0 b

/-- The multiply-add family: (-1)^nd c + (-1)^np a b (R194, R195). -/
def fmaElem (v : VOp) (nd np : Bool) (r a b c : Nat) : Rounded :=
  let t := v.dt
  if t.isFloat then
    let wa := widen v.at_ t a
    let wb := widen v.bt t b
    let x := fmaFloat t v.mode v.sats r nd np c wa.bits wb.bits
    { x with flags := x.flags ||| wa.flags ||| wb.flags }
  else
    let p := intValue t a * intValue t b
    let d := intValue t c
    fitInt t v.sats ((if nd then -d else d) + (if np then -p else p))

def State.vfma (s : State) (v : VOp) (nd np : Bool) : Outcome :=
  s.vector v (fun g x k o => g.vmap x o v k (latFZ v.dt) [srcA v, srcB v, { d := v.oc, w := v.dt.width }] v.dt
    (fun r a => fmaElem v nd np r (argAt a 0) (argAt a 1) (argAt a 2)))

def execVfma (v : VOp) (s : State) : Outcome := s.vfma v false false
def execVfms (v : VOp) (s : State) : Outcome := s.vfma v true false
def execVfnma (v : VOp) (s : State) : Outcome := s.vfma v false true

/-- The smaller or the larger of two elements (R87, R196). -/
def minMax (t : ElemType) (wantMax : Bool) (a b : Nat) : Rounded :=
  if t.isFloat then minMaxFloat t wantMax a b
  else if wantMax then plain (if intValue t a < intValue t b then b else a)
  else plain (if intValue t b < intValue t a then b else a)

def execVmin (v : VOp) (s : State) : Outcome := s.vec2 v (latFZ v.dt) (fun t _ a b => minMax t false a b)
def execVmax (v : VOp) (s : State) : Outcome := s.vec2 v (latFZ v.dt) (fun t _ a b => minMax t true a b)

/-- |a|: the sign bit alone for F, the integer value for I, unchanged for N (R195, R196). -/
def execVabs (v : VOp) (s : State) : Outcome :=
  s.vec1 v (latFZ v.dt) (fun t _ a =>
    if t.isFloat then plain (a % t.signBit) else fitInt t v.sats ((intValue t a).natAbs : Int))

def execVneg (v : VOp) (s : State) : Outcome :=
  s.vec1 v (latFZ v.dt) (fun t _ a => if t.isFloat then plain (a ^^^ t.signBit) else fitInt t v.sats (-(intValue t a)))

def execVmulh (v : VOp) (s : State) : Outcome :=
  s.vec2 v 2 (fun t _ a b => plain (wrapInt t.width (intValue t a * intValue t b / (2 ^ t.width : Nat))))

/-! ### Logic, shifts and bit counts (R197, R198) -/

def execVand (v : VOp) (s : State) : Outcome := s.vec2 v 2 (fun _ _ a b => plain (a &&& b))
def execVor (v : VOp) (s : State) : Outcome := s.vec2 v 2 (fun _ _ a b => plain (a ||| b))
def execVxor (v : VOp) (s : State) : Outcome := s.vec2 v 2 (fun _ _ a b => plain (a ^^^ b))
def execVandn (v : VOp) (s : State) : Outcome := s.vec2 v 2 (fun t _ a b => plain (a &&& (2 ^ t.width - 1 - b)))
def execVnot (v : VOp) (s : State) : Outcome := s.vec1 v 2 (fun t _ a => plain (2 ^ t.width - 1 - a))
def execVclz (v : VOp) (s : State) : Outcome := s.vec1 v 2 (fun t _ a => plain (t.width - bitLen a))
def execVpopc (v : VOp) (s : State) : Outcome := s.vec1 v 2 (fun t _ a => plain (popCount t.width a))

/-- A shift: the count is b modulo the width, or AUX when OB is absent (R198). -/
def State.vshift (s : State) (v : VOp) (f : ElemType → Nat → Nat → Nat) : Outcome :=
  if v.ob.kind = 0 then s.vec1 v 2 (fun t _ a => plain (f t a (v.aux % 64)))
  else s.vec2 v 2 (fun t _ a b => plain (f t a (b % t.width)))

def execVshl (v : VOp) (s : State) : Outcome := s.vshift v (fun t a n => a * 2 ^ n % 2 ^ t.width)
def execVshr (v : VOp) (s : State) : Outcome := s.vshift v (fun _ a n => a / 2 ^ n)
def execVsha (v : VOp) (s : State) : Outcome :=
  s.vshift v (fun t a n => wrapInt t.width (sextInt t.width a / (2 ^ n : Nat)))

/-! ### Compare, select, convert (R199 to R201) -/

/-- The condition of VCMP on two elements (R178, R199). -/
def vcmpElem (t : ElemType) (f a b : Nat) : Rounded :=
  if t.isFloat then
    let r := floatCompare t f a b
    { bits := if r.1 then 1 else 0, flags := r.2 }
  else
    let x := intValue t a
    let y := intValue t b
    let holds : Bool := match f with
      | 0 => x == y
      | 1 => x != y
      | 2 => x < y
      | 3 => y ≤ x
      | 4 => x ≤ y
      | _ => y < x
    plain (if holds then 1 else 0)

/-- The mask bits of a compare: each element's outcome in all the bits of its bytes (R199). -/
def maskWrite (v : VOp) (s : Nat) : Nat → List (Option LaneOut) → Nat × Nat → Nat × Nat
  | _, [], e => e
  | i, some r :: rs, e =>
    let bits := (2 ^ (s / 8) - 1) * 2 ^ (32 * v.lgb + i * (s / 8))
    maskWrite v s (i + 1) rs (if r.val.bits = 1 then e.1 + bits else e.1, e.2 + bits)
  | i, none :: rs, e =>
    maskWrite v s (i + 1) rs
      (if v.zm = 1 then (e.1, e.2 + (2 ^ (s / 8) - 1) * 2 ^ (32 * v.lgb + i * (s / 8))) else e)

/-- VCMP: a poisoned element that takes part is a consumption, for masks carry no mark (R199, R422, R423). -/
def Gang.vcmp (g : Gang) (x : Tile) (o : Origin) (v : VOp) (k : Nat) : Gang :=
  let t := v.at_
  let n := v.w / t.width
  let rd := x.readSources g.lcyc o v k n [srcA v, srcB v]
  let rs := x.elements o v t.width n rd.2 (fun _ a => vcmpElem t (v.aux % 8) (argAt a 0) (argAt a 1))
  let m := maskWrite v t.width 0 rs (0, 0)
  let due := g.lcyc + latFZ t
  let p := outPoison rs
  let g := (g.onTile o.gid (fun _ => rd.1)).sawPoison o p
  let g := if p then g.consume o 1 g.lcyc 0 else g
  (g.later o due (.mask v.od.reg (BitVec.ofNat 128 m.1) (BitVec.ofNat 128 m.2))).laterFlags o due (outFlags rs)

def execVcmp (v : VOp) (s : State) : Outcome := s.vector v (fun g x k o => g.vcmp x o v k)

/-- VSEL: the chosen source's bits and mark (R200). -/
def Gang.vsel (g : Gang) (x : Tile) (o : Origin) (v : VOp) (k : Nat) : Gang :=
  let t := v.dt
  let n := v.w / t.width
  let rd := x.readSources g.lcyc o v k n [srcA v, srcB v]
  let rs : List (Option LaneOut) := ((List.range n).zip (byElement n rd.2)).map (fun e =>
    let l := nthD { val := 0, poison := false } e.2 (if x.maskBit v v.oc.reg t.width e.1 then 0 else 1)
    if x.enabled v t.width e.1 then some { val := plain l.val, poison := l.poison } else none)
  ((g.onTile o.gid (fun _ => rd.1)).sawPoison o (outPoison rs)).laterEntry o (g.lcyc + 2) (x.dstEntry k v.od)
    (ringWrite v t.width 0 rs EntryWrite.empty)

def execVsel (v : VOp) (s : State) : Outcome := s.vector v (fun g x k o => g.vsel x o v k)

def execVcvt (v : VOp) (s : State) : Outcome :=
  s.vec1 v 4 (fun t r a => convert v.at_ t v.mode v.sats r a)

/-! ### MX blocks (R185, R202 to R204) -/

/-- The finite magnitude of a floating element, if it is finite. -/
def finiteOf (t : ElemType) (b : Nat) : Option Exact :=
  match decodeFloat t b with
  | .fin x => some x
  | _ => none

/-- The scale of a block and the flags of choosing it: 255 when an enabled element is a NaN or infinite (R93); NV for an
infinity and for a signalling NaN (R86). A quiet NaN raises nothing here, for its code is fixed by R93 and not converted by
R91 (DEDUCED, log 25). -/
def blockScale (src dst : ElemType) (xs : List Nat) : Nat × Nat :=
  if xs.all (fun b => (finiteOf src b).isSome) then (mxScale dst (absMax (xs.filterMap (finiteOf src))), 0)
  else
    (255, if xs.any (fun b => match decodeFloat src b with
      | .inf _ => true
      | .nan sig => sig
      | .fin _ => false) then flagNV else 0)

/-- One element under the block's scale (R91, R93). -/
def quantElem (src dst : ElemType) (e : Nat) (mode : Rnd) (r b : Nat) : Rounded :=
  if e = 255 then plain 0
  else
    match finiteOf src b with
    | some x =>
      if x.mag = 0 ∧ !dst.isMx then plain (dst.withSign x.neg 0) else mxElem dst e mode r x
    | none => plain 0

/-- The enabled lanes of block j. -/
def Tile.blockLanes (x : Tile) (v : VOp) (s j : Nat) (ls : List Lane) : List (Nat × Lane) :=
  ((upFrom (32 * j) 32).zip ((ls.drop (32 * j)).take 32)).filter (fun e => x.enabled v s e.1)

/-- VQMX: scales, codes, zeros elsewhere (R202). -/
def Gang.vqmx (g : Gang) (x : Tile) (o : Origin) (v : VOp) (k : Nat) : Gang :=
  let s := v.at_.width
  let w := v.dt.width
  let n := v.w / s
  let b := n / 32
  let rd := x.readOperand g.lcyc o v k v.oa s n
  let base := 256 * v.lgb
  let block (acc : EntryWrite × Nat × Bool) (j : Nat) : EntryWrite × Nat × Bool :=
    let ls := x.blockLanes v s j rd.2
    let sc := blockScale v.at_ v.dt (ls.map (·.2.val))
    let bad := ls.any (·.2.poison)
    let codes : List (Option LaneOut) := (upFrom (32 * j) 32).map (fun i => (find? ls i).map (fun l =>
      { val := quantElem v.at_ v.dt sc.1 v.mode (x.draw o i) l.val, poison := bad }))
    let e := ringWrite v w (32 * j) codes acc.1
    (e.put (base + v.w - 64 + 8 * j) 8 sc.1 bad, acc.2.1 ||| sc.2 ||| outFlags codes, acc.2.2 || bad)
  let r := (List.range b).foldl block (EntryWrite.empty, 0, false)
  let e := r.1.put (base + 32 * w * b) (v.w - 64 - 32 * w * b) 0 false
  let e := e.put (base + v.w - 64 + 8 * b) (64 - 8 * b) 0 false
  (((g.onTile o.gid (fun _ => rd.1)).sawPoison o r.2.2).laterEntry o (g.lcyc + 6) (x.dstEntry k v.od) e).laterFlags o
    (g.lcyc + 6) r.2.1

def execVqmx (v : VOp) (s : State) : Outcome := s.vector v (fun g x k o => g.vqmx x o v k)

/-- VDQMX: each element is its code under its block's scale (R203). -/
def Gang.vdqmx (g : Gang) (x : Tile) (o : Origin) (v : VOp) (k : Nat) : Gang :=
  let s := v.dt.width
  let w := v.at_.width
  let n := v.w / s
  let sl := (x.entry (x.srcEntry v k v.oa)).slice v
  let rs : List (Option LaneOut) := (List.range n).map (fun i =>
    let l := laneOf sl w i
    let sp := v.w - 64 + 8 * (i / 32)
    if x.enabled v s i then
      some { val := fromMx v.at_ v.dt v.mode v.sats (x.draw o i) (sl.1 / 2 ^ sp % 256) l.val,
             poison := l.poison || marked sl.2 sp 8 }
    else none)
  ((g.sawPoison o (outPoison rs)).laterEntry o (g.lcyc + 4) (x.dstEntry k v.od)
    (ringWrite v s 0 rs EntryWrite.empty)).laterFlags o (g.lcyc + 4) (outFlags rs)

def execVdqmx (v : VOp) (s : State) : Outcome := s.vector v (fun g x k o => g.vdqmx x o v k)

/-- a * 2^d rounded (R204). -/
def scaleFloat (t : ElemType) (mode : Rnd) (sat : Bool) (r : Nat) (d : Int) (a : Nat) : Rounded :=
  match firstNan t [(t, a)] with
  | some x => x
  | none =>
    match decodeFloat t a with
    | .inf n => infResult t sat n 0
    | .fin x =>
      let d := max (-2000) (min 2000 d)
      if x.mag = 0 then plain a else roundFloat t mode sat r { x with exp := x.exp + d }
    | .nan _ => plain a

/-- The scale bytes of an MX operand moved by d, clamped, with SAT where the clamp acts (R204); passing over a byte 0xFF is no
reading of a NaN scale and raises nothing (DESIGN CHOICE, log 25). -/
def scaleMx (w blocks : Nat) (d : Int) (bits : Nat) : Nat × Nat :=
  (List.range blocks).foldl (fun acc j =>
    let pos := w - 64 + 8 * j
    let e := acc.1 / 2 ^ pos % 256
    if e = 255 then acc
    else
      let n := clampScale ((e : Int) + d)
      (acc.1 - e * 2 ^ pos + n * 2 ^ pos, if (n : Int) = (e : Int) + d then acc.2 else acc.2 ||| flagSAT)) (bits, 0)

/-- VSCL: d is s(OB) or AUX[15:8] (R204). -/
def Gang.vscl (g : Gang) (x : Tile) (o : Origin) (v : VOp) (k : Nat) : Gang :=
  let rd := if v.ob.kind = 3 then x.readCode v.ob.reg g.lcyc o.slot o.addr
            else (x, { val := BitVec.ofInt 64 (sextInt 8 (bitsOf v.aux 15 8)), poison := false })
  let d := rd.2.val.toInt
  let g := g.onTile o.gid (fun _ => rd.1)
  let due := g.lcyc + 4
  if v.dt.isFloat ∧ !isMxElem v.td then
    let n := v.w / v.dt.width
    let ls := (x.readOperand g.lcyc o v k v.oa v.dt.width n).2
    let rs := x.elements o v v.dt.width n [ls.map (fun l => { l with poison := l.poison || rd.2.poison })]
      (fun r a => scaleFloat v.dt v.mode v.sats r d (argAt a 0))
    ((g.sawPoison o (outPoison rs)).laterEntry o due (x.dstEntry k v.od)
      (ringWrite v v.dt.width 0 rs EntryWrite.empty)).laterFlags o due (outFlags rs)
  else
    let sl := (x.entry (x.srcEntry v k v.oa)).slice v
    let r := scaleMx v.w (v.aux % 16) d sl.1
    let marks := if rd.2.poison then
        (List.range (v.aux % 16)).foldl (fun m j => m ||| 2 ^ ((v.w - 64 + 8 * j) / 32)) sl.2 else sl.2
    let e : EntryWrite := { v := r.1 * 2 ^ (256 * v.lgb), en := (2 ^ v.w - 1) * 2 ^ (256 * v.lgb),
                            poison := marks * 2 ^ (8 * v.lgb) }
    ((g.sawPoison o (marks != 0)).laterEntry o due (x.dstEntry k v.od) e).laterFlags o due r.2

def execVscl (v : VOp) (s : State) : Outcome := s.vector v (fun g x k o => g.vscl x o v k)

/-! ### Reductions and scans (R96, R97, R205 to R207) -/

/-- One level of the tree: the lower half against the upper (R96). -/
def treeLevel {α : Type} (op : Nat → α → α → α) (base : Nat) : List (Option α) → List (Option α) → List (Option α)
  | some a :: as, some b :: bs => some (op base a b) :: treeLevel op (base + 1) as bs
  | none :: as, b :: bs => b :: treeLevel op (base + 1) as bs
  | a :: as, none :: bs => a :: treeLevel op (base + 1) as bs
  | as, [] => as
  | [], _ => []

/-- The fixed tree over elements of which some are absent; fuel is the number of levels (R96). -/
def treeReduce {α : Type} (op : Nat → α → α → α) : Nat → List (Option α) → Option α
  | 0, xs => (xs.head?).join
  | f + 1, xs =>
    let h := xs.length / 2
    if h = 0 then (xs.head?).join else treeReduce op f (treeLevel op h (xs.take h) (xs.drop h))

/-- A partial value of a reduction with the flags raised so far; integers are exact. -/
structure Part where
  bits : Nat
  int : Int
  flags : Nat

/-- sat() of a floating result (R78). -/
def satFloat (t : ElemType) (sat : Bool) (r : Rounded) : Rounded :=
  match decodeFloat t r.bits with
  | .inf n => if sat then infResult t true n r.flags else r
  | _ => r

/-- A single value written to a ring's element 0 or to a scalar (R186, R205). -/
def Gang.single (g : Gang) (x : Tile) (o : Origin) (v : VOp) (k lat : Nat) (r : Rounded) (p : Bool) : Gang :=
  let due := g.lcyc + lat
  let g := g.sawPoison o p
  let g := if v.od.kind = 3 then g.laterReg o due v.od.reg (extendElem v.dt r.bits) p
           else g.laterEntry o due (x.dstEntry k v.od) (EntryWrite.empty.put (256 * v.lgb) v.dt.width r.bits p)
  g.laterFlags o due r.flags

/-- The lanes of OA with their enables. -/
def Tile.source (x : Tile) (o : Origin) (v : VOp) (k : Nat) : List (Option Lane) :=
  let s := max v.dt.width v.at_.width
  let n := v.w / s
  let ls := (x.readOperand o.issue o v k v.oa v.at_.width n).2
  ((List.range n).zip ls).map (fun e => if x.enabled v s e.1 then some e.2 else none)

/-- Whether an enabled lane is poisoned. -/
def lanesPoison (ls : List (Option Lane)) : Bool := ls.any (fun l => match l with
  | some y => y.poison
  | none => false)

/-- VRSUM (R96, R205). -/
def sumReduce (v : VOp) (draw : Nat → Nat) (ls : List (Option Lane)) : Rounded :=
  let t := v.dt
  if t.isFloat then
    let ps : List (Option Rounded) := ls.map (fun l => l.map (fun y => widen v.at_ t y.val))
    match treeReduce (fun e a b =>
        let r := addFloat t v.mode false (draw e) a.bits b.bits
        ({ bits := r.bits, flags := r.flags ||| a.flags ||| b.flags } : Rounded)) 8 ps with
    | some r => satFloat t v.sats r
    | none => plain 0
  else
    fitInt t v.sats ((ls.filterMap (fun l => l.map (fun y => intValue v.at_ y.val))).foldl (· + ·) 0)

/-- The value of a reduction of nothing: +0 for a sum, else the least or the greatest of the type (R96). -/
def identityOf (t : ElemType) (op : Nat) : Nat :=
  match op with
  | 0 => 0
  | 1 => if t = .e4m3 then t.withSign true t.largest
         else if t.isFloat then t.withSign true t.infinity else wrapInt t.width t.minInt
  | _ => if t = .e4m3 then t.largest else if t.isFloat then t.infinity else wrapInt t.width t.maxInt

/-- VRMAX and VRMIN (R87, R96, R205). A lone present element takes part in no operation and is the result as it is, a
signalling NaN too; so it is in VRSUM (DESIGN CHOICE, log 25). -/
def extremeReduce (v : VOp) (wantMax : Bool) (ls : List (Option Lane)) : Rounded :=
  let t := v.at_
  let ps : List (Option Rounded) := ls.map (fun l => l.map (fun y => plain y.val))
  match treeReduce (fun _ a b =>
      let r := minMax t wantMax a.bits b.bits
      ({ bits := r.bits, flags := r.flags ||| a.flags ||| b.flags } : Rounded)) 8 ps with
  | some r => r
  | none => plain (identityOf t (if wantMax then 1 else 2))

def State.reduce (s : State) (v : VOp) (f : Tile → Origin → List (Option Lane) → Rounded) : Outcome :=
  s.vector v (fun g x k o =>
    let ls := x.source o v k
    g.single x o v k 8 (f x o ls) (lanesPoison ls))

def execVrsum (v : VOp) (s : State) : Outcome := s.reduce v (fun x o ls => sumReduce v (x.draw o) ls)
def execVrmax (v : VOp) (s : State) : Outcome := s.reduce v (fun _ _ ls => extremeReduce v true ls)
def execVrmin (v : VOp) (s : State) : Outcome := s.reduce v (fun _ _ ls => extremeReduce v false ls)

/-- The order key of an element that is no NaN, -0 below +0 (R87, R206). -/
def orderKey (t : ElemType) (b : Nat) : Int := if t.isFloat then floatKey t b else intValue t b

/-- The index of the extreme among indexed values, ties to the lower (R206). -/
def argBest (wantMax : Bool) : List (Nat × Int) → Option (Nat × Int) → Option Nat
  | [], best => best.map (·.1)
  | (i, k) :: es, best =>
    match best with
    | none => argBest wantMax es (some (i, k))
    | some (j, b) => argBest wantMax es (if (if wantMax then b < k else k < b) then some (i, k) else some (j, b))

/-- VRARG (R86, R206). -/
def argReduce (v : VOp) (ls : List (Option Lane)) : Rounded :=
  let t := v.at_
  let es : List (Nat × Nat) := ((List.range ls.length).zip ls).filterMap (fun e => e.2.map (fun l => (e.1, l.val)))
  let flags := if es.any (fun e => isSnanBits t e.2) then flagNV else 0
  match es.find? (fun e => isNanBits t e.2) with
  | some e => { bits := e.1, flags := flags }
  | none =>
    match argBest (v.aux % 2 == 0) (es.map (fun e => (e.1, orderKey t e.2))) none with
    | some i => plain i
    | none => plain (2 ^ v.dt.width - 1)

def execVrarg (v : VOp) (s : State) : Outcome := s.reduce v (fun _ _ ls => argReduce v ls)

/-- One step of a scan (R97, R207). -/
def scanStep (v : VOp) (r a b : Nat) : Rounded :=
  let t := v.dt
  match v.aux % 4 with
  | 0 => byType v t (addFloat t v.mode v.sats r a b) (intValue t a + intValue t b)
  | 1 => minMax t true a b
  | _ => minMax t false a b

/-- The running value over increasing index from y on; a disabled element leaves it (R97, R207). -/
def scanRun (v : VOp) (draw : Nat → Nat) : Nat → Nat → Bool → List (Option Lane) → List (Option LaneOut)
  | _, _, _, [] => []
  | i, y, p, none :: ls => none :: scanRun v draw (i + 1) y p ls
  | i, y, p, some l :: ls =>
    let r := scanStep v (draw i) y l.val
    some { val := r, poison := p || l.poison } :: scanRun v draw (i + 1) r.bits (p || l.poison) ls

/-- The scan of all elements: y_0 is x_0 as it is where element 0 is enabled, else the running value starts at the identity
(R97, R207; DEDUCED, log 25). -/
def scanAll (v : VOp) (draw : Nat → Nat) (ls : List (Option Lane)) : List (Option LaneOut) :=
  match ls with
  | some l :: rest => some { val := plain l.val, poison := l.poison } :: scanRun v draw 1 l.val l.poison rest
  | _ => scanRun v draw 0 (identityOf v.dt (v.aux % 4)) false ls

def execVscan (v : VOp) (s : State) : Outcome :=
  s.vector v (fun g x k o =>
    let rs := scanAll v (x.draw o) (x.source o v k)
    ((g.sawPoison o (outPoison rs)).laterEntry o (g.lcyc + 8) (x.dstEntry k v.od)
      (ringWrite v v.dt.width 0 rs EntryWrite.empty)).laterFlags o (g.lcyc + 8) (outFlags rs))

/-! ### Sparse packing (R208) -/

/-- The magnitude of an element, every NaN above every number (R208). -/
def magnitude (t : ElemType) (b : Nat) : Nat :=
  if t.isFloat then (if isNanBits t b then 2 ^ 64 else b % t.signBit) else (intValue t b).natAbs

/-- One block's region: the selected elements in front, the mask in the last 32 bits (R208). -/
def topkBlock (t : ElemType) (k : Nat) (es : List (Nat × Lane)) : Nat :=
  let best := (sortBy (fun e => 2 ^ 65 - magnitude t e.2.val) es).take k
  let chosen := sortBy (·.1) best
  let codes := ((List.range chosen.length).zip chosen).foldl (fun a e => a + e.2.2.val * 2 ^ (t.width * e.1)) 0
  codes + sumOf (chosen.map (fun e => 2 ^ (e.1 % 32))) * 2 ^ (32 * t.width - 32)

/-- VTOPK (R208). -/
def Gang.vtopk (g : Gang) (x : Tile) (o : Origin) (v : VOp) (k : Nat) : Gang :=
  let t := v.dt
  let n := v.w / t.width
  let rd := x.readOperand g.lcyc o v k v.oa t.width n
  let r := (List.range (n / 32)).foldl (fun (acc : EntryWrite × Bool) j =>
    let es := x.blockLanes v t.width j rd.2
    let p := es.any (·.2.poison)
    (acc.1.put (256 * v.lgb + 32 * t.width * j) (32 * t.width) (topkBlock t (v.aux % 64) es) p, acc.2 || p))
    (EntryWrite.empty, false)
  (g.sawPoison o r.2).laterEntry o (g.lcyc + 8) (x.dstEntry k v.od) r.1

def execVtopk (v : VOp) (s : State) : Outcome := s.vector v (fun g x k o => g.vtopk x o v k)

/-! ### Counting, expansion and broadcast (R209) -/

/-- For each element, whether it is enabled and how many enabled ones stand below it. -/
def countBelow : Nat → List Bool → List (Bool × Nat)
  | _, [] => []
  | c, e :: es => (e, c) :: countBelow (if e then c + 1 else c) es

/-- The enables of an operation of n elements of width s. -/
def Tile.enables (x : Tile) (v : VOp) (s n : Nat) : List Bool := (List.range n).map (x.enabled v s)

/-- A result that moves elements, without flags (R209). -/
def Gang.moveElems (g : Gang) (x : Tile) (o : Origin) (v : VOp) (k : Nat) (rs : List (Option LaneOut)) : Gang :=
  (g.sawPoison o (outPoison rs)).laterEntry o (g.lcyc + 2) (x.dstEntry k v.od) (ringWrite v v.dt.width 0 rs EntryWrite.empty)

def execVxpnd (v : VOp) (s : State) : Outcome :=
  s.vector v (fun g x k o =>
    let t := v.dt
    let n := v.w / t.width
    let ls := (x.readOperand g.lcyc o v k v.oa t.width n).2
    g.moveElems x o v k ((countBelow 0 (x.enables v t.width n)).map (fun e =>
      let l := nthD { val := 0, poison := false } ls e.2
      if e.1 then some { val := plain l.val, poison := l.poison } else none)))

/-- VCOUNT: the number of enabled elements that are not zero bits (R209). -/
def execVcount (v : VOp) (s : State) : Outcome :=
  s.vector v (fun g x k o =>
    let ls := x.source o v k
    g.single x o v k 2 (plain (ls.filter (fun l => match l with
      | some y => y.val != 0
      | none => false)).length) (lanesPoison ls))

def execViota (v : VOp) (s : State) : Outcome :=
  s.vector v (fun g x k o =>
    let t := v.dt
    g.moveElems x o v k ((countBelow 0 (x.enables v t.width (v.w / t.width))).map (fun e =>
      if e.1 then some { val := plain ((v.aux % 2 ^ 32 + e.2) % 2 ^ t.width), poison := false } else none)))

/-- VBRD: one element, or a scalar, in every enabled element (R209). -/
def execVbrd (v : VOp) (s : State) : Outcome :=
  s.vector v (fun g x k o =>
    let t := v.dt
    let n := v.w / t.width
    let rd := x.readOperand g.lcyc o v k v.oa t.width n
    let l := nthD { val := 0, poison := false } rd.2 (if v.oa.kind = 1 then v.aux % 128 else 0)
    (g.onTile o.gid (fun _ => rd.1)).moveElems x o v k ((x.enables v t.width n).map (fun e =>
      if e then some { val := plain l.val, poison := l.poison } else none)))

/-- VEXTR: one element to a scalar register (R186, R209). -/
def execVextr (v : VOp) (s : State) : Outcome :=
  s.vector v (fun g x k o =>
    let t := v.dt
    let l := nthD { val := 0, poison := false } (x.readOperand g.lcyc o v k v.oa t.width (v.w / t.width)).2 (v.aux % 128)
    g.single x o v k 2 (plain l.val) l.poison)

/-! ### Special functions (R222, R223) -/

def State.special (s : State) (v : VOp) (f : Special) : Outcome :=
  s.vec1 v 10 (fun t r a => f.apply t v.mode v.sats r a)

def execVexp2 (v : VOp) (s : State) : Outcome := s.special v .exp2
def execVlog2 (v : VOp) (s : State) : Outcome := s.special v .log2
def execVrcp (v : VOp) (s : State) : Outcome := s.special v .rcp
def execVrsq (v : VOp) (s : State) : Outcome := s.special v .rsq
def execVsqrt (v : VOp) (s : State) : Outcome := s.special v .sqrt
def execVtanh (v : VOp) (s : State) : Outcome := s.special v .tanh
def execVsig (v : VOp) (s : State) : Outcome := s.special v .sig
def execVsin (v : VOp) (s : State) : Outcome := s.special v .sin
def execVcos (v : VOp) (s : State) : Outcome := s.special v .cos

/-! ### V NOP and ADVR (R121, R221) -/

/-- The vector NOP idles its slot, which the issue turn does (R121). -/
def execVNop (s : State) : Outcome := .next s

/-- ADVR: the pointers move at the end of the issue cycle; the new ones hold from t + 1 (R221). -/
def execAdvr (v : VOp) (s : State) : Outcome :=
  .next (s.issueOn (fun g x _ o =>
    let g := g.onTile o.gid (fun y => y.count 0x05 1)
    if x.guard v.pg v.pn then
      g.later o (g.lcyc + 1) (.advr v.od.reg (sextInt 8 (v.aux % 256)) (sextInt 8 (bitsOf v.aux 15 8)))
    else g))

end Sys2Proof.Machine
end

