-- ==== Sys2Proof/Machine/Crossbar.lean ====
section
/-! DEFINITION. The crossbar instructions of the X slot (11 R224 to R229). -/
namespace Sys2Proof.Machine

/-- A pattern register at task start: every port to itself, valid (R225). An entry is V * 64 + DEST. -/
def identityPattern : List Nat := (List.range 64).map (· + 64)

def Tile.pattern (x : Tile) (n : Nat) : List Nat := look identityPattern x.xp n

/-- The destination ports of valid entries, in order of the source ports. -/
def patternTargets (p : List Nat) : List (Nat × Nat) :=
  (((List.range 64).zip p).filter (fun e => 64 ≤ e.2)).map (fun e => (e.1, e.2 % 64))

/-- The entry that an X operation writes, from pairs of source and destination ports (R224). -/
def routeEntry (e : VEntry) (routes : List (Nat × Nat)) : VWord × BitVec 32 :=
  let v := e.bits.toNat
  let p := e.poison.toNat
  (BitVec.ofNat 1024 (routes.foldl (fun a r => a + v / 2 ^ (16 * r.1) % 2 ^ 16 * 2 ^ (16 * r.2)) 0),
   BitVec.ofNat 32 (routes.foldl (fun a r => if bitAt p (r.1 / 2) then a ||| 2 ^ (r.2 / 2) else a) 0))

/-- An X operation: the source entry at issue, the whole destination entry at t + 2 (R224). -/
def Gang.cross (g : Gang) (x : Tile) (o : Origin) (hd hs k : Nat) (routes : List (Nat × Nat)) : Gang :=
  let rs := x.ring hs
  let rd := x.ring hd
  let r := routeEntry (x.entry (rs.at ((rs.head : Int) + k))) routes
  (g.sawPoison o (r.2 != 0)).later o (g.lcyc + 2)
    (.vent (rd.at ((rd.tail : Int) + k)) r.1 (BitVec.allOnes 1024) r.2)

def State.cross (s : State) (hd hs : Nat) (routes : List (Nat × Nat)) : Outcome :=
  .next (s.issueOn (fun g x k o => g.cross x o hd hs k routes))

/-- The routes of a map of units of consecutive ports (R228). -/
def unitRoutes (size : Nat) (f : Nat → Nat) : List (Nat × Nat) :=
  (List.range 64).map (fun s => (s, f (s / size) * size + s % size))

def execXNop (s : State) : Outcome := .next s

/-- XPERM: two valid entries with one destination write nothing (R227). -/
def execXperm (hd hs n : Nat) (s : State) : Outcome :=
  .next (s.issueOn (fun g x k o =>
    let routes := patternTargets (x.pattern n)
    if (dedupNat (routes.map (·.2))).length = routes.length then g.cross x o hd hs k routes
    else g.record o 2 5 g.lcyc 0))

def execXrot (hd hs n : Nat) (s : State) : Outcome :=
  s.cross hd hs ((List.range 64).map (fun p => (p, (p + 2 * n) % 64)))

/-- Where XSHUF moves unit j of u (R228). -/
def shuffleUnit (mode u j : Nat) : Nat :=
  match mode with
  | 0 => if j < u / 2 then 2 * j else 2 * (j - u / 2) + 1
  | 1 => if j % 2 = 0 then j / 2 else u / 2 + j / 2
  | 2 => if j % 2 = 0 then j + 1 else j - 1
  | _ => u - 1 - j

def execXshuf (hd hs mode g : Nat) (s : State) : Outcome :=
  s.cross hd hs (unitRoutes (2 ^ g) (shuffleUnit mode (64 / 2 ^ g)))

/-- XTRN: an m by m matrix of units transposed (R228). -/
def execXtrn (hd hs p : Nat) (s : State) : Outcome :=
  let m := 8 / 2 ^ p
  s.cross hd hs (unitRoutes (4 ^ p) (fun j => j % m * m + j / m))

/-- XBRD: one 32-bit word in every word (R226). -/
def execXbrd (hd hs j : Nat) (s : State) : Outcome :=
  s.cross hd hs ((List.range 64).map (fun p => (2 * j + p % 2, p)))

/-- XPAT: the pattern is read at t and written at t + 2; poison read is a consumption (R229). -/
def Gang.xpat (g : Gang) (x : Tile) (o : Origin) (hs n k : Nat) : Gang :=
  let rs := x.ring hs
  let e := x.entry (rs.at ((rs.head : Int) + k))
  let v := e.bits.toNat
  let ports := (List.range 64).map (fun s =>
    let w := v / 2 ^ (16 * s) % 2 ^ 16
    w / 2 ^ 15 * 64 + w % 64)
  let g := if e.poison = 0 then g else (g.sawPoison o true).consume o 1 g.lcyc 0
  g.later o (g.lcyc + 2) (.xpat n ports)

def execXpat (hs n : Nat) (s : State) : Outcome := .next (s.issueOn (fun g x k o => g.xpat x o hs n k))

end Sys2Proof.Machine
end

