-- ==== Sys2Proof/Machine/Sequencer.lean ====
section
/-! DEFINITION. The sequencer of a tile: bundles, skips, sticky re-issues, loops, traps, handler entry, overdue quiescence,
syncs and phases (01 R22 to R42, 05 R102 to R107, 25 R428). -/
namespace Sys2Proof.Machine

/-! ### Bundles (R102 to R106) -/

/-- The widths of the syllables in slot order (R104). -/
def slotWidths : List Nat := [32, 32, 16, 16, 16, 32, 64]

/-- A bundle as it stands in the stream. -/
structure Bundle where
  addr : Nat
  header : Nat
  syls : List (Nat × Nat)
  words : Nat
  padBad : Bool

/-- The syllables of the present slots, cut from the bit stream (R104). -/
def cutSyllables (present bits : Nat) : Nat → Nat → List Nat → List (Nat × Nat)
  | _, _, [] => []
  | slot, at_, w :: ws =>
    if bitAt present slot then (slot, bits / 2 ^ at_ % 2 ^ w) :: cutSyllables present bits (slot + 1) (at_ + w) ws
    else cutSyllables present bits (slot + 1) at_ ws

/-- The bits of the present syllables (R105). -/
def presentBits (present : Nat) : Nat → List Nat → Nat
  | _, [] => 0
  | slot, w :: ws => (if bitAt present slot then w else 0) + presentBits present (slot + 1) ws

/-- The word of a tile's stream at a byte offset. -/
def Tile.wordAt (x : Tile) (a : Nat) : Nat := look 0 x.code (a / 4)

/-- The number of n words from a byte offset on, the first lowest. -/
def Tile.wordsAt (x : Tile) (a : Nat) : Nat → Nat
  | 0 => 0
  | n + 1 => x.wordAt a + 2 ^ 32 * x.wordsAt (a + 4) n

/-- The bundle at a byte offset (R102 to R105). -/
def Tile.bundleAt (x : Tile) (a : Nat) : Bundle :=
  let h := x.wordAt a
  let present := h % 128
  let b := presentBits present 0 slotWidths
  let n := ceilDiv b 32
  let bits := x.wordsAt (a + 4) n
  { addr := a, header := h, syls := cutSyllables present bits 0 0 slotWidths, words := 1 + n, padBad := bits / 2 ^ b ≠ 0 }

def Bundle.offset (b : Bundle) : Nat := bitsOf b.header 31 17
def Bundle.rep (b : Bundle) : Nat := bitsOf b.header 16 9
def Bundle.k (b : Bundle) : Bool := bitAt b.header 8
def Bundle.q (b : Bundle) : Bool := bitAt b.header 7
def Bundle.present (b : Bundle) : Nat := b.header % 128
def Bundle.next (b : Bundle) : Nat := b.addr + 4 * b.words

/-- The syllable of a slot, if it is present. -/
def Bundle.syl (b : Bundle) (slot : Nat) : Option Nat := find? b.syls slot

/-- What a bundle's C syllable is: HALT, a loop, another instruction or none (R35, R40). -/
def Bundle.control (b : Bundle) : Option Instr :=
  match b.syl 0 with
  | none => none
  | some w =>
    match decodeC w with
    | .ok i => some i
    | .error _ => none

def Bundle.isHalt (b : Bundle) : Bool := b.control == some .halt

def Bundle.isLoop (b : Bundle) : Bool :=
  match b.control with
  | some (.loop _ _ _) => true
  | some (.loops _ _ _) => true
  | _ => false

def Bundle.isSync (b : Bundle) : Bool := b.control == some .sync

/-! ### When the next bundle issues (R24 to R26, R464) -/

/-- PC lies at or beyond the end of the stream (R26). -/
def Tile.pastEnd (x : Tile) : Bool := x.codeLen ≤ x.pc / 4

/-- t0 of the next bundle (R24, R26). -/
def Tile.firstCycle (x : Tile) : Nat :=
  if x.pastEnd then (max (x.base : Int) (x.last + 1)).toNat else x.base + (x.bundleAt x.pc).offset

/-- Why a bundle is skipped: class and detail (R24, R26). -/
def Tile.refusal (x : Tile) (b : Bundle) (t0 c : Nat) : Option (Nat × Nat) :=
  if (t0 : Int) ≤ x.last then some (2, 1)
  else if x.loops.any (fun l => l.ib + l.lb ≤ t0 + b.rep) then some (2, 2)
  else if t0 < c ∨ (t0 : Int) ≤ x.late ∨ (upFrom (b.addr / 4) b.words).any (fun w => x.badWords.contains w) then
    (if b.addr / 4 + b.words ≤ x.codeLen then some (1, 1) else none)
  else none

/-- Whether the words of a bundle run past the end of the stream (R26). -/
def Tile.runsOut (x : Tile) (b : Bundle) : Bool := x.codeLen < b.addr / 4 + b.words

/-- A bundle is quiescent: Q with nothing in flight, or HALT; an arm is in flight until its range completes (R40, R274,
R464). -/
def Tile.isQuiet (x : Tile) (b : Bundle) (t0 : Nat) : Bool :=
  b.isHalt || (b.q && x.busyTo < (t0 : Int) && x.addrTo < (t0 : Int) && !x.arms.any (·.live))

/-- The outermost failed region. -/
def Tile.failedRegion (x : Tile) : Option Nat := (List.range x.depth).find? (fun d => (x.region d).failed)

/-- What a tile does in cycle c: an event of the table, or nothing. -/
def Tile.turn (x : Tile) (c : Nat) : Option Instr :=
  if x.halted.isSome ∨ x.trapped.isSome then none
  else
    match x.active with
    | some _ => some .stickyReissue
    | none =>
      if x.wait.isSome then none
      else if c < x.firstCycle then none
      else if x.pastEnd then some .bundleIssue
      else
        let b := x.bundleAt x.pc
        let t0 := x.firstCycle
        if (x.refusal b t0 c).isSome ∨ x.runsOut b ∨ !x.isQuiet b t0 then some .bundleIssue
        else if x.fault.v then some .trap
        else if x.failedRegion.isSome then some .handlerEntry
        else some .bundleIssue

/-! ### advance_pc and skip_bundle (R25, R29, R150) -/

/-- The loop rule of R29, with the crossed END of R150, over the loop stack from its innermost entry. -/
def Tile.loopRule (x : Tile) (addr next c : Nat) (crossing : Bool) : List LoopEntry → Tile
  | [] => { x with loops := [] }
  | e :: es =>
    if e.stop = addr then
      (if e.idx + 1 < e.count then
         let f : LoopEntry := { e with idx := e.idx + 1, ib := e.ib + e.lb }
         { x with loops := f :: es, base := e.ib + e.lb, pc := e.start }
       else Tile.loopRule { x with base := e.ib + e.lb } addr next c crossing es)
    else if crossing ∧ addr < e.stop ∧ e.stop < next then
      Tile.loopRule ({ x with base := e.ib + e.lb } : Tile) addr next c crossing es |>.record 2 2 0 addr c 0
    else { x with loops := e :: es }

/-- advance_pc from the bundle at an address to the one after it (R29). -/
def Tile.advance (x : Tile) (addr next c : Nat) : Tile := Tile.loopRule { x with pc := next } addr next c true x.loops

/-- skip_bundle: the present slots become idle (R25); the next bundle is delivered in the cycle after t0 (R26). -/
def Tile.skip (x : Tile) (b : Bundle) (t0 c : Nat) : Tile :=
  let y := x.count 0x03 1
  let z := { y with sticky := y.sticky.filter (fun e => !bitAt b.present e.1), late := (t0 : Int) + 1 }
  z.advance b.addr b.next c

/-! ### Traps (R40, R41) -/

/-- A tile takes its pending fault: it issues nothing further, and a fault hold is announced. -/
def Gang.trap (g : Gang) (gid : Nat) : Gang :=
  match g.tile gid with
  | none => g
  | some x => (g.onTile gid (fun y => { y with trapped := some g.lcyc })).faultHold gid x.fault.cls

/-- TRAP: a pending fault is taken at a quiescent bundle, which does not issue. -/
def execTrap (s : State) : Outcome :=
  let gid := s.evGid
  .next (s.onGang s.evTask (fun g => match g.tile gid with
    | none => g
    | some x => if x.fault.v ∧ x.trapped.isNone then g.trap gid else g))

/-! ### BUNDLE_ISSUE (R24) -/

/-- The turns put first on the agenda. -/
def State.before (s : State) (ts : List Turn) : State := { s with agenda := ts ++ s.agenda }

/-- The K bit in effect: 0 clear, 1 a sync mark, 2 ignored with a fault (R35). -/
def Tile.syncMark (x : Tile) (b : Bundle) : Nat :=
  if !b.k then 0 else if b.rep ≠ 0 ∨ x.loops ≠ [] ∨ b.isLoop then 2 else 1

/-- The banks that a tile holds (R300). -/
def Tile.banksHeld (x : Tile) : Nat := sumOf (x.groups.map (fun e => e.2.length))

/-- The sticky slots as they stand when a bundle first issues: a present slot takes its syllable, an absent one its next
re-issue (R24, R27). -/
def Tile.stickyAt (x : Tile) (b : Bundle) : Tbl Sticky :=
  [1, 2, 3, 4, 5, 6].filterMap (fun i => match b.syl i with
    | some w => some (i, ({ syl := w, k := 0 } : Sticky))
    | none => (find? x.sticky i).map (fun e => (i, { e with k := e.k + 1 })))

/-- The sticky slots of a repeat: each takes its next re-issue (R24, R28). -/
def Tile.stickyNext (x : Tile) : Tbl Sticky := x.sticky.map (fun e => (e.1, { e.2 with k := e.2.k + 1 }))

/-- The turns in which the slots of an issue cycle issue, in slot order, and the end of the cycle. -/
def issueTurns (t gid addr : Nat) (c : Option Nat) (sticky : Tbl Sticky) : List Turn :=
  (match c with
   | some w => [Turn.issue t gid 0 0 addr w]
   | none => []) ++ sticky.map (fun e => Turn.issue t gid e.1 e.2.k addr e.2.syl) ++ [Turn.endBundle t gid]

/-- A tile's breakpoints meet an address (R433). -/
def Tile.breakAt (x : Tile) (addr : Nat) : Bool :=
  x.bpa.any (fun e => bitAt e.2.toNat 63 && e.2.toNat % 2 ^ 32 / 4 * 4 == addr)

/-- A bundle issues: its record, the faults of its header, its breakpoint (R24, R35, R106, R433). Of the faults of SLOT 0 in one
cycle the K placement stands first, then the padding bit, then the C syllable's (R39 orders slots only; DESIGN CHOICE, log 30). -/
def Gang.startBundle (g : Gang) (x : Tile) (b : Bundle) : Gang :=
  let c := g.lcyc
  let quiet := x.isQuiet b c
  let k := x.syncMark b
  let sticky := x.stickyAt b
  let a : Active := { t0 := c, addr := b.addr, next := b.next, rep := b.rep, i := 0, present := b.present, k := k,
                      q := b.q, quiet := quiet, halt := false, branch := none, loop := none, skipLoop := none,
                      resync := none, sync := none,
                      issued := b.present % 2 + sumOf (sticky.map (fun e => 2 ^ e.1)) }
  let x := if k = 2 then x.record 2 3 0 b.addr c 0 else x
  let x := if b.padBad then x.record 3 0xFFFF 0 b.addr c (BitVec.ofNat 64 b.header) else x
  let x := { x with
    active := some a
    issuedAt := b.addr
    sticky := sticky
    quietAt := if quiet then c else x.quietAt
    quietWas := if quiet ∧ !b.isHalt then some x.quietAt else none }
  let h := g.onTile x.gid (fun _ => x)
  if x.breakAt b.addr then h.announce 3 x.gid 0 else h

/-- HALT with an open region or with banks: the tile retires, the faults are recorded and taken there (R54, R158). -/
def Gang.badHalt (g : Gang) (x : Tile) (b : Bundle) : Gang :=
  let c := g.lcyc
  let x := if x.depth = 0 then x else x.record 2 0 0 b.addr c 0
  let x := if x.banksHeld = 0 then x else x.record 6 x.banksHeld 0 b.addr c 0
  (g.onTile x.gid (fun _ => { x with quietAt := c, halted := some c, issuedAt := b.addr })).trap x.gid

/-- A slip at which the tile is trapped at once (R26). -/
def Gang.ranOut (g : Gang) (x : Tile) : Gang :=
  (g.onTile x.gid (fun y => y.record 1 1 0 x.pc g.lcyc 0)).trap x.gid

/-- BUNDLE_ISSUE: one bundle is skipped, or issues (R24 to R26); the fault of a skipped bundle has its t0 as CYCLE (DEDUCED, log 7). -/
def State.bundleIssue (s : State) (t gid : Nat) (g : Gang) (x : Tile) : State :=
  let c := g.lcyc
  if c < x.firstCycle then s
  else if x.pastEnd then s.onGang t (fun g => g.ranOut x)
  else
    let b := x.bundleAt x.pc
    let t0 := x.firstCycle
    match x.refusal b t0 c with
    | some (cls, detail) =>
      (s.onTile t gid (fun y => (y.record cls detail 0 b.addr t0 0).skip b t0 t0)).before [.tileTurn t gid]
    | none =>
      if x.runsOut b then s.onGang t (fun g => g.ranOut x)
      else if b.isHalt ∧ (x.depth ≠ 0 ∨ x.banksHeld ≠ 0) then s.onGang t (fun g => g.badHalt x b)
      else (s.onGang t (fun g => g.startBundle x b)).before (issueTurns t gid b.addr (b.syl 0) (x.stickyAt b))

/-- A running tile whose gang is the event's. -/
def State.withTile (s : State) (k : Nat → Nat → Gang → Tile → State) : State :=
  let t := s.evTask
  let gid := s.evGid
  match s.gang t with
  | none => s
  | some g => match g.tile gid with
    | none => s
    | some x => k t gid g x

def execBundleIssue (s : State) : Outcome :=
  .next (s.withTile (fun t gid g x =>
    if x.halted.isSome ∨ x.trapped.isSome ∨ x.active.isSome ∨ x.wait.isSome then s else s.bundleIssue t gid g x))

/-- STICKY_REISSUE: the slots of one repeat of the bundle that a tile is issuing (R24, R27, R28). -/
def execStickyReissue (s : State) : Outcome :=
  .next (s.withTile (fun t gid _ x => match x.active with
    | none => s
    | some a =>
      let sticky := x.stickyNext
      let b : Active := { a with issued := sumOf (sticky.map (fun e => 2 ^ e.1)) }
      (s.onTile t gid (fun y => { y with sticky := sticky, active := some b })).before
        (issueTurns t gid a.addr none sticky)))

/-! ### One syllable issues (R107, R120 to R122) -/

/-- The control word of an entry of a tile's VCT. -/
def Tile.vctWord (x : Tile) (i : Nat) : Nat := look 0 x.vct i

/-- What a slot of a tile decodes from a syllable (R104, R107, R120). -/
def Tile.decodeSlot (x : Tile) (slot syl : Nat) : Except DecodeReject Instr :=
  match slot with
  | 0 => decodeC syl
  | 1 => decodeS syl
  | 2 => decodeV x.vctWord syl
  | 3 => decodeV x.vctWord syl
  | 4 => decodeX syl
  | 5 => decodeM syl
  | _ => decodeD syl

/-- The opcode of an undefined encoding as DETAIL holds it (R416). -/
def Tile.badOpcode (x : Tile) (slot syl : Nat) : Nat :=
  match slot with
  | 0 => syl / 2 ^ 25
  | 1 => syl / 2 ^ 25
  | 4 => syl / 2 ^ 13
  | 5 => syl / 2 ^ 26
  | 6 => syl / 2 ^ 56
  | _ => if syl % 512 = 0x1FF then 0x7FFF else x.vctWord (syl % 512) / 2 ^ 246

/-- Whether an instruction idles its slot (R28, R121). -/
def isSlotNop (i : Instr) : Bool := i == .nop || i == .vNop || i == .xNop || i == .mNop || i == .dNop

/-- A slot becomes idle. -/
def Tile.idle (x : Tile) (slot : Nat) : Tile := { x with sticky := dropKey x.sticky slot }

/-- An undefined encoding is recorded, and its slot becomes idle (R107). -/
def Tile.undefined (x : Tile) (slot syl addr c : Nat) (e : DecodeReject) : Tile :=
  (x.record 3 ((if e = .opcode then 0 else 0x8000) + x.badOpcode slot syl) slot addr c (BitVec.ofNat 64 syl)).idle slot

/-! ### The end of an issue cycle (R24, R29, R30, R420) -/

/-- The running CRC with an issue cycle appended: offset and mask, then the present syllables at the first one (R420). -/
def Tile.appendCrc (x : Tile) (a : Active) (c : Nat) : Tile :=
  let head := leBytes 4 ((c - x.segBase) % 2 ^ 24 + a.issued * 2 ^ 24)
  let b := x.bundleAt a.addr
  let body := if a.i = 0 then (b.syls.map (fun e => leBytes (nthD 0 slotWidths e.1 / 8) e.2)).flatten else []
  if x.segBase ≤ c then { x with segCrc := crcBytes x.segCrc (head ++ body) } else x

/-- A new segment begins at a base (R420). -/
def Tile.newSegment (x : Tile) (base : Nat) : Tile := { x with base := base, segBase := base, segCrc := crcStart }

/-- A loop of count 0 moves past END and applies the loop rule to the entries that end there (R30). -/
def Tile.passLoop (x : Tile) (stop c : Nat) : Tile :=
  let next := if stop / 4 < x.codeLen then (x.bundleAt stop).next else stop + 4
  Tile.loopRule { x with base := c + 1, pc := next } stop next c false x.loops

/-- What a bundle does when its last repeat has issued (R24, R30, R31, R32, R157). -/
def Tile.finishBundle (x : Tile) (a : Active) (c : Nat) : Tile :=
  let x := { x with last := (c : Int), active := none }
  match a.loop, a.skipLoop, a.resync, a.branch with
  | some e, _, _, _ =>
    let f : LoopEntry := { e with ib := c + 1 }
    ({ x with base := c + 1, loops := f :: x.loops } : Tile).advance a.addr a.next c
  | none, some stop, _, _ => x.passLoop stop c
  | none, none, some v, _ =>
    (if v ≤ c then ((x.record 1 7 0 a.addr c 0).newSegment (c + 1)).advance a.addr a.next c
     else (x.newSegment v).advance a.addr a.next c)
  | none, none, none, some target => { x with pc := target }
  | none, none, none, none =>
    match a.sync with
    | some lv =>
      let w : SyncWait := { level := lv, number := look 0 x.syncs lv, issue := a.t0, quiet := a.quiet }
      ({ x with wait := some w } : Tile).advance a.addr a.next c
    | none => x.advance a.addr a.next c

/-- The end of an issue cycle of a tile. -/
def Tile.endCycle (x : Tile) (c : Nat) : Tile :=
  match x.active with
  | none => x
  | some a =>
    let x := x.count 0x02 1
    if a.halt then { x with active := none, last := (c : Int) }
    else
      let x := if a.k = 1 ∧ a.sync.isNone then x.newSegment a.t0 else x
      let x := x.appendCrc a c
      if c < a.t0 + a.rep then { x with active := some { a with i := a.i + 1 } } else x.finishBundle a c

/-! ### Handler entry (R428) -/

/-- The records of a failed region and of those inside it, the outermost value of each byte first. -/
def Tile.reversions (x : Tile) (d : Nat) : List (DevLoc × PByte) :=
  (upFrom d (x.depth - d)).foldl (fun acc i => mergeSaved acc (x.region i).saved) []

/-- The regions from a depth on are popped (R428). -/
def Tile.cutRegions (x : Tile) (d : Nat) : Tile :=
  { (upFrom d (x.depth - d)).foldl (fun y i => y.onRegion i (fun r => { r with v := false, saved := [] })) x with depth := d }

/-- Saved bytes by rising address, put together as far as they follow one another in one 32-bit word. -/
def savedRuns : List (DevLoc × PByte) → List (DevLoc × List PByte)
  | [] => []
  | (l, b) :: es =>
    match savedRuns es with
    | [] => [(l, [b])]
    | (m, bs) :: rs => if m.addr = l.addr + 1 ∧ m.addr % 4 ≠ 0 then (l, b :: bs) :: rs else (l, [b]) :: (m, bs) :: rs

/-- The writes that revert saved bytes, staged for this cycle (R267). -/
def revertWrites (o : Origin) (saved : List (DevLoc × PByte)) : List Staged :=
  (savedRuns (sortBy (fun e => e.1.addr) saved)).map (fun r =>
    { space := 2, gid := 0, addr := r.1.addr, o := o, atomic := false, bytes := r.2, loc := some r.1, act := none })

/-- HANDLER_ENTRY of a failed region at depth d: memory reverts, the regions are popped, the loop stack is cut, the
handler is the next bundle (R428). -/
def Gang.enterHandler (g : Gang) (x : Tile) (d : Nat) : Gang :=
  let c := g.lcyc
  let r := x.region d
  let o : Origin := { gid := x.gid, slot := 0, addr := x.pc, issue := c, buf := 0 }
  let back := revertWrites o (x.reversions d)
  let y := { x.cutRegions d with
    loops := x.loops.drop (x.loops.length - r.ldep)
    sticky := []
    base := c
    pc := r.haddr
    late := (c : Int)
    quietAt := c }
  { (g.onTile x.gid (fun _ => y)) with staged := g.staged ++ back }

def execHandlerEntry (s : State) : Outcome :=
  .next (s.withTile (fun t gid _ x => match x.failedRegion with
    | none => s
    | some d =>
      (s.onGang t (fun g => g.enterHandler x d)).before [.tileTurn t gid]))

/-! ### Overdue quiescence (R42) -/

/-- QBOUND in effect: values below 256 act as 256. -/
def Tile.qbound_ (x : Tile) : Nat := max 256 x.qbound

/-- A tile's quiescence is overdue in cycle c. -/
def Tile.isOverdue (x : Tile) (c : Nat) : Bool :=
  x.halted.isNone && x.trapped.isNone && x.overdue.isNone && x.quietAt + x.qbound_ < c

/-- QUIESCENCE_OVERDUE: the fault is recorded and a fault hold announced at once. -/
def Gang.quiescenceOverdue (g : Gang) (x : Tile) : Gang :=
  (g.onTile x.gid (fun y =>
    { y.record 9 0 0 x.pc g.lcyc (BitVec.ofNat 64 (x.qbound_ + 1)) with overdue := some g.lcyc })).faultHold x.gid 9

def execQuiescenceOverdue (s : State) : Outcome :=
  .next (s.withTile (fun t _ g x => if x.isOverdue g.lcyc then s.onGang t (fun g => g.quiescenceOverdue x) else s))

/-! ### Syncs and phases (R34, R36, R48) -/

/-- The unit of a tile at a level (R34). -/
def syncUnit (t lv gid : Nat) : Nat :=
  match lv with
  | 0 => gid
  | 1 => gid / t * 8 + gid % t / 4
  | 2 => gid / t * 2 + gid % t / 16
  | 3 => gid / t
  | _ => 0

/-- L_sync (R34). -/
def syncLatency (p lv : Nat) : Nat :=
  match lv with
  | 0 => 1
  | 1 => 8
  | 2 => 16
  | 3 => 48
  | 4 => if p = 1 then 48 else 1152
  | _ => 1152

/-- The members of a waiting tile's SYNC. -/
def Gang.members (g : Gang) (lv gid : Nat) : List Tile :=
  (g.tiles.map (·.2)).filter (fun y => syncUnit g.t lv y.gid == syncUnit g.t lv gid)

/-- A member has issued its paired SYNC, or has halted (R34). -/
def Tile.arrived (y : Tile) (w : SyncWait) : Bool :=
  y.halted.isSome || (match y.wait with
    | some v => v.level == w.level && v.number == w.number
    | none => false)

/-- The cycle at which a member arrived. -/
def Tile.arrivedAt (y : Tile) : Nat :=
  match y.wait, y.halted with
  | some v, _ => v.issue
  | none, some h => h
  | none, none => 0

/-- The resolution of a waiting tile's SYNC: A and the members, when every member has arrived. -/
def Gang.resolution (g : Gang) (x : Tile) : Option (Nat × List Tile) :=
  match x.wait with
  | none => none
  | some w =>
    let ms := g.members w.level x.gid
    if ms.all (fun y => y.arrived w) then some (maxOf (ms.map Tile.arrivedAt), ms) else none

/-- One waiting tile's SYNC resolves: every member takes B := A + L_sync; a quiescent one of gang level at or after a
drain's target is where the gang may stop, unless a member has a fault pending (R34, R48; DEDUCED, log 29). -/
def Gang.resolveOne (g : Gang) (gid : Nat) : Gang :=
  match g.tile gid with
  | none => g
  | some x =>
    match x.wait, g.resolution x with
    | some w, some (a, ms) =>
      let b := a + syncLatency g.p w.level
      let quiet := ms.all (fun y => match y.wait with
        | some v => v.quiet && y.busyTo < (b : Int) && y.addrTo < (b : Int) && !y.arms.any (·.live)
        | none => true)
      let stop := match g.drain with
        | some (td, _) => if 4 ≤ w.level ∧ quiet ∧ td ≤ a ∧ ms.all (fun y => !y.fault.v) then some b else g.stopAt
        | none => g.stopAt
      let h := ms.foldl (fun h y => h.onTile y.gid (fun z =>
        if z.wait.isSome then { z.newSegment b with wait := none } else z)) g
      { h with stopAt := stop }
    | _, _ => g

/-- Some waiting tile's SYNC resolves. -/
def Gang.syncReady (g : Gang) : Bool := g.tiles.any (fun e => (g.resolution e.2).isSome)

/-- SYNC_RESOLVE (R34). -/
def execSyncResolve (s : State) : Outcome :=
  .next (s.onGang s.evTask (fun g => (g.tiles.map (·.1)).foldl Gang.resolveOne g))

/-- PHASE_SWITCH: the bank requested becomes the active one (R36). -/
def execPhaseSwitch (s : State) : Outcome :=
  .next (s.onGang s.evTask (fun g => match g.phase with
    | some (bank, c) => if c ≤ g.lcyc then { g with bank := bank, phase := none } else g
    | none => g))

end Sys2Proof.Machine
end

