-- ==== Sys2Proof/Machine/Queues.lean ====
section
/-! DEFINITION. Completion queues: the serialiser's records, the store in which they wait, their slots in system memory
(01 R59, 23 R399 and R462, 21 R369). -/
namespace Sys2Proof.Machine

/-- The slots of a function's queue; none while it accepts no record (R399). -/
def Fn.slots (f : Fn) : Nat := if 4 ≤ f.cqsize ∧ f.cqsize ≤ 14 then 2 ^ f.cqsize else 0

/-- How many more records the queue takes now: none while CQHEAD makes it full (R399, R462). -/
def Fn.room (f : Fn) : Nat := f.slots - (f.cqtail + 2 ^ 32 - f.cqhead) % 2 ^ 32

/-- The 32 bytes of a record with its SEQ (R369, R399). -/
def CplRec.bytes (r : CplRec) (seq : Nat) : List Byte :=
  match r.raw with
  | some bs => leBytes 4 seq ++ (bs.drop 4).take 2 ++ leBytes 1 3 ++ (bs.drop 7).take 17 ++ leBytes 8 r.wtime
  | none => leBytes 4 seq ++ leBytes 2 r.status ++ leBytes 1 r.kind ++ leBytes 1 r.flags ++ leBytes 4 r.id
      ++ leBytes 4 r.osig ++ leBytes 8 r.ltime ++ leBytes 8 r.wtime

/-- Whether a record asks for an interrupt; the FLAGS of KIND 0x05 hold no IRQ (R369, R391). -/
def CplRec.irq (r : CplRec) : Bool :=
  match r.raw with
  | some bs => bitAt (nthD 0 bs 7).toNat 0
  | none => r.kind != 5 && bitAt r.flags 0

/-- What the device tells the outside world: an MSI-X vector of a function (R399). -/
def outMsix : Nat := 1

/-- COMPLETION_RECORD_WRITE: the oldest waiting record of a function goes to slot SEQ mod size, CQTAIL advances, the vector is
raised when IRQ is set; the next one follows while there is room (R399). -/
def State.writeRecord (s : State) (f : Nat) : State :=
  let x := s.fn f
  match x.pending with
  | [] => s
  | r :: rest =>
    if x.room = 0 then s
    else
      let a := x.cqbase + 32 * (x.cqtail % x.slots)
      let s1 := (s.sysWrite (a % 2 ^ 46) (clean (r.bytes x.cqtail))).setFn f
        { x with pending := rest, cqtail := (x.cqtail + 1) % 2 ^ 32 }
      let s2 := if r.irq then s1.emit outMsix f [x.cqvec] else s1
      if rest.isEmpty then s2 else s2.before [.act .completionRecordWrite (.outside [f])]

def execCompletionRecordWrite (s : State) : Outcome := .next (s.writeRecord (s.arg 0))

/-- A record comes to a function's queue in the order of the serialiser: it is written as soon as the queue takes it, waits
in the store of 256 records, or is dropped (R59, R399). -/
def State.takeRecord (s : State) (f : Nat) (r : CplRec) : State :=
  let x := s.fn f
  if 256 + x.room ≤ x.pending.length then s.setFn f { x with cqlost := min (2 ^ 32 - 1) (x.cqlost + 1) }
  else
    (s.setFn f { x with pending := x.pending ++ [{ r with wtime := s.wall }] }).before
      [.act .completionRecordWrite (.outside [f])]

/-- The serialiser accepts something: its count grows modulo 2^64 (R59). -/
def State.counted (s : State) : State := { s with serial := (s.serial + 1) % 2 ^ 64 }

/-- An event goes to the serialiser, which accepts the gangs' events of a wall cycle together and every other one at once
(R59; DEDUCED, log 28). -/
def State.arrive (s : State) (e : Ev) : State :=
  let s := { s with arrivals := s.arrivals ++ [e] }
  if s.agenda.contains .serialise then s else s.before [.serialise]

/-- A completion record on its way to the serialiser: the task that it comes from, LCYC, gang identity, place (R59, R60). -/
def State.post (s : State) (task : Option Nat) (lcyc gid place f : Nat) (r : CplRec) : State :=
  s.arrive { source := 4, task := task, lcyc := lcyc, gid := gid, place := place, act := .record f r }

/-- Where a core stands among the sources of a package: after its tiles (R59). -/
def corePlace (c : Nat) : Nat := c / 8 * 512 + 64 + c % 8

/-- Events by source and then by physical place (R59). -/
def Ev.key (e : Ev) : Nat := e.source * 2 ^ 32 + e.place

/-- Events of one task by LCYC, gang identity and source (R59, R60). -/
def Ev.ownKey (e : Ev) : Nat := (e.lcyc * 4096 + e.gid) * 8 + e.source

/-- Events in the order of acceptance: by source and place, the events of each task put in their own order among the places
that they hold (R59, R60; DEDUCED, log 28). -/
def acceptOrder (es : List Ev) : List Ev :=
  let base := sortBy Ev.key es
  (List.range base.length).filterMap (fun i => base[i]?.bind (fun e =>
    match e.task with
    | none => some e
    | some t =>
      let own := sortBy Ev.ownKey (base.filter (fun f => f.task == some t))
      own[((base.take i).filter (fun f => f.task == some t)).length]?))

/-- An event waits while an earlier one of its task is known but has not arrived: the record of a tree range that is complete
and whose last delivery has not performed (R60, R369; DEDUCED, log 28). -/
def State.evWaits (s : State) (e : Ev) : Bool :=
  match e.task with
  | none => false
  | some t => s.trees.any (fun r => r.2.ranges.any (fun q => q.task == t && q.complete.any (· < e.lcyc)))

end Sys2Proof.Machine
end

