-- ==== Sys2Proof/Machine/Crypto.lean ====
section
/-! DEFINITION. The ciphers and digests that the spec names: AES-256 and SM4 in XTS, AES-256-GCM, SM3 (R408, R455, R407,
R411); their tables and rounds are those of the published standards (PRESUMED, log 15). Bytes are natural numbers below 256. -/
namespace Sys2Proof

/-- Entry i of a table of bytes that is kept as four numbers of 64 bytes. -/
def byteOf (t : List Nat) (i : Nat) : Nat := nthD 0 t (i % 256 / 64) / 256 ^ (i % 64) % 256

def xorBytes : List Nat → List Nat → List Nat
  | a :: as, b :: bs => (a ^^^ b) :: xorBytes as bs
  | _, _ => []

/-- The big-endian value of bytes. -/
def beNat : List Nat → Nat
  | [] => 0
  | b :: bs => b * 256 ^ bs.length + beNat bs

/-- The n bytes of x, most significant first. -/
def beList (n x : Nat) : List Nat := (List.range n).map (fun i => x / 256 ^ (n - 1 - i) % 256)

/-- The n bytes of x, least significant first. -/
def leList (n x : Nat) : List Nat := (List.range n).map (fun i => x / 256 ^ i % 256)

/-- The little-endian value of bytes. -/
def leValue : List Nat → Nat
  | [] => 0
  | b :: bs => b + 256 * leValue bs

/-! ### AES-256 -/

def aesBox : List Nat :=
  [0x75b227ebe28012079a059618c323c7041531d871f1e5a534ccf73f362693fdb7c072a49cafa2d4adf04759fa7dc982ca76abd7fe2b670130c56f6bf27b777c63,
    0xd2f3ff1021dab6bcf5389d928f40a351a89f3c507f02f94585334d43fbaaefd0cf584c4a39becb6a5bb1fc20ed00d153842fe329b3d63b52a05a6e1b1a2c8309,
    0x08ae7a65eaf4566ca94ed58d6d37c8e779e4959162acd3c25c2406490a3a32e0db0b5ede14b8ee4688902a22dc4f816073195d643d7ea7c41744975fec130ccd,
    0x16bb54b00f2d99416842e6bf0d89a18cdf2855cee9871e9b948ed9691198f8e19e1dc186b95735610ef6034866b53e708a8bbd4b1f74dde8c6b4a61c2e2578ba]

def aesInv : List Nat :=
  [0x25d18b6d49a25b76b224d92866a12e084ec3fa420b954cee3d23c2a632947b54cbe9dec444438e3487ff2f9b8239e37cfbd7f3819ea340bf38a53630d56a0952,
    0x6b8a130103bdafc1020f3fca8f1e2cd00645b3b80558e4f70ad3bc8c00abd890849d8da75746155edab9edfd5048706c92b6655dcc5ca4d41698688664f6f872,
    0xf45acd78fec0db9a2079d2c64b3e56fc1bbe18aa0e62b76f89c5291d711af1476edf751ce837f9e28535ade72274ac9673e6b4f0cecff297eadc674f4111913a,
    0x7d0c2155631469e126d677ba7e042b17619953833cbbebc8b0f52aae4d3be0a0ef9cc9939f7ae52d0d4ab519a97f51605fec8027591012b131c7078833a8dd1f]

/-- Multiplication by x in the field of AES. -/
def xtime (a : Nat) : Nat := if a < 128 then 2 * a else (2 * a) % 256 ^^^ 0x1B

/-- Multiplication by a number below 16 in the field of AES. -/
def gmul (a k : Nat) : Nat :=
  let a2 := xtime a
  let a4 := xtime a2
  (if bitAt k 0 then a else 0) ^^^ (if bitAt k 1 then a2 else 0) ^^^ (if bitAt k 2 then a4 else 0)
    ^^^ (if bitAt k 3 then xtime a4 else 0)

/-- One column multiplied by a circulant matrix. -/
def mixColumn (m : List Nat) (c : List Nat) : List Nat :=
  (List.range 4).map (fun i =>
    gmul (nthD 0 c 0) (nthD 0 m ((4 - i) % 4)) ^^^ gmul (nthD 0 c 1) (nthD 0 m ((5 - i) % 4))
      ^^^ gmul (nthD 0 c 2) (nthD 0 m ((6 - i) % 4)) ^^^ gmul (nthD 0 c 3) (nthD 0 m ((7 - i) % 4)))

def mixColumns (m s : List Nat) : List Nat := (chunks 4 4 s).flatMap (mixColumn m)

/-- Byte r + 4c of the state comes from column c + r. -/
def shiftRows (s : List Nat) : List Nat := (List.range 16).map (fun i => nthD 0 s ((i + 4 * (i % 4)) % 16))

def unshiftRows (s : List Nat) : List Nat := (List.range 16).map (fun i => nthD 0 s ((i + 12 * (i % 4)) % 16))

/-- The next word of the key schedule; the words so far stand last first. -/
def aesKeyWord (n : Nat) (ws : List (List Nat)) : List Nat :=
  let t := nthD [] ws 0
  let sub := t.map (byteOf aesBox)
  let u := if n % 8 = 0 then
      xorBytes ((sub.drop 1) ++ sub.take 1) [2 ^ (n / 8 - 1), 0, 0, 0]
    else if n % 8 = 4 then sub
    else t
  xorBytes (nthD [] ws 7) u

def aesKeyWords : Nat → List (List Nat) → List (List Nat)
  | 0, ws => ws
  | n + 1, ws => aesKeyWords n (aesKeyWord (60 - (n + 1)) ws :: ws)

/-- The fifteen round keys of a 32-byte key. -/
def aesKeys (key : List Nat) : List (List Nat) :=
  chunks 16 15 ((aesKeyWords 52 (chunks 4 8 key).reverse).reverse.flatten)

def aesRounds : List (List Nat) → List Nat → List Nat
  | [], s => s
  | [k], s => xorBytes (shiftRows (s.map (byteOf aesBox))) k
  | k :: ks, s => aesRounds ks (xorBytes (mixColumns [2, 3, 1, 1] (shiftRows (s.map (byteOf aesBox)))) k)

/-- AES-256 encryption of 16 bytes. -/
def aesEncrypt (ks : List (List Nat)) (s : List Nat) : List Nat :=
  match ks with
  | [] => s
  | k :: rest => aesRounds rest (xorBytes s k)

def aesUnrounds : List (List Nat) → List Nat → List Nat
  | [], s => s
  | [k], s => xorBytes ((unshiftRows s).map (byteOf aesInv)) k
  | k :: ks, s => aesUnrounds ks (mixColumns [14, 11, 13, 9] (xorBytes ((unshiftRows s).map (byteOf aesInv)) k))

/-- AES-256 decryption of 16 bytes. -/
def aesDecrypt (ks : List (List Nat)) (s : List Nat) : List Nat :=
  match ks.reverse with
  | [] => s
  | k :: rest => aesUnrounds rest (xorBytes s k)

/-! ### SM4 -/

def sm4Box : List Nat :=
  [0xa63f8f75fa94df8095e808c9a91cb3e462accfed430b54337a98ef91f450429c99068649261344aac304be2a769a672b052cfb28c214b616b73de1ccfee990d6,
    0x9ec8c4a0e702364c5227d39f574600d4877821013b7c2225a2d158635e0e241e359d56704b0febf88bda6471b2816b68a84f85e6193c5983ba1773f3fca70747,
    0x515b6c6d726aff032f8efdde4537dbd56f4e530dab2329c060ca66822ee2f61de3b18cf5303293ad551a349ba45daee0a11561f9cef2f7a3b538c740d28abfea,
    0x4839cbd73e5fee79204ddc3aec7df01884c66ec509f1b9657e77960c4a976989b0b4e5b812d0742dbd7bcda58831c10ad85a101f415cd9117fbcddbb92af1b8d]

def rotl32 (x n : Nat) : Nat := (x * 2 ^ n + x / 2 ^ (32 - n)) % 2 ^ 32

def sm4Sub (x : Nat) : Nat :=
  byteOf sm4Box (x % 256) + 2 ^ 8 * byteOf sm4Box (x / 2 ^ 8 % 256) + 2 ^ 16 * byteOf sm4Box (x / 2 ^ 16 % 256)
    + 2 ^ 24 * byteOf sm4Box (x / 2 ^ 24)

def sm4Mix (x : Nat) : Nat :=
  let b := sm4Sub x
  b ^^^ rotl32 b 2 ^^^ rotl32 b 10 ^^^ rotl32 b 18 ^^^ rotl32 b 24

def sm4MixKey (x : Nat) : Nat :=
  let b := sm4Sub x
  b ^^^ rotl32 b 13 ^^^ rotl32 b 23

/-- The constant of key round i: bytes 28i, 28i + 7, 28i + 14, 28i + 21. -/
def sm4Ck (i : Nat) : Nat := beNat [28 * i % 256, (28 * i + 7) % 256, (28 * i + 14) % 256, (28 * i + 21) % 256]

def sm4KeyRounds : Nat → Nat → Nat → Nat → Nat → List Nat
  | 0, _, _, _, _ => []
  | n + 1, a, b, c, d =>
    let k := a ^^^ sm4MixKey (b ^^^ c ^^^ d ^^^ sm4Ck (32 - (n + 1)))
    k :: sm4KeyRounds n b c d k

/-- The 32 round keys of a 16-byte key. -/
def sm4Keys (key : List Nat) : List Nat :=
  let w := (chunks 4 4 key).map beNat
  sm4KeyRounds 32 (nthD 0 w 0 ^^^ 0xA3B1BAC6) (nthD 0 w 1 ^^^ 0x56AA3350) (nthD 0 w 2 ^^^ 0x677D9197)
    (nthD 0 w 3 ^^^ 0xB27022DC)

def sm4Rounds : List Nat → Nat → Nat → Nat → Nat → List Nat
  | [], a, b, c, d => [d, c, b, a]
  | k :: ks, a, b, c, d => sm4Rounds ks b c d (a ^^^ sm4Mix (b ^^^ c ^^^ d ^^^ k))

/-- SM4 on 16 bytes; decryption takes the round keys in reverse. -/
def sm4Block (ks s : List Nat) : List Nat :=
  let w := (chunks 4 4 s).map beNat
  (sm4Rounds ks (nthD 0 w 0) (nthD 0 w 1) (nthD 0 w 2) (nthD 0 w 3)).flatMap (beList 4)

/-! ### XTS -/

/-- The tweak multiplied by the primitive element. -/
def xtsNext (t : List Nat) : List Nat :=
  let x := leValue t
  leList 16 ((2 * x % 2 ^ 128) ^^^ (if x < 2 ^ 127 then 0 else 0x87))

def xtsBlocks (f : List Nat → List Nat) : List Nat → List (List Nat) → List (List Nat)
  | _, [] => []
  | t, b :: bs => xorBytes (f (xorBytes b t)) t :: xtsBlocks f (xtsNext t) bs

/-- One 64-byte line under XTS: algorithm 1 AES-256, 2 SM4; the keys as little-endian numbers of their bytes (R455). -/
def xtsLine (alg k1 k2 line : Nat) (decrypt : Bool) (data : List Nat) : List Nat :=
  let bs := chunks 16 4 data
  if alg = 1 then
    let a := aesKeys (leList 32 k1)
    let t := aesEncrypt (aesKeys (leList 32 k2)) (leList 16 line)
    (xtsBlocks (if decrypt then aesDecrypt a else aesEncrypt a) t bs).flatten
  else
    let a := sm4Keys (leList 16 k1)
    let t := sm4Block (sm4Keys (leList 16 k2)) (leList 16 line)
    (xtsBlocks (sm4Block (if decrypt then a.reverse else a)) t bs).flatten

/-! ### AES-256-GCM -/

/-- Multiplication in the field of GHASH: numbers of 128 bits, the first bit most significant. -/
def ghashMul : Nat → Nat → Nat → Nat → Nat
  | 0, _, _, z => z
  | n + 1, x, v, z =>
    ghashMul n x (if v % 2 = 1 then v / 2 ^^^ (0xE1 * 2 ^ 120) else v / 2) (if bitAt x n then z ^^^ v else z)

def ghash (h : Nat) : Nat → List Nat → Nat
  | y, [] => y
  | y, b :: bs => ghash h (ghashMul 128 (y ^^^ b) h 0) bs

/-- Bytes as blocks of 16, the last one filled with zeros. -/
def gcmBlocks (bs : List Nat) : List Nat :=
  (chunks 16 (ceilDiv bs.length 16) bs).map (fun c => beNat (c ++ List.replicate (16 - c.length) 0))

/-- The key stream of n blocks from a counter on, for a 12-byte nonce. -/
def gcmStream (ks : List (List Nat)) (nonce : List Nat) : Nat → Nat → List Nat
  | _, 0 => []
  | c, n + 1 => aesEncrypt ks (nonce ++ beList 4 c) ++ gcmStream ks nonce (c + 1) n

/-- AES-256-GCM opened: the plain bytes when the tag holds (R455). -/
def gcmOpen (key nonce aad data tag : List Nat) : Option (List Nat) :=
  let ks := aesKeys key
  let h := beNat (aesEncrypt ks (List.replicate 16 0))
  let s := ghash h 0 (gcmBlocks aad ++ gcmBlocks data ++ [8 * aad.length * 2 ^ 64 + 8 * data.length])
  if beList 16 (s ^^^ beNat (gcmStream ks nonce 1 1)) = tag then
    some (xorBytes data (gcmStream ks nonce 2 (ceilDiv data.length 16)))
  else none

/-! ### SM3 -/

def sm3P0 (x : Nat) : Nat := x ^^^ rotl32 x 9 ^^^ rotl32 x 17
def sm3P1 (x : Nat) : Nat := x ^^^ rotl32 x 15 ^^^ rotl32 x 23

/-- The words of a block's schedule; the words so far stand last first. -/
def sm3Words : Nat → List Nat → List Nat
  | 0, ws => ws
  | n + 1, ws =>
    let w := sm3P1 (nthD 0 ws 15 ^^^ nthD 0 ws 8 ^^^ rotl32 (nthD 0 ws 2) 15) ^^^ rotl32 (nthD 0 ws 12) 7 ^^^ nthD 0 ws 5
    sm3Words n (w :: ws)

def sm3Not (x : Nat) : Nat := 2 ^ 32 - 1 - x

def sm3Ff (j x y z : Nat) : Nat :=
  if j < 16 then x ^^^ y ^^^ z else (x &&& y) ||| (x &&& z) ||| (y &&& z)

def sm3Gg (j x y z : Nat) : Nat :=
  if j < 16 then x ^^^ y ^^^ z else (x &&& y) ||| (sm3Not x &&& z)

/-- The rounds of one block; the word of round j and the one four on stand first and fifth. -/
def sm3Rounds : Nat → Nat → List Nat → List Nat → List Nat
  | 0, _, _, v => v
  | n + 1, j, ws, [a, b, c, d, e, f, g, h] =>
    let t := if j < 16 then 0x79CC4519 else 0x7A879D8A
    let ss1 := rotl32 ((rotl32 a 12 + e + rotl32 t (j % 32)) % 2 ^ 32) 7
    let ss2 := ss1 ^^^ rotl32 a 12
    let w := nthD 0 ws 0
    let tt1 := (sm3Ff j a b c + d + ss2 + (w ^^^ nthD 0 ws 4)) % 2 ^ 32
    let tt2 := (sm3Gg j e f g + h + ss1 + w) % 2 ^ 32
    sm3Rounds n (j + 1) (ws.drop 1) [tt1, a, rotl32 b 9, c, sm3P0 tt2, e, rotl32 f 19, g]
  | _, _, _, v => v

def sm3Blocks : List Nat → List (List Nat) → List Nat
  | v, [] => v
  | v, b :: bs =>
    let ws := (sm3Words 52 ((chunks 4 16 b).map beNat).reverse).reverse
    sm3Blocks (xorBytes (sm3Rounds 64 0 ws v) v) bs

/-- The SM3 digest, 32 bytes (R407, R411). -/
def sm3 (msg : List Nat) : List Nat :=
  let pad := (119 - msg.length % 64) % 64
  let m := msg ++ [0x80] ++ List.replicate pad 0 ++ beList 8 (8 * msg.length)
  (sm3Blocks [0x7380166F, 0x4914B2B9, 0x172442D7, 0xDA8A0600, 0xA96F30BC, 0x163138AA, 0xE38DEE4D, 0xB0FB0E4E]
    (chunks 64 (m.length / 64) m)).flatMap (beList 4)

end Sys2Proof
end

