-- ==== Sys2Proof/Machine/VectorMemory.lean ====
section
/-! DEFINITION. The vector memory instructions: direct loads and stores, strided and indexed ones through the gather port
(11 R210 to R220). -/
namespace Sys2Proof.Machine

/-- The line of a mapped scratch address, and its bank (R213). -/
def lineOf (a : Nat) : Nat := a / 64
def bankOf (a : Nat) : Nat := a / 64 % 32

/-- The base and the scale address of a vector memory instruction (R211). -/
def vmemBase (v : VOp) (k : Nat) (ra : Word) : Int :=
  (ra.toNat : Int) + v.auxOff + 32 * (k : Int) * sextInt 11 v.auxAstep
def vmemScale (v : VOp) (k : Nat) (ra : Word) : Int :=
  (ra.toNat : Int) + sextInt 21 v.auxSoff + (k : Int) * sextInt 5 v.auxSstep

/-- Bits [20:0] of an address, aligned down (R211, R217). -/
def vmemAddr (a : Int) (align : Nat) : Nat := alignDown (a % (2 ^ 21 : Int)).toNat align

/-- The base register read, with its consumption when it is poisoned: INFO is the base address (R211, R416, R423). -/
def Gang.vmemRead (g : Gang) (x : Tile) (o : Origin) (v : VOp) (k : Nat) : Gang × Tile × Word :=
  let r := x.readCode v.auxRa g.lcyc o.slot o.addr
  let y := if r.2.poison then r.1.sawPoison else r.1
  let g := g.onTile o.gid (fun _ => y)
  (if r.2.poison then g.consume o 1 g.lcyc (BitVec.ofInt 64 (vmemBase v k r.2.val)) else g, y, r.2.val)

/-- A bank drop found at a later cycle for this operation, with the mapped offset that lost (R214, R216, R416; DEDUCED, log 27). -/
def Gang.laterDrop (g : Gang) (o : Origin) (due off : Nat) : Gang := g.later o due (.trapFault 2 7 (BitVec.ofNat 64 off))

/-- The direct path over the mapped offsets of an access: a second V slot that needs a bank of the first in one cycle is
refused (R214). -/
def Gang.direct (g : Gang) (o : Origin) (write : Bool) (offs : List Nat) (run : Gang → Gang) : Gang :=
  match g.tile o.gid with
  | none => g
  | some x =>
    let now := x.nowAt g.lcyc
    let used := if write then now.writes else now.reads
    let banks := dedupNat (offs.map bankOf)
    match if o.slot = 3 then offs.find? (fun a => used.contains (bankOf a)) else none with
    | some a => g.laterDrop o (g.lcyc + 3) a
    | none =>
      let now := if o.slot = 2 then
          (if write then { now with writes := banks } else { now with reads := banks }) else now
      run (g.onTile o.gid (fun y => { y with now := now }))

/-- The bits that enabled elements of a ring destination cover, the disabled ones under ZM among them. -/
def elementBits (v : VOp) (w : Nat) (ens : List Bool) : Nat :=
  ((List.range ens.length).zip ens).foldl (fun a e =>
    if e.2 ∨ v.zm = 1 then a + (2 ^ w - 1) * 2 ^ (256 * v.lgb + w * e.1) else a) 0

/-- The bytes of one element: mapped address and bit position in the entry. -/
def elementPieces (x : Tile) (v : VOp) (w a i : Nat) : List (Nat × Nat) :=
  (List.range (w / 8)).map (fun j => (x.map (a + j), 256 * v.lgb + w * i + 8 * j))

/-- A read of the bytes at mapped offsets, of which pieces land in an entry (R217, R218, R220). -/
def Gang.loadPieces (g : Gang) (o : Origin) (entry : Nat) (reads : List Nat) (pieces : List (Nat × Nat)) (en due : Nat) : Gang :=
  (g.later o (g.lcyc + 3) (.vread reads pieces entry (BitVec.ofNat 1024 en) due)).busy o due

/-- Bytes without repeats by address, the later of two standing (R218). -/
def lastBytes : List (Nat × PByte) → List (Nat × PByte)
  | [] => []
  | e :: es => if es.any (fun f => f.1 == e.1) then lastBytes es else e :: lastBytes es

/-- The bytes of an element's value with its mark, at mapped addresses. -/
def elementBytes (x : Tile) (w a : Nat) (l : Lane) : List (Nat × PByte) :=
  ((List.range (w / 8)).zip (pbytes (w / 8) l.val l.poison)).map (fun e => (x.map (a + e.1), e.2))

/-! ### VLD, VLDB, VST -/

/-- The bytes of an MX operand in scratch: element bytes at ea, scale bytes at sa, with their bit positions (R185, R219). -/
def mxPieces (x : Tile) (v : VOp) (w : Nat) (ea sa : Nat) : List (Nat × Nat) :=
  let b := mxBlocks v.w w
  (List.range (4 * w * b)).map (fun j => (x.map (ea + j), 256 * v.lgb + 8 * j)) ++
    (List.range b).map (fun j => (x.map (sa + j), 256 * v.lgb + v.w - 64 + 8 * j))

/-- VLD (R214, R217 to R219). -/
def Gang.vld (g : Gang) (x : Tile) (o : Origin) (v : VOp) (k : Nat) : Gang :=
  let (g, x, ra) := g.vmemRead x o v k
  let ea := vmemAddr (vmemBase v k ra) 32
  let entry := x.dstEntry k v.od
  if isMxElem v.td then
    let ps := mxPieces x v v.dt.width ea (vmemAddr (vmemScale v k ra) 1)
    g.direct o false (ps.map (·.1)) (fun g =>
      g.loadPieces o entry (ps.map (·.1)) ps ((2 ^ v.w - 1) * 2 ^ (256 * v.lgb)) (g.lcyc + 6))
  else
    let w := v.dt.width
    let ens := x.enables v w (v.w / w)
    let offs := (List.range (v.w / 8)).map (fun j => x.map (ea + j))
    let ps := (((List.range ens.length).zip ens).filter (·.2)).flatMap (fun e => elementPieces x v w (ea + w / 8 * e.1) e.1)
    g.direct o false offs (fun g => g.loadPieces o entry offs ps (elementBits v w ens) (g.lcyc + 6))

def execVld (v : VOp) (s : State) : Outcome := s.vector v (fun g x k o => g.vld x o v k)

/-- VLDB: one element, read once, in every enabled one (R218). -/
def Gang.vldb (g : Gang) (x : Tile) (o : Origin) (v : VOp) (k : Nat) : Gang :=
  let (g, x, ra) := g.vmemRead x o v k
  let w := v.dt.width
  let a := vmemAddr (vmemBase v k ra) (w / 8)
  let ens := x.enables v w (v.w / w)
  let ps := (((List.range ens.length).zip ens).filter (·.2)).flatMap (fun e => elementPieces x v w a e.1)
  let offs := (List.range (w / 8)).map (fun j => x.map (a + j))
  g.direct o false offs (fun g => g.loadPieces o (x.dstEntry k v.od) offs ps (elementBits v w ens) (g.lcyc + 6))

def execVldb (v : VOp) (s : State) : Outcome := s.vector v (fun g x k o => g.vldb x o v k)

/-- VST (R214, R217 to R219). -/
def Gang.vst (g : Gang) (x : Tile) (o : Origin) (v : VOp) (k : Nat) : Gang :=
  let (g, x, ra) := g.vmemRead x o v k
  let ea := vmemAddr (vmemBase v k ra) 32
  let sl := (x.entry (x.srcEntry v k v.oa)).slice v
  let w := v.at_.width
  let bytes : List (Nat × PByte) :=
    if isMxElem v.ta then
      (mxPieces x v w ea (vmemAddr (vmemScale v k ra) 1)).map (fun p =>
        let pos := p.2 - 256 * v.lgb
        (p.1, { b := BitVec.ofNat 8 (sl.1 / 2 ^ pos % 256), p := marked sl.2 pos 8 }))
    else
      let ens := x.enables v w (v.w / w)
      (((List.range ens.length).zip ens).filter (·.2)).flatMap (fun e => elementBytes x w (ea + w / 8 * e.1) (laneOf sl w e.1))
  let g := g.sawPoison o (bytes.any (·.2.p))
  g.direct o true (bytes.map (·.1)) (fun g => g.later o (g.lcyc + 3) (.put (lastBytes bytes)))

def execVst (v : VOp) (s : State) : Outcome := s.vector v (fun g x k o => g.vst x o v k)

/-! ### The gather port (R215, R216) -/

/-- An operation issued now finds the gather port taken (R215). -/
def Tile.gatherTaken (x : Tile) (c : Nat) : Bool := x.gatherPort.any (fun e => c + 3 ≤ e)

/-- The gather port taken for four cycles, whatever the guard; an overlapping operation is a NOP with a fault (R215). -/
def Gang.gatherPort (g : Gang) (x : Tile) (o : Origin) (ok : Bool) (run : Gang → Tile → Gang) : Gang :=
  if x.gatherTaken g.lcyc then g.record o 2 8 g.lcyc 0
  else
    let y := { x with gatherPort := some (g.lcyc + 6) }
    let g := (g.onTile o.gid (fun _ => y)).busy o (g.lcyc + 6)
    if ok then run g y else g

/-- For each element address in order, whether it is served: at most four distinct lines in a bank (R216). -/
def serveLines : List Nat → List Nat → List Bool
  | _, [] => []
  | lines, a :: as =>
    if lines.contains (lineOf a) then true :: serveLines lines as
    else if (lines.filter (fun l => l % 32 == bankOf a)).length < 4 then true :: serveLines (lineOf a :: lines) as
    else false :: serveLines lines as

/-- The fault of the first element that its bank drops (R216). -/
def Gang.dropFirst (g : Gang) (x : Tile) (o : Origin) (due : Nat) (addrs : List Nat) (served : List Bool) : Gang :=
  match (addrs.zip served).find? (fun e => !e.2) with
  | some e => g.laterDrop o due (x.map e.1)
  | none => g

/-- A gather read of elements at addresses: served ones are read, dropped ones are zero (R216, R218). -/
def Gang.gatherLoad (g : Gang) (x : Tile) (o : Origin) (v : VOp) (k w : Nat) (addrs : List Nat) (ens : List Bool) : Gang :=
  let live := (((List.range ens.length).zip (addrs.zip ens)).filter (fun e => e.2.2)).map (fun e => (e.1, e.2.1))
  let served := serveLines [] (live.map (fun e => x.map e.2))
  let ps := ((live.zip served).filter (·.2)).flatMap (fun e => elementPieces x v w e.1.2 e.1.1)
  (g.dropFirst x o (g.lcyc + 3) (live.map (·.2)) served).loadPieces o (x.dstEntry k v.od) (ps.map (·.1)) ps
    (elementBits v w ens) (g.lcyc + 8)

/-- A gather write of elements at addresses (R216, R218). -/
def Gang.gatherStore (g : Gang) (x : Tile) (o : Origin) (w : Nat) (addrs : List Nat) (ens : List Bool)
    (lanes : List Lane) : Gang :=
  let live := (addrs.zip (ens.zip lanes)).filter (fun e => e.2.1)
  let served := serveLines [] (live.map (fun e => x.map e.1))
  let bytes := ((live.zip served).filter (·.2)).flatMap (fun e => elementBytes x w e.1.1 e.1.2.2)
  let g := g.dropFirst x o (g.lcyc + 4) (live.map (·.1)) served
  (g.sawPoison o (bytes.any (·.2.p))).later o (g.lcyc + 4) (.put (lastBytes bytes))

/-- The element addresses of a strided access (R218). -/
def stridedAddrs (v : VOp) (k : Nat) (ra : Word) (w n : Nat) : List Nat :=
  (List.range n).map (fun (i : Nat) => vmemAddr (vmemBase v k ra + (i : Int) * sextInt 21 v.auxSoff) (w / 8))

/-- The element addresses of an indexed access (R218). -/
def indexedAddrs (v : VOp) (k : Nat) (ra : Word) (w : Nat) (idx : List Lane) : List Nat :=
  idx.map (fun l => vmemAddr (vmemBase v k ra + intValue v.bt l.val * (w / 8 : Nat)) (w / 8))

/-- An indexed operation whose enabled index is poisoned consumes poison; INFO is the address of that element (R416, R423). -/
def Gang.indexPoison (g : Gang) (o : Origin) (idx : List Lane) (addrs : List Nat) (ens : List Bool) : Gang :=
  match (idx.zip (addrs.zip ens)).find? (fun e => e.1.poison && e.2.2) with
  | some e => (g.sawPoison o true).consume o 1 g.lcyc (BitVec.ofNat 64 e.2.1)
  | none => g

/-- A gather-port operation of the tile whose turn it is; one that overlaps records its fault after a wrong fill too (R215). -/
def State.gatherOp (s : State) (v : VOp) (run : Gang → Tile → Nat → Origin → Gang) : Outcome :=
  .next (s.issueOn (fun g x k o => g.vectorWith x o v (fun g => if x.gatherTaken g.lcyc then g.record o 2 8 g.lcyc 0 else g)
    (fun g x ok => g.gatherPort x o ok (fun g x => run g x k o))))

def execVlds (v : VOp) (s : State) : Outcome :=
  s.gatherOp v (fun g x k o =>
    let (g, x, ra) := g.vmemRead x o v k
    let w := v.dt.width
    let n := v.w / w
    g.gatherLoad x o v k w (stridedAddrs v k ra w n) (x.enables v w n))

def execVsts (v : VOp) (s : State) : Outcome :=
  s.gatherOp v (fun g x k o =>
    let (g, x, ra) := g.vmemRead x o v k
    let w := v.at_.width
    let n := v.w / w
    g.gatherStore x o w (stridedAddrs v k ra w n) (x.enables v w n) (x.readOperand g.lcyc o v k v.oa w n).2)

/-- VGATH and VSCAT take as many elements as fit the wider of value and index (R218). -/
def execVgath (v : VOp) (s : State) : Outcome :=
  s.gatherOp v (fun g x k o =>
    let (g, x, ra) := g.vmemRead x o v k
    let w := v.dt.width
    let m := max w v.bt.width
    let n := v.w / m
    let idx := (x.readOperand g.lcyc o v k v.ob v.bt.width n).2
    let ens := x.enables v m n
    let addrs := indexedAddrs v k ra w idx
    (g.indexPoison o idx addrs ens).gatherLoad x o v k w addrs ens)

def execVscat (v : VOp) (s : State) : Outcome :=
  s.gatherOp v (fun g x k o =>
    let (g, x, ra) := g.vmemRead x o v k
    let w := v.at_.width
    let m := max w v.bt.width
    let n := v.w / m
    let idx := (x.readOperand g.lcyc o v k v.ob v.bt.width n).2
    let ens := x.enables v m n
    let addrs := indexedAddrs v k ra w idx
    (g.indexPoison o idx addrs ens).gatherStore x o w addrs ens (x.readOperand g.lcyc o v k v.oa w n).2)

end Sys2Proof.Machine
end

