-- ==== Sys2Proof/Machine/Paths.lean ====
section
/-! DEFINITION. Routes and their latencies, the translation of gang addresses, and device memory behind its key slots
(13 R233 to R241 and R463, 15 R269 and R273, 23 R408, 27 R451 and R455). -/
namespace Sys2Proof.Machine

/-! ### Endpoints and latencies (R269, R448, R451) -/

/-- An endpoint: tile i of a package is 128 times the package plus i, the port of stack k is that plus 32 + k; the routers
in which tree nodes stand count as endpoints too: 40 the die-to-die router, 41 the package router, 64 + i the mesh router of
tile i (R269, R346). -/
def endTile (pkg phys : Nat) : Nat := 128 * pkg + phys
def endPort (pkg stk : Nat) : Nat := 128 * pkg + 32 + stk

/-- An endpoint with a mesh router named by its tile, from which h counts alike. -/
def endSpot (e : Nat) : Nat := if 64 ≤ e % 128 then e - 64 else e

/-- The die of an endpoint: sixteen tiles and four stacks each; the die-to-die router stands on the side of die 0
(DESIGN CHOICE, log 5). -/
def endDie (e : Nat) : Nat :=
  let i := endSpot e % 128
  if i < 32 then i / 16 else if i < 40 then (i - 32) / 4 else 0

/-- The package router, which stands between the dies (R451). -/
def isPkgRouter (e : Nat) : Bool := e % 128 == 41

/-- Whether a route between two endpoints crosses the dies of one package; one to the package router does not (R451). -/
def crossesDie (a b : Nat) : Bool :=
  a / 128 == b / 128 && endDie a != endDie b && !isPkgRouter a && !isPkgRouter b

/-- The physical package of a logical one (R18). -/
def Gang.package (g : Gang) (q : Nat) : Nat := nthD 0 g.pkgs q

/-- The logical package of a physical one. -/
def Gang.logicalPackage (g : Gang) (p : Nat) : Nat := (g.pkgs.findIdx? (· == p)).getD 0

/-- The physical tile of a gang identity (R18, R401). -/
def Cfg.physical (c : Cfg) (g : Gang) (gid : Nat) : Nat := nthD 0 (look [] c.placements g.placeIdx) (gid % g.t)

/-- Where a tile of a gang stands among the sources of events, and in Pewter's log: package and physical tile (R59, R431). -/
def State.tilePlace (s : State) (g : Gang) (gid : Nat) : Nat := g.package (gid / g.t) * 512 + s.cfg.physical g gid

/-- The endpoint of a tile of a gang as its image names it: logical package and tile. Every listed placement preserves the route
latencies that the image assumes (R18, R346, R401), so that routes are reckoned between these (DEDUCED, log 5). -/
def Gang.endOf (g : Gang) (gid : Nat) : Nat := endTile (gid / g.t) (gid % g.t)

/-- The physical endpoint behind one of an image, on packages and a placement (R18). -/
def Cfg.endAt (c : Cfg) (pkgs : List Nat) (place e : Nat) : Nat :=
  let q := 128 * nthD 0 pkgs (e / 128)
  if e % 128 < 32 then q + nthD 0 (look [] c.placements place) (e % 128)
  else if e % 128 < 64 then q + e % 128
  else q + 64 + nthD 0 (look [] c.placements place) (e % 128 - 64)

/-- The physical endpoint behind one of a gang's image. -/
def Cfg.realEnd (c : Cfg) (g : Gang) (e : Nat) : Nat := c.endAt g.pkgs g.placeIdx e

/-- A free number below n for a pair, the same in both directions. -/
def freePair (a b n : Nat) : Nat := Config.hops (min a b) (max a b) % n

/-- The local link between two packages of a group: each has one to each of the seven others, links 0 to 6 (R450). -/
def localLink (a b : Nat) : Nat := (b % 8 + 7 - a % 8) % 8

/-- Where a group is joined to another one: a package of it and one of its global links, 7 to 11 (R450; DESIGN CHOICE, log 5). -/
def gateway (g h : Nat) : Nat × Nat := (8 * g + Config.hops (g + 2 ^ 33) h % 8, 7 + Config.hops (g + 2 ^ 34) h % 5)

/-- The links that a route between two packages takes, each as the package that sends on it and its number: one within a group of
eight; else a global link, with a local one before it and after it where the gateway is another package (R450). -/
def linkRoute (a b : Nat) : List (Nat × Nat) :=
  if a = b then []
  else if a / 8 = b / 8 then [(a, localLink a b)]
  else
    let x := gateway (a / 8) (b / 8)
    let y := gateway (b / 8) (a / 8)
    (if a = x.1 then [] else [(a, localLink a x.1)]) ++ [x] ++ (if b = y.1 then [] else [(y.1, localLink y.1 b)])

/-- Rosondent hops between packages: 1 in a group, at most 3 (R450). -/
def linkHops (a b : Nat) : Nat := (linkRoute a b).length

/-- Whether packages stand to each other at the link hops that an image assumes, those of packages 0 on (R18, R401; DESIGN CHOICE,
log 5). -/
def hopsKept (pkgs : List Nat) : Bool :=
  (List.range pkgs.length).all (fun i => (List.range pkgs.length).all (fun j =>
    linkHops (nthD 0 pkgs i) (nthD 0 pkgs j) == linkHops i j))

/-- A link of a package (R443, R447). -/
def State.link (s : State) (p l : Nat) : Link := look Link.reset (s.pkg p).links l

def State.setLink (s : State) (p l : Nat) (x : Link) : State :=
  let k := s.pkg p
  s.setPkg p { k with links := setKey k.links l x }

/-- The width that a field DW, or an image's design width, stands for (R447, R448). -/
def widthOf (w : Nat) : Nat := if w = 0 then 16 else w

/-- Whether a link serves a design width (R448). -/
def Link.serves (x : Link) (d : Nat) : Bool := widthOf d ≤ x.w

/-- The links between packages serve the design widths of an image that would stand there (R448, R449). -/
def State.linksServe (s : State) (design : Tbl Nat) (pkgs : List Nat) : Bool :=
  (List.range pkgs.length).all (fun i => (List.range pkgs.length).all (fun j =>
    ((linkRoute i j).zip (linkRoute (nthD 0 pkgs i) (nthD 0 pkgs j))).all (fun e =>
      (s.link e.2.1 e.2.2).serves (look 0 design (12 * e.1.1 + e.1.2)))))

/-- Mesh hops within the mesh of one die, to an endpoint or an edge router: at most 6, at least 1 between two mesh routers of the
4 × 4 grid (R450, R451; DESIGN CHOICE, log 5). -/
def dieHops (a b : Nat) : Nat := if a % 128 < 32 ∧ b % 128 < 32 then 1 + freePair a b 6 else freePair a b 7

/-- Mesh hops between endpoints: as the configuration lists them, in either direction, else free within the limits of R451: a
route that leaves its die adds the hops of each mesh to the router where it leaves (DESIGN CHOICE, log 5). -/
def Cfg.meshHops (c : Cfg) (a b : Nat) : Nat :=
  let x := endSpot a
  let y := endSpot b
  if x = y then 0
  else
    match c.hops.find? (fun r => (r.1 == x && r.2.1 == y) || (r.1 == y && r.2.1 == x)) with
    | some r => r.2.2
    | none =>
      let out (e r : Nat) : Nat := if e % 128 = r then 0 else dieHops e (e / 128 * 128 + r)
      if x / 128 ≠ y / 128 then out x 41 + out y 41
      else if crossesDie x y then out x 40 + out y 40
      else dieHops x y

/-- The cycles of a hop over a link of the image's design width (R269, R448); 0 stands for 16 lanes. -/
def Gang.linkHop (g : Gang) (pkg link : Nat) : Nat :=
  let d := look 0 g.design (12 * pkg + link)
  49 + ceilDiv 16 (if d = 0 then 16 else d)

/-- The cycles that the links of a route add (R269, R448). -/
def Gang.linkTime (g : Gang) (a b : Nat) : Nat := sumOf ((linkRoute a b).map (fun l => g.linkHop l.1 l.2))

/-- The one-way latency between endpoints (R269, R448). -/
def Cfg.lambda (c : Cfg) (g : Gang) (a b : Nat) : Nat :=
  if a = b then 0
  else 4 + 2 * c.meshHops a b + (if crossesDie a b then 30 else 0) + g.linkTime (a / 128) (b / 128)

/-! ### Slot tables (R36, R273, R452) -/

/-- The bank in effect in a logical cycle, a pending PHASE counted (R36). -/
def Gang.bankAt (g : Gang) (c : Nat) : Nat :=
  match g.phase with
  | some (b, c0) => if c0 ≤ c then b else g.bank
  | none => g.bank

/-- The input that drives an output of a router in a cycle, 15 for idle: an entry that the gang's mask does not own, and a router
that its image does not list, drive nothing (R19, R452). -/
def Gang.driver (g : Gang) (router output c : Nat) : Nat :=
  if bitAt g.mask (c % 256) then
    nthD (2 ^ 64 - 1) (look [] g.slots (2 * router + g.bankAt c)) (c % 256) / 16 ^ output % 16
  else 15

/-- The cycle in which a beat that leaves an endpoint for another meets an output that the slot table in effect then does not give
it (R273, R452). -/
def Cfg.strayAt (c : Cfg) (g : Gang) (a b cycle : Nat) : Option Nat :=
  if a = b then none
  else
    match c.paths.find? (fun r => r.1 == a && r.2.1 == b) with
    | some r => (r.2.2.find? (fun x => g.driver x.router x.output (cycle + x.after) != x.input)).map (fun x => cycle + x.after)
    | none => if Config.strays a b cycle then some cycle else none

/-! ### Translation (R236 to R241, R463) -/

def xlValid (e : Nat) : Bool := bitAt e 54
def xlCrit (e : Nat) : Bool := bitAt e 55

/-- The even parity of a translation entry (R237). -/
def xlParity (e : Nat) : Bool := xorAll (leList 16 e) == 0
where
  xorAll : List Nat → Nat
    | [] => 0
    | b :: bs => b ^^^ xorAll bs

/-- An entry matches an address (R239). -/
def xlMatches (e va : Nat) : Bool :=
  xlValid e && va / 2 ^ 48 == 0 &&
    (if bitAt e 92 then bitsOf e 119 102 == bitsOf va 47 30 else bitsOf e 119 93 == bitsOf va 47 21)

/-- The copy of an entry that a lookup uses, none when it is unresolved, and whether it announces a refetch (R240). -/
def xlPick (p s : Nat) : Option Nat × Bool :=
  let gp := xlParity p
  let gs := xlParity s
  if xlCrit (if gp then p else s) then
    (if gp ∧ gs ∧ p = s then (some p, false) else (none, true))
  else if gp then (some p, false)
  else if gs then (some s, true)
  else (none, true)

/-- What a translation gives: the place, the endpoint of the stack that it names, the fault's DETAIL when the access is
denied, whether a refetch hold is announced. -/
structure Xlat where
  place : Place
  port : Option Nat
  detail : Nat
  hold : Bool

/-- The stack address of an address through an entry (R236). -/
def xlAddr (e va : Nat) : Nat := bitsOf e 81 67 * 2 ^ 21 + va % 2 ^ (if bitAt e 92 then 30 else 21)

/-- The location that an entry gives an address (R236 to R238). -/
def Gang.xlLoc (g : Gang) (e va : Nat) : DevLoc :=
  { addr := devAddr (g.package (bitsOf e 91 85)) (bitsOf e 84 82) (xlAddr e va), ke := bitAt e 59, key := bitsOf e 63 60,
    dom := bitsOf e 58 56 }

/-- Why an entry denies an access: kind 0 read, 1 write, 2 atomic (R239, R416); 0 when it does not. -/
def xlDenies (e kind : Nat) : Nat :=
  match kind with
  | 0 => if bitAt e 64 then 0 else 1
  | 1 => if bitAt e 65 then 0 else 2
  | _ => if bitAt e 66 ∧ bitAt e 65 then 0 else 3

/-- The lookup of an access of a tile in its issue cycle (R239 to R241, R463). -/
def Gang.translate (g : Gang) (x : Tile) (va kind : Nat) : Xlat :=
  let cands := (x.prim.map (fun e => (e.2, look 0 x.shadow e.1))).filter (fun c => xlMatches c.1 va || xlMatches c.2 va)
  let picks := cands.map (fun c => xlPick c.1 c.2)
  let hold := picks.any (·.2)
  if picks.any (fun p => p.1.isNone) then { place := .unresolved, port := none, detail := 0, hold := hold }
  else
    match (picks.filterMap (·.1)).filter (fun e => xlMatches e va) with
    | [] => { place := .denied, port := none, detail := 0, hold := hold }
    | [e] =>
      let port := some (endPort (bitsOf e 91 85) (bitsOf e 84 82))
      if xlDenies e kind = 0 then { place := .dev (g.xlLoc e va), port := port, detail := 0, hold := hold }
      else { place := .denied, port := port, detail := xlDenies e kind, hold := hold }
    | _ => { place := .unresolved, port := none, detail := 0, hold := hold }

/-- A scratch place by its global address (R233). -/
def Gang.globalPlace (g : Gang) (a : Nat) : Place :=
  let gid := bitsOf a 32 26 % g.p * g.t + bitsOf a 25 21 % g.t
  match g.tile gid with
  | some y => .scratch gid (y.map (a % 2 ^ 21))
  | none => .denied

/-- Where an access of a D-slot instruction goes: space 0 own scratch, 1 global, 2 device memory (R276). The endpoint is the
tile's own where no stack is named. -/
def Gang.locate (g : Gang) (x : Tile) (space a kind : Nat) : Xlat :=
  match space with
  | 0 => { place := .scratch x.gid (x.map a), port := some (g.endOf x.gid), detail := 0, hold := false }
  | 1 =>
    { place := g.globalPlace a
      port := some (g.endOf (bitsOf a 32 26 % g.p * g.t + bitsOf a 25 21 % g.t)), detail := 0, hold := false }
  | _ => g.translate x a kind

/-- The endpoint of a located access, the tile's own where no stack is named (R239; DESIGN CHOICE, log 5). -/
def Xlat.endpoint (r : Xlat) (own : Nat) : Nat := r.port.getD own

/-! ### Device memory behind key slots (R408, R421, R455) -/

/-- The key slot of a stack that a device address lies on. -/
def State.keySlot (s : State) (a key : Nat) : KeySlot :=
  look KeySlot.empty (s.pkg (a / 2 ^ 39)).keys (16 * (a / 2 ^ 36 % 8) + key)

/-- Data under a line's XTS, words with an uncorrectable error left as they are delivered (R421, R455). -/
def cryptLine (k : KeySlot) (a : Nat) (decrypt : Bool) (bs : List PByte) : List PByte :=
  let out := xtsLine k.alg k.k1 k.k2 (a % 2 ^ 36 / 64) decrypt (bs.map (·.b.toNat))
  (bs.zip out).map (fun e => { b := BitVec.ofNat 8 e.2, p := e.1.p })

/-- n bytes of a location, within one line (R236, R408). -/
def State.locRead (s : State) (l : DevLoc) (n : Nat) : List PByte :=
  if !l.ke then s.devRead l.addr n
  else
    let k := s.keySlot l.addr l.key
    if k.alg = 0 then poisonedBytes l.addr n
    else
      let base := alignDown l.addr 64
      let plain := cryptLine k base true (s.devRead base 64)
      let fixed := (plain.zip (upFrom base 64)).map (fun e =>
        if s.devBad.contains (e.2 / 4) then nthD e.1 (s.devRead e.2 1) 0 else e.1)
      (fixed.drop (l.addr - base)).take n

/-- Bytes written at a location, within one line; nothing through an empty slot (R408). Of the line's uncorrectable words only
those that are written are cleared (R437). -/
def State.locWrite (s : State) (l : DevLoc) (bs : List PByte) : State :=
  if !l.ke then s.devWrite l.addr bs
  else
    let k := s.keySlot l.addr l.key
    if k.alg = 0 then s
    else
      let base := alignDown l.addr 64
      let old := s.locRead { l with addr := base } 64
      let off := l.addr - base
      let bad := (s.badHit base 64).filter (fun w => !(wordsOf l.addr bs.length).contains w)
      let s := s.devWrite base (cryptLine k base false (old.take off ++ bs ++ old.drop (off + bs.length)))
      { s with devBad := bad.foldl addNum s.devBad }

/-- Bytes of one word put back at a location with the mark that the word had: the location is as it was held (R267, R428). -/
def State.locRevert (s : State) (l : DevLoc) (bs : List PByte) : State :=
  let s := s.locWrite l bs
  { s with devPoison := (wordsOf l.addr bs.length).foldl (fun m w => if anyPoison bs then addNum m w else delNum m w) s.devPoison }

end Sys2Proof.Machine
end

