-- ==== Sys2Proof/Machine/Transfers.lean ====
section
/-! DEFINITION. The D-slot instructions at issue: transfers, single accesses, channels, scatter-accumulate, histograms,
atomics, generations (15 R269 to R294). What they do later is in Performs.lean. -/
namespace Sys2Proof.Machine

/-! ### The common part of a D-slot instruction (R273 to R275, R423) -/

/-- Operations in flight of a tile in a cycle that the D slot started: those with a known end, arms, deliveries awaited
(R274, R355, R358). -/
def Tile.dCount (x : Tile) (c : Nat) : Nat :=
  (x.dEnds.filter (fun e => c ≤ e)).length + (x.arms.filter (·.live)).length + (x.covers.filter (fun k => c ≤ k.last)).length

/-- Pending deliveries to a tile in a cycle (R274, R359). -/
def State.pendingDeliveries (s : State) (t gid c : Nat) : Nat :=
  sumOf (s.trees.map (fun e => (e.2.out.filter (fun d => d.task == t && d.gid == gid && d.from_ ≤ c)).length))

/-- A D-slot operation of a tile: its buffer number, the limit of 1,024 in flight (R274). -/
def State.dslot (s : State) (buf : Nat) (run : Gang → Tile → Nat → Origin → Gang) : Outcome :=
  .next (s.issueOn (fun g x k o =>
    let o := { o with buf := buf }
    let y := { x with dEnds := x.dEnds.filter (fun e => g.lcyc ≤ e) }
    if 1024 ≤ x.dCount g.lcyc + s.pendingDeliveries s.evTask x.gid g.lcyc then g.record o 2 9 g.lcyc 0
    else run (g.onTile x.gid (fun _ => y)) y k o))

/-- An operation of the D slot is in flight until a cycle (R274, R464). -/
def Gang.inFlight (g : Gang) (o : Origin) (end_ : Nat) : Gang :=
  (g.onTile o.gid (fun x => { x with dEnds := end_ :: x.dEnds })).busy o end_

/-- Registers of a D-slot instruction read at issue; a poisoned one is a consumption at the given point, with the operation's
address (R416, R423). -/
def Gang.dRead (g : Gang) (x : Tile) (o : Origin) (point : Nat) (codes : List Nat) (at_ : List Word → Nat) :
    Gang × Tile × List Word × Bool :=
  let rd := x.readCodes g.lcyc o.slot o.addr codes
  let g := g.onTile o.gid (fun _ => rd.x)
  let g := if rd.poison then g.consume o point g.lcyc (BitVec.ofNat 64 (at_ rd.vals)) else g
  (g, (g.tile o.gid).getD rd.x, rd.vals, rd.poison)

/-- An address register as it stands first among those read. -/
def firstAddr (vs : List Word) : Nat := (nthD 0 vs 0).toNat

/-- A flit that a tile's access sends over the fabric (R169). -/
def Gang.flit (g : Gang) (o : Origin) (port : Option Nat) : Gang :=
  if port.any (· != g.endOf o.gid) then g.onTile o.gid (fun x => x.count 0x09 1) else g

/-- The buffer counters change at t + 1 (R275). -/
def Gang.charge (g : Gang) (o : Origin) (rd wr : Nat) : Gang :=
  if rd = 0 ∧ wr = 0 then g else g.later o (g.lcyc + 1) (.charge o.buf rd wr)

/-- A refetch hold announced by a lookup, once in a cycle for a buffer number of a tile (R240, R44). -/
def Gang.refetch (g : Gang) (o : Origin) (r : Xlat) : Gang :=
  if r.hold = false ∨ g.holds.any (fun h => h.cause == 1 && h.ta == g.lcyc && h.gid == o.gid && h.buf == o.buf) then g
  else g.announce 1 o.gid o.buf

/-- The latency between two endpoints, 0 where one is not named (R239). -/
def Cfg.lambdaOpt (c : Cfg) (g : Gang) (a b : Option Nat) : Nat :=
  match a, b with
  | some x, some y => c.lambda g x y
  | _, _ => 0

/-- A scratch slice that an access reaches is busy until it performs (R464). -/
def Gang.reaches (g : Gang) (o : Origin) (p : Place) (due : Nat) : Gang :=
  match p with
  | .scratch gid _ => g.addresses o gid due
  | _ => g

/-! ### XFER and XFERR (R271, R276 to R278) -/

/-- One beat: its places with the cycles of its read and its write. -/
structure Beat where
  src : Xlat
  dst : Xlat
  sva : Nat
  dva : Nat
  r : Nat
  w : Nat

/-- Beat j of a transfer (R271). -/
def Gang.beat (g : Gang) (c : Cfg) (x : Tile) (dsp ssp d s j : Nat) : Beat :=
  let own := some (g.endOf x.gid)
  let sva := (s + 64 * j) % 2 ^ 64
  let dva := (d + 64 * j) % 2 ^ 64
  let a := g.locate x ssp sva 0
  let b := g.locate x dsp dva 1
  let l := c.lambdaOpt g own a.port
  let m := c.lambdaOpt g a.port b.port
  let r := g.lcyc + (if ssp = 2 then l + 66 else max 1 l) + j
  { src := a, dst := b, sva := sva, dva := dva, r := r
    w := r + (if ssp = 2 then 66 else 0) + (if dsp = 2 then m + 66 else max 1 m) }

/-- Whether a located side of a beat is denied (R239). -/
def Xlat.denied (r : Xlat) : Bool := r.place == .denied

/-- The translation faults of a beat: cycle, DETAIL, address. -/
def Beat.faults (b : Beat) : List (Nat × Nat × Nat) :=
  (if b.src.denied then [(b.r, b.src.detail, b.sva)] else []) ++ (if b.dst.denied then [(b.w, b.dst.detail, b.dva)] else [])

/-- The earliest of the faults of a transfer; a tie goes to the one that stands first. -/
def firstFault : List (Nat × Nat × Nat) → Option (Nat × Nat × Nat)
  | [] => none
  | f :: fs =>
    match firstFault fs with
    | none => some f
    | some h => if h.1 < f.1 then some h else some f

/-- One beat put on its way: its read, which hands its bytes to its write. -/
def Gang.sendBeat (g : Gang) (o : Origin) (own : Nat) (b : Beat) : Gang :=
  let g := (g.refetch o b.src).refetch o b.dst
  let g := g.later o b.r (.read 4 b.src.place 64 (.toBeat b.dst.place b.w (b.src.port.getD own) (b.dst.port.getD own)))
  ((g.reaches o b.src.place b.r).reaches o b.dst.place b.w).busy o b.w

/-- The barrier updates of an XFERR, in order, with their cycles (R278). -/
def barrierUpdates (loc : DevLoc) (nb pr pc arv : Nat) : List (Nat × BarrierUpdate) :=
  [(pr, { kind := 0, n := nb, loc := loc }), (pc, { kind := 1, n := nb, loc := loc })]
    ++ (if arv = 1 then [(pc + 1, { kind := 2, n := 1, loc := loc })] else [])

/-- The record of an XFERR whose last beat performs at w: its updates, or the fault or consumption of its translation; the
operation is in flight to the last of them (R274, R278). -/
def Gang.xferRecord (g : Gang) (c : Cfg) (x : Tile) (o : Origin) (va nb arv w wl : Nat) (dst : Option Nat) : Gang :=
  let r := g.translate x (alignDown va 16) 2
  let g := g.refetch o r
  match r.place with
  | .dev loc =>
    let pr := g.lcyc + c.lambdaOpt g (some (g.endOf x.gid)) r.port + 66
    let pc := max (wl + c.lambdaOpt g dst r.port + 66) (pr + 1)
    let us := barrierUpdates loc nb pr pc arv
    match us with
    | (due, u) :: rest => (g.later o due (.barrier u rest none 0)).inFlight o (pc + arv)
    | [] => g.inFlight o w
  | .unresolved => (g.consume o 2 g.lcyc (BitVec.ofNat 64 (alignDown va 16))).inFlight o w
  | _ => (g.record o 4 r.detail g.lcyc (BitVec.ofNat 64 va)).inFlight o w

/-- XFER, and XFERR when `rb` names a record register: all beats of the transfer (R276 to R278). -/
def Gang.xfer (g : Gang) (c : Cfg) (x : Tile) (o : Origin) (rd rs dsp ssp nb : Nat) (rb : Option (Nat × Nat)) : Gang :=
  let (g, x, vs, _) := g.dRead x o 1 ([rd, rs] ++ (match rb with
    | some e => [e.1]
    | none => [])) (fun vs => alignDown (firstAddr vs) 64)
  let d := alignDown (nthD 0 vs 0).toNat 64
  let s := alignDown (nthD 0 vs 1).toNat 64
  let own := g.endOf x.gid
  let bs := (List.range (nb + 1)).map (g.beat c x dsp ssp d s)
  let g := bs.foldl (fun g b => g.sendBeat o own b) g
  let g := match firstFault (bs.flatMap Beat.faults) with
    | some f => g.later o f.1 (.trapFault 4 f.2.1 (BitVec.ofNat 64 f.2.2))
    | none => g
  let g := match bs.find? (fun b => b.dst.place == .unresolved) with
    | some b => g.consume o 2 g.lcyc (BitVec.ofNat 64 b.dva)
    | none => g
  let g := g.charge o (64 * (bs.filter (fun b => !b.src.denied)).length) (64 * (bs.filter (fun b => !b.dst.denied)).length)
  let w := maxOf (bs.map (·.w))
  match rb, bs.getLast? with
  | some (_, arv), some last => (g.busy o w).xferRecord c x o (nthD 0 vs 2).toNat (nb + 1) arv w last.w last.dst.port
  | _, _ => g.inFlight o w

def execDNop (s : State) : Outcome := .next s

def execXfer (buf d r dsp ssp nb : Nat) (s : State) : Outcome :=
  s.dslot buf (fun g x _ o => g.xfer s.cfg x o d r dsp ssp nb none)

def execXferr (buf d r dsp ssp nb b arv : Nat) (s : State) : Outcome :=
  s.dslot buf (fun g x _ o => g.xfer s.cfg x o d r dsp ssp nb (some (b, arv)))

/-! ### RLD and RST (R270, R279) -/

/-- The address of RLD and RST (R279). -/
def rldAddr (base : Word) (z off : Nat) : Nat := alignDown (base + BitVec.ofInt 64 (sextInt 20 off)).toNat (accessSize z)

/-- RLD: the cycles of R270; a denied one gives zero and its fault (R239). -/
def Gang.rld (g : Gang) (c : Cfg) (x : Tile) (o : Origin) (d a sp z off : Nat) : Gang :=
  let (g, x, vs, _) := g.dRead x o 1 [a] (fun vs => rldAddr (nthD 0 vs 0) z off)
  let va := rldAddr (nthD 0 vs 0) z off
  let n := accessSize z
  let r := g.locate x sp va 0
  let l := c.lambdaOpt g (some (g.endOf x.gid)) r.port
  let p := g.lcyc + (if sp = 1 then max 1 l else l + 66)
  let due := if sp = 1 then p + l + 2 else g.lcyc + 2 * l + 132
  let g := ((g.refetch o r).flit o r.port).inFlight o due
  if r.denied then (g.record o 4 r.detail g.lcyc (BitVec.ofNat 64 va)).laterReg o due d 0 false
  else ((g.later o p (.read 4 r.place n (.toReg d n z due))).reaches o r.place p).charge o n n

def execRld (buf d a sp z o : Nat) (s : State) : Outcome :=
  s.dslot buf (fun g x _ w => g.rld s.cfg x w d a sp z o)

/-- RST: a poisoned store to device memory is a consumption; one that is denied keeps its cycles (R239, R279, R423). -/
def Gang.rst (g : Gang) (c : Cfg) (x : Tile) (o : Origin) (d a sp z off : Nat) : Gang :=
  let (g, x, vs, _) := g.dRead x o 1 [a] (fun vs => rldAddr (nthD 0 vs 0) z off)
  let rv := x.readCodes g.lcyc o.slot o.addr [d]
  let g := g.onTile o.gid (fun _ => rv.x)
  let va := rldAddr (nthD 0 vs 0) z off
  let n := accessSize z
  let r := g.locate rv.x sp va 1
  let l := c.lambdaOpt g (some (g.endOf x.gid)) r.port
  let p := g.lcyc + (if sp = 1 then max 1 l else l + 66)
  let g := ((g.refetch o r).flit o r.port).inFlight o p
  if r.denied then g.record o 4 r.detail g.lcyc (BitVec.ofNat 64 va)
  else
    let g := g.charge o n n
    let g := if r.place = .unresolved ∨ (rv.poison ∧ sp = 2) then g.consume o 2 g.lcyc (BitVec.ofNat 64 va) else g
    (g.later o p (.write 4 r.place (pbytes n (nthD 0 rv.vals 0).toNat rv.poison))).reaches o r.place p

def execRst (buf d a sp z o : Nat) (s : State) : Outcome :=
  s.dslot buf (fun g x _ w => g.rst s.cfg x w d a sp z o)

/-! ### Channels (R280 to R283) -/

/-- An unused channel (R280). -/
def Chan.unused : Chan := { mode := 0, esz := 0, depth := 0, peer := 0, pch := 0, first := 0, per := 0, lat := 0 }

def Tile.chan (x : Tile) (n : Nat) : Chan := look Chan.unused x.chans n

/-- The element size of a channel in bytes (R280). -/
def Chan.size (c : Chan) : Nat := nthD 8 [8, 64, 128, 256, 1024, 4096] c.esz

/-- The beats of an element (R281). -/
def Chan.beats (c : Chan) : Nat := max 1 (c.size / 64)

/-- Whether a channel is bound to a k register other than n (R282). -/
def Tile.boundElsewhere (x : Tile) (n ch : Nat) : Bool :=
  (List.range 8).any (fun k => k != n && ((x.bound k).chs == ch || (x.bound k).chr == ch))

/-- The address of a CHSEND or CHRECV (R283). -/
def chanAddr (c : Chan) (base : Word) (astep k : Nat) : Nat :=
  alignDown (((base.toNat : Int) + (k : Int) * sextInt 8 astep * (c.size : Int)) % (2 ^ 64 : Int)).toNat (min c.size 64)

/-- The lines of an element in scratch, mapped (R232). -/
def Tile.elementLines (x : Tile) (c : Chan) (a : Nat) : List Nat := (List.range c.beats).map (fun j => x.map (a + 64 * j))

/-- CHSEND: beat j is read at t + 1 + j, the element pushed at t + m + 1 (R283). -/
def Gang.chsend (g : Gang) (x : Tile) (o : Origin) (k a ch astep : Nat) : Gang :=
  let c := x.chan ch
  if c.mode ≠ 1 ∨ x.boundElsewhere 8 ch then g.record o 2 0 g.lcyc 0
  else
    let (g, x, vs, _) := g.dRead x o 1 [a] (fun vs => chanAddr c (nthD 0 vs 0) astep k)
    let due := g.lcyc + c.beats + 1
    match x.elementLines c (chanAddr c (nthD 0 vs 0) astep k) with
    | l :: rest =>
      ((g.later o (g.lcyc + 1) (.read 4 (.scratch o.gid l) (min c.size 64) 
        (.toPush ch (chanAddr c (nthD 0 vs 0) astep k) due [] rest))).inFlight o due).charge
        o c.size c.size
    | [] => g

def execChsend (buf a ch astep : Nat) (s : State) : Outcome :=
  s.dslot buf (fun g x k o => g.chsend x o k a ch astep)

/-- The writes of a received element, beat j at t + 1 + j (R283). -/
def Gang.recvBeats (g : Gang) (o : Origin) : Nat → List Nat → List (List PByte) → Gang
  | j, l :: ls, b :: bs => (g.later o (g.lcyc + 1 + j) (.write 5 (.scratch o.gid l) b)).recvBeats o (j + 1) ls bs
  | _, _, _ => g

/-- CHRECV: the head element is popped at t; an empty FIFO is a timetable slip (R37, R283). -/
def Gang.chrecv (g : Gang) (x : Tile) (o : Origin) (k a ch astep : Nat) : Gang :=
  let c := x.chan ch
  if c.mode ≠ 2 ∨ x.boundElsewhere 8 ch then g.record o 2 0 g.lcyc 0
  else
    let (g, x, vs, _) := g.dRead x o 1 [a] (fun vs => chanAddr c (nthD 0 vs 0) astep k)
    match (x.fifo ch).elems with
    | [] => (g.record o 1 3 g.lcyc 0).inFlight o g.lcyc
    | e :: es =>
      let g := g.onTile o.gid (fun y => y.setFifo ch { y.fifo ch with elems := es })
      let ls := x.elementLines c (chanAddr c (nthD 0 vs 0) astep k)
      ((g.recvBeats o 0 ls (chunks (min c.size 64) c.beats e.data)).inFlight o (g.lcyc + c.beats)).charge o c.size c.size

def execChrecv (buf a ch astep : Nat) (s : State) : Outcome :=
  s.dslot buf (fun g x k o => g.chrecv x o k a ch astep)

/-- A channel that CHBIND cannot bind: wrong mode, wrong size, bound elsewhere (R282). -/
def Tile.badBind (x : Tile) (n ch mode : Nat) : Bool :=
  ch < 64 && ((x.chan ch).mode != mode || (x.chan ch).esz != 0 || x.boundElsewhere n ch)

/-- CHBIND takes effect at t + 1 (R282). -/
def execChbind (buf n chs chr : Nat) (s : State) : Outcome :=
  s.dslot buf (fun g x _ o =>
    if x.badBind n chs 1 ∨ x.badBind n chr 2 then g.record o 2 0 g.lcyc 0
    else (g.later o (g.lcyc + 1) (.chbind n chs chr)).inFlight o (g.lcyc + 1))

/-! ### SACC, SHIST, CTRSNAP (R284 to R287) -/

/-- The cycles t + 4 to t + 7 of an earlier SACC (R285). -/
def Tile.saccBusy (x : Tile) (c : Nat) : Bool := x.saccs.any (fun u => u + 4 ≤ c && c ≤ u + 7)

/-- The element type of an index: 0 I16, 1 I32, 2 N16, 3 N32 (R284). -/
def indexWidth (it : Nat) : Nat := if it % 2 = 1 then 32 else 16

/-- The entry that SACC and SHIST read (R284). -/
def Tile.streamEntry (x : Tile) (h off step k : Nat) : VEntry :=
  let r := x.ring h
  x.entry (r.at ((r.head : Int) + off + (k : Int) * sextInt 4 step))

/-- Element i of w bits of an entry, and whether its word is poisoned. -/
def VEntry.elem (e : VEntry) (w i : Nat) : Lane := laneOf (e.bits.toNat, e.poison.toNat) w i

/-- acc of SACC (R284). -/
def saccAdd (t : ElemType) (mode : Nat) (sat : Bool) (draw u w : Nat) : Rounded :=
  if t.isFloat then addFloat t (Rnd.ofCode mode) sat draw u w
  else fitInt t sat (intValue t u + intValue t w)

/-- The elements of a SACC: number, index, value; skipped ones left out. -/
def saccElems (ix vx : VEntry) (it w n : Nat) : List (Nat × Nat × Lane) :=
  ((List.range n).map (fun i => (i, (ix.elem (indexWidth it) i).val, vx.elem w i))).filter
    (fun e => e.2.1 + 1 != 2 ^ indexWidth it)

/-- The merged value of one index: bits, flags, poison (R284). -/
def saccMerge (t : ElemType) (mode : Nat) (sat : Bool) (draw : Nat → Nat) :
    List (Nat × Nat × Lane) → Nat × Nat × Bool → Nat × Nat × Bool
  | [], acc => acc
  | e :: es, acc =>
    let r := saccAdd t mode sat (draw e.1) acc.1 e.2.2.val
    saccMerge t mode sat draw es (r.bits, acc.2.1 ||| r.flags, acc.2.2 || e.2.2.poison)

/-- The updates of a SACC: mapped offset, merged value, poison, first element; flags beside them. -/
def Tile.saccUpdates (x : Tile) (o : Origin) (base : Word) (it : Nat) (t : ElemType) (mode : Nat) (sat : Bool)
    (es : List (Nat × Nat × Lane)) : List (Nat × Nat × Bool × Nat × Nat) :=
  (dedupNat (es.map (fun e => e.2.1))).filterMap (fun ix =>
    match es.filter (fun e => e.2.1 == ix) with
    | [] => none
    | e :: rest =>
      let m := saccMerge t mode sat (x.draw o) rest (e.2.2.val, 0, e.2.2.poison)
      let n := t.width / 8
      let i : Int := if it < 2 then sextInt (indexWidth it) ix else (ix : Int)
      let a := alignDown (((base.toNat : Int) + i * (n : Int)) % (2 ^ 21 : Int)).toNat n
      some (x.map a, m.1, m.2.2, e.1, m.2.1))

/-- The value type, saturation and mode that SACC takes from FMTR (R161, R284). -/
def Tile.saccType (x : Tile) : ElemType := ElemType.ofCode (bitsOf x.fmtr 7 4)

/-- SACC (R284, R285). -/
def Gang.sacc (g : Gang) (x : Tile) (o : Origin) (k a hi hv it ioff voff istep vstep : Nat) : Gang :=
  let t := x.saccType
  if t.isMx ∨ t = .e4m3 ∨ t = .e5m2 then
    let syl := ((find? x.sticky 6).map (·.syl)).getD 0
    g.onTile o.gid (fun y => y.undefined 6 syl o.addr g.lcyc .field)
  else if x.saccBusy g.lcyc then g.record o 2 8 g.lcyc 0
  else
    let (g, x, vs, _) := g.dRead x o 1 [a] firstAddr
    let mode := x.fmtr % 8
    let sat := bitAt x.fmtr 3
    let ix := x.streamEntry hi ioff istep k
    let n := 1024 / max (indexWidth it) t.width
    let es := saccElems ix (x.streamEntry hv voff vstep k) it t.width n
    let us := x.saccUpdates o (nthD 0 vs 0) it t mode sat es
    let served := serveLines [] (us.map (·.1))
    let p := (List.range n).any (fun i => (ix.elem (indexWidth it) i).poison)
    let g := if p then (g.sawPoison o true).consume o 1 g.lcyc (nthD 0 vs 0) else g
    let g := g.sawPoison o (es.any (fun e => e.2.2.poison))
    let g := ((us.zip served).filter (·.2)).foldl (fun g e =>
      g.later o (g.lcyc + 6) (.sacc e.1.1 e.1.2.1 e.1.2.2.1 (x.draw o e.1.2.2.2.1) (bitsOf x.fmtr 7 4) mode sat)) g
    let g := g.laterFlags o (g.lcyc + 6) (us.foldl (fun f e => f ||| e.2.2.2.2) 0)
    let g := match (us.zip served).find? (fun e => !e.2) with
      | some e => g.laterDrop o (g.lcyc + 6) e.1.1
      | none => g
    let m := t.width / 8 * es.length
    ((g.onTile o.gid (fun y => { y with saccs := g.lcyc :: y.saccs.filter (fun u => g.lcyc ≤ u + 7) })).charge o m m).inFlight
      o (g.lcyc + 7)

def execSacc (buf a hi hv it ioff voff istep vstep : Nat) (s : State) : Outcome :=
  s.dslot buf (fun g x k o => g.sacc x o k a hi hv it ioff voff istep vstep)

/-- SHIST: bins of non-skipped indices within 0 to 63 are incremented at t + 2 (R286). -/
def Gang.shist (g : Gang) (x : Tile) (o : Origin) (k a hi it ioff istep : Nat) : Gang :=
  let (g, x, vs, _) := g.dRead x o 1 [a] (fun _ => 0)
  let w := indexWidth it
  let ls := (List.range (1024 / w)).map (fun i => (x.streamEntry hi ioff istep k).elem w i)
  let bins := (ls.filter (fun l => l.val + 1 != 2 ^ w)).map (fun l =>
    ((BitVec.ofInt 64 (if it < 2 then sextInt w l.val else (l.val : Int))) - nthD 0 vs 0).toInt)
  let g := if ls.any (·.poison) then (g.sawPoison o true).consume o 1 g.lcyc 0 else g
  (g.later o (g.lcyc + 2) (.hist ((bins.filter (fun b => 0 ≤ b ∧ b ≤ 63)).map Int.toNat))).inFlight o (g.lcyc + 2)

def execShist (buf a hi it ioff istep : Nat) (s : State) : Outcome :=
  s.dslot buf (fun g x k o => g.shist x o k a hi it ioff istep)

/-- CTRSNAP: the counters are captured and cleared at t, their 256 bytes written at t + 2 (R287). -/
def Gang.ctrsnap (g : Gang) (x : Tile) (o : Origin) (a : Nat) : Gang :=
  if x.saccBusy g.lcyc then g.record o 2 8 g.lcyc 0
  else
    let (g, x, vs, _) := g.dRead x o 1 [a] (fun vs => alignDown (firstAddr vs) 64)
    let base := alignDown (nthD 0 vs 0).toNat 64
    let g := (List.range 4).foldl (fun g q =>
      g.later o (g.lcyc + 2) (.ctrsnap (x.map (base + 64 * q))
        ((List.range 16).flatMap (fun i => pbytes 4 (look 0 x.hc (16 * q + i)) false)))) g
    ((g.onTile o.gid (fun y => { y with hc := [] })).charge o 0 256).inFlight o (g.lcyc + 2)

def execCtrsnap (buf a : Nat) (s : State) : Outcome := s.dslot buf (fun g x _ o => g.ctrsnap x o a)

/-! ### ATOM (R288, R289) -/

/-- An ATOM: operation code, width, operands; the result lands at t + 2λ + 140 (R270, R288). -/
def Gang.atomOp (g : Gang) (c : Cfg) (x : Tile) (o : Origin) (op d a b : Nat) (cas : Option Nat) (w : Nat) : Gang :=
  let n := if 11 ≤ op then 16 else w
  let (g, x, va, _) := g.dRead x o 1 [a] (fun vs => alignDown (firstAddr vs) n)
  let at_ := alignDown (nthD 0 va 0).toNat n
  let (g, x, vb, pb) := g.dRead x o 2 ([b] ++ cas.toList) (fun _ => at_)
  let r := g.translate x at_ 2
  let l := c.lambdaOpt g (some (g.endOf x.gid)) r.port
  let due := g.lcyc + 2 * l + 140
  let g := ((g.refetch o r).flit o r.port).inFlight o due
  match r.place with
  | .dev loc =>
    (g.later o (g.lcyc + l + 66)
      (.atom op loc w (nthD 0 vb 0).toNat (nthD 0 vb 1).toNat pb d due)).charge o n n
  | .unresolved => (g.consume o 2 g.lcyc (BitVec.ofNat 64 at_)).laterReg o due d 0x7FE40000 true
  | _ => (g.record o 4 r.detail g.lcyc (BitVec.ofNat 64 at_)).laterReg o due d 0 false

def State.atom (s : State) (buf op d a b : Nat) (cas : Option Nat) (w : Nat) : Outcome :=
  s.dslot buf (fun g x _ o => g.atomOp s.cfg x o op d a b cas (if w = 1 then 8 else 4))

def execAtomAdd (buf d a b w : Nat) (s : State) : Outcome := s.atom buf 0 d a b none w
def execAtomAnd (buf d a b w : Nat) (s : State) : Outcome := s.atom buf 1 d a b none w
def execAtomOr (buf d a b w : Nat) (s : State) : Outcome := s.atom buf 2 d a b none w
def execAtomXor (buf d a b w : Nat) (s : State) : Outcome := s.atom buf 3 d a b none w
def execAtomMin (buf d a b w : Nat) (s : State) : Outcome := s.atom buf 4 d a b none w
def execAtomMax (buf d a b w : Nat) (s : State) : Outcome := s.atom buf 5 d a b none w
def execAtomMinn (buf d a b w : Nat) (s : State) : Outcome := s.atom buf 6 d a b none w
def execAtomMaxn (buf d a b w : Nat) (s : State) : Outcome := s.atom buf 7 d a b none w
def execAtomSwap (buf d a b w : Nat) (s : State) : Outcome := s.atom buf 8 d a b none w
def execAtomCas (buf d a b c w : Nat) (s : State) : Outcome := s.atom buf 9 d a b (some c) w
def execAtomFadd (buf d a b : Nat) (s : State) : Outcome := s.atom buf 10 d a b none 0
def execAtomArv (buf d a b : Nat) (s : State) : Outcome := s.atom buf 11 d a b none 0
def execAtomBreg (buf d a b : Nat) (s : State) : Outcome := s.atom buf 12 d a b none 0
def execAtomBcpl (buf d a b : Nat) (s : State) : Outcome := s.atom buf 13 d a b none 0

/-! ### SNAP and GENQ (R291 to R294) -/

/-- The pages of a domain in a gang's table: device address and length (R292). -/
def Gang.domainPages (g : Gang) (dom : Nat) : List (Nat × Nat) :=
  (g.table.filter (fun e => xlValid e.2 && bitsOf e.2 58 56 == dom)).map (fun e =>
    (devAddr (g.package (bitsOf e.2 91 85)) (bitsOf e.2 84 82) (bitsOf e.2 81 67 * 2 ^ 21), 2 ^ (if bitAt e.2 92 then 30 else 21)))

/-- The stacks of a domain, each as its device address divided by 2^36. -/
def Gang.domainStacks (g : Gang) (dom : Nat) : List Nat := dedupNat ((g.domainPages dom).map (fun p => p.1 / 2 ^ 36))

/-- SNAP on gang identity 0: the snapshot cycle is t + H; status 3 is judged at t (R292). -/
def Gang.snap (g : Gang) (o : Origin) (d dom : Nat) : Gang :=
  if o.gid ≠ 0 then g.record o 2 0 g.lcyc 0
  else
    let c := g.lcyc + g.h
    let pend := g.snaps.any (fun r => r.dom == dom && g.lcyc < r.c)
    let r : SnapReq := { dom := dom, t := g.lcyc, c := c, code := d, gid := o.gid, addr := o.addr,
                         status := if pend then 3 else 0, g := 0 }
    ({ g with snaps := g.snaps ++ [r] } : Gang).inFlight o (c + 600)

def execSnap (buf d dom : Nat) (s : State) : Outcome := s.dslot buf (fun g _ _ o => g.snap o d dom)

/-- GENQ: each stack of the domain is sampled at t + λ + 66 (R294). -/
def Gang.genq (g : Gang) (c : Cfg) (x : Tile) (o : Origin) (d dom : Nat) : Gang :=
  let own := g.endOf x.gid
  let homes := (g.domainStacks dom).map (fun k =>
    (k, g.lcyc + c.lambda g own (endPort (g.logicalPackage (k / 8)) (k % 8)) + 66))
  let r : GenqReq := { dom := dom, t := g.lcyc, code := d, gid := o.gid, addr := o.addr, left := homes, live := 0,
                       blocks := 0, g := 0 }
  ({ g with genqs := g.genqs ++ [r] } : Gang).inFlight o (g.lcyc + 600)

def execGenq (buf d dom : Nat) (s : State) : Outcome := s.dslot buf (fun g x _ o => g.genq s.cfg x o d dom)

end Sys2Proof.Machine
end

