-- ==== Sys2Proof/Machine/Performs.lean ====
section
/-! DEFINITION. What falls due in a cycle: results of registers, accesses of scratch and device memory, channels, counters,
barriers, snapshots; and how the writes of one cycle are applied (07 R144 to R146, 09 R192, 13 R244 to R246, R263, 15 R270 to
R294, 25 R425, R433). -/
namespace Sys2Proof.Machine

/-! ### Due effects -/

/-- Precedence of an operation: later issue, lower gang identity, earlier slot (R245, R145). -/
def Origin.rank (o : Origin) : Nat := (o.issue * 4096 + (4095 - o.gid)) * 8 + (7 - o.slot)

/-- The effects of a tile that are due and that a test picks, lowest precedence first, and the gang without them. -/
def Gang.takeDue (g : Gang) (gid : Nat) (pick : Job → Bool) : List Due × Gang :=
  let mine (d : Due) : Bool := d.due ≤ g.lcyc && d.o.gid == gid && pick d.job
  (sortBy (fun d => d.o.rank) (g.dues.filter mine), { g with dues := g.dues.filter (fun d => !mine d) })

/-- The due effects of the event's tile, each done in turn, lowest precedence first. -/
def State.perform (s : State) (pick : Job → Bool) (run : State → Nat → Due → State) : State :=
  let t := s.evTask
  match s.gang t with
  | none => s
  | some g =>
    let r := g.takeDue s.evGid pick
    r.1.foldl (fun s d => run s t d) (s.onGang t (fun _ => r.2))

/-- The same for effects within the gang. -/
def State.performGang (s : State) (pick : Job → Bool) (run : Gang → Due → Gang) : State :=
  s.perform pick (fun s t d => s.onGang t (fun g => run g d))

/-! ### Scalar results (R144 to R146, R282) -/

/-- A push of an outgoing FIFO: full is a timetable slip, poison a consumption, of a CHSEND with its address (R37, R281, R283,
R416, R423). -/
def Gang.pushOut (g : Gang) (o : Origin) (ch at_ : Nat) (data : List PByte) : Gang :=
  match g.tile o.gid with
  | none => g
  | some x =>
    let f := x.fifo ch
    let g := if anyPoison data then (g.onTile o.gid Tile.sawPoison).consume o 3 g.lcyc (BitVec.ofNat 64 at_) else g
    if (x.chan ch).depth + 1 ≤ f.elems.length then g.record o 1 4 g.lcyc 0
    else
      let e : Elem := { data := data, pushed := g.lcyc }
      g.onTile o.gid (fun y => y.setFifo ch { f with elems := f.elems ++ [e] })

/-- A value lands in a register or is pushed through a k register; without a channel the FIFO counts as full (R144, R146). -/
def Gang.writeCode (g : Gang) (o : Origin) (code : Nat) (v : Word) (poison : Bool) : Gang :=
  if code < 0x20 then g.onTile o.gid (fun x => x.setSreg code { val := v, poison := poison })
  else
    match g.tile o.gid with
    | none => g
    | some x =>
      let ch := (x.bound (code - 0x20)).chs
      if ch < 64 then g.pushOut o ch 0 (pbytes 8 v.toNat poison) else g.record o 1 4 g.lcyc 0

/-- The destination of a scalar result: registers and k registers from 1, predicates from 65; 0 collides with nothing. -/
def Job.scalarKey (j : Job) : Nat :=
  match j with
  | .sreg c _ _ => c
  | .pred n _ => if n = 0 then 0 else 64 + n
  | _ => 0

/-- A result lands (R144); flags wait for the end of the cycle (R81). -/
def Gang.landScalar (g : Gang) (d : Due) : Gang :=
  match d.job with
  | .sreg c v p => g.writeCode d.o c v p
  | .pred n v => g.onTile d.o.gid (fun x => x.setPred n v)
  | .chbind n chs chr => g.onTile d.o.gid (fun x => { x with kbind := put KBind.none x.kbind n { chs := chs, chr := chr } })
  | .charge buf rd wr => g.onTile d.o.gid (fun x =>
      { x with brd := put 0 x.brd buf (look 0 x.brd buf + BitVec.ofNat 64 rd)
               bwr := put 0 x.bwr buf (look 0 x.bwr buf + BitVec.ofNat 64 wr) })
  | _ => g

def Job.isScalar (j : Job) : Bool :=
  match j with
  | .sreg _ _ _ | .pred _ _ | .chbind _ _ _ | .charge _ _ _ => true
  | _ => false

/-- Bindings and counters first, then of the results for one destination the highest; the others are faults (R145). -/
def Gang.landScalars (g : Gang) : List Due → Gang
  | [] => g
  | d :: ds =>
    let k := d.job.scalarKey
    if k ≠ 0 ∧ ds.any (fun e => e.job.scalarKey == k) then (g.record d.o 2 6 g.lcyc 0).landScalars ds
    else (g.landScalar d).landScalars ds

/-- SCALAR_RESULT_WRITE. -/
def execScalarResultWrite (s : State) : Outcome :=
  .next (s.onGang s.evTask (fun g =>
    let r := g.takeDue s.evGid Job.isScalar
    let first := r.1.filter (fun d => d.job.scalarKey == 0)
    let rest := r.1.filter (fun d => d.job.scalarKey != 0)
    (first.foldl Gang.landScalar r.2).landScalars rest))

/-! ### Vector results, pointers, formats, patterns, system registers (R162, R166, R186, R192, R229) -/

def Job.isVector (j : Job) : Bool :=
  match j with
  | .vent _ _ _ _ | .mask _ _ _ | .advr _ _ _ => true
  | _ => false

/-- The bits that results of higher precedence write in the same entry or mask. -/
def higherBits (entry : Bool) (n : Nat) : List Due → Nat
  | [] => 0
  | d :: ds =>
    match d.job with
    | .vent e _ en _ => (if entry ∧ e % 128 = n then en.toNat else 0) ||| higherBits entry n ds
    | .mask m _ en => (if !entry ∧ m = n then en.toNat else 0) ||| higherBits entry n ds
    | _ => higherBits entry n ds

/-- Both pointers of a ring move (R180, R181). -/
def Tile.moveRing (x : Tile) (h : Nat) (dh dt : Int) : Tile :=
  let r := x.ring h
  x.setRing h { r with head := (((r.head : Int) + dh) % (r.size : Int)).toNat, tail := (((r.tail : Int) + dt) % (r.size : Int)).toNat }

/-- Results land, lowest precedence first; bits that a higher one also writes are a fault of the lower, which neither writes them
nor marks a word of which it writes nothing (R192, R422). -/
def Gang.landVectors (g : Gang) : List Due → Gang
  | [] => g
  | d :: ds =>
    match d.job with
    | .vent e v en p =>
      let up := BitVec.ofNat 1024 (higherBits true (e % 128) ds)
      let g := if en &&& up = 0 then g else g.record d.o 2 6 g.lcyc 0
      (g.onTile d.o.gid (fun x => x.setEntry e v (en &&& ~~~up) (p &&& hitWords (en &&& ~~~up)))).landVectors ds
    | .mask m v en =>
      let up := BitVec.ofNat 128 (higherBits false m ds)
      let g := if en &&& up = 0 ∨ m = 0 then g else g.record d.o 2 6 g.lcyc 0
      (g.onTile d.o.gid (fun x => x.setMask m v (en &&& ~~~up))).landVectors ds
    | .advr h dh dt => (g.onTile d.o.gid (fun x => x.moveRing h dh dt)).landVectors ds
    | _ => g.landVectors ds

/-- VECTOR_RESULT_WRITE. -/
def execVectorResultWrite (s : State) : Outcome :=
  .next (s.onGang s.evTask (fun g =>
    let r := g.takeDue s.evGid Job.isVector
    r.2.landVectors r.1))

/-- FMT_APPLY (R162). -/
def execFmtApply (s : State) : Outcome :=
  .next (s.performGang (fun j => match j with
    | .fmt _ => true
    | _ => false) (fun g d => match d.job with
    | .fmt v => g.onTile d.o.gid (fun x => { x with fmtr := v % 2 ^ 16 })
    | _ => g))

/-- XPAT_WRITE (R229). -/
def execXpatWrite (s : State) : Outcome :=
  .next (s.performGang (fun j => match j with
    | .xpat _ _ => true
    | _ => false) (fun g d => match d.job with
    | .xpat n ps => g.onTile d.o.gid (fun x => { x with xp := setKey x.xp n ps })
    | _ => g))

/-- RINGC applied (R166). -/
def Tile.applyRingc (x : Tile) (h base size : Nat) (clr : Bool) : Tile :=
  let r := x.ring h
  x.setRing h { base := base, size := size, head := if clr then 0 else r.head % size, tail := if clr then 0 else r.tail % size }

/-- SYSTEM_REGISTER_WRITE: SYSWR, and RINGC after an ADVR of the cycle (R166, R167). -/
def execSystemRegisterWrite (s : State) : Outcome :=
  .next (s.performGang (fun j => match j with
    | .sysw _ _ | .ringc _ _ _ _ => true
    | _ => false) (fun g d => match d.job with
    | .sysw r v => g.onTile d.o.gid (fun x => x.setSysReg r v)
    | .ringc h b n c => g.onTile d.o.gid (fun x => x.applyRingc h b n c)
    | _ => g))

/-- SHIST_INCREMENT: counters saturate at 2^32 - 1 (R286). -/
def execShistIncrement (s : State) : Outcome :=
  .next (s.performGang (fun j => match j with
    | .hist _ => true
    | _ => false) (fun g d => match d.job with
    | .hist bins => g.onTile d.o.gid (fun x =>
        { x with hc := bins.foldl (fun h b => put 0 h b (min (2 ^ 32 - 1) (look 0 h b + 1))) x.hc })
    | _ => g))

/-! ### Scratch accesses (R213, R232, R244, R433) -/

/-- Whether a watch range of a tile meets n bytes from an offset (R432, R433). -/
def Tile.watched (x : Tile) (off n : Nat) (write : Bool) : Bool :=
  x.wr.any (fun e =>
    let w := e.2.toNat
    bitAt w 63 && bitAt w (if write then 61 else 62) && w % 2 ^ 21 < off + n && off < w % 2 ^ 21 + bitsOf w 41 21 + 1)

/-- A watch match announces a debug hold (R433). -/
def Gang.watch (g : Gang) (gid off n : Nat) (write : Bool) : Gang :=
  match g.tile gid with
  | none => g
  | some x => if x.watched off n write then g.announce 3 gid 0 else g

/-- n bytes of a tile's slice. -/
def Gang.scratch (g : Gang) (gid off n : Nat) : List PByte :=
  match g.tile gid with
  | none => []
  | some x => readP x.scratch x.scratchPoison off n

/-- Bytes written into a tile's slice. -/
def Tile.storeScratch (x : Tile) (off : Nat) (bs : List PByte) : Tile :=
  { x with scratch := writeBytes x.scratch off (bs.map (·.b)), scratchPoison := markBytes x.scratchPoison off bs }

/-- Bytes written into a tile's accumulator memory. -/
def Tile.storeAcc (x : Tile) (off : Nat) (bs : List PByte) : Tile :=
  { x with acc := writeBytes x.acc off (bs.map (·.b)), accPoison := markBytes x.accPoison off bs }

/-- The bytes that a place gives a read; a denied one gives zeros, an unresolved one the poison value (R239, R241). -/
def State.placeRead (s : State) (t : Nat) (p : Place) (n : Nat) : List PByte :=
  match p with
  | .scratch gid off =>
    (match s.gang t with
     | some g => g.scratch gid off n
     | none => [])
  | .dev l => s.locRead l n
  | .denied => clean (List.replicate n 0)
  | .unresolved => poisonedBytes 0 n

/-- A write staged for the end of the cycle (R245). -/
def Gang.stage (g : Gang) (o : Origin) (p : Place) (bs : List PByte) : Gang :=
  match p with
  | .scratch gid off =>
    let st : Staged := { space := 0, gid := gid, addr := off, o := o, atomic := false, bytes := bs, loc := none, act := none }
    { (g.onTile o.gid (fun x => x.count 0x08 bs.length)).watch gid off bs.length true with
      staged := g.staged ++ [st] }
  | .dev l =>
    let st : Staged := { space := 2, gid := 0, addr := l.addr, o := o, atomic := false, bytes := bs, loc := some l, act := none }
    { g with staged := g.staged ++ [st] }
  | _ => g

/-- An atomic staged for the end of the cycle: n bytes from an address (R245, R246). -/
def Gang.stageAtomic (g : Gang) (o : Origin) (space gid addr n : Nat) (loc : Option DevLoc) (j : Job) : Gang :=
  let st : Staged := { space := space, gid := gid, addr := addr, o := o, atomic := true, bytes := droppedBytes n, loc := loc,
                       act := some j }
  { g with staged := g.staged ++ [st] }

/-- Whether bytes are put together with the run before them: the address follows. -/
def byteRuns : List (Nat × PByte) → List (Nat × List PByte)
  | [] => []
  | (a, b) :: es =>
    match byteRuns es with
    | [] => [(a, [b])]
    | (c, bs) :: rs => if c = a + 1 then (a, b :: bs) :: rs else (a, [b]) :: (c, bs) :: rs

/-- A k-th beat's bytes poisoned where it met an output that is not its own (R273). -/
def poisonAll (bs : List PByte) : List PByte := bs.map (fun b => { b with p := true })

/-- A fault detected at a cycle, this one or a later one. -/
def Gang.faultAt (g : Gang) (o : Origin) (due cls detail : Nat) (info : Word) : Gang :=
  if due ≤ g.lcyc then g.record o cls detail g.lcyc info
  else
    let d : Due := { due := due, o := o, job := .trapFault cls detail info }
    { g with dues := g.dues ++ [d] }

/-- A beat's bytes after its route, and the fault of the operation in the cycle in which it meets an output that is not its own
(R273). -/
def Gang.routed (g : Gang) (c : Cfg) (o : Origin) (a b cycle : Nat) (bs : List PByte) : Gang × List PByte :=
  match c.strayAt g a b cycle with
  | some at_ => (g.faultAt o at_ 2 11 0, poisonAll bs)
  | none => (g, bs)

/-- The gang address of a device location, through the entry that maps it (R236, R237). -/
def Gang.vaOf (g : Gang) (l : DevLoc) : Nat :=
  match g.table.find? (fun e => xlValid e.2 && (g.xlLoc e.2 0).addr ≤ l.addr && l.addr < (g.xlLoc e.2 0).addr + 2 ^ (if bitAt e.2 92 then 30 else 21)) with
  | some e => (if bitAt e.2 92 then bitsOf e.2 119 102 * 2 ^ 30 else bitsOf e.2 119 93 * 2 ^ 21) + (l.addr - (g.xlLoc e.2 0).addr)
  | none => l.addr

/-- A beat leaves its source: its bytes go to its write; a stray one is poisoned; poison for device memory is a consumption
(R271, R273, R277). -/
def State.sendOn (s : State) (t : Nat) (o : Origin) (dst : Place) (due a b : Nat) (bs : List PByte) : State :=
  match s.gang t with
  | none => s
  | some g =>
    let (g, bs) := g.routed s.cfg o a b g.lcyc bs
    let g := if a = b then g else g.onTile o.gid (fun x => x.count 0x09 1)
    let g := match dst with
      | .dev l => if anyPoison bs then g.consume o 2 g.lcyc (BitVec.ofNat 64 (g.vaOf l)) else g
      | _ => g
    let g := match dst with
      | .denied => g
      | .unresolved => g
      | _ => g.later o due (.write 5 dst bs)
    s.onGang t (fun _ => g)

/-- Bytes put at the end of a row of MPERM (R337). -/
def Factor.addRow (f : Factor) (r : Nat) (bs : List PByte) : Factor :=
  { f with rows := f.rows.set r (nthD [] f.rows r ++ bs) }

/-- An arm takes a part of a beat of its posts (R357). -/
def Tile.takeBeat (x : Tile) (h : Nat) (b : TreeBeat) : Tile :=
  { x with arms := x.arms.map (fun a =>
      if a.handle = h ∧ a.posts.any (fun p => p.seg == b.seg) then { a with beats := a.beats ++ [b] } else a) }

/-- A beat of a tree post leaves for its node: poison is a consumption at the TPOST, and the beat is posted with it; a beat that
lies across two lines is one flit, with its first part (R169, R273, R357, R423). -/
def State.postBeat (s : State) (t : Nat) (o : Origin) (h seg beat off node at_ : Nat) (bs : List PByte) : State :=
  s.onGang t (fun g =>
    let own := g.endOf o.gid
    let g := if anyPoison bs then g.consume o 4 g.lcyc (BitVec.ofNat 64 at_) else g
    let (g, bs) := if off = 0 then g.routed s.cfg o own node g.lcyc bs
      else (g, if (s.cfg.strayAt g own node g.lcyc).isSome then poisonAll bs else bs)
    let b : TreeBeat := { seg := seg, beat := beat, off := off, read := g.lcyc, arrive := g.lcyc + s.cfg.lambda g own node, data := bs }
    g.onTile o.gid (fun x => (x.takeBeat h b).count 0x09 (if off = 0 then 1 else 0)))

/-- What a read's bytes, from an offset of a slice, go to (R114, R279, R283). -/
def State.deliver (s : State) (t : Nat) (o : Origin) (after : After) (at_ : Nat) (bs : List PByte) : State :=
  let s := s.onGang t (fun g => g.sawPoison o (anyPoison bs))
  match after with
  | .toReg code _ sz due => s.onGang t (fun g => g.laterReg o due code (extendLoad sz (pval bs)) (anyPoison bs))
  | .toBeat dst due a b => s.sendOn t o dst due a b bs
  | .toPush ch base due sofar rest => s.onGang t (fun g =>
      match rest with
      | [] => g.later o due (.push ch base (sofar ++ bs))
      | l :: ls => g.later o (g.lcyc + 1) (.read 4 (.scratch o.gid l) bs.length (.toPush ch base due (sofar ++ bs) ls)))
  | .toAcc ag off due => s.onGang t (fun g => g.later o due (.accPut ag off bs))
  | .toRow r => s.onGang t (fun g => g.onTile o.gid (fun x => { x with factor := x.factor.map (fun f => f.addRow r bs) }))
  | .toPost h seg beat off node => s.postBeat t o h seg beat off node at_ bs

/-- A read performs: port 15 marks one that its port dropped (R272). -/
def State.readPerform (s : State) (t : Nat) (o : Origin) (port : Nat) (src : Place) (n : Nat) (after : After) : State :=
  let bs := if port = 15 then droppedBytes n else s.placeRead t src n
  let s := match src with
    | .scratch gid off =>
      if port = 15 then s else s.onGang t (fun g => (g.onTile o.gid (fun x => x.count 0x07 n)).watch gid off n false)
    | .dev l => s.noteBad t l.addr n
    | _ => s
  s.deliver t o after (match src with
    | .scratch _ off => off
    | _ => 0) bs

/-- A write performs: it is staged unless its port dropped it (R245, R272). -/
def Gang.writePerform (g : Gang) (o : Origin) (port : Nat) (dst : Place) (bs : List PByte) : Gang :=
  if port = 15 then g else g.stage o dst bs

/-! ### The transfer port (R272, R285) -/

/-- The port that a due effect needs on a tile: write or read, tile, offset. Ports 4 to 8 are the transfer port: 4 single
accesses, 5 beats, 6 accumulator moves, 7 MCHK, 8 MPERM. -/
def Job.transferUse (j : Job) (gid : Nat) : Option (Bool × Nat × Nat) :=
  match j with
  | .read 4 (.scratch i off) _ _ => some (false, i, off)
  | .write p (.scratch i off) _ => if 4 ≤ p ∧ p < 15 then some (true, i, off) else none
  | .ctrsnap off _ => some (true, gid, off)
  | .deliver _ _ _ _ (.scratch i off) _ => some (true, i, off)
  | _ => none

/-- Whether two uses meet in one bank of one port. -/
def usesMeet (a b : Bool × Nat × Nat) : Bool := a.1 == b.1 && a.2.1 == b.2.1 && bankOf a.2.2 == bankOf b.2.2

/-- The effect as its port drops it. -/
def Job.drop (j : Job) : Job :=
  match j with
  | .read _ p n a => .read 15 p n a
  | .write _ p bs => .write 15 p bs
  | .ctrsnap off _ => .ctrsnap off []
  | .deliver h seg b f p _ => .deliver h seg b f p []
  | j => j

/-- Whether a due effect is dropped: another one of higher precedence needs its bank, or a SACC holds the port. Of two lines
of one operation in one bank the one that stands first is served. -/
def Gang.portLoses (g : Gang) (now : List (Nat × Due)) (i : Nat) (d : Due) : Bool :=
  match d.job.transferUse d.o.gid with
  | none => false
  | some u =>
    (match g.tile u.2.1 with
     | some y => y.saccBusy g.lcyc
     | none => false)
    || now.any (fun e => match e.2.job.transferUse e.2.o.gid with
      | some w => usesMeet u w && (d.o.rank < e.2.o.rank || (d.o.rank == e.2.o.rank && e.1 < i))
      | none => false)

/-- The beat that two effects are parts of, when a tree's beat lies across two lines: direction, tile, handle, segment, beat
(R357, R358). -/
def Job.wholeBeat (j : Job) : Option (Bool × Nat × Nat × Nat × Nat) :=
  match j with
  | .read _ (.scratch i _) _ (.toPost h seg b _ _) => some (false, i, h, seg, b)
  | .deliver h seg b _ (.scratch i _) _ => some (true, i, h, seg, b)
  | _ => none

/-- Two due effects are parts of one beat of a tree. -/
def Due.sameBeat (d e : Due) : Bool := d.o == e.o && d.job.wholeBeat.isSome && d.job.wholeBeat == e.job.wholeBeat

/-- The transfer ports of a cycle: a beat that loses a bank is dropped whole and marked, with one fault that names its mapped
offset (R272, R416). -/
def Gang.arbitrate (g : Gang) : Gang :=
  let all := (List.range g.dues.length).zip g.dues
  let now := all.filter (fun e => e.2.due ≤ g.lcyc && (e.2.job.transferUse e.2.o.gid).isSome)
  let lost := now.filter (fun e => g.portLoses now e.1 e.2)
  let gone := now.filter (fun e => lost.any (fun l => l.1 == e.1 || l.2.sameBeat e.2))
  let dues := all.map (fun e => if gone.any (fun l => l.1 == e.1) then { e.2 with job := e.2.job.drop } else e.2)
  (lost.filter (fun e => !lost.any (fun l => l.1 < e.1 && l.2.sameBeat e.2))).foldl
    (fun g e => g.record e.2.o 2 7 g.lcyc (BitVec.ofNat 64 (match e.2.job.transferUse e.2.o.gid with
      | some u => u.2.2
      | none => 0))) { g with dues := dues }

/-! ### The events of accesses (R270, R271) -/

/-- BEAT_READ: reads of beats of transfers, of CHSEND, of TPOST (R271, R283, R357). -/
def execBeatRead (s : State) : Outcome :=
  .next (s.perform (fun j => match j with
    | .read _ _ _ (.toBeat _ _ _ _) => true
    | .read _ _ _ (.toPush _ _ _ _ _) => true
    | .read _ _ _ (.toPost _ _ _ _ _) => true
    | _ => false) (fun s t d => match d.job with
    | .read port src n after => s.readPerform t d.o port src n after
    | _ => s))

/-- BEAT_WRITE: writes of beats of transfers, of CHRECV (R271, R283). -/
def execBeatWrite (s : State) : Outcome :=
  .next (s.performGang (fun j => match j with
    | .write p _ _ => p == 5 || p == 15
    | _ => false) (fun g d => match d.job with
    | .write port dst bs => g.writePerform d.o port dst bs
    | _ => g))

/-- D_ACCESS_PERFORM: RLD, RST and ATOM, and the scratch accesses of the S slot (R176, R270). -/
def execDAccessPerform (s : State) : Outcome :=
  .next (s.perform (fun j => match j with
    | .read _ _ _ (.toReg _ _ _ _) => true
    | .write p _ _ => p == 4 || p == 1
    | .atom _ _ _ _ _ _ _ _ => true
    | _ => false) (fun s t d => match d.job with
    | .read port src n after => s.readPerform t d.o port src n after
    | .write port dst bs => s.onGang t (fun g => g.writePerform d.o port dst bs)
    | .atom op loc w b c p code due =>
      s.onGang t (fun g => g.stageAtomic d.o 2 0 loc.addr (if 11 ≤ op then 16 else w) (some loc) (.atom op loc w b c p code due))
    | _ => s))

/-- The vector accesses of a cycle: direct and gather ports (R214 to R220). -/
def Gang.vectorAccess (g : Gang) (d : Due) : Gang :=
  match d.job with
  | .put bytes =>
    (byteRuns (sortBy (·.1) bytes)).foldl (fun g r => g.stage d.o (.scratch d.o.gid r.1) r.2) g
  | .vread reads pieces entry en due =>
    (match g.tile d.o.gid with
     | none => g
     | some x =>
       let bs := pieces.map (fun p => (p.2, nthD { b := 0, p := false } (readP x.scratch x.scratchPoison p.1 1) 0))
       let w := bs.foldl (fun w b => EntryWrite.put w b.1 8 b.2.b.toNat b.2.p) EntryWrite.empty
       let seen := reads.any (fun a => (readP x.scratch x.scratchPoison a 1).any (·.p))
       let g := (g.onTile d.o.gid (fun x => x.count 0x07 reads.length)).sawPoison d.o seen
       let g := if reads.any (fun a => x.watched a 1 false) then g.announce 3 d.o.gid 0 else g
       g.later d.o due (.vent entry (BitVec.ofNat 1024 w.v) en (BitVec.ofNat 32 w.poison)))
  | _ => g

/-- The vector accesses of a tile that are due in this cycle. -/
def Gang.vectorAccesses (g : Gang) (gid : Nat) : Gang :=
  let r := g.takeDue gid (fun j => match j with
    | .put _ | .vread _ _ _ _ _ => true
    | _ => false)
  r.1.foldl Gang.vectorAccess r.2

/-- SACC_UPDATE: every update is an atomic of its word (R284). -/
def execSaccUpdate (s : State) : Outcome :=
  .next (s.performGang (fun j => match j with
    | .sacc _ _ _ _ _ _ _ => true
    | _ => false) (fun g d => match d.job with
    | .sacc off p q dr sty m sat =>
      let n := (ElemType.ofCode sty).width / 8
      (((g.onTile d.o.gid (fun x => (x.count 0x07 n).count 0x08 n)).watch d.o.gid off n false).watch d.o.gid off n true).stageAtomic
        d.o 0 d.o.gid off n none (.sacc off p q dr sty m sat)
    | _ => g))

/-- CTRSNAP_WRITE (R287). -/
def execCtrsnapWrite (s : State) : Outcome :=
  .next (s.performGang (fun j => match j with
    | .ctrsnap _ _ => true
    | _ => false) (fun g d => match d.job with
    | .ctrsnap off bs => if bs.isEmpty then g else g.stage d.o (.scratch d.o.gid off) bs
    | _ => g))

/-! ### Channels (R281, R283) -/

/-- CHSEND_PUSH (R283). -/
def execChsendPush (s : State) : Outcome :=
  .next (s.performGang (fun j => match j with
    | .push _ _ _ => true
    | _ => false) (fun g d => match d.job with
    | .push ch at_ bs => g.pushOut d.o ch at_ bs
    | _ => g))

/-- A cycle is a slot cycle of a channel (R281). -/
def Chan.slotCycle (c : Chan) (cycle : Nat) : Bool := (cycle % 256 + 256 - c.first % 256) % 2 ^ c.per == 0

/-- The beats of an element after their routes, one beat a cycle from its departure on (R273, R281). -/
def Gang.routedBeats (g : Gang) (c : Cfg) (o : Origin) (a b cycle : Nat) : List (List PByte) → Gang × List PByte
  | [] => (g, [])
  | bs :: rest =>
    let r := g.routed c o a b cycle bs
    let q := r.1.routedBeats c o a b (cycle + 1) rest
    (q.1, r.2 ++ q.2)

/-- The bundle that a tile is issuing in a cycle, or waits to issue: PC as R42 reads it. -/
def Tile.pcAt (x : Tile) (c : Nat) : Nat := if x.active.isSome ∨ x.last = (c : Int) then x.issuedAt else x.pc

/-- The head element of one outgoing FIFO departs; until it has arrived it is addressed to its peer (R273, R281, R464). A fault of
its route names the D slot and the bundle that the tile is at (DEDUCED, log 27). -/
def Gang.depart (g : Gang) (cfg : Cfg) (x : Tile) (ch : Nat) : Gang :=
  let c := x.chan ch
  let f := x.fifo ch
  match f.elems with
  | e :: es =>
    let free : Bool := match f.departed with
      | some d => d + c.beats ≤ g.lcyc
      | none => true
    if c.mode = 1 ∧ c.slotCycle g.lcyc ∧ e.pushed + 1 ≤ g.lcyc ∧ free then
      let o : Origin := { gid := x.gid, slot := 6, addr := x.pc, issue := g.lcyc, buf := 0 }
      let due := g.lcyc + c.lat + c.beats - 1
      let g := g.onTile x.gid (fun y => (y.setFifo ch { elems := es, departed := some g.lcyc }).count 0x09 c.beats)
      let r := g.routedBeats cfg o (g.endOf x.gid) (g.endOf c.peer) g.lcyc (chunks (max 1 (c.size / c.beats)) c.beats e.data)
      let d : Due := { due := due, o := { o with gid := c.peer }, job := .arrive c.pch r.2 }
      ({ r.1 with dues := r.1.dues ++ [d] } : Gang).onTile c.peer (fun y => { y with addrTo := max y.addrTo (due : Int) })
    else g
  | [] => g

/-- CHANNEL_DEPART (R281). -/
def execChannelDepart (s : State) : Outcome :=
  .next (s.onGang s.evTask (fun g => (List.range 64).foldl (fun g ch => match g.tile s.evGid with
    | none => g
    | some x => g.depart s.cfg x ch) g))

/-- CHANNEL_ARRIVE: a full incoming FIFO discards the element with a fault of the receiver (R281, R416). -/
def Gang.arriveAt (g : Gang) (d : Due) : Gang :=
  match d.job with
  | .arrive ch bs => g.onTile d.o.gid (fun x =>
      let f := x.fifo ch
      if (x.chan ch).depth + 1 ≤ f.elems.length then x.record 1 4 6 (x.pcAt g.lcyc) g.lcyc (BitVec.ofNat 64 ch)
      else
        let e : Elem := { data := bs, pushed := g.lcyc }
        x.setFifo ch { f with elems := f.elems ++ [e] })
  | _ => g

def execChannelArrive (s : State) : Outcome :=
  .next (s.performGang (fun j => match j with
    | .arrive _ _ => true
    | _ => false) Gang.arriveAt)

/-! ### Barrier updates (R263, R278) -/

/-- The fields of a barrier record (R262). -/
structure Barrier where
  gen : Nat
  expected : Nat
  arrived : Nat
  beats : Nat
deriving DecidableEq, Repr

def Barrier.ofNat (x : Nat) : Barrier :=
  { gen := bitsOf x 31 0, expected := bitsOf x 63 32, arrived := bitsOf x 95 64, beats := bitsOf x 127 96 }

def Barrier.toNat (b : Barrier) : Nat := b.gen + 2 ^ 32 * b.expected + 2 ^ 64 * b.arrived + 2 ^ 96 * b.beats

/-- A generation completes (R263). -/
def Barrier.settle (b : Barrier) : Barrier :=
  if b.arrived = b.expected ∧ b.beats = 0 then { b with gen := (b.gen + 1) % 2 ^ 32, arrived := 0 } else b

/-- An update of a record: 0 register, 1 complete_beats, 2 arrival; none when it is refused (R263). -/
def Barrier.update (b : Barrier) (kind n : Nat) : Option Barrier :=
  match kind with
  | 0 => if 2 ^ 32 ≤ b.beats + n then none else some ({ b with beats := b.beats + n } : Barrier).settle
  | 1 => if b.beats < n then none else some ({ b with beats := b.beats - n } : Barrier).settle
  | _ => if b.expected = 0 ∨ b.expected < b.arrived + n then none
         else some ({ b with arrived := b.arrived + n } : Barrier).settle

/-- A barrier update of memory, with the mark of its operand: the record after it, and whether it was refused; a poisoned record is
refused. -/
def State.barrierAt (s : State) (l : DevLoc) (kind n : Nat) (poison : Bool) : State × Barrier × Bool :=
  let bs := s.locRead l 16
  let b := Barrier.ofNat (pval bs)
  if anyPoison bs then (s.noteBad 0 l.addr 16, b, true)
  else
    match b.update kind n with
    | none => (s, b, true)
    | some c => (s.locWrite l (pbytes 16 c.toNat poison), c, false)

/-- A due barrier update of a kind is staged as an atomic of its record. -/
def State.barrierStage (s : State) (kind : Nat) : Outcome :=
  .next (s.performGang (fun j => match j with
    | .barrier u _ _ _ => u.kind == kind
    | _ => false) (fun g d => match d.job with
    | .barrier u rest c due => g.stageAtomic d.o 2 0 u.loc.addr 16 (some u.loc) (.barrier u rest c due)
    | _ => g))

/-- BARRIER_REGISTER, BARRIER_COMPLETE_BEATS, BARRIER_ARRIVAL (R263, R278). -/
def execBarrierRegister (s : State) : Outcome := s.barrierStage 0
def execBarrierCompleteBeats (s : State) : Outcome := s.barrierStage 1
def execBarrierArrival (s : State) : Outcome := s.barrierStage 2

/-- An arrival at a barrier is an event of the task (R59, R60). -/
def State.noteArrival (s : State) (t : Nat) (o : Origin) (kind : Nat) : State :=
  match s.gang t with
  | none => s
  | some g =>
    if kind = 2 then s.arrive { source := 5, task := some t, lcyc := g.lcyc, gid := o.gid, place := s.tilePlace g o.gid, act := .note }
    else s

/-- A barrier update of an XFERR: the next one follows unless it is refused; a poisoned record is read (R278, R426). -/
def State.barrierApply (s : State) (t : Nat) (o : Origin) (u : BarrierUpdate) (rest : List (Nat × BarrierUpdate)) : State :=
  let r := (s.noteArrival t o u.kind).barrierAt u.loc u.kind u.n u.poison
  let p := anyPoison (s.locRead u.loc 16)
  r.1.onGang t (fun g =>
    let g := g.sawPoison o p
    if r.2.2 then g.record o 2 0 g.lcyc 0
    else
      match rest with
      | (due, v) :: more => g.later o due (.barrier v more none 0)
      | [] => g)

/-! ### Regions and the spare reserve (R293, R425) -/

/-- The 64 KiB blocks of a stack (R290; 48 GiB). -/
def stackBlocks : Nat := stackLimit / 65536

/-- The blocks that saved bytes of a tile's regions use on a stack. -/
def Tile.savedBlocks (x : Tile) (stack : Nat) : Nat :=
  (dedupNat ((((List.range x.depth).flatMap (fun d => (x.region d).saved)).filter (fun e => e.1.addr / 2 ^ 36 == stack)).map
    (fun e => e.1.addr / 65536))).length

/-- The gang of a task, running or saved. -/
def Task.anyGang (x : Task) : Option Gang :=
  match x.gang with
  | some g => some g
  | none => x.image.map (·.gang)

/-- Spare blocks of a stack in use, those of the open regions of saved tasks among them (R290, R425). -/
def State.spareUsed (s : State) (stack : Nat) : Nat :=
  sumOf (s.gens.map (fun g => (g.blocks.filter (fun b => b * 65536 / 2 ^ 36 == stack)).length))
    + sumOf (s.tasks.map (fun e => match e.2.anyGang with
      | some g => sumOf (g.tiles.map (fun y => y.2.savedBlocks stack))
      | none => 0))

/-- Spare blocks of a stack that are free (R293, R384). -/
def State.spareFree (s : State) (stack : Nat) : Nat :=
  stackBlocks / 2 ^ (s.pkg (stack / 8)).spres - s.spareUsed stack

/-- A tile's region has a record in the block of an address. -/
def Tile.hasBlock (x : Tile) (a : Nat) : Bool :=
  (List.range x.depth).any (fun d => (x.region d).saved.any (fun e => e.1.addr / 65536 == a / 65536))

/-- Saves the values that a region write replaces, the first ones standing, with the mark that their word had before the region's
first write to it (R425, R428). -/
def Tile.saveOld (x : Tile) (l : DevLoc) : Nat → List PByte → Tile
  | _, [] => x
  | i, b :: bs =>
    match x.inner with
    | none => x
    | some d =>
      let loc : DevLoc := { l with addr := l.addr + i }
      let y := x.onRegion d (fun r =>
        if r.saved.any (fun e => e.1.addr == loc.addr) then r
        else { r with saved := r.saved ++ [(loc, { b with p := (savedMark r.saved loc.addr).getD b.p })] })
      y.saveOld l (i + 1) bs

/-- A write of a tile to device memory, recorded by its open region; with no spare block it performs nowhere and fails the
region (R425). The second part says whether it performed. -/
def State.tileWrite (s : State) (t : Nat) (o : Origin) (l : DevLoc) (bs : List PByte) : State × Bool :=
  match s.tile t o.gid with
  | none => (s, false)
  | some x =>
    match x.inner with
    | none => (s.locWrite l bs, true)
    | some d =>
      if x.hasBlock l.addr ∨ s.spareFree (l.addr / 2 ^ 36) ≠ 0 then
        ((s.onTile t o.gid (fun y => y.saveOld l 0 (s.locRead l bs.length))).locWrite l bs, true)
      else (s.onTile t o.gid (fun y => y.failRegion d 6), false)

/-! ### The end of a cycle's writes (R245, R246) -/

/-- The new value of an ATOM, its flags, and whether memory is written (R288). -/
def atomValue (op w old b c : Nat) : Nat × Nat × Bool :=
  let m := 2 ^ (8 * w)
  match op with
  | 0 => ((old + b) % m, 0, true)
  | 1 => (old &&& b % m, 0, true)
  | 2 => (old ||| b % m, 0, true)
  | 3 => (old ^^^ b % m, 0, true)
  | 4 => (if sextInt (8 * w) b < sextInt (8 * w) old then b % m else old, 0, true)
  | 5 => (if sextInt (8 * w) old < sextInt (8 * w) b then b % m else old, 0, true)
  | 6 => (min old (b % m), 0, true)
  | 7 => (max old (b % m), 0, true)
  | 8 => (b % m, 0, true)
  | 9 => (b % m, 0, old == c % m)
  | _ =>
    let r := addFloat .fp32 .rne false 0 old (b % m)
    (r.bits, r.flags, true)

/-- An ATOM performs: the old value lands at the result cycle (R246, R288, R289). -/
def State.atomApply (s : State) (t : Nat) (o : Origin) (op : Nat) (l : DevLoc) (w b c : Nat) (poison : Bool)
    (code due : Nat) : State :=
  if 11 ≤ op then
    let kind := if op = 11 then 2 else if op = 12 then 0 else 1
    let r := (s.noteArrival t o kind).barrierAt l kind (b % 2 ^ 32) poison
    let p := anyPoison (s.locRead l 16)
    r.1.onGang t (fun g =>
      (g.sawPoison o p).laterReg o due code (BitVec.ofNat 64 (r.2.1.gen + (if r.2.2 then 2 ^ 32 else 0))) (p || poison))
  else
    let bs := s.locRead l w
    let old := pval bs
    let ret := if (op = 4 ∨ op = 5) ∧ w = 4 then sextTo 32 64 old else old
    if anyPoison bs then
      (s.noteBad t l.addr w).onGang t (fun g => (g.sawPoison o true).laterReg o due code (BitVec.ofNat 64 ret) true)
    else
      let v := atomValue op w old b c
      let s := if v.2.2 then (s.tileWrite t o l (pbytes w v.1 poison)).1 else s
      s.onGang t (fun g => (g.laterReg o due code (BitVec.ofNat 64 ret) false).laterFlags o due v.2.1)

/-- An update of SACC applies to its word (R284). -/
def Gang.saccApply (g : Gang) (o : Origin) (off p : Nat) (poison : Bool) (draw sty mode : Nat) (sat : Bool) : Gang :=
  let t := ElemType.ofCode sty
  let n := t.width / 8
  let old := g.scratch o.gid off n
  let r := saccAdd t mode sat draw (pval old) p
  let q := poison || anyPoison old
  ((g.onTile o.gid (fun x => x.storeScratch off (pbytes n r.bits q))).sawPoison o q).onTile o.gid (fun x => x.raise r.flags)

/-- One staged write or atomic applies. -/
def State.applyStaged (s : State) (t : Nat) (w : Staged) : State :=
  match w.act, w.loc with
  | some (.atom op l n b c p code due), _ => s.atomApply t w.o op l n b c p code due
  | some (.barrier u rest _ _), _ => s.barrierApply t w.o u rest
  | some (.sacc off p q d sty m sat), _ => s.onGang t (fun g => g.saccApply w.o off p q d sty m sat)
  | _, some l => if w.o.slot = 0 then s.locRevert l w.bytes else (s.tileWrite t w.o l w.bytes).1
  | _, none =>
    if w.space = 0 then s.onTile t w.gid (fun x => x.storeScratch w.addr w.bytes)
    else s.onTile t w.gid (fun x => x.storeAcc w.addr w.bytes)

/-- The bytes that two staged operations share: from, to; empty when from is not below to. -/
def Staged.overlap (a b : Staged) : Nat × Nat :=
  (max a.addr b.addr, min (a.addr + a.bytes.length) (b.addr + b.bytes.length))

def Staged.meets (a b : Staged) : Bool :=
  a.space == b.space && a.gid == b.gid && (a.overlap b).1 < (a.overlap b).2

/-- Whether two staged operations belong to different instructions (R245). -/
def Staged.differs (a b : Staged) : Bool := a.o.gid != b.o.gid || a.o.issue != b.o.issue || a.o.slot != b.o.slot

/-- An operation that ranks below another one at a location where a plain write is among them (R245). -/
def conflicts (all : List Staged) (a : Staged) : Bool :=
  all.any (fun b => a.meets b && a.differs b && a.o.rank < b.o.rank &&
    all.any (fun c => !c.atomic && c.meets a && c.meets b
      && max (a.overlap b).1 c.addr < min (a.overlap b).2 (c.addr + c.bytes.length)))

/-- One of each operation. -/
def dedupOrigins : List Staged → List Staged
  | [] => []
  | w :: ws => w :: (dedupOrigins ws).filter (fun v => w.differs v)

/-- The writes of a cycle apply, lowest precedence first, and their conflicts are faults (R244 to R246). -/
def State.commit (s : State) (t : Nat) : State :=
  match s.gang t with
  | none => s
  | some g =>
    let all := sortBy (fun w => w.o.rank) g.staged
    let bad := dedupOrigins (all.filter (conflicts all))
    let s := s.onGang t (fun g => bad.foldl (fun g w => g.record w.o 2 6 g.lcyc (BitVec.ofNat 64 w.addr)) { g with staged := [] })
    all.foldl (fun s w => s.applyStaged t w) s

/-! ### Snapshots (R290 to R294) -/

/-- The 64 KiB blocks of a domain's writable pages on a stack (R292). -/
def Gang.writableBlocks (g : Gang) (dom stack : Nat) : Nat :=
  sumOf ((g.table.filter (fun e => xlValid e.2 && bitsOf e.2 58 56 == dom && bitAt e.2 65)).map (fun e =>
    let a := devAddr (g.package (bitsOf e.2 91 85)) (bitsOf e.2 84 82) (bitsOf e.2 81 67 * 2 ^ 21)
    if a / 2 ^ 36 = stack then 2 ^ (if bitAt e.2 92 then 30 else 21) / 65536 else 0))

/-- The blocks of a domain on a stack. -/
def pageBlocks (pages : List (Nat × Nat)) (stack : Nat) : Nat :=
  sumOf (pages.map (fun p => if p.1 / 2 ^ 36 = stack then p.2 / 65536 else 0))

/-- Generations of a domain of a task that are live, oldest first. -/
def State.liveGens (s : State) (t dom : Nat) : List Gen := s.gens.filter (fun g => g.task == t && g.dom == dom)

/-- The status of a snapshot at its cycle (R292). -/
def State.snapStatus (s : State) (t : Nat) (g : Gang) (dom : Nat) : Nat :=
  if 4 ≤ (s.liveGens t dom).length then 2
  else if (g.domainStacks dom).any (fun k => s.spareFree k < g.writableBlocks dom k) then 1
  else 0

/-- A generation starts; the serialiser will count it (R290, R293, R389). -/
def State.startGen (s : State) (t dom number : Nat) (g : Gang) : State :=
  let pages := g.domainPages dom
  let gen : Gen := { task := t, dom := dom, number := number, pages := pages, old := [], bad := [],
                     left := (g.domainStacks dom).map (fun k => (k, pageBlocks pages k)), ops := [], blocks := [] }
  ({ s with gens := s.gens ++ [gen] } : State).arrive
    { source := 6, task := some t, lcyc := g.lcyc, gid := 0, place := s.tilePlace g 0, act := .gen t dom number }

/-- The packages of the stacks on which a generation is. -/
def Gen.packages (g : Gen) : List Nat := dedupNat (g.left.map (fun e => e.1 / 8))

/-- A generation that the serialiser records: each package's drain context takes it as its next operation (R389). -/
def State.countGen (s : State) (t dom number : Nat) : State :=
  match s.gens.find? (fun g => g.task == t && g.dom == dom && g.number == number) with
  | none => s
  | some g =>
    let s := g.packages.foldl (fun s p => s.setPkg p { s.pkg p with drainSub := (s.pkg p).drainSub + 1 }) s
    { s with gens := s.gens.map (fun h => if h = g then { h with ops := g.packages.map (fun p => (p, (s.pkg p).drainSub)) } else h) }

/-- One SNAP at its snapshot cycle. -/
def State.snapAt (s : State) (t : Nat) (g : Gang) (r : SnapReq) : State × SnapReq :=
  let st := if r.status = 3 then 3 else s.snapStatus t g r.dom
  let n := look 0 g.gnum r.dom
  if st = 0 then
    let n1 := (n + 1) % 65536
    ((s.onGang t (fun g => { g with gnum := put 0 g.gnum r.dom n1 })).startGen t r.dom n1 g, { r with status := 0, g := n1 })
  else (s, { r with status := st, g := n })

/-- SNAP_CYCLE (R268, R292). -/
def execSnapCycle (s : State) : Outcome :=
  let t := s.evTask
  match s.gang t with
  | none => .next s
  | some g =>
    let r := g.snaps.foldl (fun (acc : State × List SnapReq) q =>
      if q.c = g.lcyc then
        let r := acc.1.snapAt t ((acc.1.gang t).getD g) q
        (r.1, acc.2 ++ [r.2])
      else (acc.1, acc.2 ++ [q])) (s, [])
    .next (r.1.onGang t (fun g => { g with snaps := r.2 }))

/-- The result of a SNAP or GENQ is due in this cycle, beside the other scalar results (R145). -/
def Gang.landResult (g : Gang) (gid code addr t : Nat) (v : Nat) : Gang :=
  let d : Due := { due := g.lcyc, o := { gid := gid, slot := 6, addr := addr, issue := t, buf := 0 }
                   job := .sreg code (BitVec.ofNat 64 v) false }
  { g with dues := g.dues ++ [d] }

/-- SNAP_RESULT: 600 cycles after the snapshot cycle (R292). -/
def execSnapResult (s : State) : Outcome :=
  .next (s.onGang s.evTask (fun g =>
    let due := g.snaps.filter (fun q => q.c + 600 ≤ g.lcyc)
    due.foldl (fun g q => g.landResult q.gid q.code q.addr q.t (q.g * 2 ^ 48 + q.status * 2 ^ 40))
      { g with snaps := g.snaps.filter (fun q => g.lcyc < q.c + 600) }))

/-- What a stack of a domain shows: the generations that are still live on it, and how many blocks of the oldest of them are not
yet drained there (R292, R294). -/
def State.genqSampleOf (s : State) (t dom stack : Nat) : Nat × Nat :=
  let live := (s.liveGens t dom).filter (fun g => g.left.any (fun e => e.1 == stack))
  (live.length, match live with
    | [] => 0
    | g :: _ => ((g.left.find? (fun e => e.1 == stack)).map (·.2)).getD 0)

/-- The samples that are due in a cycle (R294). -/
def Gang.takeSamples (g : Gang) (s : State) (t : Nat) : Gang :=
  { g with genqs := g.genqs.map (fun q =>
      let got := (q.left.filter (fun e => e.2 ≤ g.lcyc)).map (fun e => s.genqSampleOf t q.dom e.1)
      { q with left := q.left.filter (fun e => g.lcyc < e.2), live := max q.live (maxOf (got.map (·.1)))
               blocks := q.blocks + sumOf (got.map (·.2)) }) }

/-- GENQ_SAMPLE (R294). -/
def execGenqSample (s : State) : Outcome :=
  .next (s.onGang s.evTask (fun g => g.takeSamples s s.evTask))

/-- GENQ_RESULT: 600 cycles after issue (R294). -/
def execGenqResult (s : State) : Outcome :=
  .next (s.onGang s.evTask (fun g =>
    let due := g.genqs.filter (fun q => q.t + 600 ≤ g.lcyc)
    due.foldl (fun g q => g.landResult q.gid q.code q.addr q.t
        (look 0 g.gnum q.dom * 2 ^ 48 + min 7 q.live * 2 ^ 45 + min (2 ^ 32 - 1) q.blocks))
      { g with genqs := g.genqs.filter (fun q => g.lcyc < q.t + 600) }))

/-- The uncorrectable words of a generation: those that it kept, and those of live words that it shares (R437). -/
def State.badWordsOf (s : State) (g : Gen) : List Nat :=
  g.bad ++ s.devBad.filter (fun w => g.has (4 * w) && (find? g.old (4 * w)).isNone)

/-- A generation as it stands in the lower tier: the values that it holds, an uncorrectable word as R421 delivers it with the poison
indication (R293, R439). -/
def State.drainedCopy (s : State) (g : Gen) : Drained :=
  let bad := s.badWordsOf g
  let now := s.dev.filter (fun e => g.has e.1)
  let old := g.old.foldl (fun m e => writeByte m e.1 e.2.b) now
  let marks := (s.devPoison.filter (fun w => g.has (4 * w) && (find? g.old (4 * w)).isNone))
    ++ (g.old.filter (fun e => e.2.p)).map (fun e => e.1 / 4) ++ bad
  { task := g.task, dom := g.dom, number := g.number, bytes := fillBad old bad, poison := marks.foldl addNum [] }

/-- The drain engine's oldest generation on a stack (R293). -/
def State.draining (s : State) (stk : Nat) : Option Gen := s.gens.find? (fun g => g.left.any (fun e => e.1 == stk))

/-- The part of a generation on a stack, with n blocks of it still to be drained. -/
def Gen.setLeft (g : Gen) (stk n : Nat) : Gen := { g with left := g.left.map (fun e => if e.1 = stk then (stk, n) else e) }

/-- The drain of a generation goes on on a stack, by how many blocks is free (R293, R294; DESIGN CHOICE, log 1). -/
def State.drainOn (s : State) (t dom number stk : Nat) : State :=
  let s1 := { s with tape := s.tape + 1 }
  { s1 with gens := s.gens.map (fun g =>
      if g.task = t ∧ g.dom = dom ∧ g.number = number then
        match find? g.left stk with
        | some n => g.setLeft stk (n - Config.choice s.tape % (n + 1))
        | none => g
      else g) }

/-- A generation all of whose parts are drained is in the lower tier: it is no longer live, its spare blocks return, the drain
contexts count it, each line of it with uncorrectable words is logged (R254, R293, R439; DEDUCED, log 21). Of each domain the
lower tier keeps the newest one (DESIGN CHOICE, log 33). -/
def State.genDrained (s : State) (g : Gen) : State :=
  let d := s.drainedCopy g
  let s1 := (dedupNat ((s.badWordsOf g).map (· / 16))).foldl (fun s w =>
    s.logEvent 1 1 (w * 64 / 2 ^ 39 * 512 + w * 64 / 2 ^ 36 % 8) g.task (64 * w) 0) s
  { s1 with gens := s.gens.filter (fun h => !(h == g))
            tier := s.tier.filter (fun e => !(e.task == g.task && e.dom == g.dom)) ++ [d] }

/-- GENERATION_DRAIN_COMPLETE of a task, a domain and a stack: the oldest generation on the stack, one of the domain, has been
written to the lower tier there; with its last part the generation is drained (R293, R294). -/
def execGenerationDrainComplete (s : State) : Outcome :=
  let stk := s.arg 2
  match s.gens.find? (fun g => g.task == s.arg 0 && g.dom == s.arg 1 && (g.left.isEmpty || s.draining stk == some g)) with
  | none => .next s
  | some g =>
    let h : Gen := { g with left := g.left.filter (fun e => e.1 != stk) }
    .next (if h.left.isEmpty then s.genDrained g else { s with gens := s.gens.map (fun k => if k = g then h else k) })

end Sys2Proof.Machine
end

