-- ==== Sys2Proof/Machine/Trees.lean ====
section
/-! DEFINITION. Collective trees: nodes and their routers, what a range combines, arms and tree slots, posts, folds,
deliveries, completion (21 R341 to R372, 03 R98 and R99). -/
namespace Sys2Proof.Machine

/-! ### Attributes, members and nodes (R342 to R346) -/

/-- S and m of a tree (R342, R347). -/
def Tree.segSize (r : Tree) : Nat := 16 * (r.segu + 1)
def Tree.beats (r : Tree) : Nat := ceilDiv r.segSize 64

/-- The fields of a member word (R343). -/
def memGid (w : Nat) : Nat := w % 4096
def memAlt (w : Nat) : Option Nat := if bitAt w 31 then some (bitsOf w 27 16) else none
def memAct (w : Nat) : Bool := bitAt w 30

/-- The gang identity of a member's primary. -/
def Tree.gidOf (r : Tree) (mi : Nat) : Nat := memGid (nthD 0 r.members mi)

/-- The member that a tile stands for, and whether as its alternate (R343). -/
def Tree.roleOf (r : Tree) (gid : Nat) : Option (Nat × Bool) :=
  match r.members.findIdx? (fun w => memGid w == gid) with
  | some i => some (i, false)
  | none => (r.members.findIdx? (fun w => memAlt w == some gid)).map (fun i => (i, true))

/-- A node: what its router is, 0 the mesh router of a tile, 1 the die-to-die router of a package, 2 a package router;
whether its children are members; its children by port (R345, R346). -/
structure TreeNode where
  kind : Nat
  at_ : Nat
  leaf : Bool
  kids : List Nat
deriving DecidableEq, Repr

/-- The nodes of a tier over the keys and numbers of the tier below; and their own keys and numbers (R345). -/
def nextTier (base kind : Nat) (up : Nat → Nat) (place : List Nat → Nat) (prev : List (Nat × Nat)) :
    List TreeNode × List (Nat × Nat) :=
  let ks := dedupNat (prev.map (fun e => up e.1))
  let nodes := ks.map (fun k =>
    let mine := prev.filter (fun e => up e.1 == k)
    ({ kind := kind, at_ := place (mine.map (·.1)), leaf := false, kids := mine.map (·.2) } : TreeNode))
  (nodes, ks.zip (upFrom base ks.length))

/-- The members by increasing gang identity. -/
def Tree.byGid (r : Tree) : List Nat := sortBy r.gidOf (List.range r.members.length)

/-- Level 1: a node for each logical die that holds a primary (R345). -/
def Tree.level1 (r : Tree) : List TreeNode × List (Nat × Nat) :=
  let key (mi : Nat) : Nat := r.gidOf mi / r.t * 2 + r.gidOf mi % r.t / 16
  let ks := dedupNat (r.byGid.map key)
  let nodes := ks.map (fun k =>
    let mine := r.byGid.filter (fun mi => key mi == k)
    ({ kind := 0, at_ := r.gidOf (nthD 0 mine 0), leaf := true, kids := mine } : TreeNode))
  (nodes, ks.zip (upFrom 0 ks.length))

/-- The nodes of a tree, the top node last (R345, R346). -/
def Tree.nodes (r : Tree) : List TreeNode :=
  let l1 := r.level1
  if l1.1.length ≤ 1 then l1.1
  else
    let l2 := nextTier l1.1.length 1 (· / 2) (fun ks => nthD 0 ks 0 / 2) l1.2
    let n2 := l1.1 ++ l2.1
    if l2.1.length ≤ 1 then n2
    else
      let l3 := nextTier n2.length 2 (· / 8) (fun ks => nthD 0 ks 0) l2.2
      let n3 := n2 ++ l3.1
      if l3.1.length ≤ 1 then n3
      else n3 ++ (nextTier n3.length 2 (fun _ => 0) (fun _ => r.gidOf r.root / r.t) l3.2).1

/-- The level-1 node of a member. -/
def leafOf (ns : List TreeNode) (mi : Nat) : Nat := (ns.findIdx? (fun v => v.leaf && v.kids.contains mi)).getD 0

/-- A node and its ancestors; fuel for the four levels. -/
def nodesUp (ns : List TreeNode) : Nat → Nat → List Nat
  | 0, v => [v]
  | n + 1, v =>
    match ns.findIdx? (fun u => !u.leaf && u.kids.contains v) with
    | some u => v :: nodesUp ns n u
    | none => [v]

/-- The nodes on a member's path; under KIND 2 the top node alone (R354). -/
def Tree.path (r : Tree) (ns : List TreeNode) (mi : Nat) : List Nat :=
  if r.kind = 2 then [ns.length - 1] else nodesUp ns 3 (leafOf ns mi)

/-- The node that takes a member's contribution (R348). -/
def Tree.takes (r : Tree) (ns : List TreeNode) (mi : Nat) : Nat := nthD 0 (r.path ns mi) 0

def TreeNode.none : TreeNode := { kind := 0, at_ := 0, leaf := true, kids := [] }

/-- The router of a node, as an endpoint of the gang's image (R346). -/
def Gang.nodeEnd (g : Gang) (v : TreeNode) : Nat :=
  match v.kind with
  | 0 => g.endOf v.at_ + 64
  | 1 => 128 * v.at_ + 40
  | _ => 128 * v.at_ + 41

/-- δ of every node (R347). -/
def Cfg.delays (c : Cfg) (g : Gang) (ns : List TreeNode) : List Nat :=
  ns.foldl (fun acc v => acc ++ [if v.leaf then 0
    else maxOf (v.kids.map (fun u => nthD 0 acc u + 1 + c.lambda g (g.nodeEnd (nthD TreeNode.none ns u)) (g.nodeEnd v)))]) []

/-- δ of the top node. -/
def Cfg.topDelay (c : Cfg) (g : Gang) (ns : List TreeNode) : Nat := nthD 0 (c.delays g ns) (ns.length - 1)

/-- The router of the top node. -/
def Gang.topEnd (g : Gang) (ns : List TreeNode) : Nat := g.nodeEnd (nthD TreeNode.none ns (ns.length - 1))

/-- Whether a primary belongs to the membership of a segment (R343, R364). -/
def Tree.active (r : Tree) (mi seg : Nat) : Bool :=
  r.edits.foldl (fun a e => if e.at_ ≤ seg then ((e.changes.find? (fun ch => ch.1 == mi)).map (·.2)).getD a else a)
    (memAct (nthD 0 r.members mi))

/-! ### Arms (R354 to R356) -/

/-- Whether an arm holds a segment. -/
def Arm.holds (a : Arm) (seg : Nat) : Bool := a.s0 ≤ seg && seg < a.s0 + a.n

/-- Whether two arms share a segment. -/
def Arm.meets (a b : Arm) : Bool := a.s0 < b.s0 + b.n && b.s0 < a.s0 + a.n

/-- The arms of a handle in a gang, with their tiles. -/
def Gang.arms (g : Gang) (h : Nat) : List (Nat × Arm) :=
  g.tiles.flatMap (fun e => (e.2.arms.filter (fun a => a.handle == h)).map (fun a => (e.1, a)))

/-- Arms of a tile changed. -/
def Tile.onArms (x : Tile) (pick : Arm → Bool) (f : Arm → Arm) : Tile :=
  { x with arms := x.arms.map (fun a => if pick a then f a else a) }

/-- The arm of a tile that holds a segment: an incomplete one, else one whose last delivery has not performed (R355, R357, R358). -/
def Tile.armOf (x : Tile) (h seg : Nat) : Option Arm :=
  match x.arms.find? (fun a => a.live && a.handle == h && a.holds seg) with
  | some a => some a
  | none => x.arms.find? (fun a => a.handle == h && a.holds seg)

/-- The place of an arm in the order that decides a range's reference: level-1 nodes, ports, primary before alternate; under
KIND 2 the root first (R356). -/
def Tree.armRank (r : Tree) (ns : List TreeNode) (a : Arm) : Nat :=
  let order := ns.flatMap (fun v => if v.leaf then v.kids else [])
  let i := 2 * (order.findIdx? (· == a.mi)).getD 0 + (if a.alt then 1 else 0)
  if r.kind = 2 ∧ a.mi = r.root then i % 2 else i + 2

/-! ### Contributions (R348, R350) -/

/-- What a port has for one beat: bytes or nothing, whether an alternate's, the record's flags, a slip of the primary. -/
structure PortBeat where
  data : Option (List PByte)
  alt : Bool
  flags : Nat
  slip : Bool

/-- Flags of a completion record (R369). -/
def recNAN : Nat := 2
def recSUB : Nat := 4
def recPOISON : Nat := 8
def recSAT : Nat := 16
def recOVF : Nat := 32
def recLATE : Nat := 64

/-- A beat that was read in a cycle or before: the cycle of its arrival and its bytes. -/
def Arm.beatAt (a : Arm) (seg beat k : Nat) : Option (Nat × List PByte) :=
  match sortBy (·.off) (a.beats.filter (fun b => b.seg == seg && b.beat == beat && b.read ≤ k)) with
  | [] => none
  | bs => some (maxOf (bs.map (·.arrive)), bs.flatMap (·.data))

/-- n poisoned bytes that the spec gives no value (DESIGN CHOICE, log 17). -/
def freeBytes (seed n : Nat) : List PByte := (upFrom seed n).map (fun i => { b := Config.treeByte i, p := true })

/-- The beat that a node uses at a primary's port, folded at cycle k; the bytes of one that is late and was not even read by then, or
never posted, are free (R350; DESIGN CHOICE, log 17). -/
def Tree.portBeat (r : Tree) (arms : List Arm) (mi seg beat k n : Nat) : PortBeat :=
  let get (alt : Bool) : Option Arm := arms.find? (fun a => a.mi == mi && a.alt == alt && !a.bad)
  let inTime (a : Option Arm) : Option (List PByte) := (a.bind (fun a => a.beatAt seg beat k)).bind (fun b =>
    if b.1 < k then some b.2 else none)
  let p := inTime (get false)
  let q := (inTime (get true)).bind (fun bs => if anyPoison bs then none else some bs)
  let late := p.isNone
  if r.active mi seg then
    match p, q with
    | some bs, some alt =>
      if anyPoison bs then { data := some alt, alt := true, flags := recSUB, slip := false }
      else { data := some bs, alt := false, flags := 0, slip := false }
    | some bs, none => { data := some bs, alt := false, flags := if anyPoison bs then recPOISON else 0, slip := false }
    | none, some alt => { data := some alt, alt := true, flags := recSUB ||| recLATE, slip := late }
    | none, none =>
      let posted := (get false).any (fun a => a.posts.any (fun x => x.seg == seg))
      let own := ((get false).bind (fun a => a.beatAt seg beat k)).map (fun b => poisonAll b.2)
      { data := some (own.getD (freeBytes (64 * k) n)), alt := false, flags := recPOISON ||| (if posted then recLATE else 0), slip := late }
  else
    match q with
    | some alt => { data := some alt, alt := true, flags := recSUB, slip := false }
    | none => { data := none, alt := false, flags := 0, slip := false }

/-! ### Combining (R98, R99, R349) -/

/-- Two lists of elements combined; an absent element gives way to the other one. -/
def combineLists {α : Type} (op : α → α → α) : List (Option α) → List (Option α) → List (Option α)
  | some x :: xs, some y :: ys => some (op x y) :: combineLists op xs ys
  | some x :: xs, none :: ys => some x :: combineLists op xs ys
  | none :: xs, y :: ys => y :: combineLists op xs ys
  | xs, [] => xs
  | [], ys => ys

/-- The elements of every node in order, from those of the members: children in ascending port order, the running partial
first (R349). -/
def foldNodes {α : Type} (op : α → α → α) (leaf : Nat → List (Option α)) (ns : List TreeNode) : List (List (Option α)) :=
  ns.foldl (fun acc v =>
    let ins := v.kids.map (fun k => if v.leaf then leaf k else nthD [] acc k)
    acc ++ [match ins with
      | [] => []
      | x :: xs => xs.foldl (combineLists op) x]) []

/-- The type of a tree's elements and of its interior (R98). -/
def Tree.elem (r : Tree) : ElemType := ElemType.ofCode r.fmt
def Tree.inner (r : Tree) : ElemType := if r.wide ∧ (r.fmt = 1 ∨ r.fmt = 2) then .fp32 else r.elem

/-- A contribution's element in the interior; bits for the bitwise operators and copy, a number for I32 (R98). -/
def Tree.enter (r : Tree) (b : Nat) : Int × Nat :=
  if 3 ≤ r.op then ((b : Int), 0)
  else if r.elem.isFloat then (if r.inner = r.elem then (b : Int) else ((floatToFloat r.elem r.inner .rne false 0 b).bits : Int), 0)
  else (intValue r.elem b, 0)

/-- Whether an operation overflowed: an infinity from finite values (R351). -/
def overflowed (r : Rounded) : Nat := if r.flags &&& flagOF ≠ 0 then recOVF else 0

/-- Two interior elements combined, with their flags (R98, R349, R351). -/
def Tree.combine (r : Tree) (a b : Int × Nat) : Int × Nat :=
  let fl := a.2 ||| b.2
  let x := a.1.toNat
  let y := b.1.toNat
  match r.op with
  | 0 =>
    if r.elem.isFloat then
      let v := addFloat r.inner .rne false 0 x y
      ((v.bits : Int), fl ||| overflowed v)
    else (a.1 + b.1, fl)
  | 1 => if r.elem.isFloat then (((minMaxFloat r.inner true x y).bits : Int), fl) else (max a.1 b.1, fl)
  | 2 => if r.elem.isFloat then (((minMaxFloat r.inner false x y).bits : Int), fl) else (min a.1 b.1, fl)
  | 3 => (((x &&& y : Nat) : Int), fl)
  | 4 => (((x ||| y : Nat) : Int), fl)
  | 5 => (((x ^^^ y : Nat) : Int), fl)
  | _ => (a.1, fl)

/-- The element that the root delivers, with its flags (R98, R351). -/
def Tree.leave (r : Tree) (v : Int × Nat) : Nat × Nat :=
  if 3 ≤ r.op ∧ r.op ≤ 5 then (v.1.toNat, v.2)
  else if r.elem.isFloat then
    let x := if r.inner = r.elem ∨ 3 ≤ r.op then ({ bits := v.1.toNat, flags := 0 } : Rounded)
             else floatToFloat r.inner r.elem .rne false 0 v.1.toNat
    (x.bits, v.2 ||| overflowed x ||| (if isNanBits r.elem x.bits then recNAN else 0))
  else if 3 ≤ r.op then (v.1.toNat, v.2)
  else
    let x := fitInt r.elem true v.1
    (x.bits, v.2 ||| (if x.flags &&& flagSAT ≠ 0 then recSAT else 0))

/-- The identity of an operator (R96, R349); a broadcast has none, and its value is free (DESIGN CHOICE, log 17). -/
def Tree.identity (r : Tree) (seed : Nat) : Nat :=
  let t := r.elem
  match r.op with
  | 1 => if t.isFloat then t.withSign true t.infinity else wrapInt t.width t.minInt
  | 2 => if t.isFloat then t.infinity else wrapInt t.width t.maxInt
  | 3 => 2 ^ t.width - 1
  | 6 => leNat ((upFrom seed (t.width / 8)).map Config.treeByte)
  | _ => 0

/-- A result byte with the flags of its element. -/
abbrev FlagByte := PByte × Nat

/-- The value of bytes that are all there. -/
def wholeBytes (bs : List (Option PByte)) : Option (List PByte) :=
  if bs.all (·.isSome) then some (bs.filterMap id) else none

/-- The elements of a port's segment. -/
def Tree.elements (r : Tree) (bs : List (Option PByte)) : List (Option (Int × Nat)) :=
  let n := max 1 (r.elem.width / 8)
  (chunks n (bs.length / n) bs).map (fun c => (wholeBytes c).map (fun d => r.enter (pval d)))

/-- The bytes of 16 blocks with their scales (R344). -/
def Tree.groupSize (r : Tree) : Nat := 64 * r.elem.width + 16

/-- Block b of a port's segment: its partial and whether a byte of it is poisoned (R71, R99, R344). -/
def Tree.block (r : Tree) (bs : List (Option PByte)) (b : Nat) : Option (MxPartial × Bool) :=
  let w := r.elem.width
  let base := b / 16 * r.groupSize
  let field := (bs.drop (base + b % 16 * 4 * w)).take (4 * w)
  let scale := (bs.drop (base + 64 * w + b % 16)).take 1
  (wholeBytes (field ++ scale)).map (fun d =>
    let x := pval (d.take (4 * w))
    ({ ws := (List.range 32).map (fun k => sextInt w (x / 2 ^ (w * k) % 2 ^ w)), e := pval (d.drop (4 * w)) }, anyPoison d))

/-- A block that the root delivers: its element bytes, its scale byte, its flags (R91, R93, R98, R99); with a NaN scale every
element is 0. -/
def Tree.leaveBlock (r : Tree) (p : MxPartial) : List Byte × Byte × Nat :=
  let w := r.elem.width
  if p.e = 255 then (leBytes (4 * w) 0, 255, recNAN)
  else
    let xs := p.ws.map (fun (i : Int) => ({ neg := i < 0, mag := i.natAbs, exp := (p.e : Int) - 127 - ((w : Int) - 2) } : Exact))
    let e := mxScale r.elem (absMax xs)
    let qs := xs.map (fun x => mxElem r.elem e .rne 0 x)
    let field := (qs.zip (List.range 32)).foldl (fun a q => a + q.1.bits % 2 ^ w * 2 ^ (w * q.2)) 0
    (leBytes (4 * w) field, BitVec.ofNat 8 e, if qs.any (fun q => q.flags &&& flagSAT != 0) then recSAT else 0)

/-- The bytes of 16 result blocks. -/
def mxGroupBytes (bl : List (List Byte × Byte × Nat × Bool)) : List FlagByte :=
  bl.flatMap (fun b => b.1.map (fun x => (({ b := x, p := b.2.2.2 } : PByte), b.2.2.1)))
    ++ bl.map (fun b => (({ b := b.2.1, p := b.2.2.2 } : PByte), b.2.2.1))

/-- The result of an MX sum over a segment (R99, R349, R350). -/
def Tree.sumMx (r : Tree) (ns : List TreeNode) (port : Nat → List (Option PByte)) : List FlagByte :=
  let nb := 16 * (r.segSize / r.groupSize)
  let leaf (mi : Nat) : List (Option (MxPartial × Bool)) := (List.range nb).map (r.block (port mi))
  let op (a b : MxPartial × Bool) : MxPartial × Bool := (mxCombine a.1 b.1, a.2 || b.2)
  let top := nthD [] (foldNodes op leaf ns) (ns.length - 1)
  let out := top.map (fun v => match v with
    | some p => let y := r.leaveBlock p.1; (y.1, y.2.1, y.2.2, p.2)
    | none => (leBytes (4 * r.elem.width) 0, 0, 0, false))
  (chunks 16 (nb / 16) out).flatMap mxGroupBytes

/-- Whether any port has a poisoned byte in the word of a byte of the segment (R350). -/
def wordPoison (ports : List (List (Option PByte))) (i : Nat) : Bool :=
  ports.any (fun bs => match (bs.drop i).head? with
    | some (some b) => b.p
    | _ => false)

/-- Where the scale byte of the block of a byte of a segment lies (R344). -/
def Tree.scaleOf (r : Tree) (i : Nat) : Nat :=
  let w := r.elem.width
  let base := i / r.groupSize * r.groupSize
  let o := i % r.groupSize
  base + 64 * w + (if o < 64 * w then o / (4 * w) else o - 64 * w)

/-- Whether a byte of a segment comes out poisoned: its word is, or in an MX format the scale byte of its block (R350). -/
def Tree.bytePoison (r : Tree) (ports : List (List (Option PByte))) (i : Nat) : Bool :=
  wordPoison ports i || (r.elem.isMx && wordPoison ports (r.scaleOf i))

/-- The flag of a byte of a broadcast MX block: with the scale 0xFF its elements are NaN (R92, R351). -/
def Tree.scaleNan (r : Tree) (bs : List Byte) (i : Nat) : Nat :=
  if r.elem.isMx ∧ nthD 0 bs (r.scaleOf i) = 0xFF then recNAN else 0

/-- The result of a range's segment with the flags of each byte, from what each port has (R98, R349, R350). -/
def Tree.combineSeg (r : Tree) (ns : List TreeNode) (mis : List Nat) (port : Nat → List (Option PByte)) (seed : Nat) :
    List FlagByte :=
  if r.elem.isMx ∧ r.op = 0 then r.sumMx ns port
  else
    let n := if r.elem.isMx then 1 else r.elem.width / 8
    let leaf (mi : Nat) : List (Option (Int × Nat)) := if r.elem.isMx then
        (port mi).map (fun b => b.map (fun x => ((x.b.toNat : Int), 0))) else r.elements (port mi)
    let top := if r.kind = 2 then leaf r.root else nthD [] (foldNodes r.combine leaf ns) (ns.length - 1)
    let ports := mis.map port
    let bytes := (top.zip (List.range top.length)).flatMap (fun e =>
      let v := match e.1 with
        | some x => if r.elem.isMx then (x.1.toNat, x.2) else r.leave x
        | none => (if r.elem.isMx then (Config.treeByte (seed + e.2)).toNat else r.identity (seed + n * e.2), 0)
      (leBytes n v.1).map (fun b => (b, v.2)))
    (bytes.zip (List.range bytes.length)).map (fun e =>
      (({ b := e.1.1, p := r.bytePoison ports e.2 } : PByte), e.1.2 ||| r.scaleNan (bytes.map (·.1)) e.2))

/-! ### A range's result (R347 to R350, R369, R370) -/

/-- The cycle at which the node that takes contributions folds the first beat of a segment (R347, R348). -/
def Tree.foldCycle (r : Tree) (d c s0 seg : Nat) : Nat := c + (seg - s0) * r.beats + (if r.kind = 2 then d else 0)

/-- What every port has for every beat of a segment. -/
def Tree.portBeats (r : Tree) (arms : List Arm) (mi seg k : Nat) : List PortBeat :=
  (List.range r.beats).map (fun j => r.portBeat arms mi seg j (k + j) (min 64 (r.segSize - 64 * j)))

/-- The bytes of a port's segment, absent beats left out. -/
def Tree.portBytes (r : Tree) (bs : List PortBeat) : List (Option PByte) :=
  ((bs.zip (List.range bs.length)).flatMap (fun e => match e.1.data with
    | some d => d.map some
    | none => List.replicate (min 64 (r.segSize - 64 * e.2)) none)).take r.segSize

/-- The members whose contributions the tree takes: the root alone under KIND 2. -/
def Tree.givers (r : Tree) (ns : List TreeNode) : List Nat :=
  if r.kind = 2 then [r.root] else ns.flatMap (fun v => if v.leaf then v.kids else [])

/-- The beats of a port's segment, those poisoned that a router between two nodes spoils on their way up (R273). -/
def spoil (lost : List (Nat × Nat)) (seg : Nat) (bs : List PortBeat) : List PortBeat :=
  (bs.zip (List.range bs.length)).map (fun e =>
    if lost.contains (seg, e.2) then { e.1 with data := e.1.data.map poisonAll } else e.1)

/-- The result of a segment: bytes with flags, and the flags of its contributions by beat. -/
def Tree.result (r : Tree) (ns : List TreeNode) (arms : List Arm) (lost : List (Nat × Nat)) (k seg : Nat) :
    List FlagByte × List Nat :=
  let mis := r.givers ns
  let all := mis.map (fun mi => (mi, spoil lost seg (r.portBeats arms mi seg k)))
  let port (mi : Nat) : List (Option PByte) :=
    match all.find? (fun e => e.1 == mi) with
    | some e => r.portBytes e.2
    | none => []
  (r.combineSeg ns mis port (64 * k),
   (List.range r.beats).map (fun j => all.foldl (fun f e => f ||| ((e.2.drop j).head?.map (·.flags)).getD 0) 0))

/-- A beat of a result: its bytes and its flags. -/
def Tree.resultBeat (r : Tree) (ns : List TreeNode) (arms : List Arm) (lost : List (Nat × Nat)) (k seg beat : Nat) :
    List PByte × Nat :=
  let res := r.result ns arms lost k seg
  let bs := (res.1.drop (64 * beat)).take 64
  let fl := bs.foldl (fun f b => f ||| b.2) (nthD 0 res.2 beat)
  (bs.map (·.1), fl ||| (if bs.any (·.1.p) then recPOISON else 0))

/-- The values of the order signature for a segment (R370). -/
def Tree.signature (r : Tree) (ns : List TreeNode) (arms : List Arm) (k seg : Nat) : List Nat :=
  let top := ns.length - 1
  let given (mi : Nat) : Bool × Bool :=
    let bs := r.portBeats arms mi seg k
    (bs.any (fun b => b.data.isSome), bs.any (·.alt))
  let word (v p : Nat) (alt : Bool) : Nat := v * 2 ^ 48 + (if alt then 2 ^ 47 else 0) + p * 2 ^ 32 + seg
  if r.kind = 2 then
    let x := given r.root
    let up := nodesUp ns 3 (leafOf ns r.root)
    let kid := if up.length ≤ 1 then r.root else nthD 0 up (up.length - 2)
    let p := ((nthD TreeNode.none ns top).kids.findIdx? (· == kid)).getD 0
    if x.1 then [word top p x.2] else []
  else
    (ns.foldl (fun (acc : List Bool × List Nat) v =>
      let i := acc.1.length
      let ports := v.kids.map (fun u => if v.leaf then given u else (nthD false acc.1 u, false))
      let here := (ports.zip (List.range ports.length)).filter (fun e => e.1.1)
      (acc.1 ++ [!here.isEmpty], acc.2 ++ here.map (fun e => word i e.2 e.1.2))) ([], [])).2

/-- A tree with the membership by which a range was folded, once that is over (R364). -/
def Tree.asFolded (r : Tree) (q : TreeRange) : Tree :=
  match q.folded with
  | some m => { r with members := m.1, edits := m.2 }
  | none => r

/-- The arms of an open range, by member. -/
def Gang.rangeArms (g : Gang) (h id : Nat) : List Arm :=
  ((g.arms h).map (·.2)).filter (fun a => a.range == some id)

/-- The arm whose flags the completion record follows: the root's, else its alternate's (R369). -/
def Tree.rootArm (r : Tree) (arms : List Arm) : Option Arm :=
  match arms.find? (fun a => a.mi == r.root && !a.alt) with
  | some a => some a
  | none => arms.find? (fun a => a.mi == r.root)

/-- The completion record of a range (R369, R370). -/
def Tree.record (r : Tree) (h : Nat) (ns : List TreeNode) (arms : List Arm) (d : Nat) (q : TreeRange) (irq : Bool) : CplRec :=
  let segs := upFrom q.s0 q.n
  let k (s : Nat) : Nat := r.foldCycle d q.c q.s0 s
  let flags := segs.foldl (fun f s =>
    (List.range r.beats).foldl (fun f j => f ||| (r.resultBeat ns arms q.spoiled (k s) s j).2) f) 0
  let sig := crcEnd (crcBytes crcStart ((segs.flatMap (fun s => r.signature ns arms (k s) s)).flatMap (leBytes 8)))
  { kind := 2, status := 0, id := h + q.s0 % 65536 * 65536, osig := sig, ltime := q.complete.getD 0, wtime := 0,
    flags := flags ||| (if irq then 1 else 0), raw := none }

/-! ### Tree slots (R354, R355) -/

/-- A change of a live tree. -/
def State.onTree (s : State) (h : Nat) (f : Tree → Tree) : State :=
  match find? s.trees h with
  | none => s
  | some r => { s with trees := setKey s.trees h (f r) }

/-- The slots of the router at a physical endpoint. -/
def State.slotsAt (s : State) (e : Nat) : Tbl TreeSlot := look [] (s.pkg (e / 128)).treeSlots (e % 128)

def State.setSlots (s : State) (e : Nat) (v : Tbl TreeSlot) : State :=
  let p := s.pkg (e / 128)
  s.setPkg (e / 128) { p with treeSlots := put [] p.treeSlots (e % 128) v }

/-- The slot numbers of a gang at a router of its image: first and count, none at a router that the slot mask does not name (R355;
DESIGN CHOICE, log 6). -/
def Gang.quotaAt (g : Gang) (e : Nat) : List Nat := upFrom (look (0, 0) g.quota e).1 (look (0, 0) g.quota e).2

/-- The slots of the physical router behind one of a gang's image (R346). -/
def State.gangSlots (s : State) (g : Gang) (e : Nat) : Tbl TreeSlot := s.slotsAt (s.cfg.realEnd g e)

def State.setGangSlots (s : State) (g : Gang) (e : Nat) (v : Tbl TreeSlot) : State := s.setSlots (s.cfg.realEnd g e) v

/-- The slot of a gang at a router that holds a handle. -/
def State.slotOf (s : State) (g : Gang) (e h : Nat) : Option Nat :=
  (g.quotaAt e).find? (fun i => match find? (s.gangSlots g e) i with
    | some v => v.handle == h
    | none => false)

/-- An arm pins the slot of its handle at a router. -/
def State.pinSlot (s : State) (g : Gang) (e h : Nat) (pin : Nat × Nat × Nat) : State :=
  match s.slotOf g e h with
  | none => s
  | some i =>
    let v := look { handle := h, used := 0, pins := [] } (s.gangSlots g e) i
    s.setGangSlots g e (setKey (s.gangSlots g e) i { v with used := s.wall + 1, pins := pin :: v.pins })

/-- A refill: an empty slot of the quota, else the unpinned one armed least recently; none when all are pinned (R355). -/
def State.refill (s : State) (g : Gang) (e h : Nat) : Option State :=
  let slots := s.gangSlots g e
  let free := (g.quotaAt e).filter (fun i => (look { handle := 0, used := 0, pins := [] } slots i).pins.isEmpty)
  match sortBy (fun i => (look { handle := 0, used := 0, pins := [] } slots i).used) free with
  | i :: _ => some (s.setGangSlots g e (setKey slots i { handle := h, used := s.wall + 1, pins := [] }))
  | [] => none

/-- The slots of every router changed. -/
def State.mapSlots (s : State) (f : Tbl TreeSlot → Tbl TreeSlot) : State :=
  { s with pkgs := s.pkgs.map (fun e => (e.1, { e.2 with treeSlots := e.2.treeSlots.map (fun r => (r.1, f r.2)) })) }

/-- Pins of arms that a test picks are taken off. -/
def State.unpin (s : State) (h : Nat) (gone : Nat × Nat × Nat → Bool) : State :=
  s.mapSlots (fun t => t.map (fun v =>
    if v.2.handle = h then (v.1, { v.2 with pins := v.2.pins.filter (fun p => !gone p) }) else v))

/-- A handle leaves every router (R366, R367). -/
def State.dropSlots (s : State) (h : Nat) : State := s.mapSlots (fun t => t.filter (fun v => v.2.handle != h))

/-- The routers on an arm's path. -/
def Gang.armEnds (g : Gang) (r : Tree) (mi : Nat) : List Nat :=
  let ns := r.nodes
  (r.path ns mi).map (fun v => g.nodeEnd (nthD TreeNode.none ns v))

/-- The arm of a tile that starts at a segment, pinned. -/
def State.markPinned (s : State) (t gid h s0 : Nat) : State :=
  s.onTile t gid (fun x => x.onArms (fun a => a.live && a.handle == h && a.s0 == s0) (fun a => { a with pinned := true }))

/-- An arm pins its slots, all of them present. -/
def State.pinArm (s : State) (t gid : Nat) (g : Gang) (r : Tree) (h : Nat) (a : Arm) : State :=
  ((g.armEnds r a.mi).foldl (fun s e => s.pinSlot g e h (t, gid, a.s0)) s).markPinned t gid h a.s0

/-- A refused arm: every member of the range whose path uses the router records the fault at Th and has no arm (R355). -/
def State.refuseArms (s : State) (t : Nat) (g : Gang) (r : Tree) (h e : Nat) (like : Arm) : State :=
  (g.arms h).foldl (fun s ga =>
    let a := ga.2
    if a.live ∧ !a.pinned ∧ a.meets like ∧ (g.armEnds r a.mi).contains e then
      (s.onTile t ga.1 (fun x =>
        ({ x with arms := x.arms.filter (fun b => b != a) } : Tile).record 2 11 6 a.addr g.lcyc 0)).unpin h
        (fun p => p == (t, ga.1, a.s0))
    else s) s

/-- The refill and the replay of one arm at the freeze of its hold (R354, R355). -/
def State.refillArm (s : State) (t gid h : Nat) (a : Arm) : State :=
  match s.gang t, find? s.trees h with
  | some g, some r =>
    let step (acc : State × Bool) (e : Nat) : State × Bool :=
      if acc.2 = false ∨ (acc.1.slotOf g e h).isSome then acc
      else match acc.1.refill g e h with
        | some s => (s, true)
        | none => (acc.1.refuseArms t g r h e a, false)
    let out := (g.armEnds r a.mi).foldl step (s, true)
    if out.2 then out.1.pinArm t gid g r h a else out.1
  | _, _ => s

/-- The arms of a gang that wait for slots, replayed in the order of the tiles (R354). -/
def State.refillArms (s : State) (t : Nat) : State :=
  match s.gang t with
  | none => s
  | some g =>
    (g.tiles.flatMap (fun e => (e.2.arms.filter (fun a => a.live && !a.pinned)).map (fun a => (e.1, a)))).foldl
      (fun s ga => match s.tile t ga.1 with
        | some x => if x.arms.contains ga.2 then s.refillArm t ga.1 ga.2.handle ga.2 else s
        | none => s) s

/-! ### TARM (R352 to R356) -/

/-- Whether a TARM acts as NOP with a fault (R356); a frozen tree takes no arm (DESIGN CHOICE, log 17). -/
def armRefused (x : Tile) (r : Option Tree) (e : Option ArmEntry) (h s0 : Nat) : Bool :=
  match r, e with
  | some r, some e =>
    e.handle != h || r.frozen || 2 ^ 24 ≤ s0 || 2 ^ 24 < s0 + e.count || (r.roleOf x.gid).isNone
      || x.arms.any (fun a => a.live && a.handle == h && a.s0 < s0 + e.count && s0 < a.s0 + a.n)
  | _, _ => true

/-- The arm that a TARM makes (R354). -/
def newArm (r : Tree) (x : Tile) (e : ArmEntry) (o : Origin) (h s0 c : Nat) : Arm :=
  let who := (r.roleOf x.gid).getD (0, false)
  { handle := h, s0 := s0, n := e.count, c := c + e.coff, issue := c, addr := o.addr, buf := o.buf, cpl := e.cpl, irq := e.irq,
    mi := who.1, alt := who.2, live := true, pinned := false, bad := false, range := none, posts := [], beats := [] }

/-- A handle is armed at a tile: its TSTAT is no longer 0 (R360). -/
def Tile.markArmed (x : Tile) (h : Nat) : Tile :=
  { x with trees := setKey x.trees h { look { armed := false, sticky := 0, next := 0 } x.trees h with armed := true } }

/-- TARM's change of its gang: the arm, or the fault (R354, R356). -/
def Gang.tarm (g : Gang) (x : Tile) (o : Origin) (r : Option Tree) (h rs aix : Nat) : Gang :=
  let (g, x, vs, _) := g.dRead x o 1 [rs] (fun _ => 0)
  let s0 := (nthD 0 vs 0).toNat
  match r, x.armList[aix]? with
  | some r, some e =>
    if armRefused x (some r) (some e) h s0 then (g.record o 2 11 g.lcyc 0).inFlight o g.lcyc
    else g.onTile o.gid (fun y => ({ y with arms := y.arms ++ [newArm r y e o h s0 g.lcyc] } : Tile).markArmed h)
  | _, _ => (g.record o 2 11 g.lcyc 0).inFlight o g.lcyc

/-- The slots of the arm that was just made: pinned when all are present, else a hold is announced; edits whose boundary it
reaches are marked (R354, R364). -/
def State.armSlots (s : State) (t gid buf h : Nat) : State :=
  match s.gang t, find? s.trees h with
  | some g, some r =>
    (match (g.tile gid).bind (fun x => x.arms.getLast?) with
     | none => s
     | some a =>
       if a.handle ≠ h ∨ a.issue ≠ g.lcyc ∨ a.pinned then s
       else
         let s := s.onTree h (fun r =>
           { r with users := addNum r.users t
                    edits := r.edits.map (fun e => if e.at_ < a.s0 + a.n then { e with reached := true } else e) })
         if (g.armEnds r a.mi).all (fun e => (s.slotOf g e h).isSome) then s.pinArm t gid g r h a
         else s.onGang t (fun g => g.announce 0 gid buf))
  | _, _ => s

def execTarm (buf handle src aix : Nat) (s : State) : Outcome :=
  match s.dslot buf (fun g x _ o => g.tarm x o (find? s.trees handle) handle src aix) with
  | .next s1 => .next (s1.armSlots s.evTask s.evGid buf handle)
  | r => r

/-! ### TPOST, TRECV, TSTAT (R357 to R360) -/

/-- The pieces of n bytes from an offset that lie in one line each: offset within, length. -/
def linePieces (a n : Nat) : List (Nat × Nat) :=
  let first := min n (64 - a % 64)
  if first = n then [(0, n)] else [(0, first), (first, n - first)]

/-- A segment and the offset of its bytes (R357, R358). -/
def segOperands (r : Tree) (sv ra : Word) (step k : Nat) : Nat × Nat :=
  let kk := if step = 1 then k else 0
  (sv.toNat + kk, alignDown ((ra.toNat + kk * r.segSize) % 2 ^ 64) 16)

/-- TPOST: the reads of the segment's beats, or the fault (R357). -/
def Gang.tpost (g : Gang) (x : Tile) (o : Origin) (k : Nat) (r : Option Tree) (h rs ra step : Nat) : Gang :=
  let (g, x, vs, _) := g.dRead x o 1 [rs, ra] (fun vs => alignDown (nthD 0 vs 1).toNat 16)
  match r with
  | none => (g.record o 2 11 g.lcyc 0).inFlight o g.lcyc
  | some r =>
    let (seg, base) := segOperands r (nthD 0 vs 0) (nthD 0 vs 1) step k
    match x.armOf h seg with
    | none => (g.record o 2 11 g.lcyc 0).inFlight o g.lcyc
    | some a =>
      if 2 ^ 24 ≤ (nthD 0 vs 0).toNat ∨ g.lcyc < a.issue + g.horizon ∨ a.posts.any (fun p => p.seg == seg)
          ∨ (r.kind = 2 ∧ x.gid ≠ r.gidOf r.root) then (g.record o 2 11 g.lcyc 0).inFlight o g.lcyc
      else
        let ns := r.nodes
        let node := g.nodeEnd (nthD TreeNode.none ns (r.takes ns a.mi))
        let p : Post := { seg := seg, issue := g.lcyc, base := base }
        let g := g.onTile o.gid (fun y => (y.onArms (fun b => b == a) (fun b => { b with posts := b.posts ++ [p] })).count 0x0A 1)
        let g := (List.range r.beats).foldl (fun g j =>
          (linePieces (base + 64 * j) (min 64 (r.segSize - 64 * j))).foldl (fun g q =>
            g.later o (g.lcyc + 1 + j)
              (.read 4 (.scratch o.gid (x.map (base + 64 * j + q.1))) q.2 (.toPost h seg j q.1 node))) g) g
        (g.charge o r.segSize 0).inFlight o (g.lcyc + r.beats)

def execTpost (buf handle src a step : Nat) (s : State) : Outcome :=
  s.dslot buf (fun g x k o => g.tpost x o k (find? s.trees handle) handle src a step)

/-- TRECV: the segment is covered from the next cycle on, or the fault (R358). -/
def Gang.trecv (g : Gang) (c : Cfg) (x : Tile) (o : Origin) (k : Nat) (r : Option Tree) (h rs ra step : Nat) : Gang :=
  let (g, x, vs, _) := g.dRead x o 1 [rs, ra] (fun vs => alignDown (nthD 0 vs 1).toNat 16)
  match r with
  | none => (g.record o 2 11 g.lcyc 0).inFlight o g.lcyc
  | some r =>
    let (seg, base) := segOperands r (nthD 0 vs 0) (nthD 0 vs 1) step k
    match x.armOf h seg with
    | none => (g.record o 2 11 g.lcyc 0).inFlight o g.lcyc
    | some a =>
      if 2 ^ 24 ≤ (nthD 0 vs 0).toNat ∨ x.covers.any (fun v => v.handle == h && v.seg == seg)
          ∨ (r.kind = 0 ∧ x.gid ≠ r.gidOf r.root) then (g.record o 2 11 g.lcyc 0).inFlight o g.lcyc
      else
        let ns := r.nodes
        let last := a.c + (seg - a.s0 + 1) * r.beats - 1 + c.topDelay g ns + 1 + c.lambda g (g.topEnd ns) (g.endOf x.gid)
        let v : Cover := { handle := h, seg := seg, base := base, issue := g.lcyc, addr := o.addr, buf := o.buf, last := last,
                           got := [] }
        ((g.onTile o.gid (fun y => { y with covers := y.covers ++ [v] })).busy o last).charge o 0 r.segSize

def execTrecv (buf handle src a step : Nat) (s : State) : Outcome :=
  s.dslot buf (fun g x k o => g.trecv s.cfg x o k (find? s.trees handle) handle src a step)

/-- The word of TSTAT (R360). -/
def Tile.treeWord (x : Tile) (h : Nat) : Nat :=
  let v := look { armed := false, sticky := 0, next := 0 } x.trees h
  if v.armed then
    v.sticky % 16 * 2 ^ 32 + min 255 (x.arms.filter (fun a => a.live && a.handle == h)).length * 2 ^ 24 + v.next % 2 ^ 24
  else 0

/-- TSTAT: the state at t is written at t + 2; CLR clears the sticky bits after the read (R360). -/
def execTstat (buf handle d clr : Nat) (s : State) : Outcome :=
  s.dslot buf (fun g x _ o =>
    let g := (g.laterReg o (g.lcyc + 2) d (BitVec.ofNat 64 (x.treeWord handle)) false).inFlight o (g.lcyc + 2)
    if clr = 1 then g.onTile o.gid (fun y => match find? y.trees handle with
      | some v => { y with trees := setKey y.trees handle { v with sticky := 0 } }
      | none => y) else g)

/-! ### TREE_FOLD (R347 to R350, R356) -/

/-- The arms that wait for their range, in the order that decides the reference. -/
def Gang.waitingArms (g : Gang) (r : Tree) (ns : List TreeNode) (h : Nat) : List (Nat × Arm) :=
  sortBy (fun e => r.armRank ns e.2) ((g.arms h).filter (fun e => e.2.live && e.2.range.isNone))

/-- The reference arms among those that wait: none meets an earlier one (R356). -/
def references : List (Nat × Arm) → List (Nat × Arm) → List (Nat × Arm)
  | acc, [] => acc
  | acc, a :: as => references (if acc.any (fun b => b.2.meets a.2) then acc else acc ++ [a]) as

/-- A waiting arm joins a range; one that differs from the reference is a fault (R356). -/
def Gang.joinArm (g : Gang) (h id s0 n c : Nat) (e : Nat × Arm) : Gang :=
  let differs : Bool := e.2.s0 != s0 || e.2.n != n || e.2.c != c
  let g := g.onTile e.1 (fun x => x.onArms (fun b => b == e.2) (fun b => { b with range := some id, bad := differs }))
  if differs then g.onTile e.1 (fun x => x.record 2 11 6 e.2.addr g.lcyc 0) else g

/-- The range of a reference arm opens: every waiting arm that meets it joins. -/
def State.openRange (s : State) (t h : Nat) (waiting : List (Nat × Arm)) (a : Arm) : State :=
  match find? s.trees h with
  | none => s
  | some r =>
    let q : TreeRange := { id := r.next, task := t, s0 := a.s0, n := a.n, c := a.c, complete := none, folded := none, spoiled := [] }
    (s.onTree h (fun r => { r with next := r.next + 1, ranges := r.ranges ++ [q] })).onGang t (fun g =>
      (waiting.filter (fun e => e.2.meets a)).foldl (fun g e => g.joinArm h q.id a.s0 a.n a.c e) g)

/-- The ranges of a tree whose combine cycle has come; an arm that meets an open range joins that one. -/
def State.openRanges (s : State) (t h : Nat) (r : Tree) (ns : List TreeNode) (g : Gang) : State :=
  let waiting := g.waitingArms r ns h
  let mine := r.ranges.filter (fun q => q.task == t && q.complete.isNone)
  let meetsOpen (e : Nat × Arm) : Option TreeRange := mine.find? (fun q => e.2.s0 < q.s0 + q.n && q.s0 < e.2.s0 + e.2.n)
  let s := waiting.foldl (fun s e => match meetsOpen e with
    | some q => if e.2.c ≤ g.lcyc then s.onGang t (fun g => g.joinArm h q.id q.s0 q.n q.c e) else s
    | none => s) s
  let fresh := waiting.filter (fun e => (meetsOpen e).isNone)
  ((references [] fresh).filter (fun e => e.2.c ≤ g.lcyc)).foldl (fun s e => s.openRange t h fresh e.2) s

/-- The beat that is folded in a cycle after a delay: segment and beat. -/
def TreeRange.beatAt (q : TreeRange) (m d c : Nat) : Option (Nat × Nat) :=
  if q.c + d ≤ c ∧ c < q.c + d + q.n * m then some (q.s0 + (c - q.c - d) / m, (c - q.c - d) % m) else none

/-- Slips of primaries whose beat is late or missing (R350). -/
def Gang.foldSlips (g : Gang) (r : Tree) (ns : List TreeNode) (arms : List Arm) (seg beat : Nat) : Gang :=
  (r.givers ns).foldl (fun g mi =>
    if (r.portBeat arms mi seg beat g.lcyc 0).slip then
      g.onTile (r.gidOf mi) (fun x => if x.halted.isSome then x else
        x.record 1 6 6 (((arms.find? (fun a => a.mi == mi && !a.alt)).map (·.addr)).getD (x.pcAt g.lcyc)) g.lcyc 0)
    else g) g

/-- The deliveries of a beat that the top node folds in this cycle (R347, R358, R359). -/
def State.sendBeatDown (s : State) (t h : Nat) (r : Tree) (ns : List TreeNode) (g : Gang) (q : TreeRange) (seg beat : Nat) :
    State :=
  let ends := ((g.arms h).filter (fun e => e.2.range == some q.id && (r.kind != 0 || e.1 == r.gidOf r.root)))
  let stray (gid : Nat) : Option Nat := s.cfg.strayAt g (g.topEnd ns) (g.endOf gid) (g.lcyc + 1)
  let ds := ends.map (fun e =>
    ({ range := q.id, task := t, gid := e.1, seg := seg, beat := beat, from_ := g.lcyc + 1,
       due := g.lcyc + 1 + s.cfg.lambda g (g.topEnd ns) (g.endOf e.1), lost := (stray e.1).isSome } : Delivery))
  let fault (g : Gang) (d : Delivery) : Gang :=
    match stray d.gid, (g.tile d.gid).bind (fun x => x.covers.find? (fun v => v.handle == h && v.seg == seg)) with
    | some at_, some v => g.faultAt { gid := d.gid, slot := 6, addr := v.addr, issue := v.issue, buf := v.buf } at_ 2 11 0
    | _, _ => g
  (s.onTree h (fun r => { r with out := r.out ++ ds })).onGang t (fun g =>
    ds.foldl (fun g d => (fault g d).onTile d.gid (fun x => { x with addrTo := max x.addrTo (d.due : Int) })) g)

/-- The beats of a range that leave a node for its parent in the next cycle and meet an output that is not theirs: the partial
arrives poisoned; no tile issued it, so no fault is recorded (R273; DESIGN CHOICE, log 17). -/
def State.spoilBeats (s : State) (t h : Nat) (r : Tree) (ns : List TreeNode) (g : Gang) (q : TreeRange) : State :=
  let ds := s.cfg.delays g ns
  let lost := (List.range ns.length).filterMap (fun u =>
    match ns.find? (fun v => !v.leaf && v.kids.contains u), q.beatAt r.beats (nthD 0 ds u) g.lcyc with
    | some v, some e =>
      if (s.cfg.strayAt g (g.nodeEnd (nthD TreeNode.none ns u)) (g.nodeEnd v) (g.lcyc + 1)).isSome then some e else none
    | _, _ => none)
  if r.kind = 2 ∨ lost = [] then s
  else s.onTree h (fun r => { r with ranges := r.ranges.map (fun p =>
    if p.id = q.id ∧ p.task = t then { p with spoiled := p.spoiled ++ lost } else p) })

/-- The folds of a range in this cycle. -/
def State.foldRange (s : State) (t h : Nat) (r : Tree) (ns : List TreeNode) (g : Gang) (q : TreeRange) : State :=
  let d := s.cfg.topDelay g ns
  let arms := g.rangeArms h q.id
  let s := match q.beatAt r.beats (if r.kind = 2 then d else 0) g.lcyc with
    | some e => s.onGang t (fun g => g.foldSlips r ns arms e.1 e.2)
    | none => s
  let s := s.spoilBeats t h r ns g q
  match q.beatAt r.beats d g.lcyc with
  | some e => s.sendBeatDown t h r ns g q e.1 e.2
  | none => s

/-- The cycle at which a member's beat is folded, by its arm (R347). -/
def Tree.foldsAt (r : Tree) (d : Nat) (a : Arm) (b : TreeBeat) : Nat := r.foldCycle d a.c a.s0 b.seg + b.beat

/-- The beats of a tree that are at a node or come to it in a cycle: a beat that comes while the node holds 256 is not taken, as if
it had not been posted; of those that come together the lower tiles go first (R363; DESIGN CHOICE, log 17). -/
def Gang.nodeLimit (g : Gang) (h : Nat) (r : Tree) (ns : List TreeNode) (d : Nat) : Gang :=
  let all := (g.arms h).flatMap (fun e => (e.2.beats.filter (fun b => b.off == 0)).map (fun b => (e, b)))
  let new := all.filter (fun e => e.2.arrive == g.lcyc)
  new.foldl (fun g e =>
    let node := r.takes ns e.1.2.mi
    let held := (g.arms h).flatMap (fun f => if r.takes ns f.2.mi = node then f.2.beats.filter (fun b =>
      b.off == 0 && g.lcyc ≤ r.foldsAt d f.2 b && (b.arrive < g.lcyc || (b.arrive == g.lcyc && f.1 < e.1.1))) else [])
    if held.length < 256 then g
    else g.onTile e.1.1 (fun x => x.onArms (fun a => a.handle == h && a.s0 == e.1.2.s0 && a.issue == e.1.2.issue) (fun a =>
      { a with beats := a.beats.filter (fun b => !(b.seg == e.2.seg && b.beat == e.2.beat)) }))) g

/-- TREE_FOLD: the folds of a gang's trees in this cycle. -/
def State.foldTree (s : State) (t h : Nat) (r : Tree) : State :=
  match s.gang t with
  | none => s
  | some g =>
    if r.frozen then s
    else
      let ns := r.nodes
      let g := g.nodeLimit h r ns (s.cfg.topDelay g ns)
      let s := (s.onGang t (fun _ => g)).openRanges t h r ns g
      match s.gang t, find? s.trees h with
      | some g, some r => (r.ranges.filter (fun q => q.task == t)).foldl (fun s q => s.foldRange t h r ns g q) s
      | _, _ => s

def execTreeFold (s : State) : Outcome :=
  let t := s.evTask
  .next ((s.trees.filter (fun e => e.2.users.contains t)).foldl (fun s e => s.foldTree t e.1 e.2) s)

/-! ### TREE_DELIVERY (R355, R358, R360, R369) -/

/-- The writes of a delivery under its TRECV; without one the beat is discarded, a fault unless the arm differed from its
reference (R356, R358). -/
def State.landDelivery (s : State) (t h : Nat) (r : Tree) (d : Delivery) : State :=
  match s.gang t, r.ranges.find? (fun q => q.id == d.range) with
  | some g, some q =>
    (match g.tile d.gid with
     | none => s
     | some x =>
       let arm := x.arms.find? (fun a => a.handle == h && a.range == some q.id)
       match x.covers.find? (fun v => v.handle == h && v.seg == d.seg && v.issue < d.due) with
       | none =>
         if arm.any (·.bad) then s
         else s.onTile t d.gid (fun x => x.record 2 11 6 ((arm.map (·.addr)).getD (x.pcAt g.lcyc)) g.lcyc 0)
       | some v =>
         let ns := r.nodes
         let res := (r.asFolded q).resultBeat ns (g.rangeArms h q.id) q.spoiled
           (r.foldCycle (s.cfg.topDelay g ns) q.c q.s0 d.seg) d.seg d.beat
         let bs := if d.lost then poisonAll res.1 else res.1
         let o : Origin := { gid := d.gid, slot := 6, addr := v.addr, issue := v.issue, buf := v.buf }
         s.onGang t (fun g =>
           (linePieces (v.base + 64 * d.beat) bs.length).foldl (fun g p =>
             g.later o g.lcyc (.deliver h d.seg d.beat (res.2 ||| (if d.lost then recPOISON else 0))
               (.scratch d.gid (x.map (v.base + 64 * d.beat + p.1))) ((bs.drop p.1).take p.2))) g))
  | _, _ => s

/-- The deliveries of a gang that are due in this cycle become writes of the transfer port. -/
def State.landDeliveries (s : State) (t : Nat) : State :=
  match s.gang t with
  | none => s
  | some g =>
    s.trees.foldl (fun s e =>
      let now := e.2.out.filter (fun d => d.task == t && d.due ≤ g.lcyc)
      (now.foldl (fun s d => s.landDelivery t e.1 e.2 d) s).onTree e.1 (fun r =>
        { r with out := r.out.filter (fun d => !(d.task == t && d.due ≤ g.lcyc)) })) s

/-- A delivered beat at its tile: the sticky bits, NEXT, the beats that the TRECV has (R360). -/
def Tile.delivered (x : Tile) (h seg beat flags : Nat) : Tile :=
  let v := look { armed := true, sticky := 0, next := 0 } x.trees h
  let w : TreeStat := { v with sticky := v.sticky ||| flags / 2 % 16, next := max v.next (seg + 1) }
  { x with trees := setKey x.trees h w
           covers := x.covers.map (fun c => if c.handle = h ∧ c.seg = seg then { c with got := addNum c.got beat } else c) }

/-- The end of a range: its arms are complete and its slots unpinned; it keeps the membership that it was folded with (R355,
R364). -/
def State.completeRange (s : State) (t h : Nat) (q : TreeRange) (c : Nat) : State :=
  let s := s.onTree h (fun r => { r with ranges := r.ranges.map (fun p =>
    if p.id = q.id then { p with complete := some c, folded := some (r.members, r.edits) } else p) })
  match s.gang t with
  | none => s
  | some g =>
    let mine := (g.arms h).filter (fun e => e.2.range == some q.id)
    (s.onGang t (fun g => mine.foldl (fun g e => g.onTile e.1 (fun x =>
      x.onArms (fun a => a.range == some q.id && a.handle == h) (fun a => { a with live := false }))) g)).unpin h
      (fun p => p.1 == t && mine.any (fun e => e.1 == p.2.1 && e.2.s0 == p.2.2))

/-- The last delivery of a complete range has performed: its record goes to the serialiser with the completion cycle, the range is gone
(R60, R369). -/
def State.closeRange (s : State) (t h : Nat) (r : Tree) (q : TreeRange) : State :=
  match s.gang t with
  | none => s
  | some g =>
    let ns := r.nodes
    let arms := g.rangeArms h q.id
    let root := r.rootArm arms
    let rec_ := (r.asFolded q).record h ns arms (s.cfg.topDelay g ns) q (root.any (·.irq))
    let gid := (((g.arms h).find? (fun e => root == some e.2)).map (·.1)).getD (r.gidOf r.root)
    let s := s.onTree h (fun r => { r with ranges := r.ranges.filter (fun p => p.id != q.id) })
    let s := if root.any (·.cpl) then s.post (some q.task) (q.complete.getD g.lcyc) gid (s.tilePlace g gid) r.fn rec_ else s
    s.onGang t (fun g =>
      { g with tiles := g.tiles.map (fun e => (e.1,
          { e.2 with arms := e.2.arms.filter (fun a => !(a.handle == h && a.range == some q.id))
                     covers := e.2.covers.filter (fun v => !(v.handle == h &&
                       e.2.arms.any (fun a => a.handle == h && a.range == some q.id && a.holds v.seg))) })) })

/-- Whether every beat of a range has left the top node. -/
def TreeRange.emitted (q : TreeRange) (m d c : Nat) : Bool := q.c + q.n * m + d ≤ c

/-- The ranges of a tree that complete in this cycle, and those whose last delivery has performed (R355, R369). -/
def State.finishRange (s : State) (t h : Nat) (q : TreeRange) : State :=
  match s.gang t, find? s.trees h with
  | some g, some r =>
    let quiet := !r.out.any (fun d => d.range == q.id)
    let sent := q.emitted r.beats (s.cfg.topDelay g r.nodes) g.lcyc
    let s := if q.complete.isNone ∧ sent ∧ (r.kind = 0 ∨ quiet) then s.completeRange t h q g.lcyc else s
    match find? s.trees h with
    | some r =>
      (match r.ranges.find? (fun p => p.id == q.id) with
       | some p => if p.complete.isSome ∧ quiet then s.closeRange t h r p else s
       | none => s)
    | none => s
  | _, _ => s

/-- TREE_DELIVERY: the result beats of a tile that were served are written; ranges whose last delivery this was complete. -/
def execTreeDelivery (s : State) : Outcome :=
  let t := s.evTask
  let s := s.performGang (fun j => match j with
    | .deliver _ _ _ _ _ _ => true
    | _ => false) (fun g d => match d.job with
    | .deliver h seg beat fl p bs =>
      if bs.isEmpty then g else (g.stage d.o p bs).onTile d.o.gid (fun x => x.delivered h seg beat fl)
    | _ => g)
  let waits := match s.gang t with
    | some g => g.dues.any (fun d => match d.job with
      | .deliver _ _ _ _ _ _ => d.due ≤ g.lcyc
      | _ => false)
    | none => true
  .next (if waits then s
    else s.trees.foldl (fun s e => (e.2.ranges.filter (fun q => q.task == t)).foldl (fun s q => s.finishRange t e.1 q) s) s)

/-! ### Kill (R368) -/

/-- The rest of a segment that has begun at a member is written there, with the contributions as they stand. -/
def State.finishCover (s : State) (t h : Nat) (g : Gang) (r : Tree) (gid : Nat) (v : Cover) : State :=
  match (g.tile gid).bind (fun x => x.arms.find? (fun a => a.handle == h && a.range.isSome && a.holds v.seg)) with
  | none => s
  | some a =>
    match r.ranges.find? (fun q => some q.id == a.range) with
    | none => s
    | some q =>
      let ns := r.nodes
      let k := r.foldCycle (s.cfg.topDelay g ns) q.c q.s0 v.seg
      let r := r.asFolded q
      (List.range r.beats).foldl (fun s j =>
        if v.got.contains j then s
        else
          let bs := (r.resultBeat ns (g.rangeArms h q.id) q.spoiled k v.seg j).1
          s.onTile t gid (fun x => (linePieces (v.base + 64 * j) bs.length).foldl (fun x p =>
            x.storeScratch (x.map (v.base + 64 * j + p.1)) ((bs.drop p.1).take p.2)) x)) s

/-- The posts of a gang whose beats are not yet read, read as they stand: a kill ends them between two cycles. -/
def Gang.readPosts (g : Gang) (c : Cfg) (h : Nat) (r : Tree) : Gang :=
  let ns := r.nodes
  { g with tiles := g.tiles.map (fun e => (e.1, e.2.onArms (fun a => a.handle == h) (fun a =>
      let node := g.nodeEnd (nthD TreeNode.none ns (r.takes ns a.mi))
      { a with beats := a.beats ++ a.posts.flatMap (fun p => (List.range r.beats).flatMap (fun j =>
          if (a.beatAt p.seg j g.lcyc).isSome then []
          else [{ seg := p.seg, beat := j, off := 0, read := p.issue + 1 + j
                  arrive := p.issue + 1 + j + c.lambda g (g.endOf e.1) node
                  data := (linePieces (p.base + 64 * j) (min 64 (r.segSize - 64 * j))).flatMap (fun q =>
                    readP e.2.scratch e.2.scratchPoison (e.2.map (p.base + 64 * j + q.1)) q.2) }])) }))) }

/-- The tree traffic of a gang ends: begun segments are finished, slots unpinned, ranges dropped without records (R368). -/
def State.killTrees (s : State) (t : Nat) : State :=
  s.trees.foldl (fun s e =>
    match s.gang t with
    | none => s
    | some g =>
      if !e.2.users.contains t then s
      else
        let h := e.1
        let r := e.2
        let full := g.readPosts s.cfg h r
        let begun := g.tiles.flatMap (fun x => (x.2.covers.filter (fun v =>
          v.handle == h && !v.got.isEmpty && v.got.length < r.beats)).map (fun v => (x.1, v)))
        let s := begun.foldl (fun s v => s.finishCover t h full r v.1 v.2) s
        (s.onTree h (fun r => { r with ranges := r.ranges.filter (fun q => q.task != t), out := r.out.filter (fun d => d.task != t)
                                       users := delNum r.users t })).unpin h (fun p => p.1 == t)) s

/-- The ranges, deliveries and pins of an ended task are gone from every tree, whether its gang stood or was saved. -/
def State.forgetTrees (s : State) (t : Nat) : State :=
  s.trees.foldl (fun s e => s.unpin e.1 (fun p => p.1 == t))
    { s with trees := s.trees.map (fun e => (e.1,
        { e.2 with
          ranges := e.2.ranges.filter (fun q => q.task != t)
          out := e.2.out.filter (fun d => d.task != t)
          users := delNum e.2.users t })) }

/-! ### Agent instructions (R361 to R367) -/

/-- Statuses of R362. -/
def stNOHANDLE : Nat := 1
def stEXISTS : Nat := 2
def stLATE : Nat := 6
def stNOTFROZEN : Nat := 7

/-- n bytes of device memory at an address, none when it is misaligned, out of reach of the core or poisoned (R362). -/
def State.blockAt (s : State) (a align n : Nat) : Option (List Nat) :=
  if a % align ≠ 0 ∨ a / 2 ^ 46 ≠ 0 ∨ s.spaceOk s.me.lv s.me.afunc a n = false then none
  else
    let bs := s.devRead a n
    if anyPoison bs then none else some (bs.map (fun b => b.b.toNat))

/-- Little-endian field of a block. -/
def fieldOf (bs : List Nat) (off n : Nat) : Nat := leValue ((bs.drop off).take n)

/-- A pair of operator and format that is accepted (R344). -/
def treePairOk (op fmt kind : Nat) : Bool :=
  let mx : Bool := fmt == 5 || fmt == 6 || fmt == 7
  let plain : Bool := fmt == 0 || fmt == 1 || fmt == 2 || fmt == 10
  (mx || plain) && op ≤ 6 && kind ≤ 2 && (op == 6) == (kind == 2) && (plain || op == 0 || op == 6)

/-- The gang identities of a member list: primaries and alternates. -/
def memberGids (ws : List Nat) : List Nat := ws.flatMap (fun w => memGid w :: (memAlt w).toList)

/-- The tree of a creation block and its member list, none when the block is bad (R342 to R344, R363). -/
def treeOfBlock (b : List Nat) (ws : List Nat) : Option Tree :=
  let f := fieldOf b
  let r : Tree := { frozen := false, op := f 2 1, fmt := f 3 1, kind := f 4 1, wide := f 5 1 % 2 == 1, segu := f 6 2, root := f 12 2,
                    t := f 14 1, fn := f 15 1, save := f 24 8, saveSize := f 32 8, members := ws, edits := [], ranges := [],
                    out := [], users := [], next := 0 }
  let gids := memberGids ws
  let mx : Bool := r.fmt == 5 || r.fmt == 6 || r.fmt == 7
  if treePairOk r.op r.fmt r.kind = false ∨ 2 ≤ f 5 1 ∨ 4096 ≤ r.segu ∨ ws.length ≤ r.root ∨ r.t = 0 ∨ 32 < r.t
      ∨ (64 ≤ r.fn ∧ r.fn ≠ 255) ∨ r.save % 64 ≠ 0 ∨ (b.drop 40).any (· != 0) ∨ (mx ∧ r.segSize % r.groupSize ≠ 0)
      ∨ ws.any (fun w => bitsOf w 29 28 != 0 || bitsOf w 15 12 != 0) ∨ (dedupNat gids).length ≠ gids.length
      ∨ r.saveSize < 4096 + r.nodes.length * (16384 + r.segSize) then none
  else some r

/-- TREE.CREATE (R363): the status and, when it is made, the tree. -/
def State.createTree (s : State) (a : Nat) : Nat × Option (Nat × Tree) :=
  match s.blockAt a 64 64 with
  | none => (stBADBLOCK, none)
  | some b =>
    let h := fieldOf b 0 2
    if (find? s.trees h).isSome then (stEXISTS, none)
    else if 65535 < fieldOf b 8 4 then (stBADBLOCK, none)
    else
      match s.blockAt (fieldOf b 16 8) 64 (4 * (fieldOf b 8 4 + 1)) with
      | none => (stBADBLOCK, none)
      | some l =>
        match treeOfBlock b ((List.range (fieldOf b 8 4 + 1)).map (fun i => fieldOf l (4 * i) 4)) with
        | none => (stBADBLOCK, none)
        | some r => (stOK, some (h, r))

def execTreeCreate (d a : Nat) (s : State) : Outcome :=
  s.deviceLevel (fun s =>
    let s := s.flushAll s.coreId
    match s.createTree (s.me.reg a).toNat with
    | (_, some (h, r)) =>
      .next (({ s with trees := setKey s.trees h r } : State).finish d (BitVec.ofNat 64 (r.nodes.length * 2 ^ 32)))
    | (st, none) => .next (s.status d st))

/-- The gang of a task, running, frozen or saved in an image. -/
def State.anyGang (s : State) (t : Nat) : Option Gang := (s.task t).bind Task.anyGang

/-- The incomplete arms of a handle, with the gangs that hold them. -/
def State.liveArms (s : State) (h : Nat) : List (Gang × Arm) :=
  s.tasks.flatMap (fun e => match s.anyGang e.1 with
    | some g => ((g.arms h).filter (fun a => a.2.live)).map (fun a => (g, a.2))
    | none => [])

/-- A host-level core acts on its own function's trees alone (R361, R362). -/
def State.ownsTree (s : State) (r : Tree) : Bool := s.me.lv == 1 || r.fn == s.me.afunc

/-- The fields of an edit block: boundary and changes, none when it is bad (R364). -/
def editOfBlock (r : Tree) (b : List Nat) : Option (Nat × List (Nat × Bool)) :=
  let n := fieldOf b 8 2
  let ws := (List.range n).map (fun i => fieldOf b (16 + 4 * i) 4)
  if fieldOf b 2 2 ≠ 0 ∨ fieldOf b 10 6 ≠ 0 ∨ 2 ^ 24 ≤ fieldOf b 4 4 ∨ n = 0 ∨ 12 < n ∨ (b.drop (16 + 4 * n)).any (· != 0)
      ∨ ws.any (fun w => bitsOf w 30 16 != 0 || r.members.length ≤ w % 65536 || (w % 65536 == r.root && !bitAt w 31)) then none
  else some (fieldOf b 4 4, ws.map (fun w => (w % 65536, bitAt w 31)))

/-- Whether a node has folded a segment at or above a boundary (R364). -/
def State.folded (s : State) (r : Tree) (e : Nat) : Bool :=
  r.ranges.any (fun q => match s.anyGang q.task with
    | none => false
    | some g =>
      let c0 := q.c + (if r.kind = 2 then s.cfg.topDelay g r.nodes else 0)
      c0 < g.lcyc && e ≤ q.s0 + min (q.n - 1) ((g.lcyc - 1 - c0) / r.beats))

/-- TREE.EDIT (R364): the status and, when it is made, the tree. -/
def State.editTree (s : State) (b : List Nat) (h : Nat) (r : Tree) : Nat × Tree :=
  if s.ownsTree r = false then (stNOTOWNED, r)
  else
    match editOfBlock r b with
    | none => (stBADBLOCK, r)
    | some (e, ch) =>
      let arms := s.liveArms h
      if (r.frozen = false ∧ arms ≠ []) ∨ r.edits.any (fun x => !x.reached) then (stBUSY, r)
      else if r.frozen ∧ s.folded r e then (stLATE, r)
      else
        let x : TreeEdit := { at_ := e, changes := ch, reached := arms.any (fun a => e < a.2.s0 + a.2.n) }
        (stOK, { r with edits := r.edits ++ [x] })

def execTreeEdit (d a : Nat) (s : State) : Outcome :=
  let s := s.flushAll s.coreId
  match s.blockAt (s.me.reg a).toNat 64 64 with
  | none => .next (s.status d stBADBLOCK)
  | some b =>
    let h := fieldOf b 0 2
    match find? s.trees h with
    | none => .next (s.status d stNOHANDLE)
    | some r =>
      let v := s.editTree b h r
      .next ((s.onTree h (fun _ => v.2)).status d v.1)

/-- TREE.ALT (R365): the status and the tree. -/
def State.altTree (s : State) (h i : Nat) (alt : Option Nat) (r : Tree) : Nat × Tree :=
  if s.ownsTree r = false then (stNOTOWNED, r)
  else if r.frozen = false ∧ s.liveArms h ≠ [] then (stBUSY, r)
  else if r.members.length ≤ i ∨ alt.any (fun g => (memberGids r.members).contains g) then (stBADBLOCK, r)
  else
    let w := nthD 0 r.members i
    let v := memGid w + (if memAct w then 2 ^ 30 else 0) + (match alt with
      | some g => 2 ^ 31 + g * 2 ^ 16
      | none => 0)
    (stOK, { r with members := r.members.set i v })

def execTreeAlt (d a b : Nat) (s : State) : Outcome :=
  let x := (s.me.reg a).toNat
  let y := (s.me.reg b).toNat
  match find? s.trees (x % 65536) with
  | none => .next (s.status d stNOHANDLE)
  | some r =>
    let v := s.altTree (x % 65536) (bitsOf x 31 16) (if bitAt y 12 then some (y % 4096) else none) r
    .next ((s.onTree (x % 65536) (fun _ => v.2)).status d v.1)

/-- A gang is held: it is frozen, or its image is saved (R366). -/
def Gang.isHeld (g : Gang) : Bool :=
  match g.run with
  | .running => false
  | _ => true

/-- TREE.FREEZE: the tree's items are saved in the save area, in a layout of the device's own, and its slots released
(R341, R366; DESIGN CHOICE, log 17). -/
def State.freezeTree (s : State) (h : Nat) (r : Tree) : State :=
  let n := 4096 + r.nodes.length * (16384 + r.segSize)
  let s := s.devWrite r.save (clean ((upFrom (s.wall * 2 ^ 40) n).map Config.treeByte))
  (s.dropSlots h).onTree h (fun r => { r with frozen := true })

def execTreeFreeze (d a : Nat) (s : State) : Outcome :=
  s.deviceLevel (fun s =>
    let h := (s.me.reg a).toNat % 65536
    match find? s.trees h with
    | none => .next (s.status d stNOHANDLE)
    | some r =>
      if r.frozen ∨ (s.liveArms h).any (fun e => !e.1.isHeld) then .next (s.status d stBUSY)
      else .next ((s.freezeTree h r).status d stOK))

/-- The slots of the routers of one arm, refilled where the handle is missing; none when a quota is all pinned (R355, R366). -/
def State.refillPath (s : State) (g : Gang) (h : Nat) (ends : List Nat) : Option State :=
  ends.foldl (fun acc n => acc.bind (fun s => if (s.slotOf g n h).isSome then some s else s.refill g n h)) (some s)

/-- TREE.THAW: the slots of the new placement are refilled and pinned; none, and nothing is changed, when they cannot be (R362,
R366). -/
def State.thawTree (s : State) (h : Nat) (r : Tree) : Option State :=
  let arms := r.users.flatMap (fun t => match s.gang t with
    | none => []
    | some g => ((g.arms h).filter (fun e => e.2.live && e.2.pinned)).map (fun e => (t, g, e)))
  arms.foldl (fun acc e => acc.bind (fun s =>
    (s.refillPath e.2.1 h (e.2.1.armEnds r e.2.2.2.mi)).map (fun s => s.pinArm e.1 e.2.2.1 e.2.1 r h e.2.2.2)))
    (some (s.onTree h (fun r => { r with frozen := false })))

/-- The tasks whose gangs use a tree: those with incomplete arms. -/
def State.treeUsers (s : State) (h : Nat) : List Nat :=
  (s.tasks.filter (fun e => match s.anyGang e.1 with
    | some g => (g.arms h).any (fun a => a.2.live)
    | none => false)).map (·.1)

def execTreeThaw (d a : Nat) (s : State) : Outcome :=
  s.deviceLevel (fun s =>
    let h := (s.me.reg a).toNat % 65536
    match find? s.trees h with
    | none => .next (s.status d stNOHANDLE)
    | some r =>
      if r.frozen = false ∨ (s.treeUsers h).any (fun t => (s.gang t).isNone) then .next (s.status d stNOTFROZEN)
      else match s.thawTree h r with
        | some s => .next (s.status d stOK)
        | none => .next (s.status d stBUSY))

/-- Whether the tree-arm list of a running or frozen task names a handle (R367). -/
def State.namesTree (s : State) (h : Nat) : Bool :=
  s.tasks.any (fun e =>
    let names (g : Gang) : Bool := g.tiles.any (fun x => x.2.armList.any (fun y => y.handle == h))
    match e.2.gang, e.2.image with
    | some g, _ => names g
    | none, some i => i.kind == 2 && names i.gang
    | none, none => false)

def execTreeDestroy (d a : Nat) (s : State) : Outcome :=
  s.deviceLevel (fun s =>
    let h := (s.me.reg a).toNat % 65536
    match find? s.trees h with
    | none => .next (s.status d stNOHANDLE)
    | some r =>
      if r.frozen ∨ s.liveArms h ≠ [] ∨ s.namesTree h then .next (s.status d stBUSY)
      else .next ((({ s with trees := dropKey s.trees h } : State).dropSlots h).status d stOK))

end Sys2Proof.Machine
end

