-- ==== Sys2Proof/Machine/AgentMemory.lean ====
section
/-! DEFINITION. The ordered accesses of an agent core, its atomics, its copy contexts and its waits (13 R249 to R257, 23 R386
to R393). -/
namespace Sys2Proof.Machine

/-! ### Blocks that an instruction of a core reads -/

/-- The bytes of a block at an agent address, the core's stores performed; none when it is misaligned, out of reach or
poisoned (DEDUCED, log 19). -/
def State.agentBlock (s : State) (a align n : Nat) : Option (List Nat) :=
  if a % align ≠ 0 ∨ s.spaceOk s.me.lv s.me.afunc a n = false then none
  else
    let bs := s.agentRead s.coreId a n
    if anyPoison bs then none else some (bs.map (fun b => b.b.toNat))

/-- BADBLOCK for a block of n bytes that could not be taken (R379, R431). -/
def State.badBlock (s : State) (d a n : Nat) : Outcome := .next ((s.noteAgent a n).status d stBADBLOCK)

/-- The state in which an event of a core happens: the turn is that core's. -/
def State.asCore (s : State) (c : Nat) (k : State → State) : State := { k { s with cur := .agent c } with cur := s.cur }

/-! ### LDA, STL, FENCE (R252, R253, R386, R387) -/

/-- The size of an LDA or STL. -/
def orderedSize (w : Nat) : Nat := if w = 1 then 8 else 4

/-- LDA: an aligned load; a core's loads perform in program order, so every later access comes after it (DEDUCED, log 9). -/
def execLda (d a c _scope w : Nat) (s : State) : Outcome :=
  let at_ := (s.me.reg a).toNat
  .next (if at_ % orderedSize w = 0 then s.agentLoad c at_ (orderedSize w) (fun s v => s.finish d (BitVec.ofNat 64 v))
    else s.exception 3 at_)

/-- STL: an aligned store; every earlier store of the core performs first, but at agent scope, which orders nothing that
another party observes (R252, R253). -/
def execStl (a b c scope w : Nat) (s : State) : Outcome :=
  let at_ := (s.me.reg a).toNat
  let n := orderedSize w
  if at_ % n = 0 ∧ s.spaceOk s.me.lv s.me.afunc at_ n then
    let s1 := if scope = 0 then s else s.flushAll s.coreId
    let s2 := (s1.agentStore s.coreId c at_ (pbytes n (s.me.reg b).toNat false)).cacheLine at_
    .next (s2.onMe (·.advance))
  else .next (s.exception 3 at_)

/-- FENCE: the stores of the classes in the mask perform before anything that follows (R252). -/
def execFence (m scope : Nat) (s : State) : Outcome :=
  let s1 := if scope = 0 then s else s.flush s.coreId (fun x => bitAt m x.cls)
  .next (s1.onMe (·.advance))

/-! ### AMO (R388) -/

/-- A record or word of device memory by its device address, raw. -/
def rawLoc (a : Nat) : DevLoc := { addr := a, ke := false, key := 0, dom := 0 }

/-- An AMO: only naturally aligned device memory; the old value returns, and a poisoned one raises cause 5. The operations are
numbered as those of ATOM; 11 is an arrival, a release, 12 a register (R288, R289, R379, R388). -/
def State.agentAtomic (s : State) (op d a b c : Nat) : Outcome :=
  let at_ := (s.me.reg a).toNat
  let n := if 11 ≤ op then 16 else 8
  if at_ % n ≠ 0 ∨ at_ / 2 ^ 46 ≠ 0 ∨ s.spaceOk s.me.lv s.me.afunc at_ n = false then .next (s.exception 3 at_)
  else
    let s1 := if op = 11 then s.flushAll s.coreId else s.beforeLoad s.coreId c at_ n
    let old := s1.devRead at_ n
    if anyPoison old then .next ((s1.noteAgent at_ n).exception 5 at_)
    else if 11 ≤ op then
      let r := s1.barrierAt (rawLoc at_) (if op = 11 then 2 else 0) ((s.me.reg b).toNat % 2 ^ 32) false
      .next (r.1.finish d (BitVec.ofNat 64 (r.2.1.gen + (if r.2.2 then 2 ^ 32 else 0))))
    else
      let v := atomValue op 8 (pval old) (s.me.reg b).toNat (s.me.reg d).toNat
      let s2 := if v.2.2 then s1.devWrite at_ (pbytes 8 v.1 false) else s1
      .next (s2.finish d (BitVec.ofNat 64 (pval old)))

def execAmoAdd (d a b c : Nat) (s : State) : Outcome := s.agentAtomic 0 d a b c
def execAmoAnd (d a b c : Nat) (s : State) : Outcome := s.agentAtomic 1 d a b c
def execAmoOr (d a b c : Nat) (s : State) : Outcome := s.agentAtomic 2 d a b c
def execAmoMaxn (d a b c : Nat) (s : State) : Outcome := s.agentAtomic 7 d a b c
def execAmoSwap (d a b c : Nat) (s : State) : Outcome := s.agentAtomic 8 d a b c
def execAmoCas (d a b c : Nat) (s : State) : Outcome := s.agentAtomic 9 d a b c
def execAmoArv (d a b c : Nat) (s : State) : Outcome := s.agentAtomic 11 d a b c
def execAmoBreg (d a b c : Nat) (s : State) : Outcome := s.agentAtomic 12 d a b c

/-! ### Engine contexts (R254, R255, R389) -/

/-- A context of a core. -/
def AgentCore.ctx (x : AgentCore) (i : Nat) : Ctx := look Ctx.reset x.ctxs i

def AgentCore.setCtx (x : AgentCore) (i : Nat) (v : Ctx) : AgentCore := { x with ctxs := setKey x.ctxs i v }

/-- The timeline of a context of which these operations are not complete. -/
def timeline (sub : Nat) : List Nat → Nat
  | [] => sub
  | n :: ns => min (n - 1) (timeline sub ns)

/-- The launches of a core whose tasks have not ended: their operation numbers (R389, R396). -/
def State.openLaunches (s : State) (c : Nat) : List Nat :=
  (s.tasks.filter (fun e => e.2.core == c && e.2.op != 0 && (match e.2.st with
    | .ended _ => false
    | _ => true))).map (fun e => e.2.op)

/-- The drains of a package that are not complete: their operation numbers (R389). -/
def State.openDrains (s : State) (p : Nat) : List Nat :=
  s.gens.flatMap (fun g => (g.ops.filter (fun e => e.1 == p)).map (·.2))

/-- CTXSUB: the operations submitted to a context (R383). -/
def State.ctxSub (s : State) (c i : Nat) : Nat :=
  if i = 15 then (s.pkg (c / 8)).drainSub else ((s.core c).ctx i).sub

/-- TLC: the timeline counter of a context (R254, R389). -/
def State.ctxTime (s : State) (c i : Nat) : Nat :=
  if i = 15 then timeline (s.ctxSub c 15) (s.openDrains (c / 8))
  else if i = 14 then timeline (s.ctxSub c 14) (s.openLaunches c)
  else timeline (s.ctxSub c i) (((s.core c).ctx i).ops.map (·.n))

/-- Whether a batch of a context is not complete (R255). -/
def Ctx.batchOpen (x : Ctx) (ns : List Nat) : Bool := ns.any (fun n => x.ops.any (fun o => o.n == n))

/-- The closed batches that are not complete (R255). -/
def Ctx.openBatches (x : Ctx) : Nat := (x.closed.filter x.batchOpen).length

/-! ### COPY (R390, R391) -/

/-- Whether all of n bytes from an agent address are in device or system space and within reach (R375, R376, R390). -/
def State.copyReach (s : State) (lv fn a n : Nat) : Bool :=
  a / 2 ^ 46 < 2 && s.spaceOk lv fn a n &&
    (a / 2 ^ 46 == 1 || (upFrom (frameOf a) (frameOf (a + n - 1) + 1 - frameOf a)).all (fun f =>
      s.devExists (f * 2 ^ 21) && (lv == 1 || s.frameOpen fn f)))

/-- The operation of a copy descriptor, none when it is bad (R390). -/
def State.copyOf (s : State) (b : List Nat) (n : Nat) : Option CopyOp :=
  let fl := fieldOf b 0x14 1
  let bar := fieldOf b 0x18 8
  let o : CopyOp := { n := n, dst := fieldOf b 0 8, src := fieldOf b 8 8, len := fieldOf b 0x10 4,
                      bar := if bitAt fl 0 then some bar else none, arv := bitAt fl 1, lv := s.me.lv, fn := s.me.afunc,
                      started := false, at_ := 0, refused := false }
  if 4 ≤ fl ∨ fl = 2 ∨ fieldOf b 0x15 3 ≠ 0 ∨ o.len = 0 ∨ s.copyReach o.lv o.fn o.dst o.len = false
      ∨ s.copyReach o.lv o.fn o.src o.len = false
      ∨ (bitAt fl 0 ∧ (bar % 16 ≠ 0 ∨ bar / 2 ^ 46 ≠ 0 ∨ s.spaceOk o.lv o.fn bar 16 = false)) then none
  else some o

/-- An operation enters its context and the open batch (R254, R255). -/
def Ctx.submit (x : Ctx) (o : CopyOp) : Ctx :=
  { x with sub := x.sub + 1, ops := x.ops ++ [o], openBatch := x.openBatch ++ [o.n] }

/-- COPY: a release of every earlier access; the descriptor is queued, or refused with a status (R389, R390). -/
def execCopy (d a b g n : Nat) (s : State) : Outcome :=
  s.guarded g n (fun s =>
    let s := s.flushAll s.coreId
    let i := (s.me.reg b).toNat % 16
    let x := s.me.ctx i
    if 14 ≤ i then .next (s.status d stDENIED)
    else
      match (s.agentBlock (s.me.reg a).toNat 1 32).bind (fun w => s.copyOf w (x.sub + 1)) with
      | none => s.badBlock d (s.me.reg a).toNat 32
      | some o => .next ((s.onMe (fun c => c.setCtx i (x.submit o))).finish d (BitVec.ofNat 64 (o.n * 2 ^ 32))))

/-- BATCH.CLOSE: the open batch closes and a new one opens (R255, R392). -/
def execBatchClose (d a g n : Nat) (s : State) : Outcome :=
  s.guarded g n (fun s =>
    let i := (s.me.reg a).toNat % 16
    let x := s.me.ctx i
    if 14 ≤ i then .next (s.status d stDENIED)
    else
      let y := { x with openBatch := [], closed := x.closed.filter x.batchOpen ++ [x.openBatch] }
      .next ((s.onMe (fun c => c.setCtx i y)).status d stOK))

/-- One aligned eight bytes of a copy, or the part of them that it covers: copied when both sides are within reach as it
performs (R391). -/
def State.copyPiece (s : State) (c : Nat) (o : CopyOp) (at_ n : Nat) : State × Bool :=
  if s.copyReach o.lv o.fn (o.dst + at_) n ∧ s.copyReach o.lv o.fn (o.src + at_) n then
    ((s.noteAgent (o.src + at_) n).agentWrite c (o.dst + at_) (s.agentRead c (o.src + at_) n), false)
  else (s, true)

/-- The pieces of a copy from an offset up to another, each within an aligned eight bytes of the destination. -/
def State.copyPieces (s : State) (c : Nat) (o : CopyOp) : Nat → Nat → Nat → State × Bool
  | 0, _, _ => (s, o.refused)
  | k + 1, at_, stop =>
    if stop ≤ at_ then (s, o.refused)
    else
      let n := min (8 - (o.dst + at_) % 8) (stop - at_)
      let r := s.copyPiece c o at_ n
      let q := r.1.copyPieces c o k (at_ + n) stop
      (q.1, q.2 || r.2)

/-- The beats that a copy registers (R390). -/
def CopyOp.beats (o : CopyOp) : Nat := ceilDiv o.len 64

/-- A copy that is complete: its context counts a refusal, and the function's queue takes a record of it (R391). -/
def State.copyEnds (s : State) (c i : Nat) (o : CopyOp) : State :=
  let x := s.core c
  let v := x.ctx i
  let ops := v.ops.filter (fun p => p.n != o.n)
  let w := if o.refused then { v with ops := ops, errCount := min (2 ^ 32 - 1) (v.errCount + 1), errOpn := o.n % 2 ^ 32 }
           else { v with ops := ops }
  let s := s.setCore c (x.setCtx i w)
  if o.refused then
    s.post none 0 0 (corePlace c) o.fn { kind := 5, status := 8, id := o.n % 2 ^ 32, osig := 0, ltime := 0, wtime := 0, flags := i + 16 * (c % 8), raw := none }
  else s

/-- The barrier updates after the last byte of a copy (R390). -/
def State.copyBeats (s : State) (o : CopyOp) : State :=
  match o.bar with
  | none => s
  | some a =>
    let s := (s.barrierAt (rawLoc a) 1 o.beats false).1
    if o.arv then (s.barrierAt (rawLoc a) 2 1 false).1 else s

/-- An operation of a context changed. -/
def State.onCopy (s : State) (c i n : Nat) (f : CopyOp → CopyOp) : State :=
  let x := s.core c
  let v := x.ctx i
  s.setCore c (x.setCtx i { v with ops := v.ops.map (fun o => if o.n = n then f o else o) })

/-- An engine goes on with a copy: its barrier register, then its bytes up to the next line of the destination, then its
completion (R390). -/
def State.copyStep (s : State) (c i : Nat) (o : CopyOp) : State :=
  if !o.started then
    (match o.bar with
     | none => s.onCopy c i o.n (fun o => { o with started := true })
     | some a =>
       let r := s.barrierAt (rawLoc a) 0 o.beats false
       if r.2.2 then r.1.copyEnds c i { o with refused := true } else r.1.onCopy c i o.n (fun o => { o with started := true }))
  else if o.at_ < o.len then
    let stop := min o.len (o.at_ + (64 - (o.dst + o.at_) % 64))
    let r := s.copyPieces c o 9 o.at_ stop
    r.1.onCopy c i o.n (fun o => { o with at_ := stop, refused := r.2 })
  else (s.copyBeats o).copyEnds c i o

/-- COPY_COMPLETE: the engine goes on with one of the copies of a context, and completes it when nothing of it is left; the
copies of one context complete in any order (R390; DESIGN CHOICE, log 1). -/
def execCopyComplete (s : State) : Outcome :=
  let c := s.arg 0
  let i := s.arg 1
  let ops := ((s.core c).ctx i).ops
  let r := s.choose ops.length
  .next (match ops[r.1]? with
    | none => s
    | some o => r.2.copyStep c i o)

/-! ### Waits (R254 to R256, R392, R393) -/

/-- WAITA: the core waits for a write of a line (R393). -/
def execWaita (d a b g n : Nat) (s : State) : Outcome :=
  s.guarded g n (fun s =>
    let at_ := (s.me.reg a).toNat
    let line := alignDown at_ 64
    let lim := (s.me.reg b).toNat
    if s.spaceOk s.me.lv s.me.afunc line 64 then
      .next (s.onMe (fun x => { x with wait := some (.line line (if lim = 0 then none else some lim) s.wall false d) }))
    else .next (s.exception 3 at_))

/-- WAITT: the core waits for a timeline, or learns at once that the operation was not submitted (R254, R392). -/
def execWaitt (d a b g n : Nat) (s : State) : Outcome :=
  s.guarded g n (fun s =>
    let i := (s.me.reg a).toNat % 16
    let n := (s.me.reg b).toNat
    if s.ctxSub s.coreId i < n then .next (s.status d stNOTSUBMITTED)
    else .next (s.onMe (fun x => { x with wait := some (.timeline i n d) })))

/-- WAITB: the core waits until few enough closed batches are incomplete (R255, R392). -/
def execWaitb (d a b g n : Nat) (s : State) : Outcome :=
  s.guarded g n (fun s =>
    let i := (s.me.reg a).toNat % 16
    if 14 ≤ i then .next (s.status d stDENIED)
    else .next (s.onMe (fun x => { x with wait := some (.batches i (s.me.reg b).toNat d) })))

/-- A wait of the core whose turn it is ends with a status. -/
def State.endWait (s : State) (d st : Nat) : State := (s.onMe (fun x => { x with wait := none })).status d st

/-- How the wait of a core may end now: 1 its line was written, 2 its time is over, 3 its timeline is reached, 4 its batches
are complete; 0 it goes on. -/
def State.waitOver (s : State) (c : Nat) : Nat :=
  match (s.core c).wait with
  | some (.line _ lim since hit _) =>
    if hit then 1
    else match lim with
      | some l => if since + l ≤ s.wall then 2 else 0
      | none => 0
  | some (.timeline i n _) => if n ≤ s.ctxTime c i then 3 else 0
  | some (.batches i n _) => if ((s.core c).ctx i).openBatches ≤ n then 4 else 0
  | none => 0

/-- The register that a wait writes. -/
def Wait.dest (w : Wait) : Nat :=
  match w with
  | .line _ _ _ _ d => d
  | .timeline _ _ d => d
  | .batches _ _ d => d

/-- A wait of the core of the event ends when it may. -/
def State.returnWait (s : State) (why st : Nat) : State :=
  let c := s.arg 0
  match (s.core c).wait with
  | none => s
  | some w => if s.waitOver c = why then s.asCore c (fun s => s.endWait w.dest st) else s

/-- WAITA_RETURN, WAITA_TIMEOUT, WAITT_RETURN, WAITB_RETURN (R254, R255, R393). -/
def execWaitaReturn (s : State) : Outcome := .next (s.returnWait 1 stOK)
def execWaitaTimeout (s : State) : Outcome := .next (s.returnWait 2 stTIMEOUT)
def execWaittReturn (s : State) : Outcome := .next (s.returnWait 3 stOK)
def execWaitbReturn (s : State) : Outcome := .next (s.returnWait 4 stOK)

end Sys2Proof.Machine
end

