-- ==== Sys2Proof/Machine/Images.lean ====
section
/-! DEFINITION. Task images: header, section table, sections, their checks, and the tiles of a gang as an image starts them
(01 R16 to R21, 05 R140 to R143, 13 R231, R237, R238, 15 R280, 21 R353, 25 R419, 27 R452). Sections whose layout the spec does
not give have the layouts of log 6 (DESIGN CHOICE). -/
namespace Sys2Proof.Machine

/-! ### Bytes of an image -/

/-- n bytes from an address of a memory whose listed addresses are not below it. -/
def takeRange : List Host.Cell → Nat → Nat → List Byte
  | _, _, 0 => []
  | [], a, n + 1 => emptyByte :: takeRange [] (a + 1) n
  | (k, v) :: m, a, n + 1 =>
    if k = a then v :: takeRange m (a + 1) n
    else if a < k then emptyByte :: takeRange ((k, v) :: m) (a + 1) n
    else emptyByte :: takeRange m (a + 1) n

/-- n bytes of device memory that are there and sound, none otherwise. -/
def State.soundBytes (s : State) (a n : Nat) : Option (List Nat) :=
  if s.devExists a = false ∨ s.devExists (a + n - 1) = false ∨ a / 2 ^ 36 ≠ (a + n - 1) / 2 ^ 36
      ∨ s.devPoison.any (fun w => a < 4 * w + 4 && 4 * w < a + n) ∨ s.devBad.any (fun w => a < 4 * w + 4 && 4 * w < a + n) then none
  else some ((takeRange (s.dev.dropWhile (fun e => e.1 < a)) a n).map (·.toNat))

/-! ### Header and section table (R140 to R142) -/

/-- An entry of the section table. -/
structure Sect where
  type : Nat
  gid : Nat
  off : Nat
  len : Nat
deriving DecidableEq, Repr

/-- An image as it lies in memory. -/
structure ImageView where
  bytes : List Nat
  p : Nat
  t : Nat
  agent : Bool
  sects : List Sect
deriving DecidableEq, Repr

/-- The section table of an image. -/
def imageSects (b : List Nat) : List Sect :=
  (List.range (fieldOf b 0x0A 2)).map (fun i =>
    { type := fieldOf b (64 + 16 * i) 2, gid := fieldOf b (68 + 16 * i) 2, off := fieldOf b (72 + 16 * i) 4,
      len := fieldOf b (76 + 16 * i) 4 })

/-- The header is as R140 has it, for a stepping; an agent image has no gang, and its P and T may be 0 (DESIGN CHOICE, log 6). -/
def headerOk (b : List Nat) (stepping : Nat) : Bool :=
  let fl := fieldOf b 0x0C 4
  fieldOf b 0 4 == 0x4938534A && fieldOf b 4 2 == 1 && fieldOf b 6 2 == stepping && fl < 2 && fieldOf b 0x26 2 == 0
    && fieldOf b 0x30 16 == 0 && fieldOf b 0x28 8 == b.length && 64 + 16 * fieldOf b 0x0A 2 ≤ b.length
    && (fl == 1 || (1 ≤ fieldOf b 8 1 && 1 ≤ fieldOf b 9 1)) && fieldOf b 8 1 ≤ 128 && fieldOf b 9 1 ≤ 32
    && fieldOf b 0x20 4 % 64 == 0 && fieldOf b 0x20 4 ≤ 2 ^ 21 && fieldOf b 0x24 2 ≤ 512

/-- The section table has no reserved field set, no type or identity out of range, no entry twice (R141, R142). -/
def tableOk (b : List Nat) (n : Nat) : Bool :=
  let ss := imageSects b
  (List.range ss.length).all (fun i => fieldOf b (66 + 16 * i) 2 == 0 && fieldOf b (70 + 16 * i) 2 == 0)
    && ss.all (fun x => 1 ≤ x.type && x.type ≤ 12 && (x.gid == 0xFFFF || x.gid < n) && x.off % 64 == 0 && x.off + x.len ≤ b.length
        && (x.gid == 0xFFFF || (x.type != 4 && x.type != 6 && x.type != 11)))
    && (dedupNat (ss.map (fun x => x.type * 65536 + x.gid))).length == ss.length

/-- The image of these bytes. -/
def imageView (b : List Nat) : ImageView :=
  { bytes := b, p := fieldOf b 8 1, t := fieldOf b 9 1, agent := fieldOf b 0x0C 4 == 1, sects := imageSects b }

/-- The gang size (R18). -/
def ImageView.size (v : ImageView) : Nat := v.p * v.t

/-- The bytes of a section. -/
def ImageView.body (v : ImageView) (x : Sect) : List Nat := (v.bytes.drop x.off).take x.len

/-- The bytes of a type that a tile takes: its own entry, else the gang's (R142). -/
def ImageView.section (v : ImageView) (type gid : Nat) : Option (List Nat) :=
  match v.sects.find? (fun x => x.type == type && x.gid == gid) with
  | some x => some (v.body x)
  | none => (v.sects.find? (fun x => x.type == type && x.gid == 0xFFFF)).map v.body

/-- The numbers of a section, k bytes each. -/
def numbers (k : Nat) (b : List Nat) : List Nat := (chunks k (b.length / k) b).map leValue

/-! ### Sections (R142) -/

/-- A ring descriptor as RINGD shows it (R168; DESIGN CHOICE, log 6). -/
def ringOf (w : Nat) : Ring := { base := bitsOf w 6 0, size := bitsOf w 14 8 + 1, head := bitsOf w 22 16, tail := bitsOf w 30 24 }

def ringOk (w : Nat) : Bool :=
  let r := ringOf w
  !bitAt w 7 && !bitAt w 15 && !bitAt w 23 && w < 2 ^ 31 && [1, 2, 4, 8, 16, 32, 64, 128].contains r.size && r.base + r.size ≤ 128
    && r.head < r.size && r.tail < r.size

/-- An entry of the channel table (R280). -/
def chanOf (w : Nat) : Chan :=
  { mode := bitsOf w 63 62, esz := bitsOf w 61 59, depth := bitsOf w 58 54, peer := bitsOf w 52 41, pch := bitsOf w 40 35,
    first := bitsOf w 34 27, per := bitsOf w 26 23, lat := bitsOf w 22 12 }

def chanOk (w : Nat) : Bool :=
  bitsOf w 63 62 != 3 && bitsOf w 61 59 < 6 && !bitAt w 53 && bitsOf w 26 23 < 9 && bitsOf w 11 0 == 0

/-- An entry of the tree-arm list: 16 bytes as one number (R353). -/
def armOf (w : Nat) : ArmEntry :=
  { handle := bitsOf w 15 0, cpl := bitAt w 16, irq := bitAt w 17, count := bitsOf w 63 32 + 1, coff := bitsOf w 95 64 }

def armOk (h w : Nat) : Bool := bitsOf w 31 18 == 0 && bitsOf w 63 32 < 65536 && bitsOf w 127 96 == 0 && h + 1 ≤ bitsOf w 95 64

/-- A segment signature (R419). -/
def sigOf (w : Nat) : SegSig := { count := bitsOf w 31 0, crc := bitsOf w 63 32, nocrc := bitAt w 64 }

def sigOk (w : Nat) : Bool := bitsOf w 127 65 == 0

/-- The fields of a translation entry that an image may set (R237, R238). -/
def entryOk (p w : Nat) : Bool :=
  bitsOf w 127 120 == 0 && bitsOf w 81 67 == 0 && bitsOf w 63 59 == 0 && bitsOf w 53 0 == 0 && bitsOf w 91 85 < p
    && (!bitAt w 92 || bitsOf w 101 93 == 0)

/-- A scratch initialiser: offset, bytes (DESIGN CHOICE, log 6). -/
def initsOf : Nat → List Nat → List (Nat × List Nat)
  | 0, _ => []
  | n + 1, b =>
    if b.length < 8 then []
    else
      let len := fieldOf b 4 4
      (fieldOf b 0 4, (b.drop 8).take len) :: initsOf n (b.drop (8 + alignDown (len + 7) 8))

/-- The bytes of the design widths at the head of the slot-table section: twelve for each logical package, padded to eight (R452;
DESIGN CHOICE, log 6). -/
def widthBytes (p : Nat) : Nat := alignDown (12 * p + 7) 8

/-- The output ports of a router of the image: five of a mesh router, two of the die-to-die router, fourteen of a package router
(R450, R451; DESIGN CHOICE, log 6). -/
def routerPorts (router : Nat) : Nat :=
  if router % 128 = 40 then 2 else if router % 128 = 41 then 14 else 5

/-- A record of the slot-table section: an entry's fields of the ports that the router does not have are 0xF (R452). -/
def routerOk (r : List Nat) : Bool :=
  (numbers 8 (r.drop 8)).all (fun e => e / 16 ^ routerPorts (fieldOf r 0 8) == 16 ^ (16 - routerPorts (fieldOf r 0 8)) - 1)

/-- The bytes of the slot mask section before its quotas: the mask of slot-table entries, the placements, the stack slots (R18, R19,
R453; DESIGN CHOICE, log 6). -/
def quotaStart (b : List Nat) : Nat := 48 + alignDown (fieldOf b 32 4 + 7) 8

/-- A tree-slot quota lies within the 64 slots of its router (R355). -/
def quotaOk (w : Nat) : Bool := bitsOf w 47 32 + bitsOf w 63 48 ≤ 64

/-- A section's content is in order: its length, its reserved fields (R142, R143). -/
def sectionOk (p h size type : Nat) (b : List Nat) : Bool :=
  match type with
  | 1 => b.length % 4 == 0 && b.length ≤ 2 ^ 18
  | 2 => b.length == 512 * 32
  | 3 => b.length == 128 && (numbers 8 b).all ringOk
  | 4 => widthBytes p ≤ b.length && (b.length - widthBytes p) % 4104 == 0 && (b.take (12 * p)).all (· ≤ 16)
      && ((b.drop (12 * p)).take (widthBytes p - 12 * p)).all (· == 0)
      && (chunks 4104 ((b.length - widthBytes p) / 4104) (b.drop (widthBytes p))).all routerOk
  | 5 => b.length == 512 && (numbers 8 b).all chanOk
  | 6 => b.length % 16 == 0 && b.length ≤ 65536 && (numbers 16 b).all (entryOk p)
  | 7 => b.length % 16 == 0 && b.length ≤ 65536 && (numbers 16 b).all (armOk h)
  | 8 => b.length % 16 == 0 && b.length ≤ 2 ^ 20 && (numbers 16 b).all sigOk
  | 9 => b.length % 4 == 0 && (numbers 4 b).all (fun o => o % 4 == 0 && o < 2 ^ 18)
  | 10 => (initsOf b.length b).all (fun e => e.1 + e.2.length ≤ size)
  | 11 => 48 ≤ b.length && fieldOf b 36 4 == 0 && fieldOf b 40 8 < 2 ^ 36 && quotaStart b ≤ b.length
      && (b.length - quotaStart b) % 8 == 0 && (numbers 8 (b.drop (quotaStart b))).all quotaOk
  | _ => true

/-- The hold horizon of a gang (R43). -/
def horizonOf (p : Nat) : Nat := if p = 1 then 256 else 4096

/-- The checks of R143 on an image's own bytes. -/
def imageOk (b : List Nat) (stepping : Nat) : Bool :=
  let v := imageView b
  headerOk b stepping
    && tableOk b v.size
    && (if v.agent then v.sects.length == 1 && v.sects.all (fun x => x.type == 1 && x.gid == 0xFFFF && x.len % 4 == 0)
        else v.sects.all (fun x => sectionOk v.p (horizonOf v.p) (fieldOf b 0x20 4) x.type (v.body x))
          && (List.range v.size).all (fun g => (v.section 1 g).isSome && (v.section 2 g).isSome))

/-! ### Checks at launch (R238, R280, R353) -/

/-- The entries of the translation section in order. -/
def ImageView.entries (v : ImageView) : List Nat := numbers 16 ((v.section 6 0xFFFF).getD [])

/-- The address range of an entry: first page of 2 MiB, number of them. -/
def entryPages (e : Nat) : Nat × Nat := (bitsOf e 119 93, if bitAt e 92 then 512 else 1)

/-- No two valid entries overlap (R238). -/
def entriesApart : List Nat → Bool
  | [] => true
  | e :: es =>
    let a := entryPages e
    (!xlValid e || es.all (fun f =>
      let b := entryPages f
      !xlValid f || a.1 + a.2 ≤ b.1 || b.1 + b.2 ≤ a.1)) && entriesApart es

/-- The channel table of a tile, entries in use only. -/
def ImageView.chans (v : ImageView) (gid : Nat) : List (Nat × Chan) :=
  ((List.range 64).zip ((numbers 8 ((v.section 5 gid).getD [])).map chanOf)).filter (fun e => e.2.mode != 0)

/-- The two ends of a channel agree (R280). -/
def chanPaired (gid ch : Nat) (a : Chan) (b : Option Chan) : Bool :=
  match b with
  | none => false
  | some b => b.mode == 3 - a.mode && b.peer == gid && b.pch == ch && b.esz == a.esz && b.first == a.first && b.per == a.per
      && b.lat == a.lat

/-- The channel tables are in order over the gang (R280). -/
def ImageView.chansOk (v : ImageView) : Bool :=
  let all := (List.range v.size).map (fun g => (g, v.chans g))
  all.all (fun e =>
    sumOf (e.2.map (fun c => (c.2.depth + 1) * c.2.size)) ≤ 32768
      && e.2.all (fun c => c.2.peer < v.size && chanPaired e.1 c.1 c.2 (find? (look [] all c.2.peer) c.2.pch)))

/-- The tree-arm list of a tile (R353). -/
def ImageView.arms (v : ImageView) (gid : Nat) : List ArmEntry := (numbers 16 ((v.section 7 gid).getD [])).map armOf

/-- The handles of tree-arm lists are live, of the function and of the image's T (R353). -/
def State.armsOk (s : State) (fn t : Nat) (arms : List ArmEntry) : Bool :=
  arms.all (fun a => match find? s.trees a.handle with
    | none => false
    | some r => r.fn == fn && r.t == t)

/-- The placements that an image lists; entry 0 when it has no such section (R18; DESIGN CHOICE, log 6). -/
def ImageView.places (v : ImageView) : List Nat :=
  match v.section 11 0xFFFF with
  | none => [0]
  | some b => (b.drop 48).take (fieldOf b 32 4)

/-- The slot-table entries that an image owns, one bit each (R19, R135). -/
def ImageView.mask (v : ImageView) : Nat := fieldOf ((v.section 11 0xFFFF).getD []) 0 32

/-- The slots of each stack that an image owns, one bit each (R402, R453; DESIGN CHOICE, log 6). -/
def ImageView.stackMask (v : ImageView) : Nat := fieldOf ((v.section 11 0xFFFF).getD []) 40 8

/-- An image may be launched for a function (R143, R238, R280, R353, R401). -/
def State.launchable (s : State) (fn place : Nat) (b : List Nat) : Bool :=
  let v := imageView b
  imageOk b s.cfg.stepping && !v.agent && entriesApart v.entries && v.chansOk
    && (List.range v.size).all (fun g => s.armsOk fn v.t (v.arms g))
    && (place == 0xFF || v.places.contains place)

/-- The bytes of the image at a device address, none when it is not readable there (R140, R394). -/
def State.imageAt (s : State) (a : Nat) : Option (List Nat) :=
  match s.soundBytes a 64 with
  | none => none
  | some h => if fieldOf h 0x28 8 < 64 ∨ 2 ^ 36 < fieldOf h 0x28 8 then none else s.soundBytes a (fieldOf h 0x28 8)

/-! ### A gang at cycle 0 (R20, R21) -/

/-- A nest set at task start (R305). -/
def NestSet.start : NestSet :=
  { mxc0 := 0, mxc1 := 0, mxc2 := 0, levels := [], kind := 0, a := 0, b := 0, c := 0, ag := 0, rows := [] }

/-- WSIZE of an allocation (R231). -/
def windowSize (size : Nat) : Nat := 2 ^ max 6 (bitLen (size - 1))

/-- A table of the values of a list, those other than the default. -/
def tableOf {α : Type} [DecidableEq α] (d : α) (xs : List α) : Tbl α :=
  ((List.range xs.length).zip xs).filter (fun e => e.2 ≠ d)

/-- A tile without anything of an image (R21); QBOUND and DRNLIM are the physical tile's (R57). -/
def Tile.start (gid qbound drnlim : Nat) : Tile :=
  { gid := gid, s := [], p := [], m := [], v := [], rings := [], vct := [], xp := [], chans := [], fifos := [], kbind := [],
    pc := 0, base := 0, last := -1, issuedAt := 0, sticky := [], loops := [], jbase := 0, syncs := [], active := none, late := -1, wait := none,
    halted := none, trapped := none, quietAt := 0, quietWas := none, overdue := none, code := [], codeLen := 0, badWords := [], dmr := 4, fstatus := 0,
    fmtr := 0, seed := 0, estm := 0, qbound := qbound, drnlim := drnlim, fault := FaultRec.empty, grow := 0, fstat := 0, perm := [], quietMap := [],
    regions := [], depth := 0, mg := 0, pmc := [], pmcev := [], brd := [], bwr := [], bhc := [], hc := [], segBase := 0,
    segCrc := crcStart, trees := [], arms := [], covers := [], armList := [], segs := [], prim := [], shadow := [], scratch := [],
    scratchPoison := [], size := 0, wsize := 64, sbase := 0, acc := [], accPoison := [], groups := [], accBound := 0, mxc3 := 0,
    nestShadow := NestSet.start, nestPending := none, nest := none, factor := none, unitTo := none, accPath := none, agUse := [],
    gatherPort := none, saccs := [], dEnds := [], busyTo := -1, addrTo := -1, bpa := [], wr := [], now := Cycle.fresh 0 }

/-- The scratch memory of a tile's initialisers (R231). -/
def initScratch (inits : List (Nat × List Nat)) : List Host.Cell :=
  inits.foldl (fun m e => writeBytes m e.1 (e.2.map (BitVec.ofNat 8))) []

/-- A tile of a gang as an image starts it, with the translation table of the gang and its estimate (R21, R57, R238). -/
def ImageView.tile (v : ImageView) (gid estm : Nat) (table : Tbl Nat) (limits : Nat × Nat) : Tile :=
  let code := numbers 4 ((v.section 1 gid).getD [])
  let size := fieldOf v.bytes 0x20 4
  { Tile.start gid limits.1 limits.2 with
    vct := tableOf 0 (numbers 32 ((v.section 2 gid).getD []))
    rings := tableOf Ring.default ((numbers 8 ((v.section 3 gid).getD [])).map ringOf)
    chans := v.chans gid
    code := tableOf 0 code
    codeLen := code.length
    seed := BitVec.ofNat 64 (fieldOf v.bytes 0x18 8)
    estm := BitVec.ofNat 64 estm
    armList := v.arms gid
    segs := (numbers 16 ((v.section 8 gid).getD [])).map sigOf
    quietMap := numbers 4 ((v.section 9 gid).getD [])
    prim := table
    shadow := table
    scratch := initScratch (initsOf v.bytes.length ((v.section 10 gid).getD []))
    size := size
    wsize := windowSize size
    accBound := fieldOf v.bytes 0x24 2 }

/-- The design widths of a section, by twelve times the logical package plus the link (R448, R452; DESIGN CHOICE, log 6). -/
def designWidths (p : Nat) (b : List Nat) : Tbl Nat := tableOf 0 (b.take (12 * p))

/-- The slot tables of a section: router and bank to the entries (R452; DESIGN CHOICE, log 6). -/
def slotTables (p : Nat) (b : List Nat) : Tbl (List Nat) :=
  (chunks 4104 ((b.length - widthBytes p) / 4104) (b.drop (widthBytes p))).flatMap (fun r =>
    [(2 * fieldOf r 0 8, numbers 8 ((r.drop 8).take 2048)), (2 * fieldOf r 0 8 + 1, numbers 8 (r.drop 2056))])

/-- The tree-slot quotas of a section: router, first slot, number of slots (R355; DESIGN CHOICE, log 6). -/
def slotQuotas (b : List Nat) : Tbl (Nat × Nat) :=
  (numbers 8 (b.drop (quotaStart b))).foldl (fun q w =>
    setKey q (bitsOf w 31 0) (bitsOf w 47 32, bitsOf w 63 48)) []

/-- PAR of a translation entry (R237). -/
def xlPar (e : Nat) : Nat := (leList 15 e).foldl (· ^^^ ·) 0

/-- The gang of an image on packages and a placement, with its translation entries complete but for PAR (R20, R21, R238). -/
def ImageView.gang (v : ImageView) (pkgs : List Nat) (place estm : Nat) (entries : List Nat) (limits : Nat → Nat × Nat) : Gang :=
  let table := tableOf 0 (entries.map (fun e => e + xlPar e * 2 ^ 120))
  { p := v.p, t := v.t, pkgs := pkgs, placeIdx := place, lcyc := 0
    tiles := (List.range v.size).map (fun g => (g, v.tile g estm table (limits g)))
    dues := [], staged := [], run := .running, holds := [], hclass := none, heldSince := 0, resumeAt := none, drain := none
    stopAt := none, bank := 0, phase := none, slots := slotTables v.p ((v.section 4 0xFFFF).getD [])
    quota := slotQuotas ((v.section 11 0xFFFF).getD []), design := designWidths v.p ((v.section 4 0xFFFF).getD [])
    mask := v.mask, smask := v.stackMask, places := v.places, table := table, tableBad := false, gnum := [], snaps := [], genqs := [], dctl := 0
    dctlNext := none, launches := [], h := horizonOf v.p, anyFault := false, doom := none }

end Sys2Proof.Machine
end

