-- ==== Sys2Proof/Machine/AgentSystem.lean ====
section
/-! DEFINITION. The system instructions of an agent core: SCALL, ERET, the control and status registers, interrupts, records,
keys and scrubs (23 R379 to R385, R399, R408, R409, R414, R415, R462). -/
namespace Sys2Proof.Machine

/-! ### SCALL, ERET (R380) -/

def execScall (c : Nat) (s : State) : Outcome := .next (s.systemCall c)

def execEret (s : State) : Outcome := s.deviceLevel (fun s => .next (s.onMe AgentCore.returnFrom))

/-! ### Which CSRs there are (R382, R383) -/

/-- A CSR number that is not reserved. -/
def csrDefined (n : Nat) : Bool :=
  n ≤ 0x006 || (0x010 ≤ n && n ≤ 0x042) || (0x050 ≤ n && n ≤ 0x055) || (0x060 ≤ n && n ≤ 0x064)
    || (0x070 ≤ n && n ≤ 0x077) || (0x080 ≤ n && n ≤ 0x08F) || n == 0x0C0 || (0x800 ≤ n && n ≤ 0xA3F && sregDefined (n - 0x800))

/-- A CSR that no CSRW writes. -/
def csrReadOnly (n : Nat) : Bool :=
  n == 0 || (0x010 ≤ n && n ≤ 0x03F) || n == 0x042 || n == 0x053 || n == 0x054 || n == 0x060 || n == 0x061 || n == 0x064
    || (0x070 ≤ n && n ≤ 0x077) || (0x800 ≤ n && !sregWritable (n - 0x800))

/-- A CSR of device level. -/
def csrDevice (n : Nat) : Bool :=
  (1 ≤ n && n ≤ 5) || (0x040 ≤ n && n ≤ 0x042) || (0x060 ≤ n && n ≤ 0x077) || 0x0C0 ≤ n

/-- The function number that AFUNC may hold; a CSRW of another one raises cause 1 (R379, R384; DEDUCED, log 23). -/
def afuncOk (v : Nat) : Bool := v < 64 || v == 0xFF

/-! ### The tile window (R383) -/

/-- The task and the gang identity that a physical tile of a package runs, if it runs any. -/
def State.tileAt (s : State) (p phys : Nat) : Option (Nat × Nat) :=
  (s.tasks.filterMap (fun e => match e.2.gang with
    | none => none
    | some g => ((g.tiles.map (·.1)).find? (fun i => g.package (i / g.t) == p && s.cfg.physical g i == phys)).map
      (fun i => (e.1, i)))).head?

/-- QBOUND and DRNLIM of a physical tile; at reset 16,384 and 65,536 (R57). -/
def Pkg.limitsOf (p : Pkg) (phys : Nat) : Nat × Nat := look (16384, 65536) p.limits phys

/-- WCYC of a package: wall cycles since its module reset (R57). -/
def State.wcyc (s : State) (p : Nat) : Word := BitVec.ofNat 64 (s.wall - (s.pkg p).since)

/-- A register of a tile that runs a task, seen at device level (R57, R383). -/
def State.windowTask (s : State) (p phys t gid r : Nat) : Word :=
  if r = 0x001 then s.wcyc p
  else if r = 0x00C then BitVec.ofNat 64 phys
  else if r = 0x00D then BitVec.ofNat 64 (phys / 4)
  else if r = 0x00E then BitVec.ofNat 64 (phys / 16)
  else if r = 0x00F then BitVec.ofNat 64 p
  else
    match s.gang t with
    | none => 0
    | some g => match g.tile gid with
      | none => 0
      | some x => x.sysReg g.lcyc g.t r

/-- A tile on which no task has been: its registers hold the values of task start (R21, R57; DESIGN CHOICE, log 14). -/
def IdleTile.reset : IdleTile := { tile := Tile.start 0 16384 65536, lcyc := 0, t := 1 }

/-- A physical tile that runs no task. -/
def Pkg.idleTile (k : Pkg) (phys : Nat) : IdleTile := look IdleTile.reset k.idle phys

/-- A register of a tile that runs no task: as the last task left it and the window wrote it since (R383). -/
def State.windowIdle (s : State) (p phys r : Nat) : Word :=
  let k := s.pkg p
  if r = 0x001 then s.wcyc p
  else if r = 0x00C then BitVec.ofNat 64 phys
  else if r = 0x00D then BitVec.ofNat 64 (phys / 4)
  else if r = 0x00E then BitVec.ofNat 64 (phys / 16)
  else if r = 0x00F then BitVec.ofNat 64 p
  else if r = 0x010 then BitVec.ofNat 64 (k.limitsOf phys).1
  else if r = 0x011 then BitVec.ofNat 64 (k.limitsOf phys).2
  else
    let v := k.idleTile phys
    v.tile.sysReg v.lcyc v.t r

/-- A read through the window of a core. -/
def State.windowRead (s : State) (c r : Nat) : Word :=
  let phys := (s.core c).tsel
  match s.tileAt (c / 8) phys with
  | some (t, gid) => s.windowTask (c / 8) phys t gid r
  | none => s.windowIdle (c / 8) phys r

/-- QBOUND or DRNLIM of a physical tile written. -/
def Pkg.setLimit (p : Pkg) (phys r v : Nat) : Pkg :=
  let l := p.limitsOf phys
  { p with limits := put (16384, 65536) p.limits phys (if r = 0x010 then (v % 2 ^ 32, l.2) else (l.1, v % 2 ^ 32)) }

/-- A register of a tile that runs no task written: its fields alone, and not with a value out of its limits (R168, R383; DESIGN CHOICE,
log 14). -/
def Pkg.idleWrite (k : Pkg) (phys r : Nat) (v : Word) : Pkg :=
  let x := k.idleTile phys
  if sregValueOk r v then { k with idle := setKey k.idle phys { x with tile := x.tile.setSysReg r v } } else k

/-- The tiles of a gang stand by themselves again, with the registers that the gang leaves (R383). -/
def State.leaveTiles (s : State) (g : Gang) : State :=
  g.tiles.foldl (fun s e =>
    let p := g.package (e.1 / g.t)
    let k := s.pkg p
    s.setPkg p { k with idle := setKey k.idle (s.cfg.physical g e.1) { tile := e.2, lcyc := g.lcyc, t := g.t } }) s

/-- A write through the window of a core; none when it is refused: a task runs there and the register is neither QBOUND nor
DRNLIM. -/
def State.windowWrite (s : State) (c r : Nat) (v : Word) : Option State :=
  let p := c / 8
  let phys := (s.core c).tsel
  let limit : Bool := r == 0x010 || r == 0x011
  let s1 := if limit then s.setPkg p ((s.pkg p).setLimit phys r v.toNat) else s
  match s.tileAt p phys with
  | some (t, gid) => if limit then some (s1.onTile t gid (fun x => x.setSysReg r v)) else none
  | none =>
    if limit then some s1
    else some (s.setPkg p ((s.pkg p).idleWrite phys r v))

/-! ### CSR reads (R383, R384, R462, R465) -/

/-- PTIME: the IEEE 1588 time that the PTM relation gives this wall cycle of 20/21 ns; 0 before it is established (R465). -/
def State.ptime (s : State) : Nat :=
  match s.ptm with
  | none => 0
  | some (w, t) => t + (s.wall - w) * 20 / 21

/-- The units of a scrub: its tiles and the 32 blocks of each frame (R409, R414). -/
def ScrubJob.total (j : ScrubJob) : Nat := popCount 32 j.tiles + 32 * j.frames.length

/-- DRNPROG: blocks of live generations of a package that are not drained; how far a drain has come is not fixed (DESIGN CHOICE, log 1). -/
def State.drainProgress (s : State) (p : Nat) : Nat :=
  let n := sumOf (s.gens.flatMap (fun g => (g.left.filter (fun e => e.1 / 8 == p)).map (·.2)))
  if n = 0 then 0 else 1 + Config.choice s.tape % n

/-- KEYSTn of a package: two bits for each key slot (R384). -/
def Pkg.keyStatus (p : Pkg) (stk : Nat) : Nat :=
  sumOf ((List.range 16).map (fun j => (look KeySlot.empty p.keys (16 * stk + j)).alg % 4 * 4 ^ j))

/-- A register of a core's function's completion queue (R462). -/
def Fn.queueReg (f : Fn) (i : Nat) : Nat :=
  match i with
  | 0 => f.cqbase
  | 1 => f.cqsize
  | 2 => f.cqhead
  | 3 => f.cqtail
  | 4 => f.cqlost
  | _ => f.cqvec

/-- A register of a core as CSRR reads it. -/
def State.csrValue (s : State) (c n : Nat) : Word :=
  let x := s.core c
  let p := s.pkg (c / 8)
  if n = 0x000 then BitVec.ofNat 64 (2 * x.plv + x.lv)
  else if n = 0x001 then x.ecause
  else if n = 0x002 then x.epc
  else if n = 0x003 then x.eval
  else if n = 0x004 then x.etvec
  else if n = 0x005 then BitVec.ofNat 64 x.afunc
  else if n = 0x006 then BitVec.ofNat 64 x.fstatus
  else if n < 0x020 then BitVec.ofNat 64 (s.ctxTime c (n - 0x010))
  else if n < 0x030 then BitVec.ofNat 64 (s.ctxSub c (n - 0x020))
  else if n < 0x040 then
    let v := x.ctx (n - 0x030)
    BitVec.ofNat 64 (v.openBatches * 2 ^ 32 + v.openBatch.length)
  else if n = 0x040 then BitVec.ofNat 64 s.slice
  else if n = 0x041 then s.sepoch
  else if n = 0x042 then BitVec.ofNat 64 s.ptime
  else if n < 0x056 then BitVec.ofNat 64 ((s.fn x.afunc).queueReg (n - 0x050))
  else if n = 0x060 then
    (match p.scrub with
     | none => 0
     | some j => BitVec.ofNat 64 (j.total * 2 ^ 32 + j.done))
  else if n = 0x061 then BitVec.ofNat 64 (p.quarFrames.length * 2 ^ 32 + p.quarTiles)
  else if n = 0x062 then BitVec.ofNat 64 p.spres
  else if n = 0x063 then BitVec.ofNat 64 p.drnslot
  else if n = 0x064 then BitVec.ofNat 64 (s.drainProgress (c / 8))
  else if n < 0x078 then BitVec.ofNat 64 (p.keyStatus (n - 0x070))
  else if n < 0x090 then
    let v := x.ctx (n - 0x080)
    BitVec.ofNat 64 (v.errCount * 2 ^ 32 + v.errOpn)
  else if n = 0x0C0 then BitVec.ofNat 64 x.tsel
  else s.windowRead c (n - 0x800)

/-- CSRR: a reserved number raises cause 1, one above the level cause 2 (R382). -/
def execCsrr (d c : Nat) (s : State) : Outcome :=
  .next (if csrDefined c = false then s.exception 1 0
    else if csrDevice c ∧ s.me.lv = 0 then s.exception 2 0
    else { s.finish d (s.csrValue s.coreId c) with tape := s.tape + 1 })

/-! ### CSR writes (R382 to R384, R391, R399, R462) -/

/-- A function's records are written as soon as its queue takes them (R399). -/
def State.wakeQueue (s : State) (f : Nat) : State :=
  let x := s.fn f
  if x.pending.isEmpty ∨ x.room = 0 then s else s.before [.act .completionRecordWrite (.outside [f])]

/-- A register of a function's completion queue written (R462). -/
def State.queueWrite (s : State) (f i v : Nat) : State :=
  let x := s.fn f
  match i with
  | 0 => s.setFn f { x with cqbase := v / 4096 * 4096 }
  | 1 => (s.setFn f { x with cqsize := v % 16 }).wakeQueue f
  | 2 => (s.setFn f { x with cqhead := v % 2 ^ 32 }).wakeQueue f
  | _ => s.setFn f { x with cqvec := v % 2048 }

/-- The log2 of a share written to SPRES or DRNSLOT; outside 2 to 6 it is ignored (R384). -/
def shareWrite (old v : Nat) : Nat := if 2 ≤ v % 8 ∧ v % 8 ≤ 6 then v % 8 else old

/-- A write of a context's refusal register sets it to 0 (R383, R391). -/
def State.clearCtxErr (s : State) (c i : Nat) : State :=
  let x := s.core c
  s.setCore c (x.setCtx i { x.ctx i with errCount := 0, errOpn := 0 })

/-- A register of a core written; none when the value is refused (R383, R384). -/
def State.csrPut (s : State) (c n : Nat) (v : Word) : Option State :=
  let x := s.core c
  let p := s.pkg (c / 8)
  if n = 0x001 then some (s.setCore c { x with ecause := v })
  else if n = 0x002 then some (s.setCore c { x with epc := v })
  else if n = 0x003 then some (s.setCore c { x with eval := v })
  else if n = 0x004 then some (s.setCore c { x with etvec := v })
  else if n = 0x005 then (if afuncOk v.toNat then some (s.setCore c { x with afunc := v.toNat }) else none)
  else if n = 0x006 then some (s.setCore c { x with fstatus := v.toNat % 128 })
  else if n = 0x040 then some { s with slice := v.toNat % 2 ^ 32 }
  else if n = 0x041 then some { s with sepoch := v }
  else if n < 0x056 then some (s.queueWrite x.afunc (n - 0x050) v.toNat)
  else if n = 0x062 then some (s.setPkg (c / 8) { p with spres := shareWrite p.spres v.toNat })
  else if n = 0x063 then some (s.setPkg (c / 8) { p with drnslot := shareWrite p.drnslot v.toNat })
  else if n < 0x090 then some (s.clearCtxErr c (n - 0x080))
  else if n = 0x0C0 then some (s.setCore c { x with tsel := v.toNat % 32 })
  else s.windowWrite c (n - 0x800) v

/-- The cause of the exception that a write of a register raises, if it raises one (R382; the order DEDUCED, log 23). -/
def csrWriteCause (lv n : Nat) : Option Nat :=
  if csrDefined n = false ∨ csrReadOnly n then some 1 else if csrDevice n ∧ lv = 0 then some 2 else none

/-- CSRW (R382). -/
def execCsrw (a c : Nat) (s : State) : Outcome :=
  .next (match csrWriteCause s.me.lv c with
    | some e => s.exception e 0
    | none =>
      match s.csrPut s.coreId c (s.me.reg a) with
      | none => s.exception 1 0
      | some t => t.onMe (·.advance))

/-- REGISTER_WRITE: a write of a register of a core takes effect (R382). -/
def execRegisterWrite (s : State) : Outcome :=
  .next (match csrWriteCause 1 (s.arg 1) with
    | some _ => s
    | none => (s.csrPut (s.arg 0) (s.arg 1) (BitVec.ofNat 64 (s.arg 2))).getD s)

/-- CQHEAD_WRITE: the queue takes waiting records as it has room (R399, R462). -/
def execCqheadWrite (s : State) : Outcome := .next (s.queueWrite (s.arg 0) 2 (s.arg 1))

/-- CTXERR_WRITE (R383, R391). -/
def execCtxerrWrite (s : State) : Outcome := .next (s.clearCtxErr (s.arg 0) (s.arg 1))

/-! ### INTR, CPLPOST (R399) -/

/-- INTR: a vector of the core's function; all 2,048 exist (R440). -/
def execIntr (a g n : Nat) (s : State) : Outcome :=
  s.guarded g n (fun s => .next ((s.emit outMsix s.me.afunc [(s.me.reg a).toNat % 2048]).onMe (·.advance)))

/-- CPLPOST: the 32 bytes as a record of KIND 0x03; bytes out of reach raise cause 3, poisoned ones cause 5. -/
def execCplpost (d a g n : Nat) (s : State) : Outcome :=
  s.guarded g n (fun s =>
    let s := s.flushAll s.coreId
    let at_ := (s.me.reg a).toNat
    let bs := s.agentRead s.coreId at_ 32
    let r : CplRec := { kind := 3, status := 0, id := 0, osig := 0, ltime := 0, wtime := 0, flags := 0, raw := some (bs.map (·.b)) }
    .next (if s.spaceOk s.me.lv s.me.afunc at_ 32 = false then s.exception 3 at_
      else if anyPoison bs then s.exception 5 at_
      else (s.post none 0 0 (corePlace s.coreId) s.me.afunc r).status d stOK))

/-! ### KEYZ, KEYLD (R408, R455) -/

/-- KEYZ: the slot is empty. -/
def execKeyz (d a g n : Nat) (s : State) : Outcome :=
  s.deviceLevel (fun s => s.guarded g n (fun s =>
    let k := (s.me.reg a).toNat % 128
    let p := s.pkg s.myPkg
    .next ((s.setPkg s.myPkg { p with keys := dropKey p.keys k }).status d stOK)))

/-- The keys of a blob opened under the wrapping key, none when the blob is bad (R455). -/
def keyOfBlob (wrap : Nat) (b : List Nat) : Option KeySlot :=
  let alg := fieldOf b 0 1
  if (alg ≠ 1 ∧ alg ≠ 2) ∨ fieldOf b 1 3 ≠ 0 then none
  else
    match gcmOpen (leList 32 wrap) ((b.drop 4).take 12) (b.take 16) ((b.drop 16).take 64) ((b.drop 80).take 16) with
    | none => none
    | some k =>
      let n := if alg = 1 then 32 else 16
      if alg = 2 ∧ (k.drop 32).any (· != 0) then none
      else some { alg := alg, k1 := leValue (k.take n), k2 := leValue ((k.drop n).take n) }

/-- KEYLD. -/
def execKeyld (d a b g n : Nat) (s : State) : Outcome :=
  s.deviceLevel (fun s => s.guarded g n (fun s =>
    let s := s.flushAll s.coreId
    let k := (s.me.reg b).toNat % 128
    let p := s.pkg s.myPkg
    if (look KeySlot.empty p.keys k).alg ≠ 0 then .next (s.status d stBUSY)
    else
      match (s.agentBlock (s.me.reg a).toNat 1 96).bind (keyOfBlob p.wrapKey) with
      | none => s.badBlock d (s.me.reg a).toNat 96
      | some v => .next ((s.setPkg s.myPkg { p with keys := setKey p.keys k v }).status d stOK)))

/-! ### SCRUB (R409, R414, R415) -/

/-- Whether a scrub of a package runs. -/
def Pkg.scrubbing (p : Pkg) : Bool :=
  match p.scrub with
  | none => false
  | some j => j.done < j.total

/-- The job of a scrub block, none when it is bad (R409, R414). -/
def State.scrubOf (s : State) (b : List Nat) : Option ScrubJob :=
  let n := fieldOf b 0x10 4
  if fieldOf b 4 4 ≠ 0 ∨ fieldOf b 0x14 12 ≠ 0 ∨ n = 0 ∨ 4096 < n then none
  else
    match s.blockAt (fieldOf b 8 8) 8 (8 * n) with
    | none => none
    | some l =>
      let fs := (List.range n).map (fun i => fieldOf l (8 * i) 8)
      if fs.any (fun f => f % 2 ^ 21 != 0 || f / 2 ^ 39 != s.myPkg || !s.devExists f) ∨ (dedupNat fs).length ≠ n then none
      else some { tiles := fieldOf b 0 4, frames := fs.map frameOf, done := 0 }

/-- SCRUB: a release; the tiles and frames are quarantined at acceptance. -/
def execScrub (d a g n : Nat) (s : State) : Outcome :=
  s.deviceLevel (fun s => s.guarded g n (fun s =>
    let s := s.flushAll s.coreId
    let p := s.pkg s.myPkg
    if p.scrubbing then .next (s.status d stBUSY)
    else
      match (s.agentBlock (s.me.reg a).toNat 1 32).bind s.scrubOf with
      | none => s.badBlock d (s.me.reg a).toNat 32
      | some j =>
        let q := { p with
          scrub := some j
          quarTiles := p.quarTiles ||| j.tiles
          quarFrames := j.frames.foldl addNum p.quarFrames }
        .next ((s.setPkg s.myPkg q).status d stOK)))

/-- The i-th physical tile of a mask. -/
def maskTile (mask i : Nat) : Nat := nthD 0 ((List.range 32).filter (fun k => bitAt mask k)) i

/-- A tile that a scrub has zeroed: its memories and every register of it. The state of its sequencer and its operations in flight
are no registers and stay (R409; DEDUCED, log 24). -/
def Tile.scrubbed (x : Tile) : Tile :=
  { x with s := [], p := [], m := [], v := [], rings := [], xp := (List.range 8).map (fun i => (i, List.replicate 32 0)),
           kbind := [], jbase := 0, dmr := 0, fstatus := 0, fmtr := 0, seed := 0, estm := 0, qbound := 0, drnlim := 0,
           fault := FaultRec.empty, grow := 0, fstat := 0, perm := (List.range 64).map (fun i => (i, 0)), regions := [], depth := 0,
           mg := 0, pmc := [], pmcev := [], brd := [], bwr := [], bhc := [], hc := [], mxc3 := 0, nestShadow := NestSet.start,
           groups := [], bpa := [], wr := [], scratch := [], scratchPoison := [], acc := [], accPoison := [] }

/-- A valid entry of a gang's table maps a frame. -/
def Gang.entryMaps (g : Gang) (e f : Nat) : Bool :=
  xlValid e && frameOf (g.xlLoc e 0).addr ≤ f && f < frameOf (g.xlLoc e 0).addr + (if bitAt e 92 then 512 else 1)

/-- The table of a gang maps a frame. -/
def Gang.mapsFrame (g : Gang) (f : Nat) : Bool := g.table.any (fun e => g.entryMaps e.2 f)

/-- The table of a gang maps a frame with W = 1 (R237, R261). -/
def Gang.writesFrame (g : Gang) (f : Nat) : Bool := g.table.any (fun e => g.entryMaps e.2 f && bitAt e.2 65)

/-- Whether the table of a running or frozen task maps a frame (R243). -/
def State.frameMapped (s : State) (f : Nat) : Bool :=
  s.tasks.any (fun e => match e.2.gang with
    | some g => g.mapsFrame f
    | none => false)

/-- The frame of the next unit of a scrub, when that is a block. -/
def ScrubJob.frame (j : ScrubJob) : Option Nat :=
  let nt := popCount 32 j.tiles
  if j.done < nt then none else j.frames[(j.done - nt) / 32]?

/-- One unit of a scrub: a tile, then the blocks of the frames in list order; what is zeroed is zero without poison (R414). -/
def State.scrubUnit (s : State) (p : Nat) (j : ScrubJob) : State :=
  let nt := popCount 32 j.tiles
  if j.done < nt then
    let phys := maskTile j.tiles j.done
    let k := s.pkg p
    let v := k.idleTile phys
    let s := s.setPkg p { k with idle := setKey k.idle phys { v with tile := v.tile.scrubbed, lcyc := 0 }
                                 limits := setKey k.limits phys (0, 0), debug := dropKey k.debug phys }
    match s.tileAt p phys with
    | none => s
    | some (t, gid) => s.onTile t gid Tile.scrubbed
  else
    let i := j.done - nt
    s.devWrite (nthD 0 j.frames (i / 32) * 2 ^ 21 + i % 32 * 65536) (clean (List.replicate 65536 0))

/-- The end of a scrub: the quarantine ends and a record of KIND 0x04 goes to the physical function (R409). -/
def State.scrubEnds (s : State) (p : Nat) (j : ScrubJob) : State :=
  let k := s.pkg p
  let s := s.setPkg p { k with quarTiles := k.quarTiles &&& (2 ^ 32 - 1 - j.tiles)
                               quarFrames := k.quarFrames.filter (fun f => !j.frames.contains f) }
  { s with tape := s.tape + 3 }.post none 0 0 (p * 512 + 511) 0xFF
    { kind := 4, status := 0, id := Config.recordField s.tape % 2 ^ 32, osig := Config.recordField (s.tape + 1) % 2 ^ 32,
      ltime := Config.recordField (s.tape + 2) % 2 ^ 64, wtime := 0, flags := 0, raw := none }

/-- SCRUB_UNIT_DONE: the next unit's zeroes perform; a frame that a running or frozen task's table maps is not zeroed, and the scrub
waits for it (R243; DESIGN CHOICE, log 24). -/
def execScrubUnitDone (s : State) : Outcome :=
  let p := s.arg 0
  .next (match (s.pkg p).scrub with
    | none => s
    | some j =>
      if j.total ≤ j.done ∨ j.frame.any s.frameMapped then s
      else
        let s := s.scrubUnit p j
        let j := { j with done := j.done + 1 }
        let s := s.setPkg p { s.pkg p with scrub := some j }
        if j.done = j.total then s.scrubEnds p j else s)

end Sys2Proof.Machine
end

