-- ==== Sys2Proof/Machine/Tasks.lean ====
section
/-! DEFINITION. Tasks: descriptors, submission, dependences, placement, frames, launch, end and kill, and the agent
instructions that name a task (01 R47, R54, R55, 07 R165, 13 R242, R257, 23 R394 to R401, R407, R410, R467, 25 R429). -/
namespace Sys2Proof.Machine

/-! ### Descriptors (R394, R396) -/

/-- A dependence word names no reserved value; with KIND 0 its other bits say nothing (DEDUCED, log 24). -/
def depOk (w : Nat) : Bool :=
  match bitsOf w 63 62 with
  | 0 => true
  | 1 => bitsOf w 61 46 == 0 && bitsOf w 3 0 == 0
  | 2 => true
  | _ => false

/-- A descriptor of 64 bytes, none when a field is reserved or misaligned. -/
def descOf (b : List Nat) : Option TaskDesc :=
  let f := fieldOf b
  let d : TaskDesc := { image := f 0 8, prio := f 8 1, policy := f 9 1, flags := f 0x0A 1, place := f 0x0B 1, keysel := f 0x0C 2,
                        estm := f 0x10 8, fmap := f 0x18 8, deps := [f 0x20 8, f 0x28 8, f 0x30 8, f 0x38 8] }
  if d.image % 64 = 0 ∧ d.prio < 16 ∧ 1 ≤ d.policy ∧ d.policy < 8 ∧ d.flags < 32 ∧ d.keysel < 32 ∧ f 0x0E 2 = 0 ∧ d.fmap % 8 = 0
      ∧ d.deps.all depOk then some d
  else none

def TaskDesc.snaprst (d : TaskDesc) : Bool := bitAt d.flags 0
def TaskDesc.fimg (d : TaskDesc) : Bool := bitAt d.flags 1
def TaskDesc.irq (d : TaskDesc) : Bool := bitAt d.flags 2
def TaskDesc.prot (d : TaskDesc) : Bool := bitAt d.flags 3
def TaskDesc.reqdone (d : TaskDesc) : Bool := bitAt d.flags 4

/-- The statuses of ended tasks (R55, R400, R449). -/
def endDONE : Nat := 0
def endKILLED : Nat := 1
def endDRAINED : Nat := 2
def endCHECKPOINTED : Nat := 3
def endRESTORE_FAILED : Nat := 4
def endNOFRAME : Nat := 5
def endCONTAINMENT : Nat := 6
def endIMAGE_REFUSED : Nat := 7
def endDEP_FAILED : Nat := 8
def endBADDESC : Nat := 9
def endLINK_NARROWED : Nat := 10

/-! ### Submission (R395, R397) -/

/-- GEN of a barrier record (R262). -/
def State.genAt (s : State) (a : Nat) : Nat := pval (s.devRead a 4)

/-- The dependences of a descriptor, with the GEN of each record as it stands at acceptance, for a package (R396). -/
def State.depsOf (s : State) (home : Nat) (ws : List Nat) : List Dep :=
  ws.filterMap (fun w => match bitsOf w 63 62 with
    | 1 =>
      let a := bitsOf w 45 4 * 16
      some { kind := 1, addr := a, g0 := s.genAt a, core := 0, ctx := 0, n := 0 }
    | 2 => some { kind := 2, addr := 0, g0 := 0, core := 8 * home + bitsOf w 57 55, ctx := bitsOf w 61 58, n := bitsOf w 54 0 }
    | _ => none)

/-- The next task id of a function (R395). -/
def State.nextTaskId (s : State) (fn : Nat) : Nat := fn * 2 ^ 24 + ((s.fn fn).seq + 1) % 2 ^ 24

/-- A task request that the serialiser has accepted becomes a task. -/
def State.submit (s : State) (fn : Nat) (d : TaskDesc) (core home op : Nat) (parent : Option Nat) : State :=
  let x : Task := { id := s.nextTaskId fn, fn := fn, desc := d, st := .waiting, deps := s.depsOf home d.deps, order := (s.order : Int) + 1,
                    core := core, home := home, op := op, parent := parent, waited := 0, gang := none, image := none, frames := [],
                    extended := false, redecide := none, park := false, fimg := false, restarted := false, killAt := none, snap := none,
                    dueBy := none }
  ({ s with order := s.order + 1 }.setFn fn { s.fn fn with seq := ((s.fn fn).seq + 1) % 2 ^ 24 }).setTask x

/-- TASKQ: a release of every earlier access; the id of the task is returned (R257, R395, R461). -/
def execTaskq (d a g n : Nat) (s : State) : Outcome :=
  s.guarded g n (fun s =>
    let s := s.flushAll s.coreId
    let fn := s.me.afunc
    let c := s.coreId
    let x := s.me.ctx 14
    if s.cfg.verified = false then .next (s.status d stDENIED)
    else
      match (s.agentBlock (s.me.reg a).toNat 64 64).bind descOf with
      | none => s.badBlock d (s.me.reg a).toNat 64
      | some t =>
        let id := s.nextTaskId fn
        let s := s.onMe (fun y => y.setCtx 14 { x with sub := x.sub + 1 })
        .next ((s.counted.submit fn t c (c / 8) (x.sub + 1) none).finish d (BitVec.ofNat 64 (id * 2 ^ 32))))

/-- A TLAUNCH request on its way to the serialiser (R60, R165). -/
def State.requestLaunch (s : State) (t : Nat) (g : Gang) (gid lcyc : Nat) (loc : DevLoc) : State :=
  s.arrive { source := 6, task := some t, lcyc := lcyc, gid := gid, place := s.tilePlace g gid, act := .launch loc }

/-- The record of a refused TLAUNCH (R397). -/
def refusedLaunch (parent gid lcyc : Nat) : CplRec :=
  { kind := 6, status := endBADDESC, id := parent, osig := gid, ltime := lcyc, wtime := 0, flags := 0, raw := none }

/-- A TLAUNCH request enters the serialiser: its descriptor is read, and the child is submitted or refused (R165, R397). -/
def State.launchChild (s : State) (t gid lcyc : Nat) (loc : DevLoc) : State :=
  match s.task t with
  | none => s
  | some p =>
    let bs := s.locRead loc 64
    let s := s.noteBad t loc.addr 64
    let g := p.gang
    let home := match g with
      | some g => g.package 0
      | none => p.home
    let place := match g with
      | some g => s.tilePlace g gid
      | none => p.home * 512
    match if anyPoison bs ∨ s.cfg.verified = false then none else descOf (bs.map (fun b => b.b.toNat)) with
    | none => s.post (some t) lcyc gid place p.fn (refusedLaunch t gid lcyc)
    | some d => s.submit p.fn d 0 home 0 (some t)

/-- TLAUNCH: the request of a tile, held in step mode (R62, R165). -/
def State.tlaunch (s : State) (t ra : Nat) (g : Gang) (x : Tile) (o : Origin) : State :=
  let rd := x.readCodes g.lcyc o.slot o.addr [ra]
  let va := (nthD 0 rd.vals 0).toNat
  let s := s.onGang t (fun g => g.onTile o.gid (fun _ => rd.x))
  if rd.poison then s.onGang t (fun g => g.consume o 1 g.lcyc (BitVec.ofNat 64 va))
  else if va % 64 ≠ 0 then s.onGang t (fun g => g.cFault o 2 10 0)
  else
    let r := g.translate rd.x va 0
    let s := if r.hold then s.onGang t (fun g => g.announce 1 o.gid o.buf) else s
    match r.place with
    | .dev loc =>
      if g.dctl % 8 = 1 then s.onGang t (fun g =>
        let h : HeldLaunch := { gid := o.gid, t := g.lcyc, loc := loc }
        { g with launches := g.launches ++ [h] })
      else s.requestLaunch t g o.gid g.lcyc loc
    | .unresolved => s.onGang t (fun g => g.consume o 1 g.lcyc (BitVec.ofNat 64 va))
    | _ => s.onGang t (fun g => g.cFault o 4 r.detail (BitVec.ofNat 64 va))

def execTlaunch (a : Nat) (s : State) : Outcome :=
  match s.cur with
  | .tile t gid slot _ addr =>
    match s.gang t with
    | none => .next s
    | some g => match g.tile gid with
      | none => .next s
      | some x => .next (s.tlaunch t a g x (originOf g gid slot addr 0))
  | _ => .next s

/-- Held requests go to the serialiser, which takes them in increasing LCYC and gang identity (R62). -/
def State.releaseLaunches (s : State) (t : Nat) : State :=
  match s.gang t with
  | none => s
  | some g =>
    let s := s.onGang t (fun g => { g with launches := [] })
    (sortBy (fun h => h.t * 4096 + h.gid) g.launches).foldl (fun s h => s.requestLaunch t g h.gid h.t h.loc) s

/-- What an event does once it is counted (R59, R165, R399). -/
def State.accept (s : State) (e : Ev) : State :=
  let s := s.counted
  match e.act, e.task with
  | .record f r, _ => s.takeRecord f r
  | .launch loc, some t => s.launchChild t e.gid e.lcyc loc
  | .gen t d n, _ => s.countGen t d n
  | _, _ => s

/-- Whether an event is the start of a generation. -/
def Ev.isGen (e : Ev) : Bool :=
  match e.act with
  | .gen _ _ _ => true
  | _ => false

/-- The serialiser accepts what has arrived and need not wait: generations by gang identity and domain, then the other events
(R59, R60, R389). -/
def State.serialise (s : State) : State :=
  let ready := s.arrivals.filter (fun e => !s.evWaits e)
  let s := { s with arrivals := s.arrivals.filter (fun e => s.evWaits e) }
  let gens := sortBy (fun e => e.gid * 8 + (match e.act with
    | .gen _ d _ => d
    | _ => 0)) (ready.filter Ev.isGen)
  (gens ++ acceptOrder (ready.filter (fun e => !e.isGen))).foldl State.accept s

/-! ### Dependences (R396) -/

/-- A task that has ended with a status. -/
def Task.endStatus (x : Task) : Option Nat :=
  match x.st with
  | .ended v => some v
  | _ => none

/-- The launch that a timeline dependence names, if it did not end DONE. -/
def State.launchFailed (s : State) (d : Dep) : Bool :=
  d.kind == 2 && d.ctx == 14 && s.tasks.any (fun e => e.2.core == d.core && e.2.op == d.n && d.n != 0 && (match e.2.endStatus with
    | some v => v != endDONE
    | none => false))

/-- A dependence is met. -/
def State.depMet (s : State) (d : Dep) : Bool :=
  if d.kind = 1 then s.genAt d.addr != d.g0 else d.n ≤ s.ctxTime d.core d.ctx

/-! ### The end of a task (R54, R55, R258, R368, R399, R429, R431) -/

/-- The completion record of a task (R399). -/
def Task.record (x : Task) (status lcyc : Nat) : CplRec :=
  { kind := 1, status := status, id := x.id, osig := 0, ltime := lcyc, wtime := 0
    flags := (if x.desc.irq then 1 else 0) + (if x.restarted then 2 else 0) + (if x.fimg then 4 else 0), raw := none }

/-- The locations that open regions of a gang wrote are written back (R267, R429). -/
def State.revertRegions (s : State) (g : Gang) : State :=
  g.tiles.foldl (fun s e =>
    if e.2.depth = 0 then s
    else (savedRuns (sortBy (fun x => x.1.addr) (e.2.reversions 0))).foldl (fun s r => s.locRevert r.1 r.2) s) s

/-- QBOUND and DRNLIM stay with the physical tiles of a gang (R57). -/
def State.keepLimits (s : State) (g : Gang) : State :=
  g.tiles.foldl (fun s e =>
    let p := g.package (e.1 / g.t)
    let k := s.pkg p
    s.setPkg p { k with limits := put (16384, 65536) k.limits (s.cfg.physical g e.1) (e.2.qbound, e.2.drnlim) }) s

/-- The physical place, the address or syllable and the code of the log's entry for a task that ends: of a fault class and DETAIL,
of a consumption the class and its point, of a kill nothing (R431; DEDUCED, log 21). -/
def State.endEntry (s : State) (g : Gang) (status : Nat) : Nat × Nat × Nat :=
  if status = endCONTAINMENT then
    (match g.doom with
     | some (i, point, info) => (s.tilePlace g i, info.toNat, 11 * 65536 + point)
     | none => (s.tilePlace g 0, 0, 0))
  else if status < 0x100 then (s.tilePlace g 0, 0, 0)
  else
    match g.hclass with
    | none => (s.tilePlace g 0, 0, (status - 0x100) * 65536)
    | some (_, i, c) =>
      match g.tile i with
      | none => (s.tilePlace g i, 0, c * 65536)
      | some x =>
        (s.tilePlace g i, if c = 3 ∨ c = 4 ∨ c = 11 then x.fault.info.toNat else x.fault.addr,
          c * 65536 + (if x.fault.cls = c then x.fault.detail else 0))

/-- A task ends with a status: open regions revert, its gang is gone, its record is posted and, when it was killed or faulted,
an entry is logged. TLAUNCH requests that are still held are gone with the gang (R62 says so of a kill; of a FAULT and of
RESTORE_FAILED DESIGN CHOICE, log 32). A freeze image that FIMG or a hold left stays to be read. -/
def State.endTask (s : State) (t status : Nat) : State :=
  match s.task t with
  | none => s
  | some x =>
    let g := x.anyGang
    let lcyc := match g with
      | some g => g.lcyc
      | none => 0
    let s := match g with
      | some g => s.revertRegions g
      | none => s
    let s := match x.gang with
      | some g => ((s.keepLimits g).leaveTiles g).killTrees t
      | none => s
    let s := s.forgetTrees t
    let s := s.onTask t (fun y =>
      { y with st := .ended status, gang := none, image := none, frames := [], redecide := none, killAt := none, dueBy := none,
               snap := if y.fimg then y.snap else none })
    let e := match g with
      | some g => s.endEntry g status
      | none => (x.home * 512, 0, 0)
    let s := if status = endKILLED ∨ status = endCONTAINMENT ∨ 0x100 ≤ status then s.logEvent 3 0 e.1 t e.2.1 e.2.2 else s
    s.post (some t) lcyc 0 e.1 x.fn (x.record status lcyc)

/-! ### Kill (R47, R265, R368, R429) -/

/-- The parts of n bytes from an address, each within an aligned eight bytes: offset and length. -/
def eights (a n : Nat) : List (Nat × Nat) :=
  ((List.range (n / 8 + 2)).map (fun i =>
    let lo := max a (8 * (a / 8 + i))
    let hi := min (a + n) (8 * (a / 8 + i) + 8)
    (lo - a, hi - lo))).filter (fun e => e.1 < n && 0 < e.2)

/-- A write in flight at a kill: each aligned eight bytes of it performs whole or not at all; which do is free (R47; DESIGN CHOICE, log 1). -/
def State.killWrite (s : State) (t : Nat) (o : Origin) (l : DevLoc) (bs : List PByte) : State :=
  (eights l.addr bs.length).foldl (fun s e =>
    let r := s.choose 2
    if r.1 = 0 then r.2
    else (r.2.tileWrite t o { l with addr := l.addr + e.1 } ((bs.drop e.1).take e.2)).1) s

/-- What a kill leaves of an effect in flight: device-memory writes, and atomics whole or not (R47, R265). -/
def State.killDue (s : State) (t : Nat) (d : Due) : State :=
  match d.job with
  | .write _ (.dev l) bs => s.killWrite t d.o l bs
  | .atom op l w b c p code due =>
    if 11 ≤ op then s
    else
      let r := s.choose 2
      if r.1 = 0 then r.2 else r.2.atomApply t d.o op l w b c p code due
  | _ => s

/-- A kill at once, in wall time: traffic in flight is discarded, tree ranges end, the task ends with a status. -/
def State.killTask (s : State) (t status : Nat) : State :=
  let s := match s.gang t with
    | some g => (g.dues.foldl (fun (s : State) d => s.killDue t d) s).killTrees t
    | none => s
  s.endTask t status

/-! ### Placement (R401, R402, R409, R457, R466) -/

/-- What the tiles, routers and stacks of a gang must give it: packages and tiles, slot-table entries, slots of each stack, tree slots
of its routers, design widths of its links, placements (R18, R19, R355, R448, R453). -/
structure Shape where
  p : Nat
  t : Nat
  mask : Nat
  smask : Nat
  quota : Tbl (Nat × Nat)
  design : Tbl Nat
  places : List Nat
deriving DecidableEq, Repr

def ImageView.shape (v : ImageView) : Shape :=
  { p := v.p, t := v.t, mask := v.mask, smask := v.stackMask, quota := slotQuotas ((v.section 11 0xFFFF).getD [])
    design := designWidths v.p ((v.section 4 0xFFFF).getD []), places := v.places }

def Gang.shape (g : Gang) : Shape :=
  { p := g.p, t := g.t, mask := g.mask, smask := g.smask, quota := g.quota, design := g.design, places := g.places }

/-- The physical tiles that a placement gives T logical tiles. -/
def Cfg.placeTiles (c : Cfg) (place t : Nat) : List Nat := (look [] c.placements place).take t

/-- The physical tiles of a gang on a package. -/
def State.tilesOn (s : State) (g : Gang) (p : Nat) : List Nat :=
  if g.pkgs.contains p then s.cfg.placeTiles g.placeIdx g.t else []

/-- The gangs that stand on tiles, of other tasks than one. -/
def State.placedGangs (s : State) (t : Nat) : List Gang := s.tasks.filterMap (fun e => if e.1 = t then none else e.2.gang)

/-- The partition of a package that admits a function and has these tiles. -/
def State.partitionFor (s : State) (fn p : Nat) (tiles : List Nat) : Option Nat :=
  (s.parts.find? (fun e => e.2.pkg == p && e.2.fns.contains fn && tiles.all (fun k => bitAt e.2.tiles k))).map (·.1)

/-- The tree slots of a quota on packages and a placement: router, first slot, number of slots. -/
def Cfg.quotaOn (c : Cfg) (pkgs : List Nat) (place : Nat) (q : Tbl (Nat × Nat)) : List (Nat × Nat × Nat) :=
  q.map (fun e => (c.endAt pkgs place e.1, e.2.1, e.2.2))

/-- Two quotas share no slot of a router (R355). -/
def quotasApart (a b : List (Nat × Nat × Nat)) : Bool :=
  a.all (fun x => b.all (fun y => x.1 != y.1 || x.2.1 + x.2.2 ≤ y.2.1 || y.2.1 + y.2.2 ≤ x.2.1))

/-- A placement on packages could be taken by a task of a function, if no gang stood there: the packages are powered, not too warm, as
far from each other as the image assumes and joined by links of its design widths; the tiles exist in a partition that admits the
function, none quarantined (R401, R402, R409, R449, R457). -/
def State.placeOpen (s : State) (fn : Nat) (pkgs : List Nat) (place : Nat) (sh : Shape) : Bool :=
  let tiles := s.cfg.placeTiles place sh.t
  tiles.length == sh.t && (dedupNat pkgs).length == pkgs.length && hopsKept pkgs && s.linksServe sh.design pkgs && pkgs.all (fun p =>
    p < s.cfg.packages && (s.pkg p).pewter.powered && !(s.pkg p).pewter.hotWarn
      && (s.partitionFor fn p tiles).isSome && tiles.all (fun k => !bitAt (s.pkg p).quarTiles k))

/-- A gang leaves a placement free to another one: on a package that both take, tiles, slot-table entries and stack slots are
disjoint; on a router, tree slots are (R402, R355). -/
def State.leavesFree (s : State) (g : Gang) (pkgs : List Nat) (place : Nat) (sh : Shape) : Bool :=
  pkgs.all (fun p => !g.pkgs.contains p
      || ((s.tilesOn g p).all (fun k => !(s.cfg.placeTiles place sh.t).contains k) && g.mask &&& sh.mask == 0 && g.smask &&& sh.smask == 0))
    && quotasApart (s.cfg.quotaOn g.pkgs g.placeIdx g.quota) (s.cfg.quotaOn pkgs place sh.quota)

/-- Whether a placement on packages is free for a task. -/
def State.placeFree (s : State) (x : Task) (pkgs : List Nat) (place : Nat) (sh : Shape) : Bool :=
  s.placeOpen x.fn pkgs place sh && (s.placedGangs x.id).all (fun g => s.leavesFree g pkgs place sh)

/-- The packages that a gang of P logical packages may take from a first one on (DESIGN CHOICE, log 10). -/
def State.packagesFrom (s : State) (first p : Nat) : List Nat := (List.range p).map (fun i => (first + i) % s.cfg.packages)

/-- The packages that a task may take: those that its frames fix, else any (R401, R467). -/
def State.packageSets (s : State) (p : Nat) (fixed : Option (List Nat)) : List (List Nat) :=
  match fixed with
  | some l => [l]
  | none => if p ≤ s.cfg.packages then (List.range s.cfg.packages).map (fun i => s.packagesFrom i p) else []

/-- The placements that a task's image and descriptor allow, on each of these packages. -/
def State.allPlaces (s : State) (x : Task) (sh : Shape) (fixed : Option (List Nat)) : List (List Nat × Nat) :=
  let allowed := if x.desc.place = 0xFF then sh.places else sh.places.filter (· == x.desc.place)
  (s.packageSets sh.p fixed).flatMap (fun q => allowed.map (fun i => (q, i)))

/-- The placements that are free for a task: packages and placement index. -/
def State.freePlaces (s : State) (x : Task) (sh : Shape) (fixed : Option (List Nat)) : List (List Nat × Nat) :=
  (s.allPlaces x sh fixed).filter (fun e => s.placeFree x e.1 e.2 sh)

/-! ### Frames (R242, R467) -/

/-- The first frame of a run lies in a task's frames. -/
def Task.maps (x : Task) (f : Nat) : Bool := x.frames.any (fun r => r.1 ≤ f && f < r.1 + r.2)

/-- A frame is granted to a function, not quarantined, not taken by this launch, and mapped by no other task that runs or is
saved. -/
def State.frameFree (s : State) (x : Task) (taken : List (Nat × Nat)) (f : Nat) : Bool :=
  s.frameOpen x.fn f && !taken.any (fun r => r.1 ≤ f && f < r.1 + r.2) && !s.tasks.any (fun e => e.1 != x.id && e.2.maps f)

/-- The frames of a translation entry. -/
def entryFrames (e : Nat) : Nat := if bitAt e 92 then 512 else 1

/-- The lowest run of frames of a stack for an entry; frames are numbered over the domain. -/
def State.pickFrame (s : State) (x : Task) (taken : List (Nat × Nat)) (pkg e : Nat) : Option Nat :=
  let n := entryFrames e
  let base := pkg * 2 ^ 18 + bitsOf e 84 82 * 2 ^ 15
  ((List.range (24576 / n)).map (fun i => base + n * i)).find? (fun f => (upFrom f n).all (fun k => s.frameFree x taken k))

/-- The frames that the scheduler takes for the entries in order; none when some entry finds none. -/
def State.pickFrames (s : State) (x : Task) (pkgs : List Nat) : List (Nat × Nat) → List Nat → Option (List (Nat × Nat))
  | taken, [] => some taken
  | taken, e :: es =>
    match s.pickFrame x taken (nthD 0 pkgs (bitsOf e 91 85)) e with
    | none => none
    | some f => s.pickFrames x pkgs (taken ++ [(f, entryFrames e)]) es

/-- The frame map of a descriptor: for each entry its first frame; none when it cannot be read or a frame is not allowed. -/
def State.mapFrames (s : State) (x : Task) (entries : List Nat) : Option (List (Nat × Nat)) :=
  match s.soundBytes x.desc.fmap (8 * entries.length) with
  | none => none
  | some b =>
    let es := entries.zip (numbers 8 b)
    if es.all (fun e => e.2 % (entryFrames e.1 * 2 ^ 21) == 0 && s.devExists e.2 && bitsOf e.2 38 36 == bitsOf e.1 84 82
        && (upFrom (frameOf e.2) (entryFrames e.1)).all (fun f => s.frameOpen x.fn f)) then
      some (es.map (fun e => (frameOf e.2, entryFrames e.1)))
    else none

/-- The packages that a frame map fixes; none when entries of one logical package name two physical ones, or two logical ones
share one (R401, R467). Logical packages without entries take the lowest others. -/
def State.mapPackages (s : State) (p : Nat) (entries : List Nat) (frames : List (Nat × Nat)) : Option (List Nat) :=
  let pairs := (entries.zip frames).map (fun e => (bitsOf e.1 91 85, e.2.1 / 2 ^ 18))
  if pairs.any (fun a => pairs.any (fun b => (a.1 == b.1) != (a.2 == b.2))) then none
  else
    let rest := (List.range s.cfg.packages).filter (fun q => !pairs.any (fun a => a.2 == q))
    let named := (List.range p).map (fun l => (pairs.find? (fun a => a.1 == l)).map (·.2))
    some ((named.foldl (fun (acc : List Nat × List Nat) m => match m, acc.2 with
      | some q, r => (acc.1 ++ [q], r)
      | none, q :: r => (acc.1 ++ [q], r)
      | none, [] => (acc.1 ++ [s.cfg.packages], [])) ([], rest)).1)

/-- An entry with its frame and the key slot of the descriptor (R238). -/
def placedEntry (keysel e f : Nat) : Nat := e + f % 2 ^ 15 * 2 ^ 67 + keysel % 16 * 2 ^ 60 + keysel / 16 % 2 * 2 ^ 59

/-! ### The rotation and the candidate (R56, R403, R406) -/

/-- The effective priority of a queued task. -/
def Task.effective (x : Task) : Nat := min 15 (x.desc.prio + x.waited)

/-- Whether a task stands before another one in its function's queue. -/
def Task.before (x y : Task) : Bool := y.effective < x.effective || (x.effective == y.effective && x.order < y.order)

/-- The head of a function's queue: the highest effective priority, then the order of acceptance. -/
def State.headOf (s : State) (fn : Nat) : Option Task :=
  ((s.tasks.map (·.2)).filter (fun x => x.fn == fn && x.st == .queued)).foldl (fun (b : Option Task) x => match b with
    | none => some x
    | some y => if x.before y then some x else some y) none

/-- Whether a function has queued work. -/
def State.hasWork (s : State) (fn : Nat) : Bool := (s.headOf fn).isSome

/-- The functions of a partition in cyclic order from the one after the current function on. -/
def Partition.cycle (p : Partition) : List Nat :=
  match p.fns.findIdx? (· == p.turn) with
  | some i => p.fns.drop (i + 1) ++ p.fns.take (i + 1)
  | none => p.fns

/-- The function to which the rotation passes. -/
def State.nextFn (s : State) (p : Partition) : Nat := (p.cycle.find? s.hasWork).getD p.turn

/-- The function that a decision is about: the one decided to be next, else the current one. -/
def Partition.deciding (p : Partition) : Nat := if p.next < 256 then p.next else p.turn

/-- The functions of a partition in cyclic order from the one that a decision is about on. -/
def Partition.fromTurn (p : Partition) : List Nat :=
  match p.fns.findIdx? (· == p.deciding) with
  | some i => p.fns.drop i ++ p.fns.take i
  | none => p.fns

/-- What a queued task needs, with the packages that its frames fix; none when the launch or the restore ends it at once. A saved gang
with translation entries stays on its packages, where its frames are (R467). -/
def State.needs (s : State) (x : Task) : Option (Shape × Option (List Nat)) :=
  match x.image with
  | some i => some (i.gang.shape, if i.gang.table.any (fun e => xlValid e.2) then some i.gang.pkgs else none)
  | none =>
    match s.imageAt x.desc.image with
    | none => none
    | some b =>
      if s.launchable x.fn x.desc.place b = false then none
      else if x.desc.fmap = 0 then some ((imageView b).shape, none)
      else ((s.mapFrames x (imageView b).entries).bind (s.mapPackages (imageView b).p (imageView b).entries)).map
        (fun q => ((imageView b).shape, some q))

/-- A queued task has a placement in a partition, whatever gangs stand there. -/
def State.fitsIn (s : State) (i : Nat) (x : Task) : Bool :=
  match s.needs x with
  | none => true
  | some (sh, fixed) => (s.allPlaces x sh fixed).any (fun e =>
      s.placeOpen x.fn e.1 e.2 sh && s.partitionFor x.fn (nthD 0 e.1 0) (s.cfg.placeTiles e.2 sh.t) == some i)

/-- The candidate of a partition: the head of the first function in the rotation that has one; a task whose placements need a
quarantined tile, a narrowed link or a package that is too warm gives way (R403, R406; DESIGN CHOICE, log 10). -/
def State.candidate (s : State) (i : Nat) (p : Partition) : Option Task := (p.fromTurn.filterMap s.headOf).find? (s.fitsIn i)

/-- Whether a task may start at a placement: it is the candidate of the partition in which its logical package 0 would stand. -/
def State.itsTurn (s : State) (x : Task) (t : Nat) (e : List Nat × Nat) : Bool :=
  match s.partitionFor x.fn (nthD 0 e.1 0) (s.cfg.placeTiles e.2 t) with
  | none => false
  | some i => ((find? s.parts i).bind (s.candidate i)).any (fun y => y.id == x.id)

/-! ### TASK_LAUNCH (R242, R257, R400, R407, R467) -/

/-- QBOUND and DRNLIM of the tiles of a placement. -/
def State.limitsAt (s : State) (pkgs : List Nat) (place t gid : Nat) : Nat × Nat :=
  (s.pkg (nthD 0 pkgs (gid / t))).limitsOf (nthD 0 (look [] s.cfg.placements place) (gid % t))

/-- A gang takes its tiles: they are idle no longer, and their debug registers hold what the debugger wrote there (R21, R432). -/
def State.clearIdle (s : State) (g : Gang) : State :=
  g.pkgs.foldl (fun s p =>
    let k := s.pkg p
    s.setPkg p { k with idle := k.idle.filter (fun e => !(s.tilesOn g p).contains e.1) }) s

/-- The debug registers of a physical tile. -/
def State.debugAt (s : State) (g : Gang) (gid : Nat) : Tbl Word := look [] (s.pkg (g.package (gid / g.t))).debug (s.cfg.physical g gid)

/-- A gang with the debug registers of its tiles (R432). -/
def State.withDebug (s : State) (g : Gang) : Gang :=
  { g with tiles := g.tiles.map (fun e => (e.1, { e.2 with
      bpa := (s.debugAt g e.1).filter (fun r => r.1 < 8)
      wr := ((s.debugAt g e.1).filter (fun r => 8 ≤ r.1)).map (fun r => (r.1 - 8, r.2)) })) }

/-- Before a task starts the base dies back-invalidate the host's copies of the pages that its table maps with W = 1 (R261). -/
def State.uncacheHost (s : State) (g : Gang) : State :=
  { s with hostLines := s.hostLines.filter (fun l => !g.writesFrame (frameOf l)) }

/-- A task starts on packages and a placement with its frames: cycle 0 of its gang. -/
def State.startTask (s : State) (x : Task) (b : List Nat) (pkgs : List Nat) (place : Nat) (frames : List (Nat × Nat)) : State :=
  let v := imageView b
  let es := (v.entries.zip frames).map (fun e => placedEntry x.desc.keysel e.1 e.2.1)
  let estm := if x.desc.estm = 0 then fieldOf b 0x10 8 else x.desc.estm
  let g := s.withDebug (v.gang pkgs place estm es (s.limitsAt pkgs place v.t))
  let s := if x.desc.prot then s.onPewter (g.package 0) (fun w => { w with attested := w.attested ++ [(sm3 b).map (BitVec.ofNat 8)] }) else s
  let s := s.uncacheHost g
  (s.clearIdle g).onTask x.id (fun y => { y with st := .running, gang := some g, frames := frames, waited := 0, killAt := none,
                                                 dueBy := none })

/-- The first of a list of choices by the free value of the interleaving (DESIGN CHOICE, log 1). -/
def State.chooseFrom {α : Type} (s : State) (xs : List α) : Option α × State :=
  let r := s.choose xs.length
  (xs[r.1]?, r.2)

/-- A candidate without a saved image is launched when a placement is free; one that its image, its frame map or its frames
refuse ends. -/
def State.launchTask (s : State) (x : Task) : State :=
  match s.imageAt x.desc.image with
  | none => s.endTask x.id endIMAGE_REFUSED
  | some b =>
    let v := imageView b
    if s.launchable x.fn x.desc.place b = false then s.endTask x.id endIMAGE_REFUSED
    else
      let map := if x.desc.fmap = 0 then none else s.mapFrames x v.entries
      let fixed := map.bind (s.mapPackages v.p v.entries)
      if x.desc.fmap ≠ 0 ∧ fixed.isNone then s.endTask x.id endBADDESC
      else
        let r := s.chooseFrom ((s.freePlaces x v.shape fixed).filter (s.itsTurn x v.t))
        match r.1 with
        | none => s
        | some (pkgs, place) =>
          match (match map with
            | some f => some f
            | none => s.pickFrames x pkgs [] v.entries) with
          | none => r.2.endTask x.id endNOFRAME
          | some f => r.2.startTask x b pkgs place f

/-- TASK_LAUNCH: a task whose dependences are met is launched (R257). -/
def execTaskLaunch (s : State) : Outcome :=
  .next (match s.task (s.arg 0) with
    | none => s
    | some x => if x.st = .queued ∧ x.image.isNone ∧ s.cfg.verified then s.launchTask x else s)

/-- The waiting tasks whose dependences are met are queued; with REQDONE one that depends on a launch that did not end DONE ends
(R396). -/
def State.queueTasks (s : State) : State :=
  s.tasks.foldl (fun s e => match s.task e.1 with
    | none => s
    | some x =>
      if x.st ≠ .waiting then s
      else if x.desc.reqdone ∧ x.deps.any s.launchFailed then s.endTask x.id endDEP_FAILED
      else if x.deps.all s.depMet then s.onTask x.id (fun y => { y with st := .queued })
      else s) s

/-! ### Agent instructions that name a task (R398, R407, R410) -/

/-- A task of the core's function, or the status that says why it is none (R398). -/
def State.ownTask (s : State) (id : Nat) : Except Nat Task :=
  match s.task id with
  | none => .error stNOTASK
  | some x => if x.fn = s.me.afunc then .ok x else .error stNOTOWNED

/-- An instruction that acts on a task of the core's function. -/
def State.onOwnTask (s : State) (d id : Nat) (k : Task → State) : State :=
  match s.ownTask id with
  | .error st => s.status d st
  | .ok x => k x

/-- TKILL. -/
def execTkill (d a g n : Nat) (s : State) : Outcome :=
  s.guarded g n (fun s => .next (s.onOwnTask d ((s.me.reg a).toNat % 2 ^ 32) (fun x =>
    if x.endStatus.isSome then s.status d stNOTASK else (s.killTask x.id endKILLED).status d stOK)))

/-- The number of a task's state in TSTATUS (R398). -/
def TaskState.code (t : TaskState) : Nat :=
  match t with
  | .ended _ => 0
  | .waiting => 1
  | .queued => 2
  | .running => 3
  | .held => 4
  | .saving _ _ => 5
  | .parked => 6
  | .restoring => 7

/-- TSTATUS. -/
def execTstatus (d a g n : Nat) (s : State) : Outcome :=
  s.guarded g n (fun s => .next (s.onOwnTask d ((s.me.reg a).toNat % 2 ^ 32) (fun x =>
    s.finish d (BitVec.ofNat 64 (x.st.code * 2 ^ 16 + x.endStatus.getD 0 * 2 ^ 32)))))

/-- The bytes of an image at an agent address, none when it cannot be read there (R375, R407). -/
def State.agentImage (s : State) (a : Nat) : Option (List Nat) :=
  if a / 2 ^ 46 = 0 then
    (s.imageAt a).bind (fun b => if s.copyReach s.me.lv s.me.afunc a b.length then some b else none)
  else (s.agentBlock a 1 64).bind (fun h => if fieldOf h 0x28 8 < 64 ∨ 2 ^ 36 < fieldOf h 0x28 8 then none
    else s.agentBlock a 1 (fieldOf h 0x28 8))

/-- IMGCHK: the digest of an image is written, and whether it passes R143 (R407). -/
def execImgchk (d a b g n : Nat) (s : State) : Outcome :=
  s.guarded g n (fun s =>
    let s := s.flushAll s.coreId
    let at_ := (s.me.reg a).toNat
    let dst := (s.me.reg b).toNat
    if s.spaceOk s.me.lv s.me.afunc dst 32 = false then .next (s.exception 3 dst)
    else
      match s.agentImage at_ with
      | none => s.badBlock d at_ 64
      | some bytes =>
        let s := s.agentWrite s.coreId dst (clean ((sm3 bytes).map (BitVec.ofNat 8)))
        .next (s.status d (if imageOk bytes s.cfg.stepping then stOK else stBADBLOCK)))

end Sys2Proof.Machine
end

