-- ==== Sys2Proof/Machine/Holds.lean ====
section
/-! DEFINITION. Holds, drains and images: freeze and resumption, the stop of a drain, saves and restores, the retirement of a
task, TPRE (01 R41 to R54, 21 R366 and R372, 23 R398, R405, R411, R466, 25 R418, R434 to R436). -/
namespace Sys2Proof.Machine

/-! ### Holds that are due (R43, R44) -/

/-- The holds whose target has come. -/
def Gang.dueHolds (g : Gang) : List Hold := g.holds.filter (fun h => h.th ≤ g.lcyc)

/-- Whether a hold of a cause is due. -/
def Gang.holdsFor (g : Gang) (cause : Nat) : Bool := g.dueHolds.any (fun h => h.cause == cause)

/-- Every tile has halted (R54). -/
def Gang.allHalted (g : Gang) : Bool := g.tiles.all (fun e => e.2.halted.isSome)

/-- A hold with a target that its announcer chose, not below the cycle in progress (R43; DEDUCED, log 29). -/
def Gang.announceAt (g : Gang) (cause th who : Nat) : Gang :=
  let hold : Hold := { cause := cause, ta := g.lcyc, th := max g.lcyc th, gid := who, buf := 64 }
  { g with holds := g.holds ++ [hold] }

/-- Both copies of every translation entry are reloaded from the table image (R240). -/
def Gang.reload (g : Gang) : Gang :=
  { g with tiles := g.tiles.map (fun e => (e.1, { e.2 with prim := g.table, shadow := g.table })) }

/-- DCTL.MODE takes effect; a gang that leaves step mode releases its launches (R62, R435). -/
def State.applyMode (s : State) (t mode : Nat) : State :=
  match s.gang t with
  | none => s
  | some g =>
    let s := s.onGang t (fun g => { g with dctl := g.dctl / 8 * 8 + mode, dctlNext := none })
    if g.dctl % 8 = 1 ∧ mode ≠ 1 then s.releaseLaunches t else s

/-- The class of a gang's first fault hold (R41). -/
def Gang.faultClass (g : Gang) : Nat :=
  match g.hclass with
  | some (_, _, c) => c
  | none => 0

/-! ### In-flight records (R50, R51) -/

/-- The fields of a record in its 96 bytes. -/
def FlightRec.toNat (r : FlightRec) : Nat :=
  r.value % 2 ^ 512 * 2 ^ 256 + r.src % 2 ^ 64 * 2 ^ 192 + r.dkind % 16 * 2 ^ 188 + r.dst % 2 ^ 60 * 2 ^ 128 + r.due % 2 ^ 32 * 2 ^ 96
    + r.kind % 256 * 2 ^ 88 + r.len % 256 * 2 ^ 80 + r.buf % 256 * 2 ^ 72 + r.orig % 256 * 2 ^ 64 + r.poison % 2 ^ 16 * 2 ^ 48
    + r.low % 2 ^ 48

def FlightRec.ofNat (x : Nat) : FlightRec :=
  { value := bitsOf x 767 256, src := bitsOf x 255 192, dkind := bitsOf x 191 188, dst := bitsOf x 187 128, due := bitsOf x 127 96,
    kind := bitsOf x 95 88, len := bitsOf x 87 80, buf := bitsOf x 79 72, orig := bitsOf x 71 64, poison := bitsOf x 63 48,
    low := bitsOf x 47 0 }

/-- The limits of DST by DKIND: a scalar or k register, a predicate, an entry or its upper half, a slice offset of a tile, an offset in
an accumulator group, a device address, a channel, a system register, a segment of a handle, a mask (R51, R52; what the field holds
beyond an index, DESIGN CHOICE, log 30). -/
def dstOk (dkind dst : Nat) : Bool :=
  match dkind with
  | 0 => dst < 40
  | 1 => dst < 8
  | 2 => dst < 256
  | 3 => dst < 2 ^ 33
  | 4 => dst < 2 ^ 20
  | 5 => dst < 2 ^ 46 && dst % 2 ^ 36 < stackLimit
  | 6 => dst < 64
  | 7 => sregDefined dst
  | 8 => dst < 2 ^ 40
  | _ => dst < 8

/-- No reserved kind, no field outside its limits (R52). -/
def FlightRec.ok (r : FlightRec) : Bool :=
  r.dkind < 10 && dstOk r.dkind r.dst && r.kind < 4 && (r.kind == 1 || r.src == 0) && 1 ≤ r.len && r.len ≤ 64 && r.buf < 64 && r.orig < 7
    && r.low == 0 && r.value < 2 ^ 512 && r.due < 2 ^ 32 && r.poison < 2 ^ 16

/-- The marks of bytes by 4-byte word. -/
def markBits (bs : List PByte) : Nat :=
  sumOf ((List.range 16).map (fun i => if anyPoison ((bs.drop (4 * i)).take 4) then 2 ^ i else 0))

/-- A record: kind, destination kind, destination, source, bytes, of an effect. -/
def Due.rec_ (d : Due) (th kind dkind dst src : Nat) (bs : List PByte) : FlightRec :=
  { value := pval (bs.take 64), src := src, dkind := dkind, dst := dst, due := d.due - th, kind := kind, len := max 1 (min 64 bs.length),
    buf := d.o.buf, orig := d.o.slot, poison := markBits bs, low := 0 }

/-- The records of more bytes than one holds: 64 in each, at destinations that follow by a step. -/
def Due.recs (d : Due) (th kind dkind dst step src : Nat) (bs : List PByte) : List FlightRec :=
  (List.range ((max 1 bs.length + 63) / 64)).map (fun i =>
    d.rec_ th kind dkind (dst + step * i) (if kind = 1 then src + 64 * i else 0) ((bs.drop (64 * i)).take 64))

/-- A scratch address in DST: the tile's identity above its slice offset (DESIGN CHOICE, log 30). -/
def slicePlace (gid off : Nat) : Nat := gid * 2 ^ 21 + off

/-- The destination kind and address of a place. -/
def Place.target (p : Place) : Nat × Nat :=
  match p with
  | .scratch gid off => (3, slicePlace gid off)
  | .dev l => (5, l.addr)
  | _ => (3, 0)

/-- The source address of a pending read. -/
def Place.source (p : Place) : Nat := p.target.2

/-- Where a pending read's value goes. R51 gives DST an index, a number or an address: a tree post has its handle times 2^24 plus the
segment, an accumulator line its offset in the group (DESIGN CHOICE, log 30). -/
def After.target (a : After) : Nat × Nat :=
  match a with
  | .toReg code _ _ _ => (0, code)
  | .toBeat dst _ _ _ => dst.target
  | .toPost h seg _ _ _ => (8, h * 2 ^ 24 + seg)
  | .toAcc _ off _ => (4, off)
  | .toPush ch _ _ _ _ => (6, ch)
  | .toRow _ => (3, 0)

/-- Bytes that follow one another in one tile's slice, by rising address. -/
def putRuns : List (Nat × PByte) → List (Nat × List PByte)
  | [] => []
  | (a, b) :: es =>
    match putRuns es with
    | [] => [(a, [b])]
    | (m, bs) :: rs => if m = a + 1 ∧ bs.length < 64 then (a, b :: bs) :: rs else (a, [b]) :: (m, bs) :: rs

/-- The records of an effect; none when the image holds it as tile state: what no DKIND names, CHSEND before its push, XPAT, the steps of
a nest and of a factorisation (R50). -/
def Due.flight (d : Due) (th : Nat) : List FlightRec :=
  match d.job with
  | .sreg code v p => [d.rec_ th 0 0 code 0 (pbytes 8 v.toNat p)]
  | .pred n v => [d.rec_ th 0 1 n 0 (pbytes 1 (if v then 1 else 0) false)]
  | .vent e v en p =>
    (if en.toNat % 2 ^ 512 = 0 then []
      else [{ d.rec_ th 0 2 e 0 (pbytes 64 v.toNat false) with poison := p.toNat % 2 ^ 16 }])
    ++ (if en.toNat / 2 ^ 512 = 0 then []
      else [{ d.rec_ th 0 2 (128 + e) 0 (pbytes 64 (v.toNat / 2 ^ 512) false) with poison := p.toNat / 2 ^ 16 }])
  | .mask n v _ => [d.rec_ th 0 9 n 0 (pbytes 16 v.toNat false)]
  | .flags f => [d.rec_ th 0 7 4 0 (pbytes 8 f false)]
  | .sysw r v => [d.rec_ th 0 7 r 0 (pbytes 8 v.toNat false)]
  | .fmt v => [d.rec_ th 0 7 6 0 (pbytes 8 v false)]
  | .hist bins => bins.map (fun b => d.rec_ th 0 7 (0x200 + b) 0 (pbytes 8 1 false))
  | .ringc h base size _ => [d.rec_ th 0 7 (0x70 + h) 0 (pbytes 8 ({ base := base, size := size, head := 0, tail := 0 } : Ring).word.toNat false)]
  | .advr h _ _ => [d.rec_ th 0 7 (0x70 + h) 0 (pbytes 8 0 false)]
  | .read _ src n a =>
    (match a with
     | .toPush _ _ _ _ _ => []
     | .toRow _ => []
     | _ => [{ d.rec_ th 1 a.target.1 a.target.2 src.source [] with len := max 1 (min 64 n) }])
  | .write _ dst bs => d.recs th 2 dst.target.1 dst.target.2 64 0 bs
  | .put bs => (putRuns bs).map (fun r => d.rec_ th 2 3 (slicePlace d.o.gid r.1) 0 r.2)
  | .vread reads _ e _ _ => [{ d.rec_ th 1 2 e (slicePlace d.o.gid (nthD 0 reads 0)) [] with len := max 1 (min 64 reads.length) }]
  | .atom _ l w b _ p _ _ => [d.rec_ th 3 5 l.addr 0 (pbytes w b p)]
  | .barrier u _ _ _ => [d.rec_ th 3 5 u.loc.addr 0 (pbytes 4 u.n false)]
  | .sacc off p q _ _ _ _ => [d.rec_ th 3 3 (slicePlace d.o.gid off) 0 (pbytes 8 p q)]
  | .ctrsnap off bs => d.recs th 2 3 (slicePlace d.o.gid off) 64 0 bs
  | .arrive ch bs => d.recs th 2 6 ch 0 0 bs
  | .mzero _ bank nb => (List.range (32 * nb)).map (fun i => d.rec_ th 2 4 ((2048 * bank + 64 * i) % 2 ^ 20) 0 (pbytes 64 0 false))
  | .accGet _ off dst _ => [{ d.rec_ th 1 3 (slicePlace d.o.gid dst) off [] with len := 64 }]
  | .accPut _ off bs => d.recs th 2 4 off 64 0 bs
  | .mchk _ c _ _ base _ => [{ d.rec_ th 1 3 (slicePlace d.o.gid base) c [] with len := 64 }]
  | .deliver _ _ _ _ p bs => d.recs th 2 p.target.1 p.target.2 64 0 bs
  | _ => []

/-- A SNAP whose value is on its way to its register, as an effect (R50, R292). -/
def SnapReq.due (r : SnapReq) : Due :=
  { due := r.c + 600, o := { gid := r.gid, slot := 6, addr := r.addr, issue := r.t, buf := 0 }
    job := .sreg r.code (BitVec.ofNat 64 (r.g * 2 ^ 48 + r.status * 2 ^ 40)) false }

/-- A GENQ whose value is on its way to its register (R50, R294). -/
def GenqReq.pending (r : GenqReq) : Due :=
  { due := r.t + 600, o := { gid := r.gid, slot := 6, addr := r.addr, issue := r.t, buf := 0 }
    job := .sreg r.code (BitVec.ofNat 64 (r.g * 2 ^ 48 + r.live * 2 ^ 45 + r.blocks)) false }

/-- The records of a gang, with the place of each one's effect and its number among those of that effect. -/
def Gang.flights (g : Gang) : List (Nat × Nat × FlightRec) :=
  let all := g.dues ++ g.snaps.map SnapReq.due ++ g.genqs.map GenqReq.pending
  ((List.range all.length).zip all).flatMap (fun e =>
    let rs := e.2.flight g.lcyc
    ((List.range rs.length).zip rs).map (fun r => (e.1, r.1, r.2)))

/-- Bytes of a record's value with its marks. -/
def FlightRec.bytes (r : FlightRec) (n : Nat) : List PByte :=
  ((List.range n).zip (leBytes n r.value)).map (fun e => { b := e.2, p := bitAt r.poison (e.1 / 4) })

/-- Bytes with the sixty-four of a part replaced by those of a record. -/
def FlightRec.patch (r : FlightRec) (part : Nat) (bs : List PByte) : List PByte :=
  bs.take (64 * part) ++ r.bytes (min 64 (bs.length - 64 * part)) ++ bs.drop (64 * part + 64)

/-- A place as a record's DST moves it: another slice offset of a tile, another address of a page (R436). -/
def Place.moved (p : Place) (part dst : Nat) : Place :=
  match p with
  | .scratch _ _ => .scratch (dst / 2 ^ 21) (dst % 2 ^ 21 - 64 * part)
  | .dev l => .dev { l with addr := dst - 64 * part }
  | q => q

/-- An effect as an edited record has it: its value, its marks, its cycle, its destination (R436). -/
def Due.edited (d : Due) (th part : Nat) (r : FlightRec) : Due :=
  let p := r.poison ≠ 0
  { d with
    due := th + r.due
    o := { d.o with buf := r.buf }
    job := match d.job with
      | .sreg _ _ _ => .sreg r.dst (BitVec.ofNat 64 r.value) p
      | .pred _ _ => .pred r.dst (r.value % 2 = 1)
      | .vent e v en q =>
        if r.dst < 128 then .vent (r.dst % 128) (BitVec.ofNat 1024 (v.toNat / 2 ^ 512 * 2 ^ 512 + r.value)) en
          (BitVec.ofNat 32 (q.toNat / 2 ^ 16 * 2 ^ 16 + r.poison))
        else .vent e (BitVec.ofNat 1024 (v.toNat % 2 ^ 512 + r.value * 2 ^ 512)) en
          (BitVec.ofNat 32 (q.toNat % 2 ^ 16 + r.poison * 2 ^ 16))
      | .mask _ _ en => .mask r.dst (BitVec.ofNat 128 r.value) en
      | .flags _ => .flags (r.value % 128)
      | .sysw _ _ => .sysw r.dst (BitVec.ofNat 64 r.value)
      | .fmt _ => .fmt (r.value % 2 ^ 16)
      | .hist bins => .hist (bins.set part (r.dst % 64))
      | .read port src n (.toReg _ size sz due) => .read port src n (.toReg r.dst size sz due)
      | .read port src n (.toBeat dst due a b) => .read port src n (.toBeat (dst.moved 0 r.dst) due a b)
      | .write port dst bs => .write port (dst.moved part r.dst) (r.patch part bs)
      | .atom op l w _ c _ code due => .atom op { l with addr := r.dst } w (r.value % 2 ^ 128) c p code due
      | .barrier u rest code due => .barrier { u with n := r.value % 2 ^ 32 } rest code due
      | .sacc off _ _ draw sty mode sat => .sacc off (r.value % 2 ^ 64) p draw sty mode sat
      | .ctrsnap off bs => .ctrsnap off (r.patch part bs)
      | .arrive _ bs => .arrive r.dst (r.patch part bs)
      | .accPut ag _ bs => .accPut ag (r.dst - 64 * part) (r.patch part bs)
      | .deliver h seg b f dst bs => .deliver h seg b f (dst.moved part r.dst) (r.patch part bs)
      | j => j }

/-- The i-th record of a gang replaced; nothing when a field is outside its limits or names another kind of effect (R52, R436). -/
def Gang.editFlight (g : Gang) (i : Nat) (r : FlightRec) : Gang :=
  match g.flights[i]? with
  | none => g
  | some (k, part, old) =>
    if r.ok ∧ r.kind = old.kind ∧ r.dkind = old.dkind then { g with dues := g.dues.modify k (fun d => d.edited g.lcyc part r) } else g

/-- A tile without a fault record: what a drain image holds (R48, R417). -/
def Tile.noFault (x : Tile) : Tile := { x with fault := FaultRec.empty }

/-- The image of a gang: kind 1 of a drain, 2 of a freeze, with the number of its generation (R48, R50, R405). -/
def Gang.image (g : Gang) (kind gen : Nat) : Image :=
  { kind := kind
    gang := { g with drain := none, stopAt := none, resumeAt := none,
                     tiles := if kind = 1 then g.tiles.map (fun e => (e.1, e.2.noFault)) else g.tiles }
    records := if kind = 2 then g.flights.map (fun e => e.2.2) else [], intact := true, gen := gen }

/-! ### Fault holds and saves (R41, R398, R405, R436) -/

/-- The freeze image of a gang that stands, left to be read (R41, R436). -/
def State.snapGang (s : State) (t : Nat) : State :=
  s.onTask t (fun x => { x with snap := x.gang.map (fun g => g.image 2 0) })

/-- A fault hold: held for a debugger that has claimed the task, its image there to be read; else a freeze image when the descriptor
asks for one, then the end with FAULT (R41, R436). -/
def State.endFaultHold (s : State) (t : Nat) : State :=
  match s.task t, s.gang t with
  | some x, some g =>
    if bitAt g.dctl 4 then s.snapGang t
    else if x.desc.fimg then s.onTask t (fun y => { y with st := .saving 2 2 })
    else s.endTask t (0x100 + g.faultClass)
  | _, _ => s

/-- A save of a task's gang begins: 1 a drain image, 2 a freeze image; then it parks or is queued (R398, R405). -/
def State.startSave (s : State) (t kind : Nat) : State :=
  s.onTask t (fun x => { x with st := .saving kind (if x.park then 1 else 0) })

/-! ### HOLD_FREEZE (R41, R43, R46, R50, R53) -/

/-- A hold that stands although every tile has halted: a fault hold, and the end of a step, which is the debugger's (R53, R61). -/
def Gang.standsHalted (g : Gang) (h : Hold) : Bool := h.cause == 5 || (g.dctl % 8 == 1 && h.cause == 3)

/-- The gang stops at the target of its earliest hold; what each due cause asks for is done at the freeze. Other holds are cancelled
when every tile has halted. -/
def State.freezeGang (s : State) (t : Nat) : State :=
  match s.gang t with
  | none => s
  | some g =>
    if g.dueHolds.isEmpty ∨ g.isHeld then s
    else if g.allHalted ∧ !g.dueHolds.any g.standsHalted then
      s.onGang t (fun g => { g with holds := g.holds.filter g.standsHalted })
    else
      let s := s.onTask t (fun x => { x with st := .held })
      let s := s.onGang t (fun g => { g with run := .frozen g.lcyc, heldSince := s.wall, resumeAt := none })
      let s := if g.holdsFor 0 then s.refillArms t else s
      let s := if g.holdsFor 1 then (if g.tableBad then s.killTask t endCONTAINMENT else s.onGang t Gang.reload) else s
      let s := match g.dctlNext with
        | some m => if g.holdsFor 3 then s.applyMode t m else s
        | none => s
      if (s.gang t).isNone then s
      else
        let s := if g.holdsFor 3 then s.snapGang t else s
        if g.holdsFor 5 then s.endFaultHold t else if g.holdsFor 2 then s.startSave t 2 else s

def execHoldFreeze (s : State) : Outcome := .next (s.freezeGang s.evTask)

/-! ### HOLD_RESUME (R44, R45, R372) -/

/-- Whether every cause of a freeze is resolved: a debug hold ends with its release, a link's with its width change, a fault hold
never; a gang in step mode goes on by steps alone (R61, R418, R435, R449). -/
def Gang.resolved (g : Gang) : Bool := !(g.holdsFor 3 || g.holdsFor 4 || g.holdsFor 5) && g.dctl % 8 != 1

/-- Whether a task waits for its resumption. -/
def Task.resting (x : Task) : Bool := x.st == .held || x.st == .restoring

/-- The resumption of a gang is announced at least its horizon ahead, when is free (R45, R435; DESIGN CHOICE, log 1). -/
def State.planResume (s : State) (t : Nat) : State :=
  match s.task t, s.gang t with
  | some x, some g =>
    if x.resting ∧ g.resumeAt.isNone ∧ g.resolved then
      let r := s.choose (2 ^ 32)
      r.2.onGang t (fun g => { g with resumeAt := some (s.wall + g.horizon + r.1) })
    else s
  | _, _ => s

/-- The wall cycles of a freeze are charged: to the buffers of the accesses and arms that caused it, and to the counters of hold
cycles of every tile (R44, R169, R372). -/
def Gang.chargeHold (g : Gang) (n : Nat) : Gang :=
  let due := dedupNat ((g.dueHolds.filter (fun h => h.cause < 2 && h.buf < 64)).map (fun h => h.gid * 64 + h.buf))
  let g := due.foldl (fun (g : Gang) k => g.onTile (k / 64) (fun x =>
    { x with bhc := put 0 x.bhc (k % 64) (look 0 x.bhc (k % 64) + BitVec.ofNat 64 n) })) g
  { g with tiles := g.tiles.map (fun e => (e.1, e.2.count 0x04 n)) }

/-- A gang runs on from the cycle at which it stood; the holds that are over are gone. -/
def Gang.resume (g : Gang) (wall : Nat) : Gang :=
  let h := match g.run with
    | .frozen _ => g.chargeHold (wall - g.heldSince)
    | _ => g
  { h with holds := g.holds.filter (fun x => g.lcyc < x.th), run := .running, resumeAt := none }

/-- The frozen trees that a gang uses are thawed before it resumes; none while another gang of one has no place, or slots lack
(R366). -/
def State.thawAll (s : State) (t : Nat) : Option State :=
  (s.trees.filter (fun e => e.2.frozen && (s.treeUsers e.1).contains t)).foldl (fun acc e => acc.bind (fun s =>
    if (s.treeUsers e.1).any (fun u => (s.gang u).isNone) then none
    else (find? s.trees e.1).bind (s.thawTree e.1))) (some s)

/-- A gang that stands runs on; the image that a hold left of it is gone. -/
def State.runOn (s : State) (t : Nat) : State :=
  (s.onTask t (fun x => { x with st := .running, snap := none })).onGang t (fun g => g.resume s.wall)

/-- HOLD_RESUME at the wall instant that was announced. -/
def State.resumeGang (s : State) (t : Nat) : State :=
  match s.task t, s.gang t with
  | some x, some g =>
    (match g.resumeAt with
     | some w =>
       if w ≤ s.wall ∧ x.resting ∧ g.resolved then
         (match s.thawAll t with
          | some s => s.runOn t
          | none => s)
       else s
     | none => s)
  | _, _ => s

def execHoldResume (s : State) : Outcome := .next (s.resumeGang s.evTask)

/-! ### Drains (R48) -/

/-- DRNLIM counts as gang identity 0 holds it at Td; the drain keeps one more than it. -/
def Gang.readDrainLimit (g : Gang) : Gang :=
  match g.drain with
  | some (td, 0) => if g.lcyc = td then { g with drain := some (td, ((g.tile 0).map (·.drnlim)).getD 0 + 1) } else g
  | _ => g

/-- DRAIN_STOP: the gang stands at the new base of its drain point, and its drain image is saved. A drain image carries no fault: when
one was recorded up to the base, the gang runs on, and the drain looks for a later drain point (R48; DEDUCED, log 29). -/
def State.drainStop (s : State) (t : Nat) : State :=
  match s.gang t with
  | none => s
  | some g =>
    match g.stopAt with
    | some b =>
      if g.tiles.any (fun e => e.2.fault.v) then s.onGang t (fun g => { g with stopAt := none })
      else if b ≤ g.lcyc ∧ !g.isHeld then
        (s.onGang t (fun g => { g with run := .drained b, stopAt := none, drain := none, heldSince := s.wall })).startSave t 1
      else s
    | none => s

def execDrainStop (s : State) : Outcome := .next (s.drainStop s.evTask)

/-- Whether a drain has found no drain point within its limit, asked after the SYNCs of the cycle (R48). -/
def Gang.drainLate (g : Gang) : Bool :=
  match g.drain with
  | some (td, l) => l ≠ 0 && g.stopAt.isNone && td + l ≤ g.lcyc + 1
  | none => false

/-- DRAIN_LIMIT_EXPIRY: a checkpoint hold is announced instead. -/
def execDrainLimitExpiry (s : State) : Outcome :=
  .next (s.onGang s.evTask (fun g => if g.drainLate then { g.announce 2 0 64 with drain := none } else g))

/-! ### IMAGE_SAVE_COMPLETE (R48, R50, R398, R405, R449) -/

/-- A task goes to the head of its function's queue. -/
def State.toFront (s : State) (t : Nat) : State :=
  { s with front := s.front + 1 }.onTask t (fun x => { x with order := -((s.front : Int) + 1), waited := 0 })

/-- A save is over: the tiles are free, the task is queued at the head of its function's queue, parked, or ends; an image that is kept
for a restore is written into a generation (R405). A drained or checkpointed task has not ended: no rule says when a task ends with
DRAINED or CHECKPOINTED, and none does (R55; DESIGN CHOICE, log 31). -/
def State.saveDone (s : State) (t : Nat) : State :=
  match s.task t, s.gang t with
  | some x, some g =>
    (match x.st with
     | .saving kind next =>
       let held (st : TaskState) : State :=
         let s := ({ s with imageGens := s.imageGens + 1 }.keepLimits g).leaveTiles g
         s.onTask t (fun x => { x with st := st, gang := none, image := some (g.image kind s.imageGens), park := false, redecide := none,
                                       extended := false, killAt := none, snap := none, dueBy := none })
       let kept := (s.snapGang t).onTask t (fun x => { x with fimg := true })
       (match next with
        | 1 => held .parked
        | 2 => kept.endTask t (0x100 + g.faultClass)
        | 4 => kept.endTask t endLINK_NARROWED
        | _ => (held .queued).toFront t)
     | _ => s)
  | _, _ => s

def execImageSaveComplete (s : State) : Outcome := .next (s.saveDone (s.arg 0))

/-! ### DRAIN_RESTORE, FREEZE_RESTORE (R49, R52, R353, R366, R411, R466) -/

/-- The generation domains of a gang (R290, R291). -/
def Gang.genDomains (g : Gang) : List Nat :=
  dedupNat ((g.table.filter (fun e => xlValid e.2 && bitsOf e.2 58 56 != 0)).map (fun e => bitsOf e.2 58 56))

/-- Every word of a table of bytes written back, with its marks. -/
def State.writeWords (s : State) (t : Tbl PByte) : State :=
  (savedRuns (t.map (fun e => (rawLoc e.1, e.2)))).foldl (fun s r => s.devWrite r.1.addr r.2) s

/-- A domain reverts to its newest live generation; the words that the generation holds uncorrectable are so again (R411, R437). -/
def State.revertDomain (s : State) (t dom : Nat) : State :=
  match (s.liveGens t dom).getLast? with
  | none => s
  | some g =>
    let s := s.writeWords g.old
    { s with devBad := g.bad.foldl addNum s.devBad }

/-- A restore that fails: the task ends; with SNAPRST, when every generation domain has a live generation, the domains revert and
the descriptor is launched again under a new id, its dependences being met already (R411; DEDUCED, log 20). -/
def State.restoreFails (s : State) (x : Task) (g : Gang) : State :=
  let doms := g.genDomains
  if x.desc.snaprst ∧ doms.all (fun d => !(s.liveGens x.id d).isEmpty) then
    let s := (s.onTask x.id (fun y => { y with restarted := true })).endTask x.id endRESTORE_FAILED
    let s := doms.foldl (fun s d => s.revertDomain x.id d) s
    let id := s.nextTaskId x.fn
    (s.submit x.fn x.desc 0 x.home 0 none).onTask id (fun y => { y with deps := [] })
  else s.endTask x.id endRESTORE_FAILED

/-- The placements of a restore in the order in which they are asked: the one that the task last ran on, the listed ones by index, each on
the packages that it last ran on and then on others (R466). -/
def State.restoreOrder (s : State) (x : Task) (g : Gang) : List (List Nat × Nat) :=
  match s.needs x with
  | none => []
  | some (sh, fixed) =>
    let listed := sortBy id g.places
    let allowed := if x.desc.place = 0xFF then (listed.filter (· == g.placeIdx)) ++ listed else [x.desc.place]
    let sets := g.pkgs :: s.packageSets sh.p fixed
    allowed.flatMap (fun i => sets.map (fun q => (q, i)))

/-- The placement that a restore takes: packages and index (R466). -/
def State.restorePlace (s : State) (x : Task) (g : Gang) : Option (List Nat × Nat) :=
  (s.restoreOrder x g).find? (fun e => s.placeFree x e.1 e.2 g.shape && s.itsTurn x g.t e)

/-- Whether a task may be restored now: none of its frames is quarantined and none of its pages is moving (R243, R409). -/
def State.restoreReady (s : State) (x : Task) : Bool :=
  s.cfg.verified && x.frames.all (fun r => (upFrom r.1 r.2).all (fun f => !s.frameQuarantined f))
    && !s.migrations.any (fun m => m.task == x.id)

/-- A saved gang on other tiles: its tables and streams are loaded anew, DCTL is 0, QBOUND and DRNLIM are the tiles' own; of its
holds those of its accesses and arms are still to be charged (R49, R52, R57, R432). -/
def Gang.placed (g : Gang) (pkgs : List Nat) (place : Nat) (limits : Nat → Nat × Nat) : Gang :=
  { g with
    pkgs := pkgs
    placeIdx := place
    dctl := 0
    dctlNext := none
    holds := g.holds.filter (fun h => g.lcyc < h.th || h.cause < 2)
    tiles := g.tiles.map (fun e => (e.1, { e.2 with
      prim := g.table
      shadow := g.table
      badWords := []
      qbound := (limits e.1).1
      drnlim := (limits e.1).2 })) }

/-- The arms of a gang are pinned in the routers of its placement, for each of its trees that is not frozen; none when slots lack
(R355, R366). -/
def State.repin (s : State) (t : Nat) : Option State :=
  (s.trees.filter (fun e => e.2.users.contains t && !e.2.frozen)).foldl (fun acc e => acc.bind (fun s =>
    match s.gang t with
    | none => some s
    | some g => ((g.arms e.1).filter (fun a => a.2.live && a.2.pinned)).foldl (fun acc a => acc.bind (fun s =>
        (s.refillPath g e.1 (g.armEnds e.2 a.2.mi)).map (fun s => s.pinArm t a.1 g e.2 e.1 a.2)))
      (some (s.unpin e.1 (fun p => p.1 == t))))) (some s)

/-- A saved gang stands on a placement, before its resumption. -/
def State.place (s : State) (x : Task) (h : Gang) : Option State :=
  ((((s.uncacheHost h).clearIdle h).onTask x.id (fun y =>
    { y with st := .restoring, gang := some h, image := none, waited := 0, dueBy := none })).releaseLaunches x.id).repin x.id

/-- A restore: its checks, then the gang on its tiles, standing where it was saved. -/
def State.restore (s : State) (x : Task) (i : Image) : State :=
  let g := i.gang
  if !i.intact ∨ !i.records.all FlightRec.ok ∨ !g.tiles.all (fun e => s.armsOk x.fn g.t e.2.armList) then s.restoreFails x g
  else if s.restoreReady x = false then s
  else
    match s.restorePlace x g with
    | none => s
    | some (pkgs, place) => (s.place x (s.withDebug (g.placed pkgs place (s.limitsAt pkgs place g.t)))).getD s

/-- A restore of a queued task with an image of a kind. -/
def State.restoreTask (s : State) (t kind : Nat) : State :=
  match s.task t with
  | none => s
  | some x =>
    match x.st, x.image with
    | .queued, some i => if i.kind = kind then s.restore x i else s
    | _, _ => s

def execDrainRestore (s : State) : Outcome := .next (s.restoreTask (s.arg 0) 1)
def execFreezeRestore (s : State) : Outcome := .next (s.restoreTask (s.arg 0) 2)

/-! ### TASK_RETIRE (R54) -/

/-- Nothing of a tile is on its way: no nest, no factorisation, no arm in force, no element in an outgoing FIFO. -/
def Tile.drained (x : Tile) : Bool :=
  x.nest.isNone && x.nestPending.isNone && x.factor.isNone && !x.arms.any (fun a => a.live && a.pinned)
    && x.fifos.all (fun e => (x.chan e.1).mode != 1 || e.2.elems.isEmpty)

/-- Every tile has halted, no fault has been taken, all traffic has drained. -/
def State.canRetire (s : State) (t : Nat) (g : Gang) : Bool :=
  g.allHalted && !g.anyFault && g.doom.isNone && g.dues.isEmpty && g.staged.isEmpty && g.snaps.isEmpty && g.genqs.isEmpty
    && g.tiles.all (fun e => e.2.drained)
    && s.trees.all (fun e => e.2.ranges.all (fun q => q.task != t) && e.2.out.all (fun d => d.task != t))

/-- TASK_RETIRE: the task ends with DONE. TLAUNCH requests that step mode still holds enter the serialiser before (R62 gives the kill
alone; DESIGN CHOICE, log 32). -/
def State.retire (s : State) (t : Nat) : State :=
  match s.task t, s.gang t with
  | some x, some g => if x.st = .running ∧ s.canRetire t g then (s.releaseLaunches t).endTask t endDONE else s
  | _, _ => s

def execTaskRetire (s : State) : Outcome := .next (s.retire s.evTask)

/-! ### TPRE (R398) -/

/-- A checkpoint is asked for: a hold of a running gang, the freeze of a held one; a fault hold never ends this way
(R53, R418). -/
def State.askCheckpoint (s : State) (t extra : Nat) : State :=
  match s.task t, s.gang t with
  | some x, some g =>
    if x.st = .held then (if g.holdsFor 5 then s else s.startSave t 2)
    else if g.holds.any (fun h => h.cause == 2) then s
    else s.onGang t (fun g => { g.announceAt 2 (g.lcyc + g.horizon + extra) 0 with drain := none })
  | _, _ => s

/-- A drain is asked for, with a target at least the horizon ahead. -/
def State.askDrain (s : State) (t extra : Nat) : State :=
  s.onGang t (fun g =>
    if g.drain.isSome ∨ g.holdsFor 5 ∨ g.holds.any (fun h => h.cause == 2) then g
    else { g with drain := some (g.lcyc + g.horizon + extra, 0) })

/-- TPRE of modes 1 and 2 by the state of the task: policy bit and request; how far the target lies beyond the horizon is free
(DESIGN CHOICE, log 1). -/
def State.tprePark (s : State) (d a bit : Nat) (ask : State → Nat → Nat → State) : State :=
  s.onOwnTask d ((s.me.reg a).toNat % 2 ^ 32) (fun x =>
    match x.st with
    | .ended _ => s.status d stNOTASK
    | .waiting => (s.onTask x.id (fun y => { y with st := .parked })).status d stOK
    | .queued => (s.onTask x.id (fun y => { y with st := .parked })).status d stOK
    | .running | .held =>
      if bitAt x.desc.policy bit then
        let r := s.choose (2 ^ 16)
        (ask (r.2.onTask x.id (fun y => { y with park := true })) x.id r.1).status d stOK
      else s.status d stDENIED
    | .saving _ _ | .parked | .restoring => s.status d stBUSY)

/-- TPRE with mode 1; the reserved mode 0 raises cause 1 (R379, R398; DEDUCED, log 18). -/
def execTpreDrain (d a b g n : Nat) (s : State) : Outcome :=
  s.guarded g n (fun s => .next (if (s.me.reg b).toNat % 4 = 0 then s.exception 1 0 else s.tprePark d a 1 State.askDrain))

/-- TPRE with mode 2. -/
def execTpreCheckpoint (d a _b g n : Nat) (s : State) : Outcome :=
  s.guarded g n (fun s => .next (s.tprePark d a 2 State.askCheckpoint))

/-- A parked task is queued again, at the head of its function's queue. -/
def State.requeue (s : State) (x : Task) : State :=
  let st : TaskState := if x.image.isSome ∨ x.deps.all s.depMet then .queued else .waiting
  (s.onTask x.id (fun y => { y with st := st })).toFront x.id

/-- TPRE with mode 3. -/
def execTpreRequeue (d a _b g n : Nat) (s : State) : Outcome :=
  s.guarded g n (fun s => .next (s.onOwnTask d ((s.me.reg a).toNat % 2 ^ 32) (fun x =>
    match x.st with
    | .ended _ => s.status d stNOTASK
    | .parked => (s.requeue x).status d stOK
    | _ => s.status d stBUSY)))

end Sys2Proof.Machine
end

