-- ==== Sys2Proof/Machine/Debugger.lean ====
section
/-! DEFINITION. The debugger: steps, DCTL, breakpoints and watch ranges, releases, edits of a freeze image (02 R61 and R62,
25 R418, R432 to R436). -/
namespace Sys2Proof.Machine

/-! ### DEBUG_STEP (R61) -/

/-- A gang in step mode that only the debugger holds runs one cycle and is held again; its frozen trees are thawed before (R61, R366). -/
def State.stepGang (s : State) (t : Nat) : State :=
  match s.task t, s.gang t with
  | some x, some g =>
    if x.st = .held ∧ g.dctl % 8 = 1 ∧ g.holdsFor 4 = false ∧ g.holdsFor 5 = false then
      (match s.thawAll t with
       | some s => (s.runOn t).onGang t (fun g => g.announceAt 3 (g.lcyc + 1) 0)
       | none => s)
    else s
  | _, _ => s

def execDebugStep (s : State) : Outcome := .next (s.stepGang s.evTask)

/-! ### DCTL_WRITE (R432, R434, R435) -/

/-- A write of DCTL: nothing for a reserved mode; CLAIM and DBGB at once, MODE at once while the gang is held, else at its next
debug hold. With CLAIM := 0 the debugger releases the task and the requests that step mode held (R62); a fault hold whose claim
ends is over (R41, R418). -/
def State.writeDctl (s : State) (t v : Nat) : State :=
  match s.task t, s.gang t with
  | some x, some g =>
    if 3 ≤ v % 8 then s
    else
      let s := s.onGang t (fun g => { g with dctl := g.dctl % 8 + v / 8 % 4 * 8 })
      let s :=
        if x.st = .held then
          (if g.dctl % 8 = v % 8 then s else (s.applyMode t (v % 8)).onGang t (fun g => { g with resumeAt := none }))
        else s.onGang t (fun g => { g with dctlNext := some (v % 8) })
      let s := if bitAt g.dctl 4 ∧ !bitAt v 4 then s.releaseLaunches t else s
      if x.st = .held ∧ g.holdsFor 5 ∧ !bitAt v 4 then s.endTask t (0x100 + g.faultClass) else s
  | _, _ => s

def execDctlWrite (s : State) : Outcome := .next (s.writeDctl s.evTask (s.arg 1))

/-! ### DEBUG_REGISTER_WRITE (R432) -/

/-- The fields of a debug register, 0 to 7 BPA and 8 to 11 WR; reserved bits are 0. -/
def debugFields (r v : Nat) : Word :=
  if r < 8 then BitVec.ofNat 64 (bitsOf v 63 63 * 2 ^ 63 + bitsOf v 31 0)
  else BitVec.ofNat 64 (bitsOf v 63 61 * 2 ^ 61 + bitsOf v 41 0)

/-- A debug register of a tile that runs a task. -/
def Tile.setDebug (x : Tile) (r : Nat) (v : Nat) : Tile :=
  if r < 8 then { x with bpa := put 0 x.bpa r (debugFields r v) }
  else if r < 12 then { x with wr := put 0 x.wr (r - 8) (debugFields r v) }
  else x

/-- A debug register of a physical tile, whether a task runs there or not (R432). -/
def State.writeDebug (s : State) (p phys r v : Nat) : State :=
  if 12 ≤ r ∨ 32 ≤ phys then s
  else
    let k := s.pkg p
    let s := s.setPkg p { k with debug := setKey k.debug phys (put 0 (look [] k.debug phys) r (debugFields r v)) }
    match s.tileAt p phys with
    | some (t, gid) => s.onTile t gid (fun x => x.setDebug r v)
    | none => s

def execDebugRegisterWrite (s : State) : Outcome := .next (s.writeDebug (s.arg 0) (s.arg 1) (s.arg 2) (s.arg 3))

/-! ### DEBUG_RELEASE, DEBUG_HOLD_RELEASE (R62, R418, R435) -/

/-- DEBUG_RELEASE: the requests that step mode held enter the serialiser, and the task of a fault hold ends with FAULT. -/
def execDebugRelease (s : State) : Outcome :=
  let t := s.evTask
  .next (match s.task t, s.gang t with
    | some x, some g =>
      if x.st = .held ∧ g.holdsFor 5 then (s.releaseLaunches t).endTask t (0x100 + g.faultClass) else s
    | _, _ => s)

/-- DEBUG_HOLD_RELEASE: the debug holds that are due are over, and the requests that step mode held enter the serialiser; the
resumption is announced when no other cause is left. -/
def execDebugHoldRelease (s : State) : Outcome :=
  let t := s.evTask
  .next (match s.task t with
    | some x =>
      if x.st = .held then
        ((s.releaseLaunches t).onGang t (fun g => { g with holds := g.holds.filter (fun h => g.lcyc < h.th || h.cause != 3) })).planResume t
      else s
    | none => s)

/-! ### FREEZE_IMAGE_EDIT (R417, R436) -/

/-- FAULTREC as its four registers read. -/
def FaultRec.setWord (f : FaultRec) (i : Nat) (v : Nat) : FaultRec :=
  match i with
  | 0 => { f with v := bitAt v 63, ovf := bitsOf v 47 40, slot := bitsOf v 34 32, cls := bitsOf v 23 16, detail := bitsOf v 15 0 }
  | 1 => { f with cycle := v % 2 ^ 64 }
  | 2 => { f with addr := v % 2 ^ 32 }
  | 3 => { f with info := BitVec.ofNat 64 v }
  | _ => f

/-- The word of CRSTK as a region's fields; what the region saved stays (R426). -/
def Region.setWord (r : Region) (v : Nat) : Region :=
  { r with v := bitAt v 63, failed := bitAt v 62, pseen := bitAt v 61, point := bitsOf v 60 57, ldep := bitsOf v 56 54,
           mg := bitsOf v 47 32, haddr := bitsOf v 31 0 }

/-- A system register in an image, those that no instruction writes among them; none for a value out of limits (R168). -/
def Tile.editSystem (x : Tile) (r v : Nat) : Option Tile :=
  if 2 ^ 64 ≤ v then none
  else if r = 0x006 then (if v < 2 ^ 16 then some { x with fmtr := v } else none)
  else if r = 0x007 then some { x with jbase := v }
  else if 0x018 ≤ r ∧ r < 0x01C then some { x with fault := x.fault.setWord (r - 0x018) v }
  else if r = 0x020 then some { x with grow := v }
  else if r = 0x021 then some { x with fstat := v }
  else if 0x030 ≤ r ∧ r < 0x034 then (if bitsOf v 53 48 = 0 ∧ bitsOf v 60 57 < 7 then some (x.onRegion (r - 0x030) (·.setWord v)) else none)
  else if 0x070 ≤ r ∧ r < 0x080 then (if ringOk v then some { x with rings := put Ring.default x.rings (r - 0x070) (ringOf v) } else none)
  else if 0x200 ≤ r ∧ r < 0x240 then some { x with hc := put 0 x.hc (r - 0x200) v }
  else if sregWritable r ∧ sregValueOk r (BitVec.ofNat 64 v) then some (x.setSysReg r (BitVec.ofNat 64 v))
  else none

/-- A field of an entry of the loop stack: count, index, START, END, LB, IB. -/
def LoopEntry.edit (e : LoopEntry) (field v : Nat) : LoopEntry :=
  match field with
  | 0 => { e with count := v }
  | 1 => { e with idx := v }
  | 2 => { e with start := v }
  | 3 => { e with stop := v }
  | 4 => { e with lb := v }
  | _ => { e with ib := v }

/-- A byte of an element of a FIFO: number of the element times 4,096 plus the byte. -/
def Fifo.edit (f : Fifo) (n v : Nat) : Fifo :=
  { f with elems := f.elems.modify (n / 4096) (fun e => { e with data := e.data.modify (n % 4096) (fun b => { b with b := BitVec.ofNat 8 v }) }) }

/-- A field of a tile in a freeze image, by kind, number, value and mark: 1 a scalar register, 2 a predicate, 3 a system register, 4 a
byte of the slice, 5 PC, 6 a mask, 7 an entry of the vector file, 8 a word's mark in the slice, 9 one in accumulator memory, 10 a
field of the loop stack (eight times the entry plus the field), 11 a byte of accumulator memory, 12 B, 13 LAST plus 1, 14 a sticky slot
(syllable, re-issue count), 15 a SYNC count, 16 a port of a pattern register (sixty-four times the register plus the port), 17 a byte of
a FIFO (2^20 times the channel plus the place), 18 a k register, 19 the depth of the regions, 20 MXC3. None for a value out of limits
(R52, R436; the numbering DESIGN CHOICE, log 11). -/
def Tile.edit (x : Tile) (kind n v p : Nat) : Option Tile :=
  let ok (b : Bool) (y : Tile) : Option Tile := if b then some y else none
  match kind with
  | 1 => ok (1 ≤ n && n < 32 && v < 2 ^ 64 && p < 2) (x.setSreg n { val := BitVec.ofNat 64 v, poison := p == 1 })
  | 2 => ok (1 ≤ n && n < 8 && v < 2) (x.setPred n (v == 1))
  | 3 => x.editSystem n v
  | 4 => ok (n < x.size && v < 256) { x with scratch := writeByte x.scratch n (BitVec.ofNat 8 v) }
  | 5 => ok (v < 4 * x.codeLen && v % 4 == 0) { x with pc := v }
  | 6 => ok (1 ≤ n && n < 8 && v < 2 ^ 128) { x with m := put 0 x.m n (BitVec.ofNat 128 v) }
  | 7 => ok (n < 128 && v < 2 ^ 1024 && p < 2 ^ 32)
      { x with v := put VEntry.zero x.v n { bits := BitVec.ofNat 1024 v, poison := BitVec.ofNat 32 p } }
  | 8 => ok (4 * n < x.size && v < 2) { x with scratchPoison := if v = 1 then addNum x.scratchPoison n else delNum x.scratchPoison n }
  | 9 => ok (n < 262144 && v < 2) { x with accPoison := if v = 1 then addNum x.accPoison n else delNum x.accPoison n }
  | 10 => ok (n / 8 < x.loops.length && n % 8 < 6) { x with loops := x.loops.modify (n / 8) (fun e => e.edit (n % 8) v) }
  | 11 => ok (n < 2 ^ 20 && v < 256) { x with acc := writeByte x.acc n (BitVec.ofNat 8 v) }
  | 12 => ok (v < 2 ^ 64) { x with base := v }
  | 13 => ok (v < 2 ^ 64) { x with last := (v : Int) - 1 }
  | 14 => ok (n < 7 && v < 2 ^ 64 && p < 256) { x with sticky := setKey x.sticky n { syl := v, k := p } }
  | 15 => ok (n < 6) { x with syncs := setKey x.syncs n v }
  | 16 => ok (n / 64 < 8 && n % 64 < 32 && v < 2 ^ 16) { x with xp := setKey x.xp (n / 64) ((x.pattern (n / 64)).set (n % 64) v) }
  | 17 => ok (n / 2 ^ 20 < 64 && v < 256) { x with fifos := x.fifos.map (fun e => if e.1 = n / 2 ^ 20 then (e.1, e.2.edit (n % 2 ^ 20) v) else e) }
  | 18 => ok (n < 8 && v < 2 ^ 14) { x with kbind := setKey x.kbind n { chs := v % 128, chr := v / 128 } }
  | 19 => ok (v ≤ 4) { x with depth := v }
  | 20 => ok (v < 2 ^ 64) { x with mxc3 := BitVec.ofNat 64 v }
  | _ => none

/-- An edit of a gang's freeze image: kind 0 an in-flight record, else a field of a tile; nothing when a limit is not kept (R52). -/
def Gang.edit (g : Gang) (kind a n v p : Nat) : Gang :=
  if kind = 0 then g.editFlight a (FlightRec.ofNat v)
  else
    match (g.tile a).bind (fun x => x.edit kind n v p) with
    | some y => g.onTile a (fun _ => y)
    | none => g

/-- An image edited: its records and its digest are made anew. -/
def Image.edit (i : Image) (e : Gang → Gang) : Image := (e i.gang).image 2 i.gen

/-- FREEZE_IMAGE_EDIT: of the image that a debug hold saves, with which the gang resumes; else of a freeze image that is saved or left
to be read (R436). -/
def execFreezeImageEdit (s : State) : Outcome :=
  let t := s.evTask
  let e (g : Gang) : Gang := g.edit (s.arg 1) (s.arg 2) (s.arg 3) (s.arg 4) (s.arg 5)
  .next (match s.task t with
    | none => s
    | some x =>
      match x.gang with
      | some _ => if x.st = .held ∧ x.snap.isSome then (s.onGang t e).snapGang t else s
      | none => s.onTask t (fun x => { x with
          image := x.image.map (fun i => if i.kind = 2 then i.edit e else i)
          snap := x.snap.map (fun i => i.edit e) }))

end Sys2Proof.Machine
end

