-- ==== Sys2Proof/Machine/Matrix.lean ====
section
/-! DEFINITION. The matrix array: configuration, nests, accumulator groups, moves and checksums (17 R297 to R317). -/
namespace Sys2Proof.Machine

/-! ### Accumulator groups (R299, R302) -/

/-- The banks of a group. -/
def Tile.group (x : Tile) (ag : Nat) : List Nat := look [] x.groups ag

/-- The byte of accumulator memory at an offset of a group, taken modulo its size (R299). -/
def Tile.accByte (x : Tile) (ag : Nat) (o : Int) : Nat :=
  let bs := x.group ag
  let a := (o % ((2048 * bs.length : Nat) : Int)).toNat
  nthD 0 bs (a / 2048) * 2048 + a % 2048

/-- n bytes at an offset of a group, within one bank. -/
def Tile.accRead (x : Tile) (ag : Nat) (o : Int) (n : Nat) : List PByte := readP x.acc x.accPoison (x.accByte ag o) n

/-- A write of accumulator memory staged for the end of the cycle (R245, R317). -/
def Gang.stageAcc (g : Gang) (o : Origin) (at_ : Nat) (bs : List PByte) : Gang :=
  let st : Staged := { space := 1, gid := o.gid, addr := at_, o := o, atomic := false, bytes := bs, loc := none, act := none }
  { g with staged := g.staged ++ [st] }

/-- A group is in use until a cycle (R301). -/
def Tile.useGroup (x : Tile) (ag until_ : Nat) : Tile := { x with agUse := setKey x.agUse ag (max (look 0 x.agUse ag) until_) }

/-- A group is in use in a cycle: a nest names it or a move on it is unfinished (R301). -/
def Tile.groupInUse (x : Tile) (ag c : Nat) : Bool :=
  (match find? x.agUse ag with
   | some e => c ≤ e
   | none => false)
  || (match x.nest with
   | some n => n.set.ag == ag
   | none => false)
  || (match x.nestPending with
   | some n => n.set.ag == ag
   | none => false)

/-- ABALLOC: the lowest free banks from t + 1 on (R300). -/
def Gang.aballoc (g : Gang) (x : Tile) (o : Origin) (ag count : Nat) : Gang :=
  let held := x.groups.flatMap (·.2)
  let free := (List.range 512).filter (fun b => !held.contains b)
  if x.group ag ≠ [] ∨ free.length < count ∨ x.accBound < held.length + count then g.record o 2 9 g.lcyc 0
  else g.later o (g.lcyc + 1) (.banks ag (free.take count))

def execAballoc (ag count : Nat) (s : State) : Outcome := .next (s.issueOn (fun g x _ o => g.aballoc x o ag count))

/-- ABFREE: every bank of the group returns at t + 1 (R301). -/
def Gang.abfree (g : Gang) (x : Tile) (o : Origin) (ag : Nat) : Gang :=
  if x.group ag = [] then g.record o 2 0 g.lcyc 0
  else if x.groupInUse ag g.lcyc then g.record o 2 8 g.lcyc 0
  else g.later o (g.lcyc + 1) (.unbank ag)

def execAbfree (ag : Nat) (s : State) : Outcome := .next (s.issueOn (fun g x _ o => g.abfree x o ag))

/-! ### The shadow set (R305 to R308) -/

/-- The shadow set at task start (R305). -/
def NestLevel.one : NestLevel := { count := 1, sa := 0, sb := 0, sc := 0 }

def NestSet.level (n : NestSet) (l : Nat) : NestLevel := look NestLevel.one n.levels l

/-- A write of the shadow set lands at t + 1; while the set is pending it is a fault (R305). -/
def Gang.shadow (g : Gang) (x : Tile) (o : Origin) (w : Gang → Gang × Option ShadowWrite) : Gang :=
  if x.nestPending.isSome then g.record o 2 8 g.lcyc 0
  else
    match w g with
    | (h, some j) => h.later o (h.lcyc + 1) (.shadow j)
    | (h, none) => h

def execMNop (s : State) : Outcome := .next s

/-- MCFG; MXC3 stands alone (R306). -/
def Gang.mcfg (g : Gang) (x : Tile) (o : Origin) (n a : Nat) : Gang :=
  if n = 3 then
    let r := g.dRead x o 1 [a] (fun _ => 0)
    r.1.later o (g.lcyc + 1) (.shadow (.mxc 3 (nthD 0 r.2.2.1 0)))
  else g.shadow x o (fun g =>
    let r := g.dRead x o 1 [a] (fun _ => 0)
    (r.1, some (.mxc n (nthD 0 r.2.2.1 0))))

def execMcfg (n a : Nat) (s : State) : Outcome := .next (s.issueOn (fun g x _ o => g.mcfg x o n a))

/-- MNEST (R307). -/
def Gang.mnest (g : Gang) (x : Tile) (o : Origin) (lv rc rs : Nat) : Gang :=
  g.shadow x o (fun g =>
    let r := g.dRead x o 1 [rc, rs] (fun _ => 0)
    let c := (nthD 0 r.2.2.1 0).toNat
    let v := (nthD 0 r.2.2.1 1).toNat
    if c < 1 ∨ 65536 < c ∨ bitAt v 63 ∨ (lv = 0 ∧ v ≠ 0) then (r.1.record o 2 10 g.lcyc 0, none)
    else (r.1, some (.level lv { count := c, sa := sextInt 21 (bitsOf v 62 42), sb := sextInt 21 (bitsOf v 41 21),
                                 sc := sextInt 21 (bitsOf v 20 0) })))

def execMnest (lv c r : Nat) (s : State) : Outcome := .next (s.issueOn (fun g x _ o => g.mnest x o lv c r))

def execMnestClr (s : State) : Outcome := .next (s.issueOn (fun g x _ o => g.shadow x o (fun g => (g, some .clear))))

/-- MMUL and MMULG: the operation word; a group without banks is a fault; a poisoned index word of MMULG is a consumption (R299,
R308, R423). -/
def Gang.mmul (g : Gang) (x : Tile) (o : Origin) (a b c ag : Nat) (ring : Option Nat) : Gang :=
  if x.group ag = [] then g.record o 2 0 g.lcyc 0
  else g.shadow x o (fun g =>
    let r := g.dRead x o 1 [a, b, c] (fun _ => 0)
    let es := match ring with
      | some h => (List.range 6).map (fun (q : Nat) => x.entry ((x.ring h).at (((x.ring h).head : Int) + (q : Int))))
      | none => []
    let p := es.any (fun e => e.poison != 0)
    let g := if p then (r.1.sawPoison o true).consume o 1 g.lcyc 0 else r.1
    let rows := es.flatMap (fun e => (List.range 64).map (fun i => e.bits.toNat / 2 ^ (16 * i) % 65536))
    (g, some (.op (if ring.isSome then 2 else 1) ((nthD 0 r.2.2.1 0).toNat % 2 ^ 21) ((nthD 0 r.2.2.1 1).toNat % 2 ^ 21)
      (nthD 0 r.2.2.1 2).toNat ag rows)))

def execMmul (a b c ag : Nat) (s : State) : Outcome := .next (s.issueOn (fun g x _ o => g.mmul x o a b c ag none))
def execMmulg (a b c ag h : Nat) (s : State) : Outcome := .next (s.issueOn (fun g x _ o => g.mmul x o a b c ag (some h)))

/-- A write of the shadow set applied (R305 to R308). -/
def NestSet.write (n : NestSet) (w : ShadowWrite) : NestSet :=
  match w with
  | .mxc 0 v => { n with mxc0 := v }
  | .mxc 1 v => { n with mxc1 := v }
  | .mxc _ v => { n with mxc2 := v }
  | .level lv l => { n with levels := setKey n.levels lv l }
  | .clear => { n with levels := [] }
  | .op k a b c ag rows => { n with kind := k, a := a, b := b, c := c, ag := ag, rows := rows }

def Tile.writeShadow (x : Tile) (w : ShadowWrite) : Tile :=
  match w with
  | .mxc 3 v => { x with mxc3 := v }
  | _ => { x with nestShadow := x.nestShadow.write w }

/-! ### MGO (R297, R309) -/

/-- The limits of a pair of types and whether scales are refused (0), required (1) or optional (2) (R297). -/
def mulPair (ta tb : Nat) : Option (Nat × Nat × Nat) :=
  match ElemType.ofCode ta, ElemType.ofCode tb with
  | .fp32, .fp32 => some (64, 64, 0)
  | .bf16, .bf16 => some (192, 192, 0)
  | .mxint8, .mxint8 => some (192, 192, 1)
  | .mxint6, .mxint6 => some (256, 256, 1)
  | .mxint4, .mxint4 => some (384, 384, 1)
  | .e4m3, .e4m3 | .e4m3, .e5m2 | .e5m2, .e4m3 | .e5m2, .e5m2 => some (384, 384, 2)
  | .mxint8, .mxint4 => some (192, 384, 1)
  | .mxint4, .mxint8 => some (384, 192, 1)
  | _, _ => none

def NestSet.ta (n : NestSet) : Nat := bitsOf n.mxc0.toNat 63 60
def NestSet.tb (n : NestSet) : Nat := bitsOf n.mxc0.toNat 59 56
def NestSet.sca (n : NestSet) : Bool := bitAt n.mxc0.toNat 55
def NestSet.scb (n : NestSet) : Bool := bitAt n.mxc0.toNat 54
def NestSet.me (n : NestSet) : Nat := bitsOf n.mxc0.toNat 53 45
def NestSet.ne (n : NestSet) : Nat := bitsOf n.mxc0.toNat 44 36
def NestSet.k0 (n : NestSet) : Nat := (n.level 0).count

/-- A set passes the validation of MGO (R309). -/
def NestSet.valid (n : NestSet) (banks : Nat) : Bool :=
  match mulPair n.ta n.tb with
  | none => false
  | some (m, k, sc) =>
    n.kind != 0 && banks != 0
      && (sc != 0 || (!n.sca && !n.scb)) && (sc != 1 || (n.sca && n.scb))
      && 1 ≤ n.me && n.me ≤ m && 1 ≤ n.ne && n.ne ≤ k
      && n.mxc0.toNat % 2 ^ 36 == 0 && n.mxc1.toNat / 2 ^ 42 == 0 && n.mxc2.toNat / 2 ^ 42 == 0
      && (!(n.sca || n.scb) || n.k0 % 32 == 0)

/-- The passes of a set: the product of the counts of levels 1 to 5. -/
def NestSet.passes (n : NestSet) : Nat :=
  (n.level 1).count * (n.level 2).count * (n.level 3).count * (n.level 4).count * (n.level 5).count

/-- The cycle of a nest's last step. -/
def Nest.last (n : Nest) : Nat := n.t0 + n.steps - 1

/-- MGO: the nest starts at t + 12, or waits for the active one (R309). -/
def Gang.mgo (g : Gang) (x : Tile) (o : Origin) : Gang :=
  let n := x.nestShadow
  if x.nestPending.isSome then g.record o 2 8 g.lcyc 0
  else if !n.valid (x.group n.ag).length then g.record o 2 10 g.lcyc 0
  else
    let new (t0 : Nat) : Nest :=
      { set := n, t0 := t0, mgo := g.lcyc, addr := o.addr, steps := n.passes * n.k0, dropped := false }
    match x.nest with
    | none =>
      let w := new (g.lcyc + 12)
      let g := g.onTile o.gid (fun y => y.useGroup n.ag (w.last + 3))
      (g.later o (g.lcyc + 1) (.copyNest w)).busy o (w.last + 3)
    | some a =>
      let w := new (max (g.lcyc + 12) (a.last + 1))
      (g.onTile o.gid (fun y => { y.useGroup n.ag (w.last + 3) with nestPending := some w })).busy o (w.last + 3)

def execMgo (s : State) : Outcome := .next (s.issueOn (fun g x _ o => g.mgo x o))

/-- A tile's nests at a cycle: a pending one is copied at the last step of the active one; an active one ends after it. -/
def Tile.turnNest (x : Tile) (c : Nat) : Tile :=
  match x.nest with
  | some a =>
    (match x.nestPending with
     | some w => if a.last ≤ c then { x with nest := some w, nestPending := none } else x
     | none => if a.last < c then { x with nest := none } else x)
  | none => x

/-- NEST_START: the shadow set becomes the active one (R309). -/
def execNestStart (s : State) : Outcome :=
  .next ((s.performGang (fun j => match j with
    | .copyNest _ => true
    | _ => false) (fun g d => match d.job with
    | .copyNest n => g.onTile d.o.gid (fun x => { x with nest := some n })
    | _ => g)).onGang s.evTask (fun g => g.onTile s.evGid (fun x => x.turnNest g.lcyc)))

/-! ### The steps of a nest (R298, R310 to R312) -/

/-- The bytes of a group of 32 elements (R298). -/
def groupBytes (t : Nat) : Nat := 4 * (ElemType.ofCode t).width

/-- The bases of a pass: its index in each level, the fastest first (R310). -/
def passBases (n : NestSet) (p : Nat) : Int × Int × Int :=
  let step (acc : Nat × Int × Int × Int) (l : Nat) : Nat × Int × Int × Int :=
    let e := n.level l
    let i : Int := ((acc.1 % e.count : Nat) : Int)
    (acc.1 / e.count, acc.2.1 + i * e.sa, acc.2.2.1 + i * e.sb, acc.2.2.2 + i * e.sc)
  ([1, 2, 3, 4, 5].foldl step (p, (n.a : Int), (n.b : Int), (n.c : Int))).2

/-- The group of a nest that reads its operands in a cycle: pass, group of the pass, its length (R310). -/
def Nest.groupAt (n : Nest) (c : Nat) : Option (Nat × Nat × Nat) :=
  if n.t0 ≤ c + 9 then
    let s := c + 9 - n.t0
    let k0 := n.set.k0
    if s < n.steps ∧ s % k0 % 32 = 0 then some (s / k0, s % k0 / 32, min 32 (k0 - s % k0)) else none
  else none

/-- The scratch addresses of the runs of an operand in group q: row i from a base with a pitch (R310). -/
def runAddrs (base : Int) (rows : List Nat) (pitch g q : Nat) : List Nat :=
  rows.map (fun (r : Nat) => (alignDown ((base + ((r * pitch : Nat) : Int)) % (2 ^ 21 : Int)).toNat 8 + q * g) % 2 ^ 21)

/-- The mapped addresses of n bytes. -/
def Tile.mapped (x : Tile) (a n : Nat) : List Nat := (List.range n).map (fun j => x.map (a + j))

/-- The lines that the matrix gather port serves, at most n in a bank, in order of need; and the first that is dropped (R311). -/
def serveGather (n : Nat) : List Nat → List Nat → Option Nat → List Nat × Option Nat
  | [], ls, d => (ls, d)
  | l :: rest, ls, d =>
    if ls.contains l then serveGather n rest ls d
    else if (ls.filter (fun m => m % 32 == l % 32)).length < n then serveGather n rest (l :: ls) d
    else serveGather n rest ls (some (d.getD l))

/-- Bytes through the gather port; a byte of a dropped line is zero and poisoned (R311). -/
def Tile.gatherBytes (x : Tile) (served : List Nat) (as : List Nat) : List PByte :=
  as.map (fun a => if served.contains (lineOf a) then nthD { b := 0, p := false } (readP x.scratch x.scratchPoison a 1) 0
                   else { b := 0, p := true })

/-- An operand's runs with their scales (R298, R312). -/
def Tile.operandRuns (x : Tile) (served : List Nat) (addrs : List Nat) (bytes : Nat) (scale : Option (Nat × Nat)) :
    List (Nat × Nat × Bool) :=
  addrs.map (fun a =>
    let bs := x.gatherBytes served (x.mapped a bytes)
    match scale with
    | none => (pval bs, 127, anyPoison bs)
    | some (so, g) =>
      let sb := x.gatherBytes served [x.map (so + a / g)]
      (pval bs, pval sb, anyPoison bs || anyPoison sb))

/-- One group of a nest reads its operands: they pass the gather port and wait for their C write (R310, R311). -/
def Gang.readGroup (g : Gang) (x : Tile) (n : Nest) (pass q len : Nat) : Gang × Bool :=
  let st := n.set
  let (ab, bb, cb) := passBases st pass
  let m1 := st.mxc1.toNat
  let m2 := st.mxc2.toNat
  let ga := groupBytes st.ta
  let gb := groupBytes st.tb
  let wa := len * (ElemType.ofCode st.ta).width / 8
  let wb := len * (ElemType.ofCode st.tb).width / 8
  let ra := runAddrs ab (if st.kind = 2 then st.rows.take st.me else List.range st.me) (bitsOf m1 41 21) ga q
  let rb := runAddrs bb (List.range st.ne) (m1 % 2 ^ 21) gb q
  let sa := if st.sca then some (bitsOf m2 41 21, ga) else none
  let sb := if st.scb then some (m2 % 2 ^ 21, gb) else none
  let scaleLines (s : Option (Nat × Nat)) (rs : List Nat) : List Nat := match s with
    | some (so, gs) => rs.map (fun a => lineOf (x.map (so + a / gs)))
    | none => []
  let runLines (rs : List Nat) (w : Nat) : List Nat := rs.flatMap (fun a => dedupNat ((x.mapped a w).map lineOf))
  let need := runLines ra wa ++ scaleLines sa ra ++ runLines rb wb ++ scaleLines sb rb
  let served := serveGather len need [] none
  let a := x.operandRuns served.1 ra wa sa
  let b := x.operandRuns served.1 rb wb sb
  let grp : Group := { ag := st.ag, cbase := cb, n := len, ta := st.ta, tb := st.tb, a := a, b := b }
  let o : Origin := { gid := x.gid, slot := 5, addr := n.addr, issue := n.mgo, buf := 0 }
  let g := match served.2 with
    | some l => if n.dropped then g else g.record o 2 7 g.lcyc (BitVec.ofNat 64 (64 * l))
    | none => g
  let g := g.onTile x.gid (fun y => y.count 0x07 (ra.length * wa + rb.length * wb))
  let g := g.sawPoison o ((a ++ b).any (fun r => r.2.2))
  let scales (s : Option (Nat × Nat)) (rs : List Nat) : List Nat := match s with
    | some (so, gs) => rs.map (fun a => x.map (so + a / gs))
    | none => []
  let read := ra.flatMap (fun e => x.mapped e wa) ++ rb.flatMap (fun e => x.mapped e wb) ++ scales sa ra ++ scales sb rb
  let g := if read.any (fun e => x.watched e 1 false) then g.announce 3 x.gid 0 else g
  (g.later o (g.lcyc + 9 + len + 2) (.nestC grp), served.2.isSome)

/-- A nest in a cycle: the group that reads now. -/
def Gang.stepNest (g : Gang) (x : Tile) (n : Nest) (mark : Tile → Tile) : Gang :=
  match n.groupAt g.lcyc with
  | some (p, q, len) =>
    let r := g.readGroup x n p q len
    if r.2 then r.1.onTile x.gid mark else r.1
  | none => g

/-- NEST_STEP: the active nest and the pending one, whose first operands are read before its first step (R310). -/
def Gang.stepNests (g : Gang) (x : Tile) : Gang :=
  let g := match x.nest with
    | some n =>
      let g := g.stepNest x n (fun y => { y with nest := y.nest.map (fun m => { m with dropped := true }) })
      if n.t0 ≤ g.lcyc ∧ g.lcyc ≤ n.last then g.onTile x.gid (fun y => y.count 0x06 1) else g
    | none => g
  match x.nestPending with
  | some n => g.stepNest x n (fun y => { y with nestPending := y.nestPending.map (fun m => { m with dropped := true }) })
  | none => g

def execNestStep (s : State) : Outcome :=
  .next (s.withTile (fun t _ _ x => s.onGang t (fun g => g.stepNests x)))

/-- Element k of w bits of a run's bytes (R71, R298). -/
def runElem (v w k : Nat) : Nat := v / 2 ^ (w * k) % 2 ^ w

/-- The products of a row and a column of a group (R94). -/
def Group.terms (g : Group) (a b : Nat × Nat × Bool) : List GroupTerm :=
  let ta := ElemType.ofCode g.ta
  let tb := ElemType.ofCode g.tb
  (List.range g.n).map (fun k =>
    { ta := ta, a := runElem a.1 ta.width k, ea := a.2.1, tb := tb, b := runElem b.1 tb.width k, eb := b.2.1 })

/-- The C words of a group: address, new value, flags, poison (R302, R310, R312). -/
def Group.words (g : Group) (x : Tile) : List (Nat × Nat × Nat × Bool) :=
  let ne := g.b.length
  ((List.range g.a.length).zip g.a).flatMap (fun r =>
    ((List.range ne).zip g.b).map (fun (c : Nat × Nat × Nat × Bool) =>
      let off : Int := (g.cbase + 4 * ((r.1 * ne + c.1 : Nat) : Int)) / 4 * 4
      let old := x.accRead g.ag off 4
      let v := groupStep (g.n == 32) (pval old) (g.terms r.2 c.2)
      (x.accByte g.ag off, v.bits, v.flags, r.2.2.2 || c.2.2.2 || anyPoison old)))

/-- NEST_C_WRITE: the words of a group as they stand, each with its sum, written as by the MGO (R310). -/
def Gang.nestWrite (g : Gang) (d : Due) : Gang :=
  match d.job, g.tile d.o.gid with
  | .nestC grp, some x =>
    if x.group grp.ag = [] then g
    else
      let ws := grp.words x
      let g := (g.sawPoison d.o (ws.any (fun w => w.2.2.2))).laterFlags d.o g.lcyc (ws.foldl (fun f w => f ||| w.2.2.1) 0)
      ws.foldl (fun g w => g.stageAcc d.o w.1 (pbytes 4 w.2.1 w.2.2.2)) g
  | _, _ => g

def execNestCWrite (s : State) : Outcome :=
  .next (s.performGang (fun j => match j with
    | .nestC _ => true
    | _ => false) Gang.nestWrite)

/-! ### MZERO, MLDACC, MSTACC, MCHK (R314 to R317) -/

/-- MZERO: the banks' words become +0 at t + 1 (R314). -/
def Gang.mzero (g : Gang) (x : Tile) (o : Origin) (ag bank nb : Nat) : Gang :=
  if x.group ag = [] then g.record o 2 0 g.lcyc 0 else g.later o (g.lcyc + 1) (.mzero ag bank nb)

def execMzero (ag bank nb : Nat) (s : State) : Outcome :=
  .next (s.issueOn (fun g x _ o => g.mzero x o ag bank (nb + 1)))

/-- The accumulator transfer path is occupied in a cycle (R317). -/
def Tile.pathBusy (x : Tile) (c : Nat) : Bool :=
  match x.accPath with
  | some e => c ≤ e
  | none => false

/-- The path and the group taken until a cycle. -/
def Gang.takePath (g : Gang) (o : Origin) (ag until_ : Nat) : Gang :=
  (g.onTile o.gid (fun x => { x.useGroup ag until_ with accPath := some until_ })).busy o until_

/-- MLDACC and MSTACC: line q is read at t + 1 + q and written at t + 3 + q (R315). -/
def Gang.moveAcc (g : Gang) (x : Tile) (o : Origin) (load : Bool) (a l ag bank : Nat) : Gang :=
  if x.group ag = [] then g.record o 2 0 g.lcyc 0
  else if x.pathBusy g.lcyc then g.record o 2 8 g.lcyc 0
  else
    let r := g.dRead x o 1 [a, l] (fun vs => alignDown (firstAddr vs) 64)
    let base := alignDown (nthD 0 r.2.2.1 0).toNat 64
    let n := (nthD 0 r.2.2.1 1).toNat
    if n < 1 ∨ 16384 < n then r.1.record o 2 10 g.lcyc 0
    else
      let g := (List.range n).foldl (fun g q =>
        let sc := x.map (base + 64 * q)
        let off := 2048 * bank + 64 * q
        if load then g.later o (g.lcyc + 1 + q) (.read 4 (.scratch o.gid sc) 64 (.toAcc ag off (g.lcyc + 3 + q)))
        else g.later o (g.lcyc + 1 + q) (.accGet ag off sc (g.lcyc + 3 + q))) r.1
      g.takePath o ag (g.lcyc + 2 + n)

def execMldacc (a l ag bank : Nat) (s : State) : Outcome :=
  .next (s.issueOn (fun g x _ o => g.moveAcc x o true a l ag bank))
def execMstacc (a l ag bank : Nat) (s : State) : Outcome :=
  .next (s.issueOn (fun g x _ o => g.moveAcc x o false a l ag bank))

/-- MCHK: sums of the words as they stand at t + 2 (R316). -/
def Gang.mchk (g : Gang) (x : Tile) (o : Origin) (a c ag : Nat) : Gang :=
  let me := x.nestShadow.me
  let ne := x.nestShadow.ne
  if x.group ag = [] then g.record o 2 0 g.lcyc 0
  else if x.pathBusy g.lcyc then g.record o 2 8 g.lcyc 0
  else if me < 1 ∨ 384 < me ∨ ne < 1 ∨ 384 < ne then g.record o 2 10 g.lcyc 0
  else
    let r := g.dRead x o 1 [a, c] (fun vs => alignDown (firstAddr vs) 64)
    let base := alignDown (nthD 0 r.2.2.1 0).toNat 64
    let due := g.lcyc + 12 + max me ne
    (r.1.later o (g.lcyc + 2) (.mchk ag (nthD 0 r.2.2.1 1).toNat me ne base due)).takePath o ag
      (due + (ceilDiv (4 * (me + ne)) 64 - 1) / 32)

def execMchk (a c ag : Nat) (s : State) : Outcome := .next (s.issueOn (fun g x _ o => g.mchk x o a c ag))

/-- A running sum over words: value, flags, poison (R316). -/
def checkSum : List (Nat × Bool) → Nat × Nat × Bool
  | [] => (0, 0, false)
  | w :: ws => ws.foldl (fun (acc : Nat × Nat × Bool) v =>
      let r := addFloat .fp32 .rne false 0 acc.1 v.1
      (r.bits, acc.2.1 ||| r.flags, acc.2.2 || v.2)) (w.1, 0, w.2)

/-- The checksums of a tile of C: by rows, then by columns (R316). -/
def Tile.checkSums (x : Tile) (ag c me ne : Nat) : List (Nat × Nat × Bool) :=
  let word (i j : Nat) : Nat × Bool :=
    let bs := x.accRead ag ((alignDown (c + 4 * (i * ne + j)) 4 : Nat) : Int) 4
    (pval bs, anyPoison bs)
  (List.range me).map (fun i => checkSum ((List.range ne).map (word i)))
    ++ (List.range ne).map (fun j => checkSum ((List.range me).map (fun i => word i j)))

/-- MCHK reads its words; line q of its result is written from t + 12 + max(ME, NE) on, 32 lines a cycle. -/
def Gang.runMchk (g : Gang) (d : Due) : Gang :=
  match d.job, g.tile d.o.gid with
  | .mchk ag c me ne base due, some x =>
    let sums := x.checkSums ag c me ne
    let bytes := sums.flatMap (fun s => pbytes 4 s.1 s.2.2)
    let g := (g.sawPoison d.o (anyPoison bytes)).laterFlags d.o due (sums.foldl (fun f s => f ||| s.2.1) 0)
    let lines := chunks 64 (ceilDiv bytes.length 64) bytes
    ((List.range lines.length).zip lines).foldl (fun g l =>
      g.later d.o (due + l.1 / 32) (.write 7 (.scratch d.o.gid (x.map (base + 64 * l.1))) l.2)) g
  | _, _ => g

/-- MCHK_WRITE (R316). -/
def execMchkWrite (s : State) : Outcome :=
  .next (s.performGang (fun j => match j with
    | .mchk _ _ _ _ _ _ => true
    | .write p _ _ => p == 7
    | _ => false) (fun g d => match d.job with
    | .write port dst bs => g.writePerform d.o port dst bs
    | _ => g.runMchk d))

/-- ACC_LINE_MOVE: the lines of MLDACC and MSTACC, and MZERO's words (R314, R315). -/
def Gang.accMove (g : Gang) (d : Due) : Gang :=
  match d.job, g.tile d.o.gid with
  | .accGet ag off dst due, some x =>
    let bs := x.accRead ag (off : Int) 64
    (g.sawPoison d.o (anyPoison bs)).later d.o due (.write 6 (.scratch d.o.gid dst) bs)
  | .accPut ag off bs, some x => if x.group ag = [] then g else g.stageAcc d.o (x.accByte ag (off : Int)) bs
  | .write port dst bs, _ => g.writePerform d.o port dst bs
  | .mzero ag bank nb, some x =>
    let n := (x.group ag).length
    (dedupNat ((List.range (min nb n)).map (fun i => (bank + i) % n))).foldl (fun g b =>
      g.stageAcc d.o (x.accByte ag ((2048 * b : Nat) : Int)) (pbytes 2048 0 false)) g
  | _, _ => g

def execAccLineMove (s : State) : Outcome :=
  .next (s.perform (fun j => match j with
    | .accGet _ _ _ _ | .accPut _ _ _ | .mzero _ _ _ => true
    | .write p _ _ => p == 6
    | .read _ _ _ (.toAcc _ _ _) => true
    | _ => false) (fun s t d => match d.job with
    | .read port src n after => s.readPerform t d.o port src n after
    | _ => s.onGang t (fun g => g.accMove d)))

/-- The effects of the M slot that land at t + 1: the shadow set, granted and returned banks (R300, R301, R305). -/
def Gang.landMatrix (g : Gang) (d : Due) : Gang :=
  match d.job with
  | .shadow w => g.onTile d.o.gid (fun x => x.writeShadow w)
  | .banks ag bs => g.onTile d.o.gid (fun x =>
      { bs.foldl (fun y b => y.storeAcc (2048 * b) (pbytes 2048 0 false)) x with groups := setKey x.groups ag bs })
  | .unbank ag => g.onTile d.o.gid (fun x => { x with groups := dropKey x.groups ag })
  | _ => g

/-- The due ones of a tile. -/
def Gang.landMatrices (g : Gang) (gid : Nat) : Gang :=
  let r := g.takeDue gid (fun j => match j with
    | .shadow _ | .banks _ _ | .unbank _ => true
    | _ => false)
  r.1.foldl Gang.landMatrix r.2

end Sys2Proof.Machine
end

