-- ==== Sys2Proof/Machine/Factorise.lean ====
section
/-! DEFINITION. The factorisation unit: MFLU, MFCH, MFQR, MTRS and MPERM (19 R319 to R339). Every instruction works on a
private copy, step by step, and writes at its end cycle. -/
namespace Sys2Proof.Machine

/-! ### FP32 with flags -/

def fdiv (a b : Nat) : Rounded := divFloat .fp32 .rne false 0 a b
def fsub (a b : Nat) : Rounded := subFloat .fp32 .rne false 0 a b
def fmul (a b : Nat) : Rounded := mulFloat .fp32 .rne false 0 a b
def fsqrt (a : Nat) : Rounded := sqrtFloat .fp32 .rne false 0 a

/-- c - a * b, rounded once (R325). -/
def fnms (c a b : Nat) : Rounded := fmaFloat .fp32 .rne false 0 false true c a b

/-- a * b + c, rounded once (R335). -/
def fma (a b c : Nat) : Rounded := fmaFloat .fp32 .rne false 0 false false c a b

/-- A value that no operation touched. -/
def kept (a : Nat) : Rounded := { bits := a, flags := 0 }

def bitsList (rs : List Rounded) : List Nat := rs.map (·.bits)
def flagsOf (rs : List Rounded) : Nat := rs.foldl (fun f r => f ||| r.flags) 0

/-- Magnitude as MFLU ranks it: a NaN above every number (R331). -/
def luMag (x : Nat) : Nat := if isNanBits .fp32 x then 2 ^ 31 else x % 2 ^ 31

/-- The fill of a stopped factorisation (R331, R334). -/
def fillNan : Nat := 0x7FE00000

/-- The largest magnitude in the order given, a NaN propagating (R332). -/
def maxAbs : List Nat → Rounded
  | [] => kept 0
  | x :: xs => xs.foldl (fun (m : Rounded) y =>
      let r := minMaxFloat .fp32 true m.bits (y % 2 ^ 31)
      { r with flags := r.flags ||| m.flags }) (kept (x % 2 ^ 31))

/-! ### One step of each factorisation -/

/-- Rows i and j exchanged. -/
def swapRows {α : Type} (d : α) (a : List α) (i j : Nat) : List α := (a.set i (nthD d a j)).set j (nthD d a i)

/-- The row at or below k whose element of column k is largest, the lowest of equal ones (R331). -/
def pivotRow (a : List (List Nat)) (k : Nat) : Nat :=
  (upFrom k (a.length - k)).foldl (fun p i => if luMag (nthD 0 (nthD [] a p) k) < luMag (nthD 0 (nthD [] a i) k) then i else p) k

/-- A row below the pivot after step k of MFLU. -/
def luRow (rk row : List Nat) (k : Nat) : List Rounded :=
  let m := fdiv (nthD 0 row k) (nthD 0 rk k)
  ((List.range row.length).zip (row.zip rk)).map (fun e =>
    if e.1 < k then kept e.2.1 else if e.1 = k then m else fnms e.2.1 m.bits e.2.2)

/-- Step k of MFLU (R331). -/
def Factor.luStep (f : Factor) (k : Nat) : Factor :=
  let p := pivotRow f.a k
  let b := swapRows [] f.a k p
  let rk := nthD [] b k
  let rs := (b.drop (k + 1)).map (fun row => luRow rk row k)
  { f with a := b.take (k + 1) ++ rs.map bitsList, perm := f.perm ++ [p], flags := f.flags ||| flagsOf rs.flatten }

/-- Step k of MFLU may not run: the pivot is at or below PTHR (R331). -/
def Factor.luStops (f : Factor) (k : Nat) : Bool :=
  let v := nthD 0 (nthD [] f.a (pivotRow f.a k)) k
  !isNanBits .fp32 v && luMag v ≤ f.pthr

/-- A row below the diagonal after step k of MFCH; `ms` holds the new column k from row k + 1 on. -/
def chRow (ms : List Nat) (m : Rounded) (i k : Nat) (row : List Nat) : List Rounded :=
  ((List.range row.length).zip row).map (fun e =>
    if e.1 < k ∨ i < e.1 then kept e.2 else if e.1 = k then m else fnms e.2 m.bits (nthD 0 ms (e.1 - (k + 1))))

/-- Step k of MFCH (R333). -/
def Factor.chStep (f : Factor) (k : Nat) : Factor :=
  let rk := nthD [] f.a k
  let d := fsqrt (nthD 0 rk k)
  let below := f.a.drop (k + 1)
  let ms := below.map (fun row => fdiv (nthD 0 row k) d.bits)
  let rs := ((List.range below.length).zip (below.zip ms)).map (fun e => chRow (bitsList ms) e.2.2 (k + 1 + e.1) k e.2.1)
  { f with a := f.a.take k ++ [rk.set k d.bits] ++ rs.map bitsList
           flags := f.flags ||| d.flags ||| flagsOf ms ||| flagsOf rs.flatten }

/-- Step k of MFCH may not run: the diagonal is a NaN or at or below PTHR (R333, R334). -/
def Factor.chStops (f : Factor) (k : Nat) : Bool :=
  let d := nthD 0 (nthD [] f.a k) k
  isNanBits .fp32 d || 2 ^ 31 ≤ d || d ≤ f.pthr

/-- (beta - alpha) / beta with an exact numerator (R335). -/
def qrTau (beta alpha : Nat) : Rounded :=
  match decodeFloat .fp32 beta, decodeFloat .fp32 alpha with
  | .fin b, .fin a =>
    if b.mag = 0 then fdiv (fsub beta alpha).bits beta
    else roundFloat .fp32 .rne false 0 (divExact 80 (addExact .rne b { a with neg := !a.neg }) b)
  | _, _ =>
    let d := fsub beta alpha
    let q := fdiv d.bits beta
    { q with flags := q.flags ||| d.flags }

/-- A sum of products added one after another to a first value (R335). -/
def dotFrom (s : Nat) (xs ys : List Nat) : Rounded :=
  (xs.zip ys).foldl (fun (acc : Rounded) e =>
    let r := fma e.1 e.2 acc.bits
    { r with flags := r.flags ||| acc.flags }) (kept s)

/-- A column right of k after a reflector with tail v and factor tau (R335). -/
def qrColumn (k tau : Nat) (v col : List Nat) : List Rounded :=
  let below := col.drop (k + 1)
  let y := dotFrom (nthD 0 col k) v below
  let z := fmul tau y.bits
  let top := fsub (nthD 0 col k) z.bits
  let carried := { top with flags := top.flags ||| y.flags ||| z.flags }
  (col.take k).map kept ++ [carried] ++ (below.zip v).map (fun e => fnms e.1 e.2 z.bits)

/-- Step k of MFQR, on columns (R335). -/
def Factor.qrStep (f : Factor) (k : Nat) : Factor :=
  let ck := nthD [] f.a k
  let alpha := nthD 0 ck k
  let below := ck.drop (k + 1)
  let sigma := dotFrom 0 below below
  if sigma.bits % 2 ^ 31 = 0 then { f with taus := f.taus ++ [0], flags := f.flags ||| sigma.flags }
  else
    let sq := fma alpha alpha sigma.bits
    let nu := fsqrt sq.bits
    let beta := if alpha < 2 ^ 31 then negBits .fp32 nu.bits else nu.bits
    let tau := qrTau beta alpha
    let w := fsub alpha beta
    let vs := below.map (fun x => fdiv x w.bits)
    let cols := (f.a.drop (k + 1)).map (qrColumn k tau.bits (bitsList vs))
    { f with a := f.a.take k ++ [ck.take k ++ [beta] ++ bitsList vs] ++ cols.map bitsList
             taus := f.taus ++ [tau.bits]
             flags := f.flags ||| sigma.flags ||| sq.flags ||| nu.flags ||| tau.flags ||| w.flags ||| flagsOf vs
                        ||| flagsOf cols.flatten }

/-- The rows of MTRS in the order in which they are solved (R336). -/
def Factor.order (f : Factor) : List Nat :=
  if (!f.up) != f.tr then List.range f.d1.edge else (List.range f.d1.edge).reverse

/-- tt(i, j) (R336). -/
def Factor.tt (f : Factor) (i j : Nat) : Nat := if f.tr then nthD 0 (nthD [] f.tri j) i else nthD 0 (nthD [] f.tri i) j

/-- One element of the row that MTRS solves: the rows solved before it in order (R336). -/
def Factor.solve (f : Factor) (i c : Nat) (done : List Nat) : Rounded :=
  let x := done.foldl (fun (acc : Rounded) j =>
    let r := fnms acc.bits (f.tt i j) (nthD 0 (nthD [] f.a j) c)
    { r with flags := r.flags ||| acc.flags }) (kept (nthD 0 (nthD [] f.a i) c))
  if f.unit then x
  else
    let r := fdiv x.bits (f.tt i i)
    { r with flags := r.flags ||| x.flags }

/-- Step k of MTRS: the k-th row in order, in place of B's (R336). -/
def Factor.trsStep (f : Factor) (k : Nat) : Factor :=
  let i := nthD 0 f.order k
  let xs := (List.range f.d2.edge).map (fun c => f.solve i c (f.order.take k))
  { f with a := f.a.set i (bitsList xs), flags := f.flags ||| flagsOf xs }

/-- Step k of an instruction. -/
def Factor.runStep (f : Factor) (k : Nat) : Factor :=
  if f.stop.isSome then f
  else
    match f.kind with
    | 1 => f.luStep k
    | 2 => f.chStep k
    | 3 => f.qrStep k
    | _ => f.trsStep k

/-- Whether step k of an instruction stops it. -/
def Factor.stopsAt (f : Factor) (k : Nat) : Bool :=
  f.stop.isNone && k < f.d1.edge && (match f.kind with
    | 1 => f.luStops k
    | 2 => f.chStops k
    | _ => false)

/-! ### Issue (R320, R323, R324, R327) -/

/-- Cycles of a step (R323). -/
def Factor.stepCycles (f : Factor) : Nat :=
  match f.kind with
  | 1 => 8
  | 2 => 6
  | 3 => 16
  | _ => 4

/-- The end cycle E (R323). -/
def Factor.end_ (f : Factor) : Nat :=
  if f.kind = 5 then f.issue + 2 + 2 * f.d1.edge else f.issue + 3 + f.stepCycles * f.d1.edge

/-- A tile descriptor, none when a reserved bit is set (R320). -/
def TileDesc.ofWord (v : Nat) : Option TileDesc :=
  if v / 2 ^ 48 ≠ 0 ∨ bitAt v 39 ∨ bitsOf v 31 21 ≠ 0 then none
  else
    let e := bitsOf v 38 32
    some { off := v % 2 ^ 21, edge := e, pitch := if bitsOf v 47 40 = 0 then e + 1 else bitsOf v 47 40 }

/-- A descriptor may be used with a least pitch above its edge (R320). -/
def TileDesc.ok (d : TileDesc) (more : Nat) : Bool := 1 ≤ d.edge && d.edge ≤ 64 && d.edge + more ≤ d.pitch

def TileDesc.none : TileDesc := { off := 0, edge := 0, pitch := 0 }

/-- The unit is occupied in a cycle (R324). -/
def Tile.unitBusy (x : Tile) (c : Nat) : Bool :=
  x.unitTo.any (fun e => c ≤ e)

/-- The offset of element (i, j) of a block (R321). -/
def TileDesc.at (d : TileDesc) (i j : Nat) : Nat := alignDown (d.off + 4 * (i * d.pitch + j)) 4

/-- A factorisation instruction at issue: the unit and what it names are taken until E (R323, R324). -/
def Gang.startFactor (g : Gang) (o : Origin) (f : Factor) : Gang :=
  (g.onTile o.gid (fun x =>
    let y := { x with factor := some f, unitTo := some f.end_ }
    if f.scratch then { y with accPath := some f.end_ } else y.useGroup f.ag f.end_)).busy o f.end_

/-- A new instruction with nothing done. -/
def Factor.new (kind ag : Nat) (d1 d2 : TileDesc) (o : Origin) : Factor :=
  { kind := kind, ag := ag, d1 := d1, d2 := d2, up := false, tr := false, unit := false, scratch := false, words := 0,
    issue := o.issue, addr := o.addr, pthr := 0, a := [], tri := [], taus := [], perm := [], rows := [], poison := [],
    ma := 0, maFlags := 0, flags := 0, stop := Option.none }

/-- PTHR, none when MXC3 may not be used (R306, R327). -/
def Tile.pivotThreshold (x : Tile) : Option Nat :=
  let v := x.mxc3.toNat
  if v / 2 ^ 31 ≠ 0 ∨ isNanBits .fp32 v then Option.none else some v

/-- MFLU, MFCH and MFQR at issue (R320, R327, R331, R333, R335). -/
def Gang.factorise (g : Gang) (x : Tile) (o : Origin) (kind ag rt : Nat) : Gang :=
  if x.unitBusy g.lcyc then g.record o 2 8 g.lcyc 0
  else
    let r := g.dRead x o 1 [rt] (fun _ => 0)
    let g := r.1
    match TileDesc.ofWord (nthD 0 r.2.2.1 0).toNat, x.pivotThreshold with
    | some d, p =>
      if !d.ok (if kind = 3 then 1 else 0) then g.record o 2 10 g.lcyc 0
      else if x.group ag = [] then g.record o 2 0 g.lcyc 0
      else if kind ≠ 3 ∧ p.isNone then g.record o 2 10 g.lcyc 0
      else g.startFactor o { Factor.new kind ag d TileDesc.none o with pthr := p.getD 0 }
    | Option.none, _ => g.record o 2 10 g.lcyc 0

def execMflu (ag t : Nat) (s : State) : Outcome := .next (s.issueOn (fun g x _ o => g.factorise x o 1 ag t))
def execMfch (ag t : Nat) (s : State) : Outcome := .next (s.issueOn (fun g x _ o => g.factorise x o 2 ag t))
def execMfqr (ag t : Nat) (s : State) : Outcome := .next (s.issueOn (fun g x _ o => g.factorise x o 3 ag t))

/-- MTRS at issue (R336). -/
def Gang.mtrs (g : Gang) (x : Tile) (o : Origin) (ag rt rx : Nat) (up tr unit : Bool) : Gang :=
  if x.unitBusy g.lcyc then g.record o 2 8 g.lcyc 0
  else
    let r := g.dRead x o 1 [rt, rx] (fun _ => 0)
    let g := r.1
    match TileDesc.ofWord (nthD 0 r.2.2.1 0).toNat, TileDesc.ofWord (nthD 0 r.2.2.1 1).toNat with
    | some d, some b =>
      if !d.ok 0 ∨ !b.ok 0 then g.record o 2 10 g.lcyc 0
      else if x.group ag = [] then g.record o 2 0 g.lcyc 0
      else g.startFactor o { Factor.new 4 ag d b o with up := up, tr := tr, unit := unit }
    | _, _ => g.record o 2 10 g.lcyc 0

def execMtrs (ag t x up tr u : Nat) (s : State) : Outcome :=
  .next (s.issueOn (fun g y _ o => g.mtrs y o ag t x (up == 1) (tr == 1) (u == 1)))

/-- The pieces of a row of W words in scratch, cut at its lines: mapped offset and length (R232, R337). -/
def Tile.rowPieces (x : Tile) (a n : Nat) : List (Nat × Nat) := pieces n a n
where
  pieces : Nat → Nat → Nat → List (Nat × Nat)
    | 0, _, _ => []
    | _, _, 0 => []
    | fuel + 1, a, n => let c := min (64 - a % 64) n; (x.map a, c) :: pieces fuel (a + c) (n - c)

/-- MPERM at issue: PERM is read; row r is read at t + 2 + r (R337). -/
def Gang.mperm (g : Gang) (x : Tile) (o : Origin) (scratch : Bool) (ag rx inv w : Nat) : Gang :=
  if x.unitBusy g.lcyc then g.record o 2 8 g.lcyc 0
  else
    let r := g.dRead x o 1 [rx] (fun _ => 0)
    let g := r.1
    match TileDesc.ofWord (nthD 0 r.2.2.1 0).toNat with
    | some d =>
      if d.edge < 1 ∨ 64 < d.edge then g.record o 2 10 g.lcyc 0
      else if scratch = false ∧ x.group ag = [] then g.record o 2 0 g.lcyc 0
      else if scratch ∧ x.pathBusy g.lcyc then g.record o 2 8 g.lcyc 0
      else
        let n := w + 1
        let f := { Factor.new 5 ag d TileDesc.none o with
          scratch := scratch, words := n, up := inv == 1, rows := List.replicate d.edge []
          perm := (List.range 64).map (fun i => look i x.perm i) }
        let g := g.startFactor o f
        (List.range d.edge).foldl (fun g i =>
          if scratch then
            (x.rowPieces (d.at i 0) (4 * n)).foldl (fun g p =>
              g.later o (g.lcyc + 2 + i) (.read 4 (.scratch o.gid p.1) p.2 (.toRow i))) g
          else g.later o (g.lcyc + 2 + i) (.permGet i)) g
    | Option.none => g.record o 2 10 g.lcyc 0

def execMpermAcc (ag x inv w : Nat) (s : State) : Outcome :=
  .next (s.issueOn (fun g y _ o => g.mperm y o false ag x inv w))
def execMpermScratch (x inv w : Nat) (s : State) : Outcome :=
  .next (s.issueOn (fun g y _ o => g.mperm y o true 0 x inv w))

/-! ### The words read at t + 2 (R323, R326) -/

/-- One word of a block. -/
def Tile.blockWord (x : Tile) (ag : Nat) (d : TileDesc) (i j : Nat) : Nat × Bool :=
  let bs := x.accRead ag ((d.at i j : Nat) : Int) 4
  (pval bs, anyPoison bs)

/-- A block of rows and columns; words outside a test are not read and count as 0. -/
def Tile.block (x : Tile) (ag : Nat) (d : TileDesc) (rows cols : Nat) (use : Nat → Nat → Bool) : List (List (Nat × Bool)) :=
  (List.range rows).map (fun i => (List.range cols).map (fun j => if use i j then x.blockWord ag d i j else (0, false)))

def valuesOf (b : List (List (Nat × Bool))) : List (List Nat) := b.map (fun r => r.map (·.1))
def poisonIn (b : List (List (Nat × Bool))) : Bool := b.any (fun r => r.any (·.2))

/-- Rows as columns. -/
def columnsOf (n : Nat) (a : List (List Nat)) : List (List Nat) := (List.range n).map (fun j => a.map (fun r => nthD 0 r j))

/-- The instruction with the words that it reads. -/
def Factor.load (f : Factor) (x : Tile) : Factor :=
  let n := f.d1.edge
  match f.kind with
  | 1 =>
    let b := x.block f.ag f.d1 n n (fun _ _ => true)
    let m := maxAbs (valuesOf b).flatten
    { f with a := valuesOf b, poison := [poisonIn b], ma := m.bits, maFlags := m.flags }
  | 2 =>
    let b := x.block f.ag f.d1 n n (fun i j => j ≤ i)
    { f with a := valuesOf b, poison := [poisonIn b] }
  | 3 =>
    let b := x.block f.ag f.d1 n n (fun _ _ => true)
    { f with a := columnsOf n (valuesOf b), poison := [poisonIn b] }
  | 4 =>
    let t := x.block f.ag f.d1 n n (fun i j => (if f.up then i ≤ j else j ≤ i) && !(f.unit && i == j))
    let b := x.block f.ag f.d2 n f.d2.edge (fun _ _ => true)
    { f with tri := valuesOf t, a := valuesOf b,
             poison := (List.range f.d2.edge).map (fun c => poisonIn t || b.any (fun r => (nthD (0, false) r c).2)) }
  | _ => f

/-- The words are read; a poisoned one is a consumption, for MTRS only seen (R326, R423, R426). -/
def Gang.loadFactor (g : Gang) (x : Tile) (f : Factor) : Gang :=
  let h := f.load x
  let o : Origin := { gid := x.gid, slot := 5, addr := f.addr, issue := f.issue, buf := 0 }
  let g := g.onTile x.gid (fun y => { y with factor := some h })
  if h.poison.any id then
    let g := g.sawPoison o true
    if f.kind = 4 then g else g.consume o 1 g.lcyc 0
  else g

/-! ### FACTORISATION_STEP (R323, R331 to R337) -/

/-- FSTAT of an instruction that is stopped at a step or complete (R330). -/
def Factor.status (f : Factor) : Nat :=
  let n := f.d1.edge
  f.stop.getD n * 2 ^ 16 + n * 2 ^ 8 + f.kind * 16 + (if f.stop.isSome then f.kind else 0)

/-- The exchanges of MPERM: rows by PERM, an entry at or above EDGE skipped; whether one was (R337). -/
def Factor.exchange (f : Factor) : Factor × Bool :=
  let ks := if f.up then (List.range f.d1.edge).reverse else List.range f.d1.edge
  ks.foldl (fun (acc : Factor × Bool) k =>
    let p := nthD 0 acc.1.perm k
    if p < f.d1.edge then ({ acc.1 with rows := swapRows [] acc.1.rows k p }, acc.2) else (acc.1, true)) (f, false)

/-- The row writes of MPERM, row r at t + 3 + EDGE + r (R337). -/
def Gang.writeRows (g : Gang) (x : Tile) (o : Origin) (f : Factor) : Gang :=
  ((List.range f.rows.length).zip f.rows).foldl (fun g e =>
    let due := f.issue + 3 + f.d1.edge + e.1
    let a := f.d1.at e.1 0
    if f.scratch then
      ((x.rowPieces a (4 * f.words)).foldl (fun (acc : Gang × List PByte) p =>
        (acc.1.later o due (.write 8 (.scratch o.gid p.1) (acc.2.take p.2)), acc.2.drop p.2)) (g, e.2)).1
    else g.later o due (.permRow f.ag a e.2)) g

/-- What the unit of a tile does in a cycle: the read at t + 2, the end of a step and the test of the next, the exchanges of
MPERM. -/
def Gang.factorStep (g : Gang) (x : Tile) : Gang :=
  match x.factor with
  | Option.none => g
  | some f =>
    let o : Origin := { gid := x.gid, slot := 5, addr := f.addr, issue := f.issue, buf := 0 }
    if f.kind = 5 then
      (if g.lcyc = f.issue + 2 + f.d1.edge then
         let r := f.exchange
         let g := g.onTile x.gid (fun y => { y with factor := some r.1 })
         (if r.2 then g.record o 2 10 g.lcyc 0 else g).writeRows x o r.1
       else g)
    else if g.lcyc = f.issue + 2 then g.loadFactor x f
    else if f.issue + 3 ≤ g.lcyc ∧ (g.lcyc - (f.issue + 3)) % f.stepCycles = 0 ∧ g.lcyc ≤ f.end_ then
      let k := (g.lcyc - (f.issue + 3)) / f.stepCycles
      let h := if k = 0 then f else f.runStep (k - 1)
      if h.stopsAt k then
        let q := { h with stop := some k }
        (g.onTile x.gid (fun y => { y with factor := some q })).record o (if f.kind = 1 then 7 else 8) k g.lcyc
          (BitVec.ofNat 64 q.status)
      else g.onTile x.gid (fun y => { y with factor := some h })
    else g

def execFactorisationStep (s : State) : Outcome :=
  .next (s.withTile (fun t _ _ x => s.onGang t (fun g => g.factorStep x)))

/-! ### FACTORISATION_END (R321, R323, R328 to R335) -/

/-- GROW (R332). -/
def Factor.growth (f : Factor) : Rounded :=
  let n := f.stop.getD f.d1.edge
  let mu := maxAbs (((List.range n).zip f.a).flatMap (fun e => e.2.drop e.1))
  if f.ma = 0 then kept 0
  else
    let r := fdiv mu.bits f.ma
    { r with flags := r.flags ||| mu.flags }

/-- Element (i, j) as it is written: the fill from a stopped step on (R331, R334). -/
def Factor.element (f : Factor) (i j : Nat) : Nat :=
  match f.stop with
  | some k => if k ≤ i ∧ k ≤ j then fillNan else nthD 0 (nthD [] f.a i) j
  | Option.none => if f.kind = 3 then (if j = f.d1.edge then nthD 0 f.taus i else nthD 0 (nthD [] f.a j) i)
                   else nthD 0 (nthD [] f.a i) j

/-- The words that are written at E, in row-major order: offset, value, poison (R321). -/
def Factor.results (f : Factor) : List (Nat × Nat × Bool) :=
  let n := f.d1.edge
  let d := if f.kind = 4 then f.d2 else f.d1
  let cols (i : Nat) : Nat :=
    match f.kind with
    | 2 => i + 1
    | 3 => n + 1
    | 4 => f.d2.edge
    | _ => n
  (List.range n).flatMap (fun i => (List.range (cols i)).map (fun j =>
    (d.at i j, f.element i j, nthD false f.poison (if f.kind = 4 then j else 0))))

/-- The last of several values for one word stands (R321). -/
def lastWords : List (Nat × Nat × Bool) → List (Nat × Nat × Bool)
  | [] => []
  | w :: ws => if ws.any (fun v => v.1 == w.1) then lastWords ws else w :: lastWords ws

/-- PERM as MFLU writes it: the pivots, and from a stopped step on the identity (R331). -/
def Factor.permWords (f : Factor) : List (Nat × Nat) :=
  (List.range f.d1.edge).map (fun j => (j, if j < f.stop.getD f.d1.edge then nthD 0 f.perm j else j))

/-- The end of a factorisation: accumulator words, PERM, GROW, FSTAT and flags; a SYSWR of a PERM register at E is a fault of
the factorisation and stands; a stopped one raises the flags of its finished steps alone (R323, R325, R328). -/
def Gang.endFactor (g : Gang) (x : Tile) (f : Factor) : Gang :=
  let o : Origin := { gid := x.gid, slot := 5, addr := f.addr, issue := f.issue, buf := 0 }
  let g := g.onTile x.gid (fun y => { y with factor := Option.none })
  if f.kind = 5 then g
  else
    let ws := lastWords (f.results.map (fun w => (x.accByte f.ag (w.1 : Int), w.2)))
    let g := ws.foldl (fun g w => g.stageAcc o w.1 (pbytes 4 w.2.1 w.2.2)) g
    let gr := f.growth
    let clash := g.dues.any (fun d => d.due ≤ g.lcyc && d.o.gid == x.gid && (match d.job with
      | .sysw r _ => 0x028 ≤ r && r < 0x030
      | _ => false))
    let g := if f.kind = 1 ∧ clash then g.record o 2 6 g.lcyc 0 else g
    let fl := f.flags ||| (if f.kind = 1 ∧ f.stop = Option.none then f.maFlags ||| gr.flags else 0)
    let g := g.laterFlags o g.lcyc fl
    g.onTile x.gid (fun y =>
      match f.kind with
      | 1 => { y with perm := f.permWords.foldl (fun p e => setKey p e.1 e.2) y.perm, grow := gr.bits, fstat := f.status }
      | 2 => { y with fstat := f.status }
      | 3 => { y with fstat := f.status }
      | _ => y)

def execFactorisationEnd (s : State) : Outcome :=
  .next (s.withTile (fun t _ g x => match x.factor with
    | some f => if f.end_ ≤ g.lcyc then s.onGang t (fun g => g.endFactor x f) else s
    | Option.none => s))

/-! ### MPERM_ROW_WRITE (R337) -/

/-- The words of a row put into a group. -/
def Gang.stageRow (g : Gang) (x : Tile) (o : Origin) (ag off : Nat) (bs : List PByte) : Gang :=
  ((List.range (bs.length / 4)).zip (chunks 4 (bs.length / 4) bs)).foldl (fun g e =>
    g.stageAcc o (x.accByte ag ((off + 4 * e.1 : Nat) : Int)) e.2) g

/-- The reads and writes of the rows of MPERM. -/
def Gang.permRow (g : Gang) (d : Due) : Gang :=
  match d.job, g.tile d.o.gid with
  | .permGet r, some x =>
    (match x.factor with
     | some f =>
       let bs := (List.range f.words).flatMap (fun j => x.accRead f.ag ((f.d1.at r 0 + 4 * j : Nat) : Int) 4)
       (g.onTile x.gid (fun y => { y with factor := some (f.addRow r bs) })).sawPoison d.o (anyPoison bs)
     | Option.none => g)
  | .permRow ag off bs, some x => if x.group ag = [] then g else g.stageRow x d.o ag off bs
  | .write port dst bs, _ => g.writePerform d.o port dst bs
  | _, _ => g

def execMpermRowWrite (s : State) : Outcome :=
  .next (s.perform (fun j => match j with
    | .permGet _ | .permRow _ _ _ => true
    | .write p _ _ => p == 8
    | .read _ _ _ (.toRow _) => true
    | _ => false) (fun s t d => match d.job with
    | .read port src n after => s.readPerform t d.o port src n after
    | _ => s.onGang t (fun g => g.permRow d)))

end Sys2Proof.Machine
end

