-- ==== Sys2Proof/Machine/Flits.lean ====
section
/-! DEFINITION. The flits of a Rosondent link: their fields, the two interleaved Reed-Solomon codewords, the lanes that carry them
(27 R443 to R445). The field polynomial and the generator of the code are not in the spec (DESIGN CHOICE, log 34). -/
namespace Sys2Proof.Machine

/-! ### Fields (R443) -/

/-- A flit: five beats of 64 bytes, 32 bytes of tags, eight of header; its 24 bytes of parity follow from them. -/
structure Flit where
  beats : List (List Nat)
  tags : List Nat
  hdr : List Nat
deriving DecidableEq, Repr

/-- n bytes of a list, zero where it ends. -/
def padTo (n : Nat) (b : List Nat) : List Nat := b.take n ++ List.replicate (n - b.length) 0

/-- The bytes 0 to 359 of a flit; an unused beat is zero. -/
def Flit.payload (f : Flit) : List Nat :=
  (List.range 5).flatMap (fun i => padTo 64 (nthD [] f.beats i)) ++ padTo 32 f.tags ++ padTo 8 f.hdr

/-- The fields of a flit's bytes. -/
def Flit.ofBytes (b : List Nat) : Flit :=
  { beats := chunks 64 5 (b.take 320), tags := (b.drop 320).take 32, hdr := (b.drop 352).take 8 }

/-! ### Arithmetic of symbols -/

/-- Twice a symbol of GF(2^8) modulo x^8 + x^4 + x^3 + x^2 + 1 (DESIGN CHOICE, log 34). -/
def gfDouble (a : Nat) : Nat := if a < 128 then 2 * a else (2 * a - 256) ^^^ 0x1D

/-- The product of symbols, from the n low bits of the second one on. -/
def gfMulN : Nat → Nat → Nat → Nat
  | 0, _, _ => 0
  | n + 1, a, b => (if b % 2 = 1 then a else 0) ^^^ gfMulN n (gfDouble a) (b / 2)

def gfMul (a b : Nat) : Nat := gfMulN 8 a b

/-- A power of a symbol. -/
def gfPow (a : Nat) : Nat → Nat
  | 0 => 1
  | n + 1 => gfMul a (gfPow a n)

/-- A power of the generator 2. -/
def gfExp (n : Nat) : Nat := gfPow 2 (n % 255)

/-- The inverse of a symbol; 0 for 0. -/
def gfInv (a : Nat) : Nat := gfPow a 254

/-- The symbol-wise sum of two lists, the longer one's rest kept. -/
def gfAdd : List Nat → List Nat → List Nat
  | [], b => b
  | a, [] => a
  | x :: xs, y :: ys => (x ^^^ y) :: gfAdd xs ys

/-- The value of a polynomial, lowest coefficient first. -/
def gfEval (p : List Nat) (x : Nat) : Nat := p.foldr (fun c v => c ^^^ gfMul x v) 0

/-- The product of two polynomials, lowest coefficient first. -/
def gfTimes : List Nat → List Nat → List Nat
  | [], _ => []
  | x :: xs, q => gfAdd (q.map (gfMul x)) (0 :: gfTimes xs q)

/-! ### Codewords: 180 bytes and 12 of parity (R443, R445) -/

/-- The generator polynomial below its leading term, highest coefficient first: the roots are the powers 0 to 11 of 2. -/
def rsGenerator : List Nat :=
  (((List.range 12).foldl (fun g i => gfTimes g [gfExp i, 1]) [1]).take 12).reverse

/-- The parity of the bytes of a codeword that come before it. -/
def rsParity (data : List Nat) : List Nat :=
  data.foldl (fun r d => let fb := d ^^^ nthD 0 r 0; gfAdd (r.drop 1 ++ [0]) (rsGenerator.map (gfMul fb))) (List.replicate 12 0)

/-- The syndromes of a received codeword of 192 bytes, its first byte the highest coefficient. -/
def rsSyndromes (w : List Nat) : List Nat := (List.range 12).map (fun j => gfEval w.reverse (gfExp j))

/-- The search for the locator polynomial (Berlekamp and Massey): locator, the one before, their distance, length, last
discrepancy. -/
structure RsSearch where
  loc : List Nat
  prev : List Nat
  m : Nat
  len : Nat
  last : Nat
deriving DecidableEq, Repr

def rsStep (syn : List Nat) (x : RsSearch) (n : Nat) : RsSearch :=
  let d := (List.range (x.len + 1)).foldl (fun v i => v ^^^ gfMul (nthD 0 x.loc i) (if i ≤ n then nthD 0 syn (n - i) else 0)) 0
  if d = 0 then { x with m := x.m + 1 }
  else
    let loc := gfAdd x.loc (List.replicate x.m 0 ++ x.prev.map (gfMul (gfMul d (gfInv x.last))))
    if 2 * x.len ≤ n then { loc := loc, prev := x.loc, m := 1, len := n + 1 - x.len, last := d }
    else { x with loc := loc, m := x.m + 1 }

/-- The errors of a codeword: places and values; none when it has more than six (R445). -/
def rsErrors (w : List Nat) : Option (List (Nat × Nat)) :=
  let syn := rsSyndromes w
  if syn.all (· == 0) then some []
  else
    let x := (List.range 12).foldl (rsStep syn) { loc := [1], prev := [1], m := 1, len := 0, last := 1 }
    let omega := (gfTimes syn x.loc).take 12
    let odd := ((List.range x.loc.length).zip x.loc).filterMap (fun e => if e.1 % 2 = 1 then some e else none)
    let at_ (e : Nat) : Nat := gfExp (255 - e % 255)
    let roots := (List.range 192).filter (fun p => gfEval x.loc (at_ (191 - p)) == 0)
    let errs := roots.map (fun p =>
      let xi := at_ (191 - p)
      let slope := odd.foldl (fun v e => v ^^^ gfMul e.2 (gfPow xi (e.1 - 1))) 0
      (p, gfMul (gfExp (191 - p)) (gfMul (gfEval omega xi) (gfInv slope))))
    if 6 < x.len ∨ roots.length ≠ x.len then none
    else
      let fixed := errs.foldl (fun (w : List Nat) e => w.modify e.1 (fun b => b ^^^ e.2)) w
      if (rsSyndromes fixed).all (· == 0) then some errs else none

/-! ### A flit of 384 bytes (R443, R445) -/

/-- The bytes of a list at even or odd places: codeword 0 and codeword 1. -/
def everyOther (b : List Nat) (c : Nat) : List Nat := (List.range ((b.length + 1 - c) / 2)).map (fun i => nthD 0 b (2 * i + c))

/-- Two codewords interleaved. -/
def interleave (a b : List Nat) : List Nat := (a.zip b).flatMap (fun e => [e.1, e.2])

/-- The 384 bytes of a flit. -/
def Flit.bytes (f : Flit) : List Nat :=
  f.payload ++ interleave (rsParity (everyOther f.payload 0)) (rsParity (everyOther f.payload 1))

/-- What FEC makes of 384 bytes: the flit and the places of its symbol errors; none when a codeword is uncorrectable (R445). -/
def flitDecode (b : List Nat) : Option (Flit × List Nat) :=
  match rsErrors (everyOther b 0), rsErrors (everyOther b 1) with
  | some x, some y =>
    let errs := x.map (fun e => (2 * e.1, e.2)) ++ y.map (fun e => (2 * e.1 + 1, e.2))
    some (Flit.ofBytes (errs.foldl (fun (w : List Nat) e => w.modify e.1 (fun b => b ^^^ e.2)) b), errs.map (·.1))
  | _, _ => none

/-! ### Lanes (R444) -/

/-- The working lanes of a lane map, counting its set bits from bit 0. -/
def lanesIn (lmap : Nat) : List Nat := (List.range 16).filter (fun i => bitAt lmap i)

/-- The cycles of a flit on w lanes. -/
def flitCycles (w : Nat) : Nat := ceilDiv 16 w

/-- The bytes that each of w working lanes carries for a flit: byte j on lane j mod w, zero to the end of the last cycle. -/
def stripe (w : Nat) (b : List Nat) : List (List Nat) :=
  (List.range w).map (fun k => padTo (24 * flitCycles w) ((List.range ((b.length + w - 1 - k) / w)).map (fun i => nthD 0 b (w * i + k))))

/-- The 384 bytes that w lanes bring; what fills the last cycle is discarded. -/
def unstripe (w : Nat) (lanes : List (List Nat)) : List Nat :=
  (List.range 384).map (fun j => nthD 0 (nthD [] lanes (j % w)) (j / w))

end Sys2Proof.Machine
end

