-- ==== Sys2Proof/Machine/Scheduler.lean ====
section
/-! DEFINITION. Slices: boundaries by the IEEE 1588 time, the rotation of a partition, the decision table (01 R56, 23 R403 to R406,
27 R457, R465). -/
namespace Sys2Proof.Machine

/-! ### Boundaries (R384, R404, R465) -/

/-- The slice period in µs, within its limits. -/
def State.sliceUs (s : State) : Nat := max 100 (min 100000 s.slice)

/-- S: the slice period in cycles of 1.05 GHz (R405). -/
def State.sliceCycles (s : State) : Nat := s.sliceUs * 1050

/-- The number of the last boundary at or before a wall cycle; negative before SEPOCH. Times are in 1/21 ns: a cycle is 20 of
them. -/
def State.boundaryNumber (s : State) (w0 t0 : Nat) (w : Int) : Int :=
  (21 * (t0 : Int) + 20 * (w - (w0 : Int)) - 21 * (s.sepoch.toNat : Int)) / (21000 * (s.sliceUs : Int))

/-- A slice boundary falls in a wall cycle, the first one at or after its instant (R404; DEDUCED, log 24); none before PTM relates the count to
time (R465). -/
def State.boundaryAt (s : State) (w : Nat) : Bool :=
  match s.ptm with
  | none => false
  | some (w0, t0) =>
    let k := s.boundaryNumber w0 t0 (w : Int)
    0 ≤ k && s.boundaryNumber w0 t0 ((w : Int) - 1) < k

/-- How long before a boundary the scheduler decides (R404). -/
def decisionLead : Nat := 8192

/-! ### Candidates and the tiles that they want (R403, R404) -/

/-- Whether a candidate is one for the tiles of a gang: it stands nowhere else free, and a placement of it is one that the gang does not
leave free. -/
def State.wants (s : State) (cand : Task) (g : Gang) : Bool :=
  match s.needs cand with
  | none => false
  | some (sh, fixed) => (s.freePlaces cand sh fixed).isEmpty && (s.allPlaces cand sh fixed).any (fun e =>
      s.placeOpen cand.fn e.1 e.2 sh && !s.leavesFree g e.1 e.2 sh)

/-- The tasks of a partition that run or are held: their gangs' logical package 0 is on its package, on its tiles (R404). -/
def State.tasksOf (s : State) (p : Partition) : List Task :=
  (s.tasks.map (·.2)).filter (fun x => match x.gang with
    | some g => (x.st == .running || x.st == .held) && g.package 0 == p.pkg && (s.tilesOn g p.pkg).any (fun k => bitAt p.tiles k)
    | none => false)

/-! ### The decision table (R405, R406, R457) -/

/-- The row that applies to a task; `again` disables the extension. -/
def State.rowFor (s : State) (x : Task) (g : Gang) (cand : Option Task) (again : Bool) : Nat :=
  let m := x.desc.policy
  let free : Bool := bitAt g.dctl 4 || g.dctl % 8 != 0
  if g.pkgs.any (fun p => (s.pkg p).pewter.hotWarn) then (if free then 2 else 5)
  else
    match cand with
    | none => 1
    | some y =>
      let pw := y.effective
      let pr := x.desc.prio
      let e := ((g.tile 0).map (fun z => z.estm.toNat)).getD 0
      if s.wants y g = false ∨ (y.fn = x.fn ∧ pw ≤ pr) then 1
      else if free then 2
      else if e ≤ s.sliceCycles / 8 ∧ !x.extended ∧ !again then 3
      else if bitAt m 1 ∧ (pw ≤ pr + 3 ∨ !bitAt m 2) then 4
      else if bitAt m 2 then 5
      else 6

/-- How far ahead of a gang the target of a decided action lies: to the instant, never less than H (R43, R404). -/
def Gang.lead (g : Gang) : Nat := max g.h decisionLead

/-- The action of a row for a task. -/
def State.actOn (s : State) (t row : Nat) : State :=
  match row with
  | 3 => s.onTask t (fun x => { x with extended := true, redecide := some (s.wall + s.sliceCycles / 8) })
  | 4 => s.onGang t (fun g =>
      if g.drain.isSome ∨ g.holds.any (fun h => h.cause == 2) then g else { g with drain := some (g.lcyc + g.lead, 0) })
  | 5 =>
    (match s.task t, s.gang t with
     | some x, some g =>
       if x.st = .held then (if g.holdsFor 5 then s else s.startSave t 2)
       else if g.holds.any (fun h => h.cause == 2) then s
       else s.onGang t (fun g => { g.announceAt 2 (g.lcyc + g.lead) 0 with drain := none })
     | _, _ => s)
  | 6 => s.onTask t (fun x => { x with killAt := some (s.wall + decisionLead) })
  | _ => s

/-- The decision on one task: a pending extension is over, the row's action is announced. -/
def State.decide (s : State) (t : Nat) (cand : Option Task) (again : Bool) : State :=
  match s.task t, s.gang t with
  | some x, some g => (s.onTask t (fun y => { y with redecide := none, extended := false })).actOn t (s.rowFor x g cand again)
  | _, _ => s

/-- SCHEDULER_DECISION of a partition, ahead of its boundary. -/
def execSchedulerDecision (s : State) : Outcome :=
  let i := s.arg 0
  .next (match find? s.parts i with
    | none => s
    | some p =>
      let q := { p with next := s.nextFn p }
      let s := { s with parts := setKey s.parts i q }
      let cand := s.candidate i q
      (s.tasksOf p).foldl (fun s x => s.decide x.id cand false) s)

/-- EXTENSION_REDECIDE of a task whose extension is over: row 3 no longer applies. -/
def execExtensionRedecide (s : State) : Outcome :=
  let t := s.evTask
  .next (match s.task t with
    | none => s
    | some x =>
      match x.redecide, s.parts.find? (fun e => (s.tasksOf e.2).any (fun y => y.id == t)) with
      | some w, some e =>
        if w ≤ s.wall then s.decide t (s.candidate e.1 e.2) true else s
      | some _, none => s.onTask t (fun y => { y with redecide := none })
      | none, _ => s)

/-! ### SLICE_BOUNDARY (R403, R405) -/

/-- The functions whose heads age at the boundary of a partition: those that no partition before it admits. -/
def State.agedBy (s : State) (i : Nat) (p : Partition) : List Nat :=
  p.fns.filter (fun f => !s.parts.any (fun e => e.1 < i && e.2.fns.contains f))

/-- The head of a function's queue has spent another slice there. -/
def State.ageHead (s : State) (fn : Nat) : State :=
  match s.headOf fn with
  | none => s
  | some x => s.onTask x.id (fun y => { y with waited := y.waited + 1 })

/-- The kills that are decided for this instant. -/
def State.dueKills (s : State) : State :=
  s.tasks.foldl (fun s e => match e.2.killAt with
    | some w => if w ≤ s.wall then s.killTask e.1 endKILLED else s
    | none => s) s

/-- An IEEE 1588 instant on a package comes to the serialiser (R59). -/
def State.instant (s : State) (pkg : Nat) : State :=
  s.arrive { source := 3, task := none, lcyc := 0, gid := 0, place := pkg * 512, act := .note }

/-- SLICE_BOUNDARY of a partition. -/
def execSliceBoundary (s : State) : Outcome :=
  let i := s.arg 0
  .next (match find? s.parts i with
    | none => s
    | some p =>
      let s := s.instant p.pkg
      let turn := if p.next < 256 then p.next else s.nextFn p
      let s := { s with parts := setKey s.parts i { p with turn := turn, next := 256 } }
      ((s.agedBy i p).foldl State.ageHead s).dueKills)

end Sys2Proof.Machine
end

