-- ==== Sys2Proof/Machine/Links.lean ====
section
/-! DEFINITION. Rosondent links and the host port: training, flits, width changes, host accesses of device memory (13 R248 and R261,
27 R440 to R449, R465). -/
namespace Sys2Proof.Machine

/-! ### Links (R443, R446, R447) -/

/-- A link that there is: twelve of each package (R443). -/
def State.linkThere (s : State) (p l : Nat) : Bool := p < s.cfg.packages && l < 12

/-- The number of working lanes of a lane map (R447). -/
def lanesOf (lmap : Nat) : Nat := popCount 16 lmap

/-- The link status register: DW from the configuration; a field W or DW of 16 lanes shows 0 (R447). -/
def Link.word (x : Link) (dw : Nat) : Nat := x.unc * 2 ^ 48 + x.corr * 2 ^ 32 + dw % 16 * 2 ^ 20 + x.w % 16 * 2 ^ 16 + x.lmap

/-- The link status register of a link of a package. -/
def State.linkWord (s : State) (p l : Nat) : Nat := (s.link p l).word (look 0 s.cfg.dw (16 * p + l))

/-- A link trains: its latency is measured, DCYC starts at the first training of the domain (R446, R465). -/
def State.trainLink (s : State) (p l : Nat) : State :=
  let x := s.link p l
  let s1 := s.setLink p l { x with latency := some (Config.linkLatency p l), w := lanesOf x.lmap, errs := [] }
  { s1 with dcycStart := some (s.dcycStart.getD s.wall) }

/-- LINK_TRAINING. -/
def execLinkTraining (s : State) : Outcome :=
  .next (if s.linkThere (s.arg 0) (s.arg 1) then s.trainLink (s.arg 0) (s.arg 1) else s)

/-- DCYC: wall cycles since the first link training of the domain; 0 before it (R446, R465). -/
def State.dcyc (s : State) : Nat :=
  match s.dcycStart with
  | some w => s.wall - w
  | none => 0

/-- PTM_SYNC: this wall cycle is related to an IEEE 1588 time in ns (R446, R465). -/
def execPtmSync (s : State) : Outcome := .next { s with ptm := some (s.wall, s.arg 0) }

/-! ### Width changes (R449) -/

/-- The pairs of packages of a gang, by their logical numbers. -/
def Gang.packagePairs (g : Gang) : List (Nat × Nat) :=
  (List.range g.pkgs.length).flatMap (fun i => (List.range g.pkgs.length).map (fun j => (i, j)))

/-- The gangs with router slots on a link: those one of whose routes between packages takes it (R449, R450). -/
def State.gangsOn (s : State) (p l : Nat) : List Nat :=
  (s.tasks.filter (fun e => match e.2.gang with
    | some g => g.packagePairs.any (fun a => (linkRoute (g.package a.1) (g.package a.2)).contains (p, l))
    | none => false)).map (·.1)

/-- The number by which a hold names its link. -/
def linkId (p l : Nat) : Nat := 16 * p + l

/-- A width-change hold is announced to every gang on a link, a frozen gang shares its freeze; the horizon is 0 in exact-stop mode
(R44, R46, R434, R449; DESIGN CHOICE, log 1). -/
def State.announceWidth (s : State) (p l : Nat) : State :=
  (s.gangsOn p l).foldl (fun s t =>
    let r := s.choose (2 ^ 16)
    r.2.onGang t (fun g =>
      if g.holds.any (fun h => h.cause == 4 && h.gid == linkId p l) then g
      else g.announceAt 4 (if g.isHeld then g.lcyc else g.lcyc + g.horizon + r.1) (linkId p l))) s

/-- The lane map that a link is to run with: the one written last, without the lanes that are to be retired. -/
def Link.wanted (x : Link) : Nat :=
  sumOf ((lanesIn (x.next.getD x.lmap)).map (fun i => if bitAt x.drop i then 0 else 2 ^ i))

/-- Whether a change of a link is pending. -/
def Link.changing (x : Link) : Bool := x.next.isSome || x.drop != 0

/-- A link with another map or with lanes to be retired; one without any lane is refused (R444; DESIGN CHOICE, log 5). It joins a change
that is pending (R449). -/
def State.wantLanes (s : State) (p l : Nat) (x : Link) : State :=
  if s.linkThere p l ∧ x.wanted ≠ 0 then (s.setLink p l x).announceWidth p l else s

/-- A lane is to be retired. -/
def State.retireLane (s : State) (p l lane : Nat) : State :=
  let x := s.link p l
  if bitAt x.drop lane ∨ 16 ≤ lane then s else s.wantLanes p l { x with drop := x.drop + 2 ^ lane }

/-- LANE_RETIRE: a lane is lost or errs too often. -/
def execLaneRetire (s : State) : Outcome := .next (s.retireLane (s.arg 0) (s.arg 1) (s.arg 2))

/-- LMAP_WRITE (R447). -/
def execLmapWrite (s : State) : Outcome :=
  .next (s.wantLanes (s.arg 0) (s.arg 1) { s.link (s.arg 0) (s.arg 1) with next := some (s.arg 2 % 65536) })

/-- The width-change hold of a link stands at its freeze in a gang. -/
def Gang.heldForLink (g : Gang) (k : Nat) : Bool := g.dueHolds.any (fun h => h.cause == 4 && h.gid == k)

/-- The links of a gang's routes still serve its design widths (R448). -/
def State.linksHold (s : State) (g : Gang) : Bool := s.linksServe g.design g.pkgs

/-- Whether another placement of a task, on packages whose links serve its design widths, stands free (R449). -/
def State.otherPlace (s : State) (x : Task) (g : Gang) : Bool :=
  x.desc.place == 0xFF && (s.allPlaces x g.shape (if g.table.any (fun e => xlValid e.2) then some g.pkgs else none)).any (fun e =>
    s.placeFree x e.1 e.2 g.shape)

/-- What the scheduler does with a gang after the change: resume, move, or end (R449). -/
def State.afterWidth (s : State) (t p l : Nat) : State :=
  match s.task t, s.gang t with
  | some x, some g =>
    if g.heldForLink (linkId p l) = false then s
    else
      let s := s.onGang t (fun g => { g with holds := g.holds.filter (fun h => !(h.cause == 4 && h.gid == linkId p l)) })
      if s.linksHold g ∨ x.st ≠ .held ∨ g.holdsFor 5 then s
      else s.onTask t (fun x => { x with st := .saving 2 (if s.otherPlace x g then 3 else 4) })
  | _, _ => s

/-- Whether every gang that a width change waits for stands at its freeze. -/
def State.widthReady (s : State) (p l : Nat) : Bool :=
  s.tasks.all (fun e => match e.2.gang with
    | some g => !g.holds.any (fun h => h.cause == 4 && h.gid == linkId p l) || (g.isHeld && g.heldForLink (linkId p l))
    | none => true)

/-- A link that has retrained with the lanes that were wanted. -/
def Link.changed (x : Link) : Link := { x with lmap := x.wanted, w := lanesOf x.wanted, next := none, drop := 0, errs := [] }

/-- LINK_WIDTH_CHANGE: at the freeze of the last affected gang the link retrains. -/
def execLinkWidthChange (s : State) : Outcome :=
  let p := s.arg 0
  let l := s.arg 1
  let x := s.link p l
  .next (if x.changing ∧ s.widthReady p l then
      s.tasks.foldl (fun s e => s.afterWidth e.1 p l) (s.setLink p l x.changed)
    else s)

/-! ### Flits (R421, R443 to R445) -/

/-- The bytes of an effect that cross a link in an uncorrectable flit are words 0x7FE4_0000 with the poison mark; it goes on as the
timetable and the slot tables have it (R421, R445). -/
def Due.lose (d : Due) : Due :=
  match d.job with
  | .write port dst bs => { d with job := .write port dst (poisonedBytes 0 bs.length) }
  | .arrive ch bs => { d with job := .arrive ch (poisonedBytes 0 bs.length) }
  | .deliver h seg b f dst bs => { d with job := .deliver h seg b f dst (poisonedBytes 0 bs.length) }
  | .read port src n a => { d with job := .read port (if n = 0 then src else .unresolved) n a }
  | .sreg code _ _ => { d with job := .sreg code (BitVec.ofNat 64 (pval (poisonedBytes 0 8))) true }
  | .atom op l w _ c _ code due => { d with job := .atom op l w (pval (poisonedBytes 0 w)) c true code due }
  | .barrier u rest code due => { d with job := .barrier { u with n := pval (poisonedBytes 0 4), poison := true } rest code due }
  | _ => d

/-- A part of a tree post on its way is lost. -/
def TreeBeat.lose (b : TreeBeat) : TreeBeat := { b with data := poisonedBytes 0 b.data.length }

/-- What a beat of a flit belongs to: kind 0 an effect of a task's gang by its number, 1 a beat of an arm (tile, arm, beat), 2 a beat
that a tree node sends on (handle, segment, beat). -/
def State.loseBeat (s : State) (t : Nat) (e : List Nat) : State :=
  match e with
  | [0, i, _, _] => s.onGang t (fun g => { g with dues := g.dues.modify i Due.lose })
  | [1, gid, i, j] => s.onTile t gid (fun x =>
      { x with arms := x.arms.modify i (fun a => { a with beats := a.beats.modify j TreeBeat.lose }) })
  | [2, h, seg, b] => s.onTree h (fun r => { r with ranges := r.ranges.map (fun q =>
      if q.task = t then { q with spoiled := q.spoiled ++ [(seg, b)] } else q) })
  | _ => s

/-- The symbols that FEC corrected, counted for the lanes that brought them (R449). -/
def Link.countErrors (x : Link) (places : List Nat) : Link :=
  let lanes := lanesIn x.lmap
  { x with errs := places.foldl (fun t j => let k := nthD 0 lanes (j % max 1 lanes.length); put 0 t k (look 0 t k + 1)) x.errs }

/-- The lanes of a link whose corrected symbols exceed the configured limit are retired (R449; as counts since the last training, log 5). -/
def State.retireNoisy (s : State) (p l : Nat) : State :=
  if s.cfg.laneLimit = 0 then s
  else ((s.link p l).errs.filter (fun e => s.cfg.laneLimit < e.2)).foldl (fun s e => s.retireLane p l e.1) s

/-- A flit that a link receives, lane by lane as its working lanes bring it: corrected symbols are counted, of an uncorrectable flit the
beats are poisoned, at most five, and it is counted and logged (R443, R445). -/
def State.receiveFlit (s : State) (p l t : Nat) (beats : List (List Nat)) (symbols : List Nat) : State :=
  let x := s.link p l
  match flitDecode (unstripe x.w (chunks (24 * flitCycles x.w) x.w symbols)) with
  | some (_, []) => s
  | some (_, places) => (s.setLink p l { x.countErrors places with corr := min 65535 (x.corr + 1) }).retireNoisy p l
  | none =>
    (beats.take 5).foldl (fun s e => s.loseBeat t e)
      ((s.setLink p l { x with unc := min 65535 (x.unc + 1) }).logEvent 1 2 (p * 512 + l) 0 0 0)

/-- FLIT_RECEIVE: package, link, task, number of beats, four numbers for each, then the symbols. -/
def execFlitReceive (s : State) : Outcome :=
  let as := match s.cur with
    | .outside as => as.drop 4
    | _ => []
  let n := s.arg 3
  .next (if s.linkThere (s.arg 0) (s.arg 1) then
      s.receiveFlit (s.arg 0) (s.arg 1) (s.arg 2) (chunks 4 n (as.take (4 * n))) (as.drop (4 * n))
    else s)

/-! ### The host port (R440 to R442) -/

/-- What the device answers to the host's accesses. -/
def outHost : Nat := 2

/-- The rates of PCIe up to 6.0, in tenths of GT/s (R440). -/
def hostRates : List Nat := [25, 50, 80, 160, 320, 640]

/-- The HDM decoders of a training: host base, size and device base of each, at most four (R442). -/
def hdmOf (as : List Nat) : List (Nat × Nat × Nat) :=
  (chunks 3 4 as).filterMap (fun e => match e with
    | [b, n, d] => some (b, n, d)
    | _ => none)

/-- No core holds a line of system space. -/
def State.dropLines (s : State) : State := { s with cores := s.cores.map (fun e => (e.1, { e.2 with lines := [] })) }

/-- HOST_PORT_TRAINING: mode 0 PCIe 6.0, 1 CXL 3.1 with flits of 68 or 256 bytes; a width of 16, 8, 4, 2 or 1, a rate, the HDM decoders.
As plain PCIe the port has neither CXL.cache nor CXL.mem: no core and no host holds a line any longer (R440, R442). -/
def execHostPortTraining (s : State) : Outcome :=
  let decoders := match s.cur with
    | .outside as => hdmOf (as.drop 4)
    | _ => []
  .next (if s.arg 0 < 2 ∧ [1, 2, 4, 8, 16].contains (s.arg 1) ∧ hostRates.contains (s.arg 2) ∧ (s.arg 3 = 68 ∨ s.arg 3 = 256) then
      let s := { s with hostMode := s.arg 0, hostWidth := s.arg 1, hostRate := s.arg 2, hostFlit := s.arg 3 }
      if s.arg 0 = 1 then { s with hdm := decoders } else { s.dropLines with hdm := [], hostLines := [] }
    else s)

/-- A host access completes: 1 with data and its poison bit, 0 as unsupported. -/
def State.hostAnswer (s : State) (who : Nat) (bs : Option (List PByte)) : State :=
  match bs with
  | some bs => s.emit outHost who [1, pval bs, if anyPoison bs then 1 else 0]
  | none => s.emit outHost who [0]

/-- A host access of device memory in background slots; a write carries the host's poison indication (R248, R261, R440). -/
def State.hostAccess (s : State) (who a n v : Nat) (write ep : Bool) : State :=
  if write then (s.devWrite a (pbytes n v ep)).hostAnswer who (some [])
  else (s.noteBad 0 a n).hostAnswer who (some (s.devRead a n))

/-- The granted frames of a function in increasing device address, the i-th (R441, R467). -/
def State.grantedFrame (s : State) (fn i : Nat) : Option Nat := ((s.grants.filter (fun e => e.2 == fn)).map (·.1))[i]?

/-- BAR2_ACCESS: 1 to 64 bytes within a frame; a frame that is not granted or is quarantined completes as Unsupported Request. -/
def execBar2Access (s : State) : Outcome :=
  let fn := s.arg 0
  let off := s.arg 2
  let n := min 64 (s.arg 3)
  .next (match s.grantedFrame fn (off / 2 ^ 21) with
    | none => s.hostAnswer fn none
    | some f =>
      if s.frameQuarantined f ∨ 2 ^ 21 < off % 2 ^ 21 + n then s.hostAnswer fn none
      else s.hostAccess fn (f * 2 ^ 21 + off % 2 ^ 21) n (s.arg 4) (s.arg 1 ≠ 0) (s.arg 5 ≠ 0))

/-- The device address of a host address through the HDM decoders (R442). -/
def State.hdmAddr (s : State) (a : Nat) : Option Nat :=
  (s.hdm.find? (fun d => d.1 ≤ a && a < d.1 + d.2.1)).map (fun d => d.2.2 + (a - d.1))

/-- A frame that a running task's table maps with W = 1: the host is granted no cached copy of it (R261). -/
def State.hostUncached (s : State) (f : Nat) : Bool :=
  s.tasks.any (fun e => match e.2.gang with
    | some g => g.writesFrame f
    | none => false)

/-- The host keeps a copy of a line that it has read (R261). -/
def State.hostCaches (s : State) (a : Nat) : State :=
  if s.hostUncached (frameOf a) then s else { s with hostLines := addNum s.hostLines (alignDown a 64) }

/-- CXL_MEM_ACCESS: device memory but for the reserved frames through an HDM decoder, when the port has trained as CXL; a read may leave a
copy with the host (R261, R442). -/
def execCxlMemAccess (s : State) : Outcome :=
  let n := min 64 (s.arg 2)
  .next (match s.hdmAddr (s.arg 1) with
    | none => s.hostAnswer 255 none
    | some a =>
      if s.hostMode = 1 ∧ s.devExists a ∧ s.devExists (a + n - 1) ∧ !s.cfg.reserved.contains (frameOf a)
          ∧ !s.cfg.reserved.contains (frameOf (a + n - 1)) then
        let r := s.hostAccess 255 a n (s.arg 3) (s.arg 0 ≠ 0) (s.arg 4 ≠ 0)
        if s.arg 0 = 0 ∧ s.arg 5 ≠ 0 then r.hostCaches a else r
      else s.hostAnswer 255 none)

end Sys2Proof.Machine
end

