-- ==== Sys2Proof/Machine/Migration.lean ====
section
/-! DEFINITION. MIGR: the move of a page of a task that has no tiles, with the generations and the saved image that name it
(13 R243, 23 R410). -/
namespace Sys2Proof.Machine

/-- The entry of a gang's table that an address lies in. -/
def Gang.entryFor (g : Gang) (va : Nat) : Option Nat := (g.table.find? (fun e => xlMatches e.2 va)).map (·.1)

/-- A move that a MIGR block asks for, or the status that refuses it: the task neither runs nor is frozen, the page is one of its own
and goes to a page of any stack of a package of its gang (what a table entry can name; DEDUCED, log 24). -/
def State.migrationOf (s : State) (b : List Nat) : Except Nat Migration :=
  let f := fieldOf b
  let dst := f 0x10 8
  match s.ownTask (f 0 4) with
  | .error st => .error st
  | .ok x =>
    if x.endStatus.isSome then .error stNOTASK
    else if x.gang.isSome then .error stBUSY
    else
      match x.image with
      | none => .error stBADBLOCK
      | some i =>
        match i.gang.entryFor (f 8 8) with
        | none => .error stBADBLOCK
        | some k =>
          let e := look 0 i.gang.table k
          if f 4 4 ≠ 0 ∨ 16 ≤ f 0x18 1 ∨ f 0x19 7 ≠ 0 ∨ dst % (entryFrames e * 2 ^ 21) ≠ 0 ∨ s.devExists dst = false
              ∨ !i.gang.pkgs.contains (dst / 2 ^ 39) then .error stBADBLOCK
          else .ok { task := x.id, va := f 8 8, dst := dst, key := f 0x18 1, entry := k }

/-- MIGR. -/
def execMigr (d a g n : Nat) (s : State) : Outcome :=
  s.deviceLevel (fun s => s.guarded g n (fun s =>
    let s := s.flushAll s.coreId
    match s.agentBlock (s.me.reg a).toNat 1 32 with
    | none => s.badBlock d (s.me.reg a).toNat 32
    | some b =>
      match s.migrationOf b with
      | .error st => .next (s.status d st)
      | .ok m => .next ({ s with migrations := s.migrations ++ [m] }.status d stOK)))

/-! ### The page (R410) -/

/-- A page that moves: where it lay and where it goes, its bytes. -/
structure PageMove where
  src : DevLoc
  dst : DevLoc
  size : Nat
deriving DecidableEq, Repr

/-- An address lies in the page that moves. -/
def PageMove.has (m : PageMove) (a : Nat) : Bool := m.src.addr ≤ a && a < m.src.addr + m.size

/-- An address after the move. -/
def PageMove.addr (m : PageMove) (a : Nat) : Nat := if m.has a then a - m.src.addr + m.dst.addr else a

/-- A location after the move: its address and its key slot. -/
def PageMove.loc (m : PageMove) (l : DevLoc) : DevLoc :=
  if m.has l.addr then { l with addr := m.addr l.addr, key := m.dst.key } else l

/-- The lines of a page moved, each decrypted under its old slot and encrypted under its new one. -/
def State.moveLines (s : State) (src dst : DevLoc) : Nat → Nat → State
  | 0, _ => s
  | n + 1, off =>
    let bs := s.locRead { src with addr := src.addr + off } 64
    ((s.noteBad 0 (src.addr + off) 64).locWrite { dst with addr := dst.addr + off } bs).moveLines src dst n (off + 64)

/-! ### Generations that share the page (R290, R410) -/

/-- The plain bytes of a line as it lies in memory. -/
def State.plainLine (s : State) (l : DevLoc) (bs : List PByte) : List PByte :=
  if !l.ke then bs
  else
    let k := s.keySlot l.addr l.key
    if k.alg = 0 then poisonedBytes l.addr bs.length else cryptLine k l.addr true bs

/-- The bytes of a line as they lie in memory; none through an empty slot (R408). -/
def State.storedLine (s : State) (l : DevLoc) (bs : List PByte) : Option (List PByte) :=
  if !l.ke then some bs
  else
    let k := s.keySlot l.addr l.key
    if k.alg = 0 then none else some (cryptLine k l.addr false bs)

/-- A line as a generation holds it: the bytes that it kept, else those that are there. -/
def Gen.line (g : Gen) (s : State) (a : Nat) : List PByte :=
  (upFrom a 64).map (fun i => (find? g.old i).getD (nthD { b := 0, p := false } (s.devRead i 1) 0))

/-- The lines of a moved page that a generation keeps, as they lie at their new place. -/
def Gen.movedLines (g : Gen) (s : State) (m : PageMove) : Tbl PByte :=
  (dedupNat ((g.old.filter (fun e => m.has e.1)).map (fun e => alignDown e.1 64))).foldl (fun t a =>
    match s.storedLine (m.loc { m.src with addr := a }) (s.plainLine { m.src with addr := a } (g.line s a)) with
    | none => t
    | some bs => ((upFrom (m.addr a) 64).zip bs).foldl (fun t e => setKey t e.1 e.2) t) []

/-- A generation after the move of a page of its domain; `s` is the state before it. -/
def Gen.moved (g : Gen) (s : State) (m : PageMove) : Gen :=
  if g.pages.any (fun p => p.1 ≤ m.src.addr && m.src.addr < p.1 + p.2) then
    { g with
      pages := (g.pages.filter (fun p => p.1 != m.src.addr)) ++ [(m.dst.addr, m.size)]
      old := (g.movedLines s m).foldl (fun t e => setKey t e.1 e.2) (g.old.filter (fun e => !m.has e.1))
      bad := (g.bad.map (fun w => m.addr (4 * w) / 4)).foldl addNum []
      blocks := (g.blocks.map (fun b => m.addr (65536 * b) / 65536)).foldl addNum [] }
  else g

/-! ### The saved gang (R237, R243) -/

/-- Where a pending read's value goes, after the move. -/
def PageMove.place (m : PageMove) (p : Place) : Place :=
  match p with
  | .dev l => .dev (m.loc l)
  | q => q

def PageMove.after (m : PageMove) (a : After) : After :=
  match a with
  | .toBeat dst due src e => .toBeat (m.place dst) due src e
  | b => b

/-- An effect in flight after the move of a page that it names. -/
def PageMove.job (m : PageMove) (j : Job) : Job :=
  match j with
  | .read p src n a => .read p (m.place src) n (m.after a)
  | .write p dst bs => .write p (m.place dst) bs
  | .atom op l w b c p code due => .atom op (m.loc l) w b c p code due
  | .barrier u rest code due => .barrier { u with loc := m.loc u.loc } (rest.map (fun e => (e.1, { e.2 with loc := m.loc e.2.loc }))) code due
  | .deliver h seg b f dst bs => .deliver h seg b f (m.place dst) bs
  | k => k

/-- The records of a region after the move. -/
def PageMove.region (m : PageMove) (r : Region) : Region := { r with saved := r.saved.map (fun e => (m.loc e.1, e.2)) }

/-- A translation entry with another frame and key, its parity computed anew (R237, R243). -/
def movedEntry (e pkg stk frame key : Nat) : Nat :=
  let x := e % 2 ^ 120 - bitsOf e 91 67 * 2 ^ 67 - bitsOf e 63 60 * 2 ^ 60
    + pkg % 128 * 2 ^ 85 + stk % 8 * 2 ^ 82 + frame % 2 ^ 15 * 2 ^ 67 + key * 2 ^ 60
  x + xlPar x * 2 ^ 120

/-- A saved gang whose table has an entry replaced, its tiles' copies reloaded, and with it all that names the page (R243). -/
def Gang.movePage (g : Gang) (k e : Nat) (m : PageMove) : Gang :=
  let table := setKey g.table k e
  { g with
    table := table
    dues := g.dues.map (fun d => { d with job := m.job d.job })
    launches := g.launches.map (fun h => { h with loc := m.loc h.loc })
    tiles := g.tiles.map (fun x => (x.1, { x.2 with
      prim := table
      shadow := table
      regions := x.2.regions.map (fun r => (r.1, m.region r.2)) })) }

/-- The run of frames of a page replaced. -/
def moveFrames (fs : List (Nat × Nat)) (old new : Nat) : List (Nat × Nat) := fs.map (fun r => if r.1 = old then (new, r.2) else r)

/-- A page moves: its lines, the generations of its task, the image that names it. -/
def State.movePage (s : State) (t : Nat) (i : Image) (k : Nat) (m : PageMove) : State :=
  let e := look 0 i.gang.table k
  let own (g : Gen) : Bool := g.task == t
  let r := ({ s with gens := s.gens.filter (fun g => !own g) } : State).moveLines m.src m.dst (m.size / 64) 0
  let e' := movedEntry e (i.gang.logicalPackage (m.dst.addr / 2 ^ 39)) (m.dst.addr / 2 ^ 36 % 8) (m.dst.addr / 2 ^ 21) m.dst.key
  { r with gens := s.gens.map (fun g => if own g then g.moved s m else (r.gens.find? (fun (h : Gen) =>
      h.task == g.task && h.dom == g.dom && h.number == g.number)).getD g) }.onTask t (fun x =>
    { x with
      image := some { (i.gang.movePage k e' m).image i.kind i.gen with intact := i.intact }
      frames := moveFrames x.frames (frameOf m.src.addr) (frameOf m.dst.addr) })

/-- MIGRATION_COMPLETE: the page is moved and its task's entry names it there (R243, R410). -/
def execMigrationComplete (s : State) : Outcome :=
  .next (match s.migrations[s.arg 0]? with
    | none => s
    | some m =>
      let s := { s with migrations := s.migrations.eraseIdx (s.arg 0) }
      match (s.task m.task).bind (fun x => x.image) with
      | none => s
      | some i =>
        let e := look 0 i.gang.table m.entry
        let src := i.gang.xlLoc e 0
        s.movePage m.task i m.entry
          { src := src, dst := { src with addr := m.dst, key := m.key }, size := entryFrames e * 2 ^ 21 })

end Sys2Proof.Machine
end

