-- ==== Sys2Proof/Machine/Pewter.lean ====
section
/-! DEFINITION. Pewter: bring-up and resets, management requests, temperatures, firmware, the SPDM responder (23 R385, R402, R409,
R415, 25 R431, 26 R437, 27 R456 to R462, R467). -/
namespace Sys2Proof.Machine

/-- What the device answers to a management request and to an SPDM request, beside MSI-X vectors and host accesses. -/
def outManagement : Nat := 3
def outSpdm : Nat := 4

/-- An answer to a management request: 1 accepted, 0 refused, then its content. -/
def State.answer (s : State) (ok : Bool) (value : List Nat) : State :=
  s.emit outManagement 0 ((if ok then 1 else 0) :: value)

/-- Pewter of a package. -/
def State.pewter (s : State) (p : Nat) : Pewter := (s.pkg p).pewter

/-! ### Firmware and resets (R385, R389, R409, R415, R458, R461, R462) -/

def FwBank.empty : FwBank := { version := 0, bytes := [], agent := [], valid := false }

def Pewter.bank (w : Pewter) (i : Nat) : FwBank := look FwBank.empty w.banks i

/-- The bank that boots: of those with a valid signature the one of the higher version; bank 0 when none has one (R458). -/
def Pewter.bootBank (w : Pewter) : Nat :=
  if (w.bank 1).valid ∧ (!(w.bank 0).valid ∨ (w.bank 0).version < (w.bank 1).version) then 1 else 0

/-- A core at release: the agent firmware of the active bank at offset 0 of an SRAM that it is written into (R385). -/
def AgentCore.released (sram : List Host.Cell) (fw : List Byte) : AgentCore :=
  { AgentCore.reset with sram := writeBytes sram 0 (fw.take 65536) }

/-- The numbers of the cores of a package. -/
def coresOf (p : Nat) : List Nat := upFrom (8 * p) 8

/-- A scrub that runs starts again from its first unit (R409, R415). -/
def ScrubJob.again (j : ScrubJob) : ScrubJob := if j.done < j.total then { j with done := 0 } else j

/-- A package after power-on at a wall cycle: what Pewter's always-on domain, its log and its firmware banks keep over it, and the bank
that boots (R409, R456, R458, R461). -/
def Pkg.booted (k : Pkg) (wall : Nat) : Pkg :=
  { Pkg.reset with
    quarTiles := k.quarTiles
    quarFrames := k.quarFrames
    scrub := k.scrub.map ScrubJob.again
    since := wall
    pewter := { Pewter.reset with
      log := k.pewter.log
      banks := k.pewter.banks
      minVersion := k.pewter.minVersion
      idKey := k.pewter.idKey
      activeBank := k.pewter.bootBank } }

/-- A task that is lost when a package loses its power: it stands there, its image is saved there, or a core there submitted it. -/
def Task.livesOn (x : Task) (p : Nat) : Bool :=
  x.home == p || (match x.anyGang with
    | some g => g.pkgs.contains p
    | none => false)

/-- What a package holds in its memories is gone, and with it what stands on it (R461; DESIGN CHOICE, log 11). -/
def State.losePackage (s : State) (p : Nat) : State :=
  let tasks := s.tasks.filter (fun e => !e.2.livesOn p)
  let there (t : Nat) : Bool := (find? tasks t).isSome
  { s with
    cores := s.cores.filter (fun e => e.1 / 8 != p)
    dev := s.dev.filter (fun c => c.1 / 2 ^ 39 != p)
    devPoison := s.devPoison.filter (fun w => 4 * w / 2 ^ 39 != p)
    devBad := s.devBad.filter (fun w => 4 * w / 2 ^ 39 != p)
    hostLines := s.hostLines.filter (fun l => l / 2 ^ 39 != p)
    tasks := tasks
    trees := s.trees.filter (fun e => e.2.save / 2 ^ 39 != p)
    gens := s.gens.filter (fun g => there g.task)
    migrations := s.migrations.filter (fun m => there m.task)
    arrivals := s.arrivals.filter (fun e => e.place / 512 != p) }

/-- What hangs on the package of the lowest identity, the functions of the host port, slices and the time, takes its reset values with
it (R446, R462; DESIGN CHOICE, log 10). -/
def State.resetDomain (s : State) : State :=
  { s with
    fns := []
    slice := State.reset.slice
    sepoch := State.reset.sepoch
    ptm := none
    hostMode := State.reset.hostMode
    hostWidth := State.reset.hostWidth
    hostRate := State.reset.hostRate
    hostFlit := State.reset.hostFlit
    hdm := []
    ide := []
    hostLines := [] }

/-- POWER_ON of a package: Pewter boots; stacks, links and the host port train, in this order; then the agent cores are released at
device level with the agent firmware. With a record that fails verification the cores run all the same, since every TASKQ returns
DENIED (R385, R461). Host writes that wait for their turn stand (R413). -/
def State.powerOn (s : State) (p : Nat) : State :=
  let k := (s.pkg p).booted s.wall
  let fw := (k.pewter.bank k.pewter.activeBank).agent
  let s := (s.losePackage p).setPkg p k
  let s := (List.range 12).foldl (fun s l => s.trainLink p l) s
  let s := if p = 0 then s.resetDomain else s
  if fw.isEmpty then s else (coresOf p).foldl (fun s c => s.setCore c (AgentCore.released [] fw)) s

def execPowerOn (s : State) : Outcome := .next (if s.arg 0 < s.cfg.packages then s.powerOn (s.arg 0) else s)

/-- The tasks that cores of a package launched are no operations of their launch contexts any longer, and generations none of the
package's drain context: operation numbers start at 1 again (R385, R389). -/
def State.resetContexts (s : State) (p : Nat) : State :=
  ({ s with
      tasks := s.tasks.map (fun e => if e.2.core / 8 = p then (e.1, { e.2 with op := 0 }) else e)
      gens := s.gens.map (fun g => { g with ops := g.ops.filter (fun e => e.1 != p) }) } : State).setPkg p
    { s.pkg p with drainSub := 0 }

/-- WARM_RESET of a package: its cores start again with the agent firmware reloaded, what their stores that had not performed do
is free; the quarantine stands and a scrub that runs starts again (R385, R409, R415; DESIGN CHOICE, log 12). No rule makes it a module
reset: WCYC, QBOUND and DRNLIM stay as they are (R57; DESIGN CHOICE, log 12). -/
def execWarmReset (s : State) : Outcome :=
  let p := s.arg 0
  let fw := ((s.pewter p).bank (s.pewter p).activeBank).agent
  let s := (coresOf p).foldl (fun s c =>
    let r := s.choose 2
    let s := if r.1 = 0 then r.2 else r.2.flushAll c
    s.setCore c (AgentCore.released (s.core c).sram fw)) s
  let s := s.resetContexts p
  .next (s.setPkg p { s.pkg p with scrub := (s.pkg p).scrub.map ScrubJob.again })

/-- FUNCTION_RESET: the completion-queue registers of a function take their reset values (R462). -/
def execFunctionReset (s : State) : Outcome :=
  let f := s.arg 0
  let x := s.fn f
  .next (s.setFn f { x with cqbase := 0, cqsize := 0, cqhead := 0, cqtail := 0, cqlost := 0, cqvec := 0 })

/-! ### Partitions and grants (R402, R467) -/

/-- Whether a tile set of a package meets no other partition of it. -/
def State.tilesApart (s : State) (part pkg tiles : Nat) : Bool :=
  s.parts.all (fun e => e.1 == part || e.2.pkg != pkg || e.2.tiles &&& tiles == 0)

/-- A partition request: kind 0 makes or changes a partition (package, tiles), 1 admits a function, 2 takes one out, 3 takes the
partition away; none when it is refused. -/
def State.partitionAs (s : State) (kind part v tiles : Nat) : Option (Tbl Partition) :=
  match kind, find? s.parts part with
  | 0, p =>
    if v < s.cfg.packages ∧ tiles < 2 ^ 32 ∧ s.tilesApart part v tiles then
      let q : Partition := p.getD { Partition.whole v with fns := [] }
      some (setKey s.parts part { q with pkg := v, tiles := tiles })
    else none
  | 1, some p =>
    if p.fns.contains v then some s.parts
    else if 64 ≤ p.fns.length ∨ !afuncOk v then none
    else some (setKey s.parts part { p with fns := p.fns ++ [v] })
  | 2, some p => some (setKey s.parts part { p with fns := p.fns.filter (· != v) })
  | 3, some _ => some (dropKey s.parts part)
  | _, _ => none

def execPartitionRequest (s : State) : Outcome :=
  .next (match s.partitionAs (s.arg 0) (s.arg 1) (s.arg 2) (s.arg 3) with
    | some p => { s with parts := p }.answer true []
    | none => s.answer false [])

/-- The grants with a run of frames given to a function, or ended. -/
def grantRun (g : Tbl Nat) (fn first count : Nat) : Tbl Nat :=
  if fn < 256 then (upFrom first count).foldl (fun g f => setKey g f fn) g
  else g.filter (fun e => e.1 < first || first + count ≤ e.1)

/-- FRAME_GRANT of a run of frames of a stack to a function; 256 ends their grants. A reserved frame, or one that another function
holds, refuses the request. -/
def execFrameGrant (s : State) : Outcome :=
  let fn := s.arg 0
  let n := s.arg 4
  let first := s.arg 1 * 2 ^ 18 + s.arg 2 * 2 ^ 15 + s.arg 3
  let free (f : Nat) : Bool := !s.cfg.reserved.contains f && (match find? s.grants f with
    | some o => o == fn
    | none => true)
  .next (if s.arg 1 < s.cfg.packages ∧ s.arg 2 < 8 ∧ s.arg 3 + n ≤ 24576 ∧ (fn = 256 ∨ (afuncOk fn ∧ (upFrom first n).all free)) then
      { s with grants := grantRun s.grants fn first n }.answer true []
    else s.answer false [])

/-! ### Errors (R240, R411, R421, R437, R454) -/

/-- A word of a tile's memory that cannot be corrected: it delivers the poison value (R421). -/
def Tile.breakWord (x : Tile) (acc : Bool) (w : Nat) : Tile :=
  let bs := poisonedBytes 0 4
  if acc then x.storeAcc (4 * w) bs else x.storeScratch (4 * w) bs

/-- A 32-bit word of an entry of the vector file that cannot be corrected (R421). -/
def Tile.breakEntry (x : Tile) (e w : Nat) : Tile :=
  let old := x.entry e
  let low := old.bits.toNat % 2 ^ (32 * w)
  let high := old.bits.toNat / 2 ^ (32 * w + 32) * 2 ^ (32 * w + 32)
  let new : VEntry :=
    { bits := BitVec.ofNat 1024 (high + 0x7FE40000 * 2 ^ (32 * w) + low), poison := old.poison ||| BitVec.ofNat 32 (2 ^ w) }
  { x with v := put VEntry.zero x.v (e % 128) new }

/-- A copy of a translation entry with bits turned over (R240). -/
def Tile.turnEntry (x : Tile) (shadow : Bool) (e bits : Nat) : Tile :=
  if shadow then { x with shadow := setKey x.shadow e ((look 0 x.shadow e ^^^ bits) % 2 ^ 128) }
  else { x with prim := setKey x.prim e ((look 0 x.prim e ^^^ bits) % 2 ^ 128) }

/-- Poison is created in a tile's memory: Pewter logs the tile and the byte address there (R421, R431; DEDUCED, log 21). -/
def State.noteTile (s : State) (t gid a : Nat) : State :=
  match s.gang t with
  | none => s
  | some g => s.logEvent 1 0 (g.package (gid / g.t) * 512 + s.cfg.physical g gid) t a 0

/-- ERROR_INJECTION: kind 0, Pewter's request, makes every word of a stack line uncorrectable (R437). The others are the errors
that the machine meets by itself, each as the rule of its memory has it: 1 and 2 a word of a slice or of accumulator memory, 3 and
4 a primary or a shadow copy of a translation entry, 5 a word of a bundle store, 6 the table image of a gang, 7 a saved image, 8
a single-bit error, which is corrected and logged, 9 a word of the vector file (R421). -/
def execErrorInjection (s : State) : Outcome :=
  let a := s.arg
  .next (match a 0 with
    | 0 =>
      if s.devExists (a 1) then { s with devBad := (upFrom (a 1 / 64 * 16) 16).foldl addNum s.devBad }.answer true []
      else s.answer false []
    | 1 => (s.onTile (a 1) (a 2) (fun x => if 4 * a 3 + 4 ≤ x.size then x.breakWord false (a 3) else x)).noteTile (a 1) (a 2) (4 * a 3)
    | 2 => (s.onTile (a 1) (a 2) (fun x => if a 3 < 262144 then x.breakWord true (a 3) else x)).noteTile (a 1) (a 2) (4 * a 3)
    | 3 => s.onTile (a 1) (a 2) (fun x => x.turnEntry false (a 3) (a 4))
    | 4 => s.onTile (a 1) (a 2) (fun x => x.turnEntry true (a 3) (a 4))
    | 5 => s.onTile (a 1) (a 2) (fun x => { x with badWords := addNum x.badWords (a 3) })
    | 6 => s.onGang (a 1) (fun g => { g with tableBad := true })
    | 7 => s.onTask (a 1) (fun x => { x with image := x.image.map (fun i => { i with intact := false }) })
    | 8 => s.logEvent 0 (a 1) (a 2) (a 3) (a 4) 0
    | 9 => (s.onTile (a 1) (a 2) (fun x => if a 3 < 128 ∧ a 4 < 32 then x.breakEntry (a 3) (a 4) else x)).noteTile (a 1) (a 2) (a 3)
    | _ => s)

/-- PATROL_SCRUB: a line is read and its corrected words are written back; an uncorrectable word stays one. No value changes, and
no wait ends (R454). -/
def execPatrolScrub (s : State) : Outcome :=
  let k := s.pkg (s.arg 0)
  .next (s.setPkg (s.arg 0) { k with scrPos := (k.scrPos + 1) % (8 * (stackLimit / 64)) })

/-! ### Log, sensors, link status, temperatures (R431, R447, R456, R457) -/

/-- An entry of the log in its fields. -/
def LogEntry.fields (e : LogEntry) : List Nat := [e.wtime, e.sev, e.unit, e.place, e.task, e.addr, e.code]

/-- LOG_READ of an entry of a package's log, the oldest first. -/
def execLogRead (s : State) : Outcome :=
  .next (match (s.pewter (s.arg 0)).log[s.arg 1]? with
    | some e => s.answer true e.fields
    | none => s.answer false [])

/-- SENSOR_READ of a package: kind 0 a sensor, whose reading is the outside world's (DESIGN CHOICE, log 14), 1 the status register of a
link (R447, R456). -/
def execSensorRead (s : State) : Outcome :=
  .next (match s.arg 1 with
    | 0 => { s with tape := s.tape + 1 }.answer true [Config.sensor (64 * s.arg 0 + s.arg 2) s.tape]
    | 1 => if s.linkThere (s.arg 0) (s.arg 2) then s.answer true [s.linkWord (s.arg 0) (s.arg 2)] else s.answer false []
    | _ => s.answer false [])

/-- WARNING_TEMPERATURE of a package: reached, or left. -/
def execWarningTemperature (s : State) : Outcome :=
  .next (s.onPewter (s.arg 0) (fun w => { w with hotWarn := s.arg 1 ≠ 0 }))

/-- CRITICAL_TEMPERATURE of a package: logged, its compute dies lose their power, the tasks that run there are lost. Host writes that wait
for their turn stand (R413). -/
def execCriticalTemperature (s : State) : Outcome :=
  let p := s.arg 0
  let s := (s.logEvent 4 0 (512 * p) 0 0 0).onPewter p (fun w => { w with powered := false })
  .next { s with tasks := s.tasks.filter (fun e => match e.2.gang with
    | some g => !g.pkgs.contains p
    | none => true) }

/-! ### FIRMWARE_UPDATE (R458) -/

/-- A number from the bytes of a digest. -/
def digestOf (bs : List Nat) : Nat := leValue (sm3 bs)

/-- FIRMWARE_UPDATE of the inactive bank of a package, with a signature that is valid for the digest and a version not below the
minimum. -/
def execFirmwareUpdate (s : State) : Outcome :=
  let p := s.arg 0
  let w := s.pewter p
  let bytes := (match s.cur with
    | .outside as => as.drop 4
    | _ => []).map (· % 256)
  .next (if w.minVersion ≤ s.arg 1 ∧ Config.sm2Valid (digestOf bytes) (s.arg 2) then
      let b := bytes.map (BitVec.ofNat 8)
      let bank : FwBank := { version := s.arg 1, bytes := b.take (s.arg 3), agent := b.drop (s.arg 3), valid := true }
      (s.onPewter p (fun w => { w with banks := setKey w.banks (1 - w.activeBank) bank })).answer true []
    else s.answer false [])

/-! ### SPDM (R459; PRESUMED, log 16) -/

/-- Response codes of SPDM 1.3. -/
def spdmError : Nat := 0x7F

/-- n bytes of a response whose content SPDM fixes: random data, signatures. -/
def State.spdmBytes (s : State) (n : Nat) : List Nat := (List.range n).map (fun i => (Config.spdmByte s.tape i).toNat)

/-- An SPDM response of a package. -/
def State.respond (s : State) (p code : Nat) (content : List Nat) : State :=
  { s with tape := s.tape + 1 }.emit outSpdm p (code :: content)

/-- An SPDM error: 1 invalid request, 4 unexpected request. -/
def State.spdmRefuse (s : State) (p why : Nat) : State := s.respond p spdmError [why]

/-- The connection of a package's responder changed. -/
def State.onSpdm (s : State) (p : Nat) (f : Spdm → Spdm) : State := s.onPewter p (fun w => { w with spdm := f w.spdm })

/-- A response to a request that follows the negotiation. -/
def State.afterNegotiation (s : State) (p : Nat) (k : State) : State :=
  if (s.pewter p).spdm.algs then k else s.spdmRefuse p 4

/-- GET_VERSION: SPDM 1.3; the connection starts. -/
def execGetVersion (s : State) : Outcome :=
  let p := s.arg 0
  .next ((s.onSpdm p (fun _ => { version := true, caps := false, algs := false, session := 0, authed := false })).respond p 0x04 [0x13])

/-- GET_CAPABILITIES: certificates, challenge, signed measurements, encryption, key exchange with mutual authentication; no
pre-shared keys. -/
def execGetCapabilities (s : State) : Outcome :=
  let p := s.arg 0
  .next (if (s.pewter p).spdm.version then
      (s.onSpdm p (fun c => { c with caps := true })).respond p 0x61 [0, 2 + 4 + 16 + 64 + 128 + 256 + 512]
    else s.spdmRefuse p 4)

/-- The AEAD suite that is chosen of those that a requester offers: bit 1 AES-256-GCM, bit 3 SM4-GCM (R459; PRESUMED, log 16). -/
def aeadOf (offer : Nat) : Option Nat := if bitAt offer 1 then some 2 else if bitAt offer 3 then some 8 else none

/-- NEGOTIATE_ALGORITHMS: SM2_P256, SM3_256 and an AEAD suite, offered by the requester or refused. -/
def execNegotiateAlgorithms (s : State) : Outcome :=
  let p := s.arg 0
  .next (if (s.pewter p).spdm.caps = false then s.spdmRefuse p 4
    else
      match if bitAt (s.arg 1) 9 ∧ bitAt (s.arg 2) 6 then aeadOf (s.arg 3) else none with
      | some a => (s.onSpdm p (fun c => { c with algs := true })).respond p 0x63 [2 ^ 9, 2 ^ 6, a]
      | none => s.spdmRefuse p 1)

/-- The certificate chain of a package, whose leaf holds the device identity key: the bytes before the key are the module's
(R456, R459; PRESUMED, log 16). -/
def State.certChain (s : State) (p : Nat) : List Nat :=
  (List.range (Config.certLength p % 2 ^ 16)).map (fun i => (Config.certByte p i).toNat) ++ leList 64 (s.pewter p).idKey

/-- GET_DIGESTS: the SM3 digest of the certificate chain of slot 0 (R10, R459). -/
def execGetDigests (s : State) : Outcome :=
  let p := s.arg 0
  .next (s.afterNegotiation p (s.respond p 0x01 (1 :: sm3 (s.certChain p))))

/-- GET_CERTIFICATE: a part of the chain of slot 0, from an offset on, and how many bytes follow it. -/
def execGetCertificate (s : State) : Outcome :=
  let p := s.arg 0
  let rest := (s.certChain p).drop (s.arg 2)
  .next (s.afterNegotiation p (if s.arg 1 = 0 then
      s.respond p 0x02 ([s.arg 1, rest.length - (rest.take (s.arg 3)).length] ++ rest.take (s.arg 3))
    else s.spdmRefuse p 1))

/-- CHALLENGE: the digest of the chain, a nonce, and a signature of 64 bytes over the transcript. -/
def execChallenge (s : State) : Outcome :=
  let p := s.arg 0
  .next (s.afterNegotiation p (if s.arg 1 = 0 then s.respond p 0x03 ([s.arg 1] ++ sm3 (s.certChain p) ++ s.spdmBytes (32 + 64)) else s.spdmRefuse p 1))

/-- Measurement i of a package: Pewter's firmware, the agent firmware, the signed configuration record, as SM3 digests, and the
attestation log (R10, R407, R459). -/
def State.measurement (s : State) (p i : Nat) : List Nat :=
  let w := s.pewter p
  match i with
  | 1 => sm3 ((w.bank w.activeBank).bytes.map (·.toNat))
  | 2 => sm3 ((w.bank w.activeBank).agent.map (·.toNat))
  | 3 => sm3 (s.cfg.bytes.map (·.toNat))
  | _ => w.attested.flatMap (fun d => d.map (·.toNat))

/-- GET_MEASUREMENTS: the number of them, one, or all, with a signature. -/
def execGetMeasurements (s : State) : Outcome :=
  let p := s.arg 0
  let i := s.arg 1
  .next (s.afterNegotiation p (
    if i = 0 then s.respond p 0x60 [4]
    else if i = 255 then s.respond p 0x60 (4 :: [1, 2, 3, 4].flatMap (s.measurement p) ++ s.spdmBytes 64)
    else if i < 5 then s.respond p 0x60 (i :: s.measurement p i ++ s.spdmBytes 64)
    else s.spdmRefuse p 1))

/-- KEY_EXCHANGE: a secure session begins. -/
def execKeyExchange (s : State) : Outcome :=
  let p := s.arg 0
  .next (s.afterNegotiation p (if s.arg 1 = 0 then
      (s.onSpdm p (fun c => { c with session := c.session + 1, authed := false })).respond p 0x64 (s.spdmBytes (64 + 64 + 32))
    else s.spdmRefuse p 1))

/-- What an owner establishes in a secure session of a package: 1 its wrapping key (R455), 2 the key of an IDE stream (R440). -/
def State.inSession (s : State) (p what n key : Nat) : State :=
  match what with
  | 1 => s.setPkg p { s.pkg p with wrapKey := key % 2 ^ 256 }
  | 2 => { s with ide := setKey s.ide n (key % 2 ^ 256) }
  | _ => s

/-- FINISH: the session of the last KEY_EXCHANGE is established when the peer's message is valid; its owner then gives what it carries. -/
def execFinish (s : State) : Outcome :=
  let p := s.arg 0
  .next (if (s.pewter p).spdm.session = 0 then s.spdmRefuse p 4
    else if Config.spdmPeerValid (s.arg 1) then
      ((s.onSpdm p (fun c => { c with authed := true })).respond p 0x65 (s.spdmBytes 32)).inSession p (s.arg 2) (s.arg 3) (s.arg 4)
    else s.spdmRefuse p 1)

end Sys2Proof.Machine
end

