-- ==== Sys2Proof/Machine/Cycle.lean ====
section
/-! DEFINITION. What a logical cycle of a gang and a wall cycle of the device consist of, in their order: the parts of a cycle, the
turns of tiles, the turns that a wall cycle offers (01 R40 to R60, 13 R244 to R248; DESIGN CHOICE, log 1; DEDUCED, log 7). -/
namespace Sys2Proof.Machine

/-! ### Turns of a gang -/

/-- An event of a task, and the same event of each of a list of tiles. -/
def Turn.one (i : Instr) (t : Nat) : List Turn := [.act i (.event t 0)]
def Turn.each (i : Instr) (t : Nat) (gids : List Nat) : List Turn := gids.map (fun g => .act i (.event t g))

/-- The tiles with a due effect that a test picks. -/
def Gang.dueTiles (g : Gang) (pick : Job → Bool) : List Nat :=
  sortBy id (dedupNat ((g.dues.filter (fun d => d.due ≤ g.lcyc && pick d.job)).map (fun d => d.o.gid)))

/-- The tiles that a test picks. -/
def Gang.tilesWith (g : Gang) (pick : Tile → Bool) : List Nat := (g.tiles.filter (fun e => pick e.2)).map (·.1)

/-- The order of tiles at issue: what is quiescent is known when the other tiles have issued (R464). -/
def Tile.turnRank (x : Tile) : Nat :=
  if x.active.isSome ∨ x.pastEnd ∨ !(x.bundleAt x.pc).q then 0
  else if x.fault.v ∨ x.failedRegion.isSome then 2 else 1

/-- Which due effects an event of a cycle performs. -/
def Job.isFmt (j : Job) : Bool := match j with
  | .fmt _ => true
  | _ => false
def Job.isSystem (j : Job) : Bool := match j with
  | .sysw _ _ | .ringc _ _ _ _ => true
  | _ => false
def Job.isXpat (j : Job) : Bool := match j with
  | .xpat _ _ => true
  | _ => false
def Job.isHist (j : Job) : Bool := match j with
  | .hist _ => true
  | _ => false
def Job.isPush (j : Job) : Bool := match j with
  | .push _ _ _ => true
  | _ => false
def Job.isMatrix (j : Job) : Bool := match j with
  | .shadow _ | .banks _ _ | .unbank _ => true
  | _ => false
def Job.isNest (j : Job) : Bool := match j with
  | .copyNest _ => true
  | _ => false
def Job.isBeatRead (j : Job) : Bool := match j with
  | .read _ _ _ (.toBeat _ _ _ _) | .read _ _ _ (.toPush _ _ _ _ _) | .read _ _ _ (.toPost _ _ _ _ _) => true
  | _ => false
def Job.isAccess (j : Job) : Bool := match j with
  | .read _ _ _ (.toReg _ _ _ _) | .atom _ _ _ _ _ _ _ _ => true
  | .write p _ _ => p == 4 || p == 1
  | _ => false
def Job.isVectorAccess (j : Job) : Bool := match j with
  | .put _ | .vread _ _ _ _ _ => true
  | _ => false
def Job.isAccMove (j : Job) : Bool := match j with
  | .accGet _ _ _ _ | .accPut _ _ _ | .mzero _ _ _ | .read _ _ _ (.toAcc _ _ _) => true
  | .write p _ _ => p == 6
  | _ => false
def Job.isMchk (j : Job) : Bool := match j with
  | .mchk _ _ _ _ _ _ => true
  | .write p _ _ => p == 7
  | _ => false
def Job.isPermRow (j : Job) : Bool := match j with
  | .permGet _ | .permRow _ _ _ | .read _ _ _ (.toRow _) => true
  | .write p _ _ => p == 8
  | _ => false
def Job.isNestC (j : Job) : Bool := match j with
  | .nestC _ => true
  | _ => false
def Job.isBeatWrite (j : Job) : Bool := match j with
  | .write p _ _ => p == 5 || p == 15
  | _ => false
def Job.isSacc (j : Job) : Bool := match j with
  | .sacc _ _ _ _ _ _ _ => true
  | _ => false
def Job.isSnapWrite (j : Job) : Bool := match j with
  | .ctrsnap _ _ => true
  | _ => false
def Job.isBarrier (kind : Nat) (j : Job) : Bool := match j with
  | .barrier u _ _ _ => u.kind == kind
  | _ => false
def Job.isTrapFault (j : Job) : Bool := match j with
  | .trapFault _ _ _ => true
  | _ => false
def Job.isArrival (j : Job) : Bool := match j with
  | .arrive _ _ => true
  | _ => false
def Job.isDelivery (j : Job) : Bool := match j with
  | .deliver _ _ _ _ _ _ => true
  | _ => false
def Job.isFlags (j : Job) : Bool := match j with
  | .flags _ => true
  | _ => false

/-! ### The parts of a logical cycle (DEDUCED, log 7) -/

/-- Holds, drains and what begins a cycle. -/
def Gang.openingTurns (g : Gang) (t k : Nat) : List Turn :=
  match k with
  | 0 => if g.dueHolds.isEmpty then [] else Turn.one .holdFreeze t
  | 1 => if g.stopAt.any (· ≤ g.lcyc) then Turn.one .drainStop t else []
  | 2 => if g.phase.any (fun p => p.2 ≤ g.lcyc) then Turn.one .phaseSwitch t else []
  | _ => Turn.each .quiescenceOverdue t (g.tilesWith (fun x => x.isOverdue g.lcyc))

/-- Results land before the cycle issues. -/
def Gang.resultTurns (g : Gang) (t k : Nat) : List Turn :=
  match k with
  | 0 => Turn.each .factorisationStep t (g.tilesWith (fun x => x.factor.isSome))
  | 1 => Turn.each .factorisationEnd t (g.tilesWith (fun x => x.factor.any (fun f => f.end_ ≤ g.lcyc)))
  | 2 => Turn.each .channelDepart t (g.tilesWith (fun x => x.fifos.any (fun e => !e.2.elems.isEmpty && (x.chan e.1).mode == 1)))
  | 3 => Turn.each .chsendPush t (g.dueTiles Job.isPush)
  | 4 => Turn.each .nestStart t (sortBy id (dedupNat (g.tilesWith (fun x => x.nest.isSome || x.nestPending.isSome)
      ++ g.dueTiles Job.isNest)))
  | 5 => Turn.each .fmtApply t (g.dueTiles Job.isFmt)
  | 6 => if g.snaps.any (fun q => q.c + 600 ≤ g.lcyc) then Turn.one .snapResult t else []
  | 7 => if g.genqs.any (fun q => q.t + 600 ≤ g.lcyc) then Turn.one .genqResult t else []
  | 8 => Turn.each .scalarResultWrite t (g.dueTiles Job.isScalar)
  | 9 => Turn.each .vectorResultWrite t (g.dueTiles Job.isVector)
  | 10 => Turn.each .systemRegisterWrite t (g.dueTiles Job.isSystem)
  | 11 => Turn.each .xpatWrite t (g.dueTiles Job.isXpat)
  | _ => Turn.each .shistIncrement t (g.dueTiles Job.isHist)

/-- Accesses: reads see what earlier cycles wrote, writes are staged. -/
def Gang.accessTurns (g : Gang) (t k : Nat) : List Turn :=
  match k with
  | 0 => if g.snaps.any (fun q => q.c == g.lcyc) then Turn.one .snapCycle t else []
  | 1 => if g.genqs.any (fun q => q.left.any (fun e => e.2 ≤ g.lcyc)) then Turn.one .genqSample t else []
  | 2 => Turn.each .beatRead t (g.dueTiles Job.isBeatRead)
  | 3 => Turn.each .dAccessPerform t (g.dueTiles Job.isAccess)
  | 4 => Turn.each .nestStep t (g.tilesWith (fun x => x.nest.isSome || x.nestPending.isSome))
  | 5 => Turn.each .accLineMove t (g.dueTiles Job.isAccMove)
  | 6 => Turn.each .mchkWrite t (g.dueTiles Job.isMchk)
  | 7 => Turn.each .mpermRowWrite t (g.dueTiles Job.isPermRow)
  | 8 => Turn.each .nestCWrite t (g.dueTiles Job.isNestC)
  | 9 => Turn.each .beatWrite t (g.dueTiles Job.isBeatWrite)
  | 10 => Turn.each .saccUpdate t (g.dueTiles Job.isSacc)
  | 11 => Turn.each .ctrsnapWrite t (g.dueTiles Job.isSnapWrite)
  | 12 => Turn.each .barrierRegister t (g.dueTiles (Job.isBarrier 0))
  | 13 => Turn.each .barrierCompleteBeats t (g.dueTiles (Job.isBarrier 1))
  | _ => Turn.each .barrierArrival t (g.dueTiles (Job.isBarrier 2))

/-- The tiles issue, those whose quiescence matters last. -/
def Gang.issueTurns (g : Gang) (t : Nat) : List Turn :=
  (sortBy (fun i => match g.tile i with
    | some x => x.turnRank * 4096 + i
    | none => i) (g.tilesWith (fun x => (x.turn g.lcyc).isSome))).map (fun i => .tileTurn t i)

/-- The due vector accesses of every tile. -/
def Gang.allVectorAccesses (g : Gang) : Gang := (g.dueTiles Job.isVectorAccess).foldl Gang.vectorAccesses g

/-- The M-slot effects of every tile that land before the cycle issues. -/
def Gang.allMatrices (g : Gang) : Gang := (g.dueTiles Job.isMatrix).foldl Gang.landMatrices g

/-- The due effects of every tile that a test picks, each done in turn. -/
def Gang.performAll (g : Gang) (pick : Job → Bool) (run : Gang → Due → Gang) : Gang :=
  (g.dueTiles pick).foldl (fun g i =>
    let r := g.takeDue i pick
    r.1.foldl run r.2) g

/-- Faults of accesses that are detected in this cycle. -/
def Gang.trapFaults (g : Gang) : Gang :=
  g.performAll Job.isTrapFault (fun g d => match d.job with
    | .trapFault c e i => g.record d.o c e g.lcyc i
    | _ => g)

/-- Flags change at the end of a cycle (R81). -/
def Gang.landFlags (g : Gang) : Gang :=
  g.performAll Job.isFlags (fun g d => match d.job with
    | .flags f => g.onTile d.o.gid (fun x => x.raise f)
    | _ => g)

/-- A fault on a tile that has halted is taken at once (R54). -/
def Gang.haltedFaults (g : Gang) : Gang :=
  (g.tilesWith (fun x => x.halted.isSome && x.trapped.isNone && x.fault.v)).foldl Gang.trap g

/-- A bundle that issued as quiescent was not when another tile's operation of the same cycle addresses its tile (R464). -/
def Tile.settleQuiet (x : Tile) (c : Nat) : Tile :=
  match x.quietWas with
  | none => x
  | some q =>
    if x.addrTo < (c : Int) then { x with quietWas := none }
    else { x with quietWas := none, quietAt := q, active := x.active.map (fun a => { a with quiet := false })
                  wait := x.wait.map (fun w => { w with quiet := false }) }

/-- What ends a cycle on every tile: flags, faults of halted tiles, quiescence. -/
def Gang.settle (g : Gang) : Gang :=
  let h := g.landFlags.haltedFaults
  { h with tiles := h.tiles.map (fun e => (e.1, e.2.settleQuiet h.lcyc)) }

/-- Poison consumed outside any region ends the task, a freeze image saved before when the descriptor asks for one (R424). -/
def State.doomed (s : State) (t : Nat) : State :=
  match s.task t, s.gang t with
  | some x, some g =>
    if g.doom.isNone then s
    else
      let s := if x.desc.fimg then (s.snapGang t).onTask t (fun y => { y with fimg := true }) else s
      s.killTask t endCONTAINMENT
  | _, _ => s

/-- The fault holds that a gang announced in this cycle go to the serialiser (R59, R60). -/
def State.noteHolds (s : State) (t : Nat) : State :=
  match s.gang t with
  | none => s
  | some g => (g.holds.filter (fun h => h.cause == 5 && h.ta == g.lcyc)).foldl (fun s h =>
      s.arrive { source := 2, task := some t, lcyc := g.lcyc, gid := h.gid, place := s.tilePlace g h.gid, act := .note }) s

/-- The failures of a tile's regions that are not in the log yet: their points. -/
def Tile.newFailures (x : Tile) : List Nat :=
  (x.regions.filter (fun e => e.1 < x.depth && e.2.failed && !e.2.logged)).map (·.2.point)

/-- Regions that failed are logged: SEV 2, the tile, the point's code (R431). -/
def State.logFailures (s : State) (t : Nat) : State :=
  match s.gang t with
  | none => s
  | some g =>
    let s := g.tiles.foldl (fun (s : State) e => e.2.newFailures.foldl (fun (s : State) p =>
      s.logEvent 2 0 (g.package (e.1 / g.t) * 512 + s.cfg.physical g e.1) t 0 p) s) s
    s.onGang t (fun g => { g with tiles := g.tiles.map (fun e => (e.1,
      { e.2 with regions := e.2.regions.map (fun r => (r.1, { r.2 with logged := r.2.failed })) })) })

/-- LCYC advances, the estimate falls, cycles are counted (R57, R169). -/
def Gang.advance (g : Gang) : Gang :=
  { g with
    lcyc := g.lcyc + 1
    tiles := g.tiles.map (fun e => (e.1, { e.2.count 0x01 1 with estm := if e.2.estm = 0 then 0 else e.2.estm - 1 })) }

/-- How many parts a cycle has. -/
def phaseCount : Nat := 48

/-- A part of a gang's cycle: what it does itself, and the turns that it takes. -/
def State.phaseAt (s : State) (t : Nat) (g : Gang) (k : Nat) : State × List Turn :=
  if k < 5 then (if k = 1 then s.onGang t Gang.readDrainLimit else s, g.openingTurns t k)
  else if k < 18 then (if k = 9 then s.onGang t Gang.allMatrices else s, g.resultTurns t (k - 5))
  else if k = 18 then ((s.landDeliveries t).onGang t Gang.arbitrate, [])
  else if k = 19 then (s, if s.trees.any (fun e => e.2.users.contains t) then Turn.one .treeFold t else [])
  else if k < 35 then (s, g.accessTurns t (k - 20))
  else if k = 35 then (s.onGang t (fun g => g.allVectorAccesses.trapFaults), [])
  else if k = 36 then (s, g.issueTurns t)
  else if k = 37 then (s, Turn.each .channelArrive t (g.dueTiles Job.isArrival))
  else if k = 38 then
    (s, if s.trees.any (fun e => e.2.users.contains t) then
        Turn.each .treeDelivery t (dedupNat (0 :: g.dueTiles Job.isDelivery)) else [])
  else if k = 39 then (s.commit t, [])
  else if k = 40 then (s.onGang t Gang.trapFaults, [])
  else if k = 41 then (s.onGang t Gang.settle, if g.settle.syncReady then Turn.one .syncResolve t else [])
  else if k = 42 then (((s.noteHolds t).logFailures t).doomed t, if g.drainLate then Turn.one .drainLimitExpiry t else [])
  else if k = 43 then (s, if s.canRetire t g then Turn.one .taskRetire t else [])
  else if k = 44 then (s.onGang t Gang.advance, [])
  else (s, [])

/-- The parts of a gang's cycle from a number of parts before its end on; nothing while the gang is held. -/
def State.runParts (s : State) (t : Nat) : Nat → State
  | 0 => s
  | n + 1 =>
    match s.gang t with
    | none => s
    | some g =>
      if g.isHeld then s
      else
        let r := s.phaseAt t g (phaseCount - (n + 1))
        if r.2.isEmpty then r.1.runParts t n else r.1.before (r.2 ++ [.phase t (phaseCount - n)])

/-- A gang's cycle from a part on. -/
def State.runPhase (s : State) (t k : Nat) : State := s.runParts t (phaseCount - k)

/-- The turn of a tile in its gang's issue. -/
def State.tileTurn (s : State) (t gid : Nat) : State :=
  match s.gang t with
  | none => s
  | some g =>
    match (g.tile gid).bind (fun x => x.turn g.lcyc) with
    | some i => s.before [.act i (.event t gid)]
    | none => s

/-- What a slot issues, decoded in its turn (R107, R120). -/
def State.issued (s : State) (t gid slot syl : Nat) : Except DecodeReject Instr :=
  match s.tile t gid with
  | none => .error .opcode
  | some x => x.decodeSlot slot syl

/-- A NOP leaves its slot idle (R28, R121). -/
def State.idleFor (s : State) (t gid slot : Nat) (i : Instr) : State :=
  if isSlotNop i then s.onTile t gid (fun x => x.idle slot) else s

/-- An undefined encoding (R107). -/
def State.undefinedAt (s : State) (t gid slot syl addr : Nat) (e : DecodeReject) : State :=
  s.onGang t (fun g => g.onTile gid (fun x => x.undefined slot syl addr g.lcyc e))

/-- The end of a tile's issue cycle. -/
def State.endBundle (s : State) (t gid : Nat) : State :=
  s.onGang t (fun g => g.onTile gid (fun x => x.endCycle g.lcyc))

/-! ### Turns of cores and engines (DESIGN CHOICE, log 1) -/

/-- The stores of a core that may perform next: none before an older one of its class or of its bytes (R250, R251). -/
def readyStores : List Store → List Store → List Store
  | _, [] => []
  | old, x :: xs =>
    if old.any (fun y => y.cls == x.cls || y.meets x.addr x.bytes.length) then readyStores (old ++ [x]) xs
    else x :: readyStores (old ++ [x]) xs

/-- A store of a core performs. -/
def State.drainStore (s : State) (c : Nat) : State :=
  let r := s.chooseFrom (readyStores [] (s.core c).stores)
  match r.1 with
  | none => r.2
  | some x => (r.2.agentWrite c x.addr x.bytes).setCore c
      { (r.2.agentWrite c x.addr x.bytes).core c with stores := (s.core c).stores.erase x }

/-- A package has power (R457). -/
def State.powered (s : State) (p : Nat) : Bool := (s.pewter p).powered

/-- The packages that have power. -/
def State.livePackages (s : State) : List Nat := (List.range s.cfg.packages).filter s.powered

/-- The numbers of the cores that have power. -/
def State.coreIds (s : State) : List Nat := s.livePackages.flatMap coresOf

/-- What a core may do: fetch, or end a wait that is over. -/
def State.coreTurns (s : State) (c : Nat) : List Turn :=
  let x := s.core c
  (if x.stores.isEmpty then [] else [Turn.drainStore c]) ++
    (match x.wait with
     | none => [.agentFetch c]
     | some _ => match s.waitOver c with
       | 1 => [.act .waitaReturn (.outside [c])]
       | 2 => [.act .waitaTimeout (.outside [c])]
       | 3 => [.act .waittReturn (.outside [c])]
       | 4 => [.act .waitbReturn (.outside [c])]
       | _ => [])
    ++ (x.ctxs.filter (fun e => !e.2.ops.isEmpty)).map (fun e => .act .copyComplete (.outside [c, e.1]))

/-- What the scheduler may do for a task: end a save, launch, restore. -/
def Task.turns (x : Task) : List Turn :=
  match x.st, x.image with
  | .saving _ _, _ => [.act .imageSaveComplete (.outside [x.id])]
  | .queued, none => [.act .taskLaunch (.outside [x.id])]
  | .queued, some i => [.act (if i.kind = 1 then .drainRestore else .freezeRestore) (.outside [x.id])]
  | _, _ => []

/-- The background duties of a package: its scrub, its patrol, the width changes of its links. -/
def State.pkgTurns (s : State) (p : Nat) : List Turn :=
  let k := s.pkg p
  (if k.scrubbing then [.act .scrubUnitDone (.outside [p])] else []) ++ [.act .patrolScrub (.outside [p])]
    ++ (k.links.filter (fun e => e.2.changing && s.widthReady p e.1)).map (fun e => .act .linkWidthChange (.outside [p, e.1]))

/-- The stacks on which generations wait for the drain engine. -/
def State.drainStacks (s : State) : List Nat := dedupNat (s.gens.flatMap (fun g => g.left.map (·.1)))

/-- The drain engine's turns: on each stack its oldest generation goes on or is drained there; one with nothing to drain is drained
(R293). -/
def State.drainTurns (s : State) : List Turn :=
  s.drainStacks.flatMap (fun k => match s.draining k with
    | none => []
    | some g => [.drainGen g.task g.dom g.number k, .act .generationDrainComplete (.outside [g.task, g.dom, k])])
    ++ (s.gens.filter (fun g => g.left.isEmpty)).map (fun g => .act .generationDrainComplete (.outside [g.task, g.dom, 0]))

/-- The scheduler's next step with a task may wait no longer (R56). -/
def Task.pressing (x : Task) (wall : Nat) : Bool := x.dueBy.any (· ≤ wall)

/-- The turns that a wall cycle offers to cores, engines, scheduler and base dies. -/
def State.offers (s : State) : List Turn :=
  s.coreIds.flatMap s.coreTurns ++ (s.tasks.filter (fun e => !e.2.pressing s.wall)).flatMap (fun e => e.2.turns)
    ++ (List.range s.migrations.length).map (fun i => .act .migrationComplete (.outside [i]))
    ++ s.drainTurns ++ s.livePackages.flatMap s.pkgTurns

/-- The steps of the scheduler that may wait no longer (R56). -/
def State.pressingTurns (s : State) : List Turn :=
  (s.tasks.filter (fun e => e.2.pressing s.wall)).flatMap (fun e => e.2.turns)

/-- When the scheduler's next step with a task must come: a quarter of a slice after it could first, and again after each that a lack of
tiles left without effect, so that a candidate starts within a slice (R56; the quarter DESIGN CHOICE, log 10). -/
def State.setDue (s : State) : State :=
  let next (x : Task) : Option Nat :=
    if x.turns.isEmpty then none
    else if x.dueBy.any (s.wall < ·) then x.dueBy
    else some (s.wall + s.sliceCycles / 4)
  { s with tasks := s.tasks.map (fun e => (e.1, { e.2 with dueBy := next e.2 })) }

/-- Which of the turns that are offered are taken is free (DESIGN CHOICE, log 1). -/
def takeOffers (tape : Nat) : List Turn → List Turn
  | [] => []
  | t :: ts => if Config.choice tape % 2 = 0 then t :: takeOffers (tape + 1) ts else takeOffers (tape + 1) ts

/-! ### A wall cycle (R5, R20, R45, R59, R248, R404) -/

/-- Whether an outside event acts after the gangs of a cycle: accesses of memory in background slots, host writes (R59, R248). -/
def Input.isLate (i : Input) : Bool :=
  match i with
  | .event _ a _ _ => a == .bar2Access || a == .cxlMemAccess || a == .cqheadWrite
  | .hostWrite _ _ _ _ => true

def Input.time (i : Input) : Nat :=
  match i with
  | .event w _ _ _ => w
  | .hostWrite w _ _ _ => w

/-- The requests to Pewter that the physical function or the management bus alone may make (R456). -/
def managementSteps : List Instr :=
  [.debugStep, .dctlWrite, .debugRegisterWrite, .debugRelease, .freezeImageEdit, .debugHoldRelease, .partitionRequest, .frameGrant,
    .errorInjection, .logRead, .sensorRead, .firmwareUpdate, .lmapWrite, .registerWrite]

/-- The requests of an SPDM requester (R459). -/
def spdmSteps : List Instr :=
  [.getVersion, .getCapabilities, .negotiateAlgorithms, .getDigests, .getCertificate, .challenge, .getMeasurements, .keyExchange,
    .finish]

/-- What happens to the device: resets, temperatures, links, the host port, the host's accesses. -/
def deviceSteps : List Instr :=
  [.powerOn, .warmReset, .functionReset, .warningTemperature, .criticalTemperature, .linkTraining, .ptmSync, .flitReceive, .laneRetire,
    .hostPortTraining, .bar2Access, .cxlMemAccess, .cqheadWrite, .ctxerrWrite]

/-- The source of an outside event in the serialiser's order; none for one that it does not accept (R59). -/
def Input.source (i : Input) : Option Nat :=
  match i with
  | .event _ a _ _ =>
    if a == .powerOn || a == .warmReset || a == .functionReset then some 0
    else if managementSteps.contains a || spdmSteps.contains a then some 1
    else if a == .cqheadWrite then some 7
    else none
  | .hostWrite _ _ _ _ => some 7

/-- Among events that arrive together a reset stands first, then Pewter's requests (R59). -/
def Input.rank (i : Input) : Nat := i.source.getD 8

/-- An event of the outside world as a turn; a management request of another function than the physical one has no effect (R456). -/
def Input.turns (i : Input) : List Turn :=
  match i with
  | .event _ a f as =>
    if deviceSteps.contains a ∨ spdmSteps.contains a ∨ (managementSteps.contains a ∧ (f = 255 ∨ f = 256)) then
      [.act a (.outside as)]
    else []
  | .hostWrite _ a bs ep => [.hostWrite a bs ep]

/-- The serialiser's count of an outside event (R59). -/
def Input.event? (i : Input) : Option Ev :=
  i.source.map (fun k => { source := k, task := none, lcyc := 0, gid := 0, place := 0, act := .note })

/-- The boundaries, decisions and second decisions of a wall cycle. -/
def State.sliceTurns (s : State) : List Turn :=
  (if s.boundaryAt s.wall then s.parts.map (fun e => .act .sliceBoundary (.outside [e.1])) else [])
    ++ (if s.boundaryAt (s.wall + decisionLead) then s.parts.map (fun e => .act .schedulerDecision (.outside [e.1])) else [])
    ++ (s.tasks.filter (fun e => e.2.redecide.any (· ≤ s.wall))).map (fun e => .act .extensionRedecide (.event e.1 0))

/-- The gangs: those whose resumption has come resume, those that run take their cycle. -/
def State.gangTurns (s : State) : List Turn :=
  (s.tasks.filter (fun e => e.2.gang.isSome)).flatMap (fun e =>
    (if e.2.gang.any (fun g => g.resumeAt.any (· ≤ s.wall)) then [Turn.act .holdResume (.event e.1 0)] else []) ++ [.phase e.1 0])

/-- The next wall cycle, its turns on the agenda. -/
def State.tick (s : State) : State :=
  let due := s.inputs.filter (fun i => i.time ≤ s.wall + 1)
  let early := (sortBy Input.rank (due.filter (fun i => !i.isLate))).flatMap Input.turns
  let late := (due.filter Input.isLate).flatMap Input.turns
  let s : State :=
    { s with
      wall := s.wall + 1
      agenda := [.serialise]
      inputs := s.inputs.filter (fun i => s.wall + 1 < i.time)
      arrivals := s.arrivals ++ due.filterMap Input.event? }
  let s := s.queueTasks.dueKills
  let s := s.tasks.foldl (fun s e => s.planResume e.1) s
  let offers := s.offers
  let pressing := s.pressingTurns
  { s.setDue with
    agenda := early ++ s.sliceTurns ++ s.gangTurns ++ [.serialise] ++ late ++ pressing ++ takeOffers s.tape offers
    tape := s.tape + offers.length }

/-- The host writes its own system space, with its poison indication (R413, R440). -/
def State.hostWrite (s : State) (a : Nat) (bs : List Byte) (ep : Bool) : State :=
  s.sysWrite (a % 2 ^ 46) (bs.map (fun b => { b := b, p := ep }))

end Sys2Proof.Machine
end

