-- ==== Sys2Proof/Machine/Dispatch.lean ====
section
/-! DEFINITION. One arm for each step of the table: a direct call of its meaning. -/
namespace Sys2Proof.Machine

def exec (i : Instr) (s : State) : Host.Outcome State Fault Refusal :=
  match i with
  | .nop => Sys2Proof.Machine.execNop s
  | .sync => Sys2Proof.Machine.execSync s
  | .loop count endw lb => Sys2Proof.Machine.execLoop count endw lb s
  | .loops a endw lb => Sys2Proof.Machine.execLoops a endw lb s
  | .br g n d => Sys2Proof.Machine.execBr g n d s
  | .join x => Sys2Proof.Machine.execJoin x s
  | .call r d => Sys2Proof.Machine.execCall r d s
  | .ret a => Sys2Proof.Machine.execRet a s
  | .halt => Sys2Proof.Machine.execHalt s
  | .trapInstr code => Sys2Proof.Machine.execTrapInstr code s
  | .fmt v => Sys2Proof.Machine.execFmt v s
  | .segchk seg => Sys2Proof.Machine.execSegchk seg s
  | .crgnOpen d => Sys2Proof.Machine.execCrgnOpen d s
  | .crgnClose => Sys2Proof.Machine.execCrgnClose s
  | .resync a => Sys2Proof.Machine.execResync a s
  | .phase bank => Sys2Proof.Machine.execPhase bank s
  | .tlaunch a => Sys2Proof.Machine.execTlaunch a s
  | .dbgb tag => Sys2Proof.Machine.execDbgb tag s
  | .sysrd d sreg => Sys2Proof.Machine.execSysrd d sreg s
  | .syswr a sreg => Sys2Proof.Machine.execSyswr a sreg s
  | .ringc h base ls clr => Sys2Proof.Machine.execRingc h base ls clr s
  | .add d a b g n => Sys2Proof.Machine.execAdd d a b g n s
  | .sub d a b g n => Sys2Proof.Machine.execSub d a b g n s
  | .mul d a b g n => Sys2Proof.Machine.execMul d a b g n s
  | .mulh d a b g n => Sys2Proof.Machine.execMulh d a b g n s
  | .mulhn d a b g n => Sys2Proof.Machine.execMulhn d a b g n s
  | .div d a b g n => Sys2Proof.Machine.execDiv d a b g n s
  | .divn d a b g n => Sys2Proof.Machine.execDivn d a b g n s
  | .rem d a b g n => Sys2Proof.Machine.execRem d a b g n s
  | .remn d a b g n => Sys2Proof.Machine.execRemn d a b g n s
  | .and d a b g n => Sys2Proof.Machine.execAnd d a b g n s
  | .or d a b g n => Sys2Proof.Machine.execOr d a b g n s
  | .xor d a b g n => Sys2Proof.Machine.execXor d a b g n s
  | .andn d a b g n => Sys2Proof.Machine.execAndn d a b g n s
  | .orn d a b g n => Sys2Proof.Machine.execOrn d a b g n s
  | .shl d a b g n => Sys2Proof.Machine.execShl d a b g n s
  | .shr d a b g n => Sys2Proof.Machine.execShr d a b g n s
  | .sha d a b g n => Sys2Proof.Machine.execSha d a b g n s
  | .rotr d a b g n => Sys2Proof.Machine.execRotr d a b g n s
  | .clz d a g n => Sys2Proof.Machine.execClz d a g n s
  | .ctz d a g n => Sys2Proof.Machine.execCtz d a g n s
  | .popc d a g n => Sys2Proof.Machine.execPopc d a g n s
  | .min d a b g n => Sys2Proof.Machine.execMin d a b g n s
  | .max d a b g n => Sys2Proof.Machine.execMax d a b g n s
  | .minn d a b g n => Sys2Proof.Machine.execMinn d a b g n s
  | .maxn d a b g n => Sys2Proof.Machine.execMaxn d a b g n s
  | .slt d a b g n => Sys2Proof.Machine.execSlt d a b g n s
  | .sltn d a b g n => Sys2Proof.Machine.execSltn d a b g n s
  | .sel d a b p n => Sys2Proof.Machine.execSel d a b p n s
  | .pcmp d a b g n f => Sys2Proof.Machine.execPcmp d a b g n f s
  | .plog d f a b g n => Sys2Proof.Machine.execPlog d f a b g n s
  | .addi d a imm => Sys2Proof.Machine.execAddi d a imm s
  | .andi d a imm => Sys2Proof.Machine.execAndi d a imm s
  | .ori d a imm => Sys2Proof.Machine.execOri d a imm s
  | .xori d a imm => Sys2Proof.Machine.execXori d a imm s
  | .shli d a imm => Sys2Proof.Machine.execShli d a imm s
  | .shri d a imm => Sys2Proof.Machine.execShri d a imm s
  | .shai d a imm => Sys2Proof.Machine.execShai d a imm s
  | .limm d imm => Sys2Proof.Machine.execLimm d imm s
  | .limmh d imm => Sys2Proof.Machine.execLimmh d imm s
  | .lds d a z o => Sys2Proof.Machine.execLds d a z o s
  | .sts d a z o => Sys2Proof.Machine.execSts d a z o s
  | .ldsAgent d a z c o => Sys2Proof.Machine.execLdsAgent d a z c o s
  | .stsAgent d a z c o => Sys2Proof.Machine.execStsAgent d a z c o s
  | .fadd d a b g n f => Sys2Proof.Machine.execFadd d a b g n f s
  | .fsub d a b g n f => Sys2Proof.Machine.execFsub d a b g n f s
  | .fmul d a b g n f => Sys2Proof.Machine.execFmul d a b g n f s
  | .ffma d a b g n f => Sys2Proof.Machine.execFfma d a b g n f s
  | .fmin d a b g n => Sys2Proof.Machine.execFmin d a b g n s
  | .fmax d a b g n => Sys2Proof.Machine.execFmax d a b g n s
  | .fcmp d a b g n f => Sys2Proof.Machine.execFcmp d a b g n f s
  | .fcvt d a g n f => Sys2Proof.Machine.execFcvt d a g n f s
  | .vadd v => Sys2Proof.Machine.execVadd v s
  | .vsub v => Sys2Proof.Machine.execVsub v s
  | .vmul v => Sys2Proof.Machine.execVmul v s
  | .vfma v => Sys2Proof.Machine.execVfma v s
  | .vfms v => Sys2Proof.Machine.execVfms v s
  | .vfnma v => Sys2Proof.Machine.execVfnma v s
  | .vmin v => Sys2Proof.Machine.execVmin v s
  | .vmax v => Sys2Proof.Machine.execVmax v s
  | .vabs v => Sys2Proof.Machine.execVabs v s
  | .vneg v => Sys2Proof.Machine.execVneg v s
  | .vmulh v => Sys2Proof.Machine.execVmulh v s
  | .vand v => Sys2Proof.Machine.execVand v s
  | .vor v => Sys2Proof.Machine.execVor v s
  | .vxor v => Sys2Proof.Machine.execVxor v s
  | .vandn v => Sys2Proof.Machine.execVandn v s
  | .vnot v => Sys2Proof.Machine.execVnot v s
  | .vshl v => Sys2Proof.Machine.execVshl v s
  | .vshr v => Sys2Proof.Machine.execVshr v s
  | .vsha v => Sys2Proof.Machine.execVsha v s
  | .vclz v => Sys2Proof.Machine.execVclz v s
  | .vpopc v => Sys2Proof.Machine.execVpopc v s
  | .vcmp v => Sys2Proof.Machine.execVcmp v s
  | .vsel v => Sys2Proof.Machine.execVsel v s
  | .vcvt v => Sys2Proof.Machine.execVcvt v s
  | .vqmx v => Sys2Proof.Machine.execVqmx v s
  | .vdqmx v => Sys2Proof.Machine.execVdqmx v s
  | .vscl v => Sys2Proof.Machine.execVscl v s
  | .vrsum v => Sys2Proof.Machine.execVrsum v s
  | .vrmax v => Sys2Proof.Machine.execVrmax v s
  | .vrmin v => Sys2Proof.Machine.execVrmin v s
  | .vrarg v => Sys2Proof.Machine.execVrarg v s
  | .vscan v => Sys2Proof.Machine.execVscan v s
  | .vtopk v => Sys2Proof.Machine.execVtopk v s
  | .vxpnd v => Sys2Proof.Machine.execVxpnd v s
  | .vcount v => Sys2Proof.Machine.execVcount v s
  | .viota v => Sys2Proof.Machine.execViota v s
  | .vbrd v => Sys2Proof.Machine.execVbrd v s
  | .vextr v => Sys2Proof.Machine.execVextr v s
  | .vexp2 v => Sys2Proof.Machine.execVexp2 v s
  | .vlog2 v => Sys2Proof.Machine.execVlog2 v s
  | .vrcp v => Sys2Proof.Machine.execVrcp v s
  | .vrsq v => Sys2Proof.Machine.execVrsq v s
  | .vsqrt v => Sys2Proof.Machine.execVsqrt v s
  | .vtanh v => Sys2Proof.Machine.execVtanh v s
  | .vsig v => Sys2Proof.Machine.execVsig v s
  | .vsin v => Sys2Proof.Machine.execVsin v s
  | .vcos v => Sys2Proof.Machine.execVcos v s
  | .vld v => Sys2Proof.Machine.execVld v s
  | .vst v => Sys2Proof.Machine.execVst v s
  | .vlds v => Sys2Proof.Machine.execVlds v s
  | .vsts v => Sys2Proof.Machine.execVsts v s
  | .vgath v => Sys2Proof.Machine.execVgath v s
  | .vscat v => Sys2Proof.Machine.execVscat v s
  | .vldb v => Sys2Proof.Machine.execVldb v s
  | .advr v => Sys2Proof.Machine.execAdvr v s
  | .vNop => Sys2Proof.Machine.execVNop s
  | .xNop => Sys2Proof.Machine.execXNop s
  | .xperm hd hs n => Sys2Proof.Machine.execXperm hd hs n s
  | .xrot hd hs n => Sys2Proof.Machine.execXrot hd hs n s
  | .xshuf hd hs mode g => Sys2Proof.Machine.execXshuf hd hs mode g s
  | .xtrn hd hs p => Sys2Proof.Machine.execXtrn hd hs p s
  | .xbrd hd hs j => Sys2Proof.Machine.execXbrd hd hs j s
  | .xpat hs n => Sys2Proof.Machine.execXpat hs n s
  | .mNop => Sys2Proof.Machine.execMNop s
  | .mnest lv c src => Sys2Proof.Machine.execMnest lv c src s
  | .mnestClr => Sys2Proof.Machine.execMnestClr s
  | .mgo => Sys2Proof.Machine.execMgo s
  | .mcfg n a => Sys2Proof.Machine.execMcfg n a s
  | .mzero ag bank nb => Sys2Proof.Machine.execMzero ag bank nb s
  | .mmul a b c ag => Sys2Proof.Machine.execMmul a b c ag s
  | .mmulg a b c ag h => Sys2Proof.Machine.execMmulg a b c ag h s
  | .mchk a c ag => Sys2Proof.Machine.execMchk a c ag s
  | .mldacc a l ag bank => Sys2Proof.Machine.execMldacc a l ag bank s
  | .mstacc a l ag bank => Sys2Proof.Machine.execMstacc a l ag bank s
  | .mpermAcc ag x inv w => Sys2Proof.Machine.execMpermAcc ag x inv w s
  | .mpermScratch x inv w => Sys2Proof.Machine.execMpermScratch x inv w s
  | .aballoc ag count => Sys2Proof.Machine.execAballoc ag count s
  | .abfree ag => Sys2Proof.Machine.execAbfree ag s
  | .mflu ag t => Sys2Proof.Machine.execMflu ag t s
  | .mfch ag t => Sys2Proof.Machine.execMfch ag t s
  | .mfqr ag t => Sys2Proof.Machine.execMfqr ag t s
  | .mtrs ag t x up tr u => Sys2Proof.Machine.execMtrs ag t x up tr u s
  | .dNop => Sys2Proof.Machine.execDNop s
  | .xfer buf d src dsp ssp nb => Sys2Proof.Machine.execXfer buf d src dsp ssp nb s
  | .xferr buf d src dsp ssp nb b arv => Sys2Proof.Machine.execXferr buf d src dsp ssp nb b arv s
  | .rld buf d a sp z o => Sys2Proof.Machine.execRld buf d a sp z o s
  | .rst buf d a sp z o => Sys2Proof.Machine.execRst buf d a sp z o s
  | .chsend buf a ch astep => Sys2Proof.Machine.execChsend buf a ch astep s
  | .chrecv buf a ch astep => Sys2Proof.Machine.execChrecv buf a ch astep s
  | .chbind buf n chs chr => Sys2Proof.Machine.execChbind buf n chs chr s
  | .sacc buf a hi hv it ioff voff istep vstep => Sys2Proof.Machine.execSacc buf a hi hv it ioff voff istep vstep s
  | .shist buf a hi it ioff istep => Sys2Proof.Machine.execShist buf a hi it ioff istep s
  | .ctrsnap buf a => Sys2Proof.Machine.execCtrsnap buf a s
  | .atomAdd buf d a b w => Sys2Proof.Machine.execAtomAdd buf d a b w s
  | .atomAnd buf d a b w => Sys2Proof.Machine.execAtomAnd buf d a b w s
  | .atomOr buf d a b w => Sys2Proof.Machine.execAtomOr buf d a b w s
  | .atomXor buf d a b w => Sys2Proof.Machine.execAtomXor buf d a b w s
  | .atomMin buf d a b w => Sys2Proof.Machine.execAtomMin buf d a b w s
  | .atomMax buf d a b w => Sys2Proof.Machine.execAtomMax buf d a b w s
  | .atomMinn buf d a b w => Sys2Proof.Machine.execAtomMinn buf d a b w s
  | .atomMaxn buf d a b w => Sys2Proof.Machine.execAtomMaxn buf d a b w s
  | .atomSwap buf d a b w => Sys2Proof.Machine.execAtomSwap buf d a b w s
  | .atomCas buf d a b c w => Sys2Proof.Machine.execAtomCas buf d a b c w s
  | .atomFadd buf d a b => Sys2Proof.Machine.execAtomFadd buf d a b s
  | .atomArv buf d a b => Sys2Proof.Machine.execAtomArv buf d a b s
  | .atomBreg buf d a b => Sys2Proof.Machine.execAtomBreg buf d a b s
  | .atomBcpl buf d a b => Sys2Proof.Machine.execAtomBcpl buf d a b s
  | .snap buf d dom => Sys2Proof.Machine.execSnap buf d dom s
  | .genq buf d dom => Sys2Proof.Machine.execGenq buf d dom s
  | .tarm buf handle src aix => Sys2Proof.Machine.execTarm buf handle src aix s
  | .tpost buf handle src a step => Sys2Proof.Machine.execTpost buf handle src a step s
  | .trecv buf handle src a step => Sys2Proof.Machine.execTrecv buf handle src a step s
  | .tstat buf handle d clr => Sys2Proof.Machine.execTstat buf handle d clr s
  | .waita d a b g n => Sys2Proof.Machine.execWaita d a b g n s
  | .waitt d a b g n => Sys2Proof.Machine.execWaitt d a b g n s
  | .batchClose d a g n => Sys2Proof.Machine.execBatchClose d a g n s
  | .waitb d a b g n => Sys2Proof.Machine.execWaitb d a b g n s
  | .lda d a c src w => Sys2Proof.Machine.execLda d a c src w s
  | .stl a b c src w => Sys2Proof.Machine.execStl a b c src w s
  | .fence m src => Sys2Proof.Machine.execFence m src s
  | .amoAdd d a b c => Sys2Proof.Machine.execAmoAdd d a b c s
  | .amoOr d a b c => Sys2Proof.Machine.execAmoOr d a b c s
  | .amoAnd d a b c => Sys2Proof.Machine.execAmoAnd d a b c s
  | .amoSwap d a b c => Sys2Proof.Machine.execAmoSwap d a b c s
  | .amoMaxn d a b c => Sys2Proof.Machine.execAmoMaxn d a b c s
  | .amoCas d a b c => Sys2Proof.Machine.execAmoCas d a b c s
  | .amoArv d a b c => Sys2Proof.Machine.execAmoArv d a b c s
  | .amoBreg d a b c => Sys2Proof.Machine.execAmoBreg d a b c s
  | .copy d a b g n => Sys2Proof.Machine.execCopy d a b g n s
  | .taskq d a g n => Sys2Proof.Machine.execTaskq d a g n s
  | .tkill d a g n => Sys2Proof.Machine.execTkill d a g n s
  | .tpreDrain d a b g n => Sys2Proof.Machine.execTpreDrain d a b g n s
  | .tpreCheckpoint d a b g n => Sys2Proof.Machine.execTpreCheckpoint d a b g n s
  | .tpreRequeue d a b g n => Sys2Proof.Machine.execTpreRequeue d a b g n s
  | .tstatus d a g n => Sys2Proof.Machine.execTstatus d a g n s
  | .cplpost d a g n => Sys2Proof.Machine.execCplpost d a g n s
  | .intr a g n => Sys2Proof.Machine.execIntr a g n s
  | .scall c => Sys2Proof.Machine.execScall c s
  | .eret => Sys2Proof.Machine.execEret s
  | .csrr d c => Sys2Proof.Machine.execCsrr d c s
  | .csrw a c => Sys2Proof.Machine.execCsrw a c s
  | .scrub d a g n => Sys2Proof.Machine.execScrub d a g n s
  | .keyz d a g n => Sys2Proof.Machine.execKeyz d a g n s
  | .keyld d a b g n => Sys2Proof.Machine.execKeyld d a b g n s
  | .migr d a g n => Sys2Proof.Machine.execMigr d a g n s
  | .imgchk d a b g n => Sys2Proof.Machine.execImgchk d a b g n s
  | .treeCreate d a => Sys2Proof.Machine.execTreeCreate d a s
  | .treeEdit d a => Sys2Proof.Machine.execTreeEdit d a s
  | .treeAlt d a b => Sys2Proof.Machine.execTreeAlt d a b s
  | .treeFreeze d a => Sys2Proof.Machine.execTreeFreeze d a s
  | .treeThaw d a => Sys2Proof.Machine.execTreeThaw d a s
  | .treeDestroy d a => Sys2Proof.Machine.execTreeDestroy d a s
  | .bundleIssue => Sys2Proof.Machine.execBundleIssue s
  | .stickyReissue => Sys2Proof.Machine.execStickyReissue s
  | .trap => Sys2Proof.Machine.execTrap s
  | .quiescenceOverdue => Sys2Proof.Machine.execQuiescenceOverdue s
  | .syncResolve => Sys2Proof.Machine.execSyncResolve s
  | .phaseSwitch => Sys2Proof.Machine.execPhaseSwitch s
  | .holdFreeze => Sys2Proof.Machine.execHoldFreeze s
  | .holdResume => Sys2Proof.Machine.execHoldResume s
  | .drainStop => Sys2Proof.Machine.execDrainStop s
  | .drainLimitExpiry => Sys2Proof.Machine.execDrainLimitExpiry s
  | .imageSaveComplete => Sys2Proof.Machine.execImageSaveComplete s
  | .drainRestore => Sys2Proof.Machine.execDrainRestore s
  | .freezeRestore => Sys2Proof.Machine.execFreezeRestore s
  | .taskLaunch => Sys2Proof.Machine.execTaskLaunch s
  | .taskRetire => Sys2Proof.Machine.execTaskRetire s
  | .completionRecordWrite => Sys2Proof.Machine.execCompletionRecordWrite s
  | .sliceBoundary => Sys2Proof.Machine.execSliceBoundary s
  | .schedulerDecision => Sys2Proof.Machine.execSchedulerDecision s
  | .extensionRedecide => Sys2Proof.Machine.execExtensionRedecide s
  | .scalarResultWrite => Sys2Proof.Machine.execScalarResultWrite s
  | .vectorResultWrite => Sys2Proof.Machine.execVectorResultWrite s
  | .fmtApply => Sys2Proof.Machine.execFmtApply s
  | .systemRegisterWrite => Sys2Proof.Machine.execSystemRegisterWrite s
  | .xpatWrite => Sys2Proof.Machine.execXpatWrite s
  | .dAccessPerform => Sys2Proof.Machine.execDAccessPerform s
  | .beatRead => Sys2Proof.Machine.execBeatRead s
  | .beatWrite => Sys2Proof.Machine.execBeatWrite s
  | .barrierRegister => Sys2Proof.Machine.execBarrierRegister s
  | .barrierCompleteBeats => Sys2Proof.Machine.execBarrierCompleteBeats s
  | .barrierArrival => Sys2Proof.Machine.execBarrierArrival s
  | .chsendPush => Sys2Proof.Machine.execChsendPush s
  | .channelDepart => Sys2Proof.Machine.execChannelDepart s
  | .channelArrive => Sys2Proof.Machine.execChannelArrive s
  | .saccUpdate => Sys2Proof.Machine.execSaccUpdate s
  | .shistIncrement => Sys2Proof.Machine.execShistIncrement s
  | .ctrsnapWrite => Sys2Proof.Machine.execCtrsnapWrite s
  | .nestStart => Sys2Proof.Machine.execNestStart s
  | .nestStep => Sys2Proof.Machine.execNestStep s
  | .nestCWrite => Sys2Proof.Machine.execNestCWrite s
  | .accLineMove => Sys2Proof.Machine.execAccLineMove s
  | .mchkWrite => Sys2Proof.Machine.execMchkWrite s
  | .factorisationStep => Sys2Proof.Machine.execFactorisationStep s
  | .factorisationEnd => Sys2Proof.Machine.execFactorisationEnd s
  | .mpermRowWrite => Sys2Proof.Machine.execMpermRowWrite s
  | .snapCycle => Sys2Proof.Machine.execSnapCycle s
  | .snapResult => Sys2Proof.Machine.execSnapResult s
  | .genqSample => Sys2Proof.Machine.execGenqSample s
  | .genqResult => Sys2Proof.Machine.execGenqResult s
  | .generationDrainComplete => Sys2Proof.Machine.execGenerationDrainComplete s
  | .treeFold => Sys2Proof.Machine.execTreeFold s
  | .treeDelivery => Sys2Proof.Machine.execTreeDelivery s
  | .handlerEntry => Sys2Proof.Machine.execHandlerEntry s
  | .debugStep => Sys2Proof.Machine.execDebugStep s
  | .dctlWrite => Sys2Proof.Machine.execDctlWrite s
  | .debugRegisterWrite => Sys2Proof.Machine.execDebugRegisterWrite s
  | .debugRelease => Sys2Proof.Machine.execDebugRelease s
  | .freezeImageEdit => Sys2Proof.Machine.execFreezeImageEdit s
  | .waitaReturn => Sys2Proof.Machine.execWaitaReturn s
  | .waitaTimeout => Sys2Proof.Machine.execWaitaTimeout s
  | .waittReturn => Sys2Proof.Machine.execWaittReturn s
  | .waitbReturn => Sys2Proof.Machine.execWaitbReturn s
  | .copyComplete => Sys2Proof.Machine.execCopyComplete s
  | .scrubUnitDone => Sys2Proof.Machine.execScrubUnitDone s
  | .migrationComplete => Sys2Proof.Machine.execMigrationComplete s
  | .patrolScrub => Sys2Proof.Machine.execPatrolScrub s
  | .powerOn => Sys2Proof.Machine.execPowerOn s
  | .warmReset => Sys2Proof.Machine.execWarmReset s
  | .functionReset => Sys2Proof.Machine.execFunctionReset s
  | .partitionRequest => Sys2Proof.Machine.execPartitionRequest s
  | .frameGrant => Sys2Proof.Machine.execFrameGrant s
  | .errorInjection => Sys2Proof.Machine.execErrorInjection s
  | .logRead => Sys2Proof.Machine.execLogRead s
  | .sensorRead => Sys2Proof.Machine.execSensorRead s
  | .warningTemperature => Sys2Proof.Machine.execWarningTemperature s
  | .criticalTemperature => Sys2Proof.Machine.execCriticalTemperature s
  | .firmwareUpdate => Sys2Proof.Machine.execFirmwareUpdate s
  | .getVersion => Sys2Proof.Machine.execGetVersion s
  | .getCapabilities => Sys2Proof.Machine.execGetCapabilities s
  | .negotiateAlgorithms => Sys2Proof.Machine.execNegotiateAlgorithms s
  | .getDigests => Sys2Proof.Machine.execGetDigests s
  | .getCertificate => Sys2Proof.Machine.execGetCertificate s
  | .challenge => Sys2Proof.Machine.execChallenge s
  | .getMeasurements => Sys2Proof.Machine.execGetMeasurements s
  | .keyExchange => Sys2Proof.Machine.execKeyExchange s
  | .finish => Sys2Proof.Machine.execFinish s
  | .linkTraining => Sys2Proof.Machine.execLinkTraining s
  | .ptmSync => Sys2Proof.Machine.execPtmSync s
  | .flitReceive => Sys2Proof.Machine.execFlitReceive s
  | .laneRetire => Sys2Proof.Machine.execLaneRetire s
  | .lmapWrite => Sys2Proof.Machine.execLmapWrite s
  | .linkWidthChange => Sys2Proof.Machine.execLinkWidthChange s
  | .hostPortTraining => Sys2Proof.Machine.execHostPortTraining s
  | .bar2Access => Sys2Proof.Machine.execBar2Access s
  | .cxlMemAccess => Sys2Proof.Machine.execCxlMemAccess s
  | .cqheadWrite => Sys2Proof.Machine.execCqheadWrite s
  | .ctxerrWrite => Sys2Proof.Machine.execCtxerrWrite s
  | .registerWrite => Sys2Proof.Machine.execRegisterWrite s
  | .debugHoldRelease => Sys2Proof.Machine.execDebugHoldRelease s

end Sys2Proof.Machine
end

