-- ==== Sys2Proof/Machine/Step.lean ====
section
/-! DEFINITION. One step of the machine: the next turn of the agenda, or the next wall cycle when there is none. -/
namespace Sys2Proof.Machine

/-- A turn: a core fetches, a slot issues, an event happens, a part of a gang's cycle begins. -/
def runTurn (t : Turn) (s : State) : Host.Outcome State Fault Refusal :=
  match t with
  | .agentFetch c =>
    let s := { s with cur := .agent c }
    match s.fetchAgent c with
    | .ok i => exec i s
    | .error cause => .next (s.fetchFails c cause)
  | .issue task gid slot k addr syl =>
    match s.issued task gid slot syl with
    | .ok i => exec i ({ s with cur := .tile task gid slot k addr }.idleFor task gid slot i)
    | .error e => .next (s.undefinedAt task gid slot syl addr e)
  | .act i who => exec i { s with cur := who }
  | .phase task k => .next (s.runPhase task k)
  | .tileTurn task gid => .next (s.tileTurn task gid)
  | .endBundle task gid => .next (s.endBundle task gid)
  | .drainStore c => .next (s.drainStore c)
  | .hostWrite a bs ep => .next (s.hostWrite a bs ep)
  | .serialise => .next s.serialise
  | .drainGen t dom number stk => .next (s.drainOn t dom number stk)

/-- One step. -/
def step (s : State) : Host.Outcome State Fault Refusal :=
  match s.agenda with
  | [] => .next s.tick
  | t :: rest => runTurn t { s with agenda := rest }

/-- The state with an instruction placed where the next step fetches (DESIGN CHOICE, log 2). -/
def State.withFetchWord (s : State) (nbits w : Nat) : State := s.placeWord (w % 2 ^ nbits)

end Sys2Proof.Machine
end

