-- ==== Sys2Proof/Safety.lean ====
section
/-! DEFINITION. What counts as a safe step: a next state. No step of this model raises a fault, and only TPRE may refuse. -/
namespace Sys2Proof

/-- A step that goes on. -/
def Safe (s : Machine.State) : Prop := ∃ t, Machine.step s = .next t

end Sys2Proof
end

