-- ==== Sys2Proof/Certificates/Slice0/Obligations.lean ====
section
/-! DEFINITION. The statements for the provers, and the vocabulary that they are written in. A statement of an instruction's
result has an equation with the next state as its conclusion, so that it says at once that the instruction completes, what it
changes and that it changes nothing else. -/

namespace Sys2Proof.Claims
open Machine

/-! ### Vocabulary -/

/-- It is the turn of an agent core. -/
def AtCore (s : State) (c : Nat) : Prop := s.cur = .agent c

/-- It is the turn of a slot of a tile of a task's gang, with a re-issue count and the address of its bundle. -/
def AtTile (s : State) (t gid slot k addr : Nat) (g : Gang) (x : Tile) : Prop :=
  s.cur = .tile t gid slot k addr ∧ s.gang t = some g ∧ g.tile gid = some x

/-- The same, for the control slot of the bundle `a` that the tile is issuing. -/
def AtBundle (s : State) (t gid k addr : Nat) (g : Gang) (x : Tile) (a : Active) : Prop :=
  AtTile s t gid 0 k addr g x ∧ x.active = some a

/-- The operation that stands for that turn (R417). -/
def opOf (g : Gang) (gid slot addr : Nat) : Origin := { gid := gid, slot := slot, addr := addr, issue := g.lcyc, buf := 0 }

/-- The gang once an operation has read its registers: those of a k register are popped, and a poisoned source is a consumption of
point 1 at the operation (R109, R282, R423). -/
def reading (g : Gang) (o : Origin) (r : Reads) (info : Word) : Gang :=
  if r.poison = true then (g.onTile o.gid (fun _ => r.x)).consume o 1 g.lcyc info else g.onTile o.gid (fun _ => r.x)

/-- A branch of the bundle at an address to a target is taken (R153); `loop` for BR, which stays within the innermost active loop. -/
def Taken (x : Tile) (addr : Nat) (target : Int) (loop : Bool) : Prop :=
  target % 4 = 0 ∧ 0 ≤ target ∧ target < (4 * x.codeLen : Nat)
    ∧ (loop = true → ∀ l ls, x.loops = l :: ls → (l.start : Int) ≤ target ∧ target ≤ (l.stop : Int))
    ∧ ∀ l ∈ x.loops, l.stop ≠ addr

/-- The instruction answers the state in which that core is y and nothing else has changed. -/
def CoreBecomes (i : Instr) (s : State) (c : Nat) (y : AgentCore) : Prop := exec i s = .next (s.setCore c y)

/-- The instruction answers the state in which the gang of that task is g and nothing else has changed: no memory of the device
or of the system, no core, no other task. -/
def GangBecomes (i : Instr) (s : State) (t : Nat) (g : Gang) : Prop := exec i s = .next (s.onGang t (fun _ => g))

/-- An event, which happens to a task or a tile of its gang. -/
def AtEvent (s : State) (t gid : Nat) : Prop := s.cur = .event t gid

/-- An event of the outside world with its parameters. -/
def AtOutside (s : State) (as : List Nat) : Prop := s.cur = .outside as

/-! ### Tables of instructions of one shape -/

/-- The instructions d := f(a, b), with the latency that R144 gives them on a tile (R170 to R172). -/
def binaryRows : List ((Nat → Nat → Nat → Nat → Nat → Instr) × Nat × (Word → Word → Word)) :=
  [ (.add, 1, fun x y => x + y), (.sub, 1, fun x y => x - y), (.mul, 3, fun x y => x * y),
    (.mulh, 3, fun x y => BitVec.ofInt 64 (x.toInt * y.toInt / 2 ^ 64)),
    (.mulhn, 3, fun x y => BitVec.ofNat 64 (x.toNat * y.toNat / 2 ^ 64)),
    (.div, 34, fun x y => if y = 0 then BitVec.allOnes 64 else BitVec.ofInt 64 (x.toInt.tdiv y.toInt)),
    (.divn, 34, fun x y => if y = 0 then BitVec.allOnes 64 else BitVec.ofNat 64 (x.toNat / y.toNat)),
    (.rem, 34, fun x y => if y = 0 then x else BitVec.ofInt 64 (x.toInt.tmod y.toInt)),
    (.remn, 34, fun x y => if y = 0 then x else BitVec.ofNat 64 (x.toNat % y.toNat)),
    (.and, 1, fun x y => x &&& y), (.or, 1, fun x y => x ||| y), (.xor, 1, fun x y => x ^^^ y),
    (.andn, 1, fun x y => x &&& ~~~y), (.orn, 1, fun x y => x ||| ~~~y),
    (.shl, 1, fun x y => x <<< (y.toNat % 64)), (.shr, 1, fun x y => x >>> (y.toNat % 64)),
    (.sha, 1, fun x y => x.sshiftRight (y.toNat % 64)), (.rotr, 1, fun x y => x.rotateRight (y.toNat % 64)),
    (.min, 1, fun x y => if y.toInt < x.toInt then y else x), (.max, 1, fun x y => if x.toInt < y.toInt then y else x),
    (.minn, 1, fun x y => if y.toNat < x.toNat then y else x), (.maxn, 1, fun x y => if x.toNat < y.toNat then y else x),
    (.slt, 1, fun x y => if x.toInt < y.toInt then 1 else 0), (.sltn, 1, fun x y => if x.toNat < y.toNat then 1 else 0) ]

/-- The instructions d := f(a) under a guard: counts of bits (R170). -/
def unaryRows : List ((Nat → Nat → Nat → Nat → Instr) × (Word → Word)) :=
  [ (.clz, aluClz), (.ctz, aluCtz), (.popc, aluPopc) ]

/-- The instructions d := f(a, immediate), without guard (R170, R112). -/
def immediateRows : List ((Nat → Nat → Nat → Instr) × (Nat → Word → Word)) :=
  [ (.addi, fun i x => x + BitVec.ofInt 64 (sextInt 13 i)), (.andi, fun i x => x &&& BitVec.ofInt 64 (sextInt 13 i)),
    (.ori, fun i x => x ||| BitVec.ofInt 64 (sextInt 13 i)), (.xori, fun i x => x ^^^ BitVec.ofInt 64 (sextInt 13 i)),
    (.shli, fun i x => x <<< (i % 2 ^ 64 % 64)), (.shri, fun i x => x >>> (i % 2 ^ 64 % 64)),
    (.shai, fun i x => x.sshiftRight (i % 2 ^ 64 % 64)) ]

/-- The scalar floating instructions of two sources, with the FP32 value that they compute from the draw and bits [31:0] of
their sources (R177). -/
def floatRows : List ((Nat → Nat → Nat → Nat → Nat → Nat → Instr) × (Nat → Nat → Nat → Nat → Rounded)) :=
  [ (.fadd, fun f r x y => addFloat .fp32 (Rnd.ofCode f) false r x y),
    (.fsub, fun f r x y => subFloat .fp32 (Rnd.ofCode f) false r x y),
    (.fmul, fun f r x y => mulFloat .fp32 (Rnd.ofCode f) false r x y),
    (fun d a b g n _ => .fmin d a b g n, fun _ _ x y => minMaxFloat .fp32 false x y),
    (fun d a b g n _ => .fmax d a b g n, fun _ _ x y => minMaxFloat .fp32 true x y) ]

/-- The low 32 bits of a register, as an FP32 pattern (R177). -/
def low32 (w : Word) : Nat := w.toNat % 2 ^ 32

end Sys2Proof.Claims

open Sys2Proof Sys2Proof.Machine Sys2Proof.Claims

/-! ### Reset, decoding, the step -/

/-- Reset leaves core 0 of package 0, and every other core, at the start of its private memory, at device level, with the vector base
0x100 above it, AFUNC 0xFF, every scalar register and predicate 0, no line in the data cache and no flag raised; every TLC, CTXSUB,
CTXBAT and CTXERR is 0 (R385); SPRES, DRNSLOT and SLICE have their reset values (R384); there is no task, no tree, no log entry.
ECAUSE, EPC and EVAL, which the spec gives no reset value, are 0 by the model's choice (DESIGN CHOICE, log 12) and are not stated here.
That the reset state is the release point is the model's reading (DEDUCED, log 11). -/
def Obligations.ResetStartsCoreZero : Prop :=
  (∀ c y, y = State.reset.core c →
    y.pc = 0x800000000000#64 ∧ y.lv = 1 ∧ y.plv = 1 ∧ y.etvec = 0x800000000100#64 ∧ y.afunc = 0xFF ∧ y.fstatus = 0 ∧ y.tsel = 0
      ∧ y.lines = [] ∧ (∀ r, y.reg r = 0) ∧ (∀ p, y.pred p = (p == 0)))
    ∧ (∀ c i, i < 16 → State.reset.csrValue c (0x010 + i) = 0 ∧ State.reset.csrValue c (0x020 + i) = 0
      ∧ State.reset.csrValue c (0x030 + i) = 0 ∧ State.reset.csrValue c (0x080 + i) = 0)
    ∧ (∀ p, (State.reset.pkg p).spres = 3 ∧ (State.reset.pkg p).drnslot = 4 ∧ (State.reset.pkg p).pewter.log = [])
    ∧ State.reset.tasks = [] ∧ State.reset.trees = [] ∧ State.reset.slice = 1000

/-- Both memories that the whole device shares are in their canonical form at reset.
The form, with 0 for a byte that is not listed, is the model's own (DESIGN CHOICE, log 3). -/
def Obligations.ResetMemoryCanonical : Prop := State.reset.memWf

/-- Every step keeps both memories in their canonical form, from every state, whatever the turn: rising addresses and no entry
that an unlisted address would read the same as.
The form, with 0 for a byte that is not listed, is the model's own (DESIGN CHOICE, log 3). -/
def Obligations.StepKeepsMemoryCanonical : Prop :=
  ∀ s t : State, s.memWf → step s = .next t → t.memWf

/-- A few words, written out from the encodings of chapters 05, 07, 15 and 23, decode to the instructions they stand for:
`ADD s3, s1, s2` is 0100000 000011 000001 000010 000 0 000; `BR +2` is 0000100 000 0 0...010; `SCALL 7` is 1101111 0...0111;
`ERET` is 1110000 and 25 zeros; in a D slot the opcode stands in bits [63:56]. -/
def Obligations.WordsDecode : Prop :=
  decodeAgent 0b0100000_000011_000001_000010_000_0_000 = .ok (.add 3 1 2 0 0)
    ∧ decodeAgent 0b0000100_000_0_000000000000000000010 = .ok (.br 0 0 2)
    ∧ decodeAgent 0b1101111_000000000_0000000000000111 = .ok (.scall 7)
    ∧ decodeAgent 0b1110000_0000000000000000000000000 = .ok .eret
    ∧ decodeAgent 0b1000111_000101_0000000000000101010 = .ok (.limm 5 42)
    ∧ decodeC 0b0000010_000100_00000011_00000000101 = .ok (.loop 4 3 5)
    ∧ decodeAgent 0b1111111_0000000000000000000000000 = .error .opcode
    ∧ decodeAgent 0b1110000_0000000000000000000000001 = .error .field

/-- A core whose fetch gives an instruction executes exactly that one, in the state with the turn taken; when the fetch fails,
the exception of the fetch is taken. A slot of a tile executes the instruction that its syllable decodes to there, and an
undefined syllable is the undefined encoding of its bundle; an event executes itself. With nothing left to do, the wall clock
moves on.
The order of turns and which TPRE row a word gives are the model's (DESIGN CHOICE, logs 1 and 18; DEDUCED, log 7). -/
def Obligations.StepRunsDecoded : Prop :=
  (∀ (s : State) (c : Nat) (rest : List Turn) (i : Instr), s.agenda = .agentFetch c :: rest →
      ({ s with agenda := rest, cur := .agent c } : State).fetchAgent c = .ok i →
      step s = exec i { s with agenda := rest, cur := .agent c })
    ∧ (∀ (s : State) (c : Nat) (rest : List Turn) (e : Nat), s.agenda = .agentFetch c :: rest →
      ({ s with agenda := rest, cur := .agent c } : State).fetchAgent c = .error e →
      step s = .next (({ s with agenda := rest, cur := .agent c } : State).fetchFails c e))
    ∧ (∀ (s : State) (t gid slot k addr syl : Nat) (rest : List Turn) (i : Instr),
      s.agenda = .issue t gid slot k addr syl :: rest →
      ({ s with agenda := rest } : State).issued t gid slot syl = .ok i →
      step s = exec i (({ s with agenda := rest, cur := .tile t gid slot k addr } : State).idleFor t gid slot i))
    ∧ (∀ (s : State) (t gid slot k addr syl : Nat) (rest : List Turn) (e : DecodeReject),
      s.agenda = .issue t gid slot k addr syl :: rest →
      ({ s with agenda := rest } : State).issued t gid slot syl = .error e →
      step s = .next (({ s with agenda := rest } : State).undefinedAt t gid slot syl addr e))
    ∧ (∀ (s : State) (i : Instr) (who : Actor) (rest : List Turn), s.agenda = .act i who :: rest →
      step s = exec i { s with agenda := rest, cur := who })
    ∧ (∀ s : State, s.agenda = [] → step s = .next s.tick)

/-- The instruction that the word of an instruction stands for: itself, but for TPRE, whose three rows of the table share one
word, told apart by a register when it is executed (R398). -/
def Sys2Proof.Claims.wordRow : Instr → Instr
  | .tpreCheckpoint d a b g n => .tpreDrain d a b g n
  | .tpreRequeue d a b g n => .tpreDrain d a b g n
  | i => i

/-- Every well-formed instruction of an agent core, whatever its operands, is read back from its own word, alone and at the head
of an instruction stream. -/
def Obligations.AgentWordsRoundTrip : Prop :=
  ∀ (i : Instr) (rest : List Byte), i.wfAgent = true →
    decodeAgent (encode i) = .ok (wordRow i) ∧ decode (encodeBytes i ++ rest) = .ok (wordRow i, rest)

/-- Every well-formed instruction of a C, S, X, M or D slot is read back from its own syllable by the decoder of that slot. -/
def Obligations.SyllablesRoundTrip : Prop :=
  ∀ i : Instr, i.wf = true →
    (i.standsIn .c = true → decodeC (encode i) = .ok i) ∧ (i.standsIn .s = true → decodeS (encode i) = .ok i)
      ∧ (i.standsIn .x = true → decodeX (encode i) = .ok i) ∧ (i.standsIn .m = true → decodeM (encode i) = .ok i)
      ∧ (i.standsIn .d = true → decodeD (encode i) = .ok i)

/-- Every valid vector operation, with every operand descriptor and type, is read back from its control word and its BIAS.
Where a form leaves a field unused, which words are valid is the model's reading (DEDUCED, log 22). -/
def Obligations.ControlWordsRoundTrip : Prop :=
  ∀ (i : Instr) (opc sf : Nat) (v : VOp) (ok : Bool), i.wf = true → vectorRow i = some (opc, sf, v, ok) →
    decodeControl (encodeControl i) v.bias = .ok i ∧ encodeControl i < 2 ^ 256

/-- A word that decodes has one meaning and no reserved part: the instruction is within its limits and its own word is the word
that was read, bit for bit. So a word with a reserved bit set, or a reserved field value, is refused (R107, R108). -/
def Obligations.DecodedWordsAreCanonical : Prop :=
  ∀ (w : Nat) (i : Instr),
    (decodeAgent w = .ok i → encode i = w ∧ limitsOk 0x20 i = true)
      ∧ (decodeC w = .ok i → encode i = w ∧ i.wf = true) ∧ (decodeS w = .ok i → encode i = w ∧ i.wf = true)
      ∧ (decodeX w = .ok i → encode i = w ∧ i.wf = true) ∧ (decodeM w = .ok i → encode i = w ∧ i.wf = true)
      ∧ (decodeD w = .ok i → encode i = w ∧ i.wf = true)
      ∧ (∀ b, decodeControl w b = .ok i → encodeControl i = w ∧ i.wf = true)

/-! ### The S class (07) -/

/-- Every integer instruction of two sources on an agent core: with a true guard d := f(a, b), read before anything is written,
s0 discards, and the core goes on; with a false one it only goes on. Memory, predicates, flags, control registers and every other
core are as before. -/
def Obligations.BinaryOnCore : Prop :=
  ∀ e ∈ binaryRows, ∀ (s : State) (c d a b g n : Nat), AtCore s c →
    ((s.core c).guard g n = true → CoreBecomes (e.1 d a b g n) s c
      (((s.core c).setReg d (e.2.2 ((s.core c).reg a) ((s.core c).reg b))).advance))
    ∧ ((s.core c).guard g n = false → CoreBecomes (e.1 d a b g n) s c (s.core c).advance)

/-- Every integer instruction of two sources on a tile: with a true guard its sources are read at issue, in order, k registers
popped, and the result lands in d at t + L, poisoned when a source was; with a false one nothing happens. Until then every
register, flag and byte of memory of the tile is as before. -/
def Obligations.BinaryOnTile : Prop :=
  ∀ e ∈ binaryRows, ∀ (s : State) (t gid slot k addr d a b gd n : Nat) (g : Gang) (x : Tile),
    AtTile s t gid slot k addr g x →
    (x.guard gd n = true → GangBecomes (e.1 d a b gd n) s t
      ((g.onTile gid (fun _ => (x.readCodes g.lcyc slot addr [a, b]).x)).later (opOf g gid slot addr) (g.lcyc + e.2.1)
        (.sreg d (e.2.2 (nthD 0 (x.readCodes g.lcyc slot addr [a, b]).vals 0)
            (nthD 0 (x.readCodes g.lcyc slot addr [a, b]).vals 1))
          (x.readCodes g.lcyc slot addr [a, b]).poison)))
    ∧ (x.guard gd n = false → GangBecomes (e.1 d a b gd n) s t g)

/-- The bit counts under a guard, and the immediate forms, LIMM and LIMMH, which have none: on an agent core the register is
written at once, on a tile at t + 1. LIMMH moves its old value up by 19 bits. -/
def Obligations.UnaryAndImmediate : Prop :=
  (∀ e ∈ unaryRows, ∀ (s : State) (c d a g n : Nat), AtCore s c →
      ((s.core c).guard g n = true →
        CoreBecomes (e.1 d a g n) s c (((s.core c).setReg d (e.2 ((s.core c).reg a))).advance))
      ∧ ((s.core c).guard g n = false → CoreBecomes (e.1 d a g n) s c (s.core c).advance))
    ∧ (∀ e ∈ immediateRows, ∀ (s : State) (c d a i : Nat), AtCore s c →
      CoreBecomes (e.1 d a i) s c (((s.core c).setReg d (e.2 i ((s.core c).reg a))).advance))
    ∧ (∀ (s : State) (c d i : Nat), AtCore s c →
      CoreBecomes (.limm d i) s c (((s.core c).setReg d (BitVec.ofInt 64 (sextInt 19 i))).advance)
      ∧ CoreBecomes (.limmh d i) s c (((s.core c).setReg d (BitVec.ofNat 64 (((s.core c).reg d).toNat * 2 ^ 19 + i))).advance))
    ∧ (∀ (s : State) (t gid slot k addr d a gd n i : Nat) (g : Gang) (x : Tile) (r : Reads),
      AtTile s t gid slot k addr g x → r = x.readCodes g.lcyc slot addr [a] →
      (∀ e ∈ unaryRows, (x.guard gd n = true → GangBecomes (e.1 d a gd n) s t
          ((g.onTile gid (fun _ => r.x)).later (opOf g gid slot addr) (g.lcyc + 1) (.sreg d (e.2 (nthD 0 r.vals 0)) r.poison)))
        ∧ (x.guard gd n = false → GangBecomes (e.1 d a gd n) s t g))
      ∧ (∀ e ∈ immediateRows, GangBecomes (e.1 d a i) s t
        ((g.onTile gid (fun _ => r.x)).later (opOf g gid slot addr) (g.lcyc + 1) (.sreg d (e.2 i (nthD 0 r.vals 0)) r.poison)))
      ∧ GangBecomes (.limm d i) s t
        ((g.onTile gid (fun _ => x)).later (opOf g gid slot addr) (g.lcyc + 1) (.sreg d (BitVec.ofInt 64 (sextInt 19 i)) false))
      ∧ GangBecomes (.limmh a i) s t
        ((g.onTile gid (fun _ => r.x)).later (opOf g gid slot addr) (g.lcyc + 1)
          (.sreg a (BitVec.ofNat 64 ((nthD 0 r.vals 0).toNat * 2 ^ 19 + i)) r.poison)))

/-- SEL (R172), PCMP (R174) and PLOG (R175). On a core: SEL reads both sources and takes the one that p(P) xor N selects; PCMP and
PLOG write the predicate d, which p0 discards. On a tile the result lands at t + 1 (R144); a poisoned source of PCMP is a
consumption of point 1, unless the destination is p0 (R422, R423). With a false guard PCMP and PLOG only let the core go on. -/
def Obligations.SelectCompareLogic : Prop :=
  (∀ (s : State) (c d a b p n g f : Nat), AtCore s c →
    CoreBecomes (.sel d a b p n) s c (((s.core c).setReg d
      (if (s.core c).pred p != (n == 1) then (s.core c).reg a else (s.core c).reg b)).advance)
    ∧ ((s.core c).guard g n = true → CoreBecomes (.pcmp d a b g n f) s c
      (((s.core c).setPred d (pcmpHolds f ((s.core c).reg a) ((s.core c).reg b))).advance))
    ∧ ((s.core c).guard g n = true → CoreBecomes (.plog d f a b g n) s c
      (((s.core c).setPred d (plogValue f ((s.core c).pred a) ((s.core c).pred b))).advance))
    ∧ ((s.core c).guard g n = false → CoreBecomes (.pcmp d a b g n f) s c (s.core c).advance
      ∧ CoreBecomes (.plog d f a b g n) s c (s.core c).advance))
  ∧ (∀ (s : State) (t gid slot k addr d a b p n gd f : Nat) (g : Gang) (x : Tile) (r : Reads) (h : Gang),
    AtTile s t gid slot k addr g x → r = x.readCodes g.lcyc slot addr [a, b] → h = g.onTile gid (fun _ => r.x) →
    GangBecomes (.sel d a b p n) s t (h.later (opOf g gid slot addr) (g.lcyc + 1)
      (.sreg d (if x.pred p != (n == 1) then nthD 0 r.vals 0 else nthD 0 r.vals 1) r.poison))
    ∧ (x.guard gd n = true → GangBecomes (.pcmp d a b gd n f) s t
      (if r.poison = true ∧ d ≠ 0 then
        (h.later (opOf g gid slot addr) (g.lcyc + 1) (.pred d (pcmpHolds f (nthD 0 r.vals 0) (nthD 0 r.vals 1)))).consume
          (opOf g gid slot addr) 1 g.lcyc 0
      else h.later (opOf g gid slot addr) (g.lcyc + 1) (.pred d (pcmpHolds f (nthD 0 r.vals 0) (nthD 0 r.vals 1)))))
    ∧ (x.guard gd n = true → GangBecomes (.plog d f a b gd n) s t
      ((g.onTile gid (fun _ => x)).later (opOf g gid slot addr) (g.lcyc + 1) (.pred d (plogValue f (x.pred a) (x.pred b)))))
    ∧ (x.guard gd n = false → GangBecomes (.pcmp d a b gd n f) s t g ∧ GangBecomes (.plog d f a b gd n) s t g))

/-- The scalar floating instructions work on bits [31:0] of their sources and write a zero-extended FP32 result; the flags that
the rounding raises are raised with it, at once on a core, at t + 4 on a tile. FFMA adds to the old value of its destination. With
a false guard nothing happens but that a core goes on.
The rounding draw and the FMTR of a core are free values (DESIGN CHOICE, log 14). -/
def Obligations.ScalarFloat : Prop :=
  (∀ (s : State) (c d a b g n f : Nat) (y : AgentCore), AtCore s c → y = s.core c → y.guard g n = false →
    (∀ e ∈ floatRows, CoreBecomes (e.1 d a b g n f) s c y.advance)
    ∧ ∀ i ∈ [Instr.ffma d a b g n f, .fcmp d a b g n f, .fcvt d a g n f], CoreBecomes i s c y.advance)
  ∧ (∀ (s : State) (t gid slot k addr d a b gd n f : Nat) (g : Gang) (x : Tile), AtTile s t gid slot k addr g x →
    x.guard gd n = false → (∀ e ∈ floatRows, GangBecomes (e.1 d a b gd n f) s t g)
    ∧ ∀ i ∈ [Instr.ffma d a b gd n f, .fcmp d a b gd n f, .fcvt d a gd n f], GangBecomes i s t g)
  ∧ (∀ (s : State) (c d a b g n f w : Nat) (y : AgentCore), AtCore s c → y = s.core c → y.guard g n = true →
    w = Config.agentRsd s.tape % 2 ^ 32 →
    (∀ e ∈ floatRows, CoreBecomes (e.1 d a b g n f) s c
      (((y.setReg d (BitVec.ofNat 64 (e.2 f w (low32 (y.reg a)) (low32 (y.reg b))).bits)).raise
        (e.2 f w (low32 (y.reg a)) (low32 (y.reg b))).flags).advance))
    ∧ CoreBecomes (.ffma d a b g n f) s c
      (((y.setReg d (BitVec.ofNat 64
          (fmaFloat .fp32 (Rnd.ofCode f) false w false false (low32 (y.reg d)) (low32 (y.reg a)) (low32 (y.reg b))).bits)).raise
        (fmaFloat .fp32 (Rnd.ofCode f) false w false false (low32 (y.reg d)) (low32 (y.reg a)) (low32 (y.reg b))).flags).advance)
    ∧ CoreBecomes (.fcmp d a b g n f) s c
      (((y.setPred d (floatCompare .fp32 f (low32 (y.reg a)) (low32 (y.reg b))).1).raise
        (floatCompare .fp32 f (low32 (y.reg a)) (low32 (y.reg b))).2).advance)
    ∧ CoreBecomes (.fcvt d a g n f) s c
      (((y.setReg d (fcvt (Config.agentFmtr % 2 ^ 16) f w (y.reg a)).1).raise
        (fcvt (Config.agentFmtr % 2 ^ 16) f w (y.reg a)).2).advance))
  ∧ (∀ (s : State) (t gid slot k addr d a b gd n f w : Nat) (g : Gang) (x : Tile) (o : Origin),
    AtTile s t gid slot k addr g x → x.guard gd n = true → o = opOf g gid slot addr →
    w = rsdBits x.seed.toNat gid slot 0 g.lcyc →
    (∀ (r : Reads) (h : Gang), r = x.readCodes g.lcyc slot addr [a, b] → h = g.onTile gid (fun _ => r.x) →
      (∀ e ∈ floatRows, GangBecomes (e.1 d a b gd n f) s t
        ((h.later o (g.lcyc + 4) (.sreg d (BitVec.ofNat 64
          (e.2 f w (low32 (nthD 0 r.vals 0)) (low32 (nthD 0 r.vals 1))).bits) r.poison)).laterFlags o (g.lcyc + 4)
          (e.2 f w (low32 (nthD 0 r.vals 0)) (low32 (nthD 0 r.vals 1))).flags))
      ∧ GangBecomes (.fcmp d a b gd n f) s t
        ((h.laterPred o g.lcyc (g.lcyc + 4) d
          (floatCompare .fp32 f (low32 (nthD 0 r.vals 0)) (low32 (nthD 0 r.vals 1))).1 r.poison).laterFlags o (g.lcyc + 4)
          (floatCompare .fp32 f (low32 (nthD 0 r.vals 0)) (low32 (nthD 0 r.vals 1))).2))
    ∧ (∀ (r : Reads) (v : Rounded), r = x.readCodes g.lcyc slot addr [d, a, b] →
      v = fmaFloat .fp32 (Rnd.ofCode f) false w false false (low32 (nthD 0 r.vals 0)) (low32 (nthD 0 r.vals 1))
        (low32 (nthD 0 r.vals 2)) →
      GangBecomes (.ffma d a b gd n f) s t
        (((g.onTile gid (fun _ => r.x)).later o (g.lcyc + 4) (.sreg d (BitVec.ofNat 64 v.bits) r.poison)).laterFlags o
          (g.lcyc + 4) v.flags))
    ∧ (∀ (r : Reads) (v : Word × Nat), r = x.readCodes g.lcyc slot addr [a] → v = fcvt x.fmtr f w (nthD 0 r.vals 0) →
      GangBecomes (.fcvt d a gd n f) s t
        (((g.onTile gid (fun _ => r.x)).later o (g.lcyc + 4) (.sreg d v.1 r.poison)).laterFlags o (g.lcyc + 4) v.2)))

/-- LDS and STS on a tile: the address is s(A) plus the scaled offset, taken modulo 2^21, aligned down to the access size and
mapped into the tile's slice. LDS reads it at t + 2 for a result at t + 4; STS writes the low bytes of s(D), with its poison, at
t + 2, and nothing else. A poisoned address is a consumption of point 1, with the address. -/
def Obligations.ScratchOnTile : Prop :=
  ∀ (s : State) (t gid slot k addr d a z off n ea : Nat) (g h : Gang) (x : Tile) (o : Origin) (r v : Reads),
    AtTile s t gid slot k addr g x → o = opOf g gid slot addr → r = x.readCodes g.lcyc slot addr [a] → n = accessSize z →
    ea = alignDown ((nthD 0 r.vals 0 + BitVec.ofInt 64 (sextInt 10 off * (n : Int))).toNat % 2 ^ 21) n →
    v = r.x.readCodes g.lcyc slot addr [d] →
    (h = reading g o r (BitVec.ofNat 64 ea) → GangBecomes (.lds d a z off) s t
      ((h.later o (g.lcyc + 2) (.read 1 (.scratch gid (x.map ea)) n (.toReg d n z (g.lcyc + 4)))).busy o (g.lcyc + 4)))
    ∧ (h = reading g o { r with x := v.x } (BitVec.ofNat 64 ea) → GangBecomes (.sts d a z off) s t
      (h.later o (g.lcyc + 2) (.write 1 (.scratch gid (x.map ea)) (pbytes n (nthD 0 v.vals 0).toNat v.poison))))

/-! ### The control slot, and control on agent cores (01, 07, 25) -/

/-- Control on an agent core: NOP and an untaken branch go on; BR jumps from its own address by the word-scaled displacement;
CALL links the next address in r, which s0 discards, and jumps; RET jumps to the value of its register. -/
def Obligations.ControlOnCore : Prop :=
  ∀ (s : State) (c g n d r a : Nat), AtCore s c →
    CoreBecomes .nop s c { s.core c with pc := (s.core c).pc + 4 }
    ∧ ((s.core c).guard g n = true →
      CoreBecomes (.br g n d) s c { s.core c with pc := (s.core c).pc + BitVec.ofInt 64 (4 * sextInt 21 d) })
    ∧ ((s.core c).guard g n = false → CoreBecomes (.br g n d) s c { s.core c with pc := (s.core c).pc + 4 })
    ∧ CoreBecomes (.call r d) s c
      { (s.core c).setReg r ((s.core c).pc + 4) with pc := (s.core c).pc + BitVec.ofInt 64 (4 * sextInt 19 d) }
    ∧ CoreBecomes (.ret a) s c { s.core c with pc := (s.core c).reg a }

/-- Branches of a tile. BR sets JBASE to the base whether or not its guard is true. A taken BR, CALL or RET sets the branch that is
applied after the bundle's last repeat; CALL writes the address of the bundle after its own to r at t + 1. A target that is not a
multiple of 4 or lies outside the bundle stream, for BR one outside the innermost active loop's START to END, or a branch in a bundle
that is the END of an active loop, is not taken: an illegal-schedule fault and nothing else, so that a CALL then writes no link. -/
def Obligations.BranchesOnTile : Prop :=
  ∀ (s : State) (t gid k addr gd n d r ra : Nat) (g : Gang) (x : Tile) (a : Active) (o : Origin) (v : Reads) (h : Gang),
    AtBundle s t gid k addr g x a → o = opOf g gid 0 addr → v = x.readCodes g.lcyc 0 addr [ra] →
    h = g.onTile gid (fun y => { y with jbase := y.base }) →
    (x.guard gd n = false → GangBecomes (.br gd n d) s t h)
    ∧ (x.guard gd n = true → Taken x addr (addr + 4 * sextInt 21 d) true → GangBecomes (.br gd n d) s t
      (h.onActive o (fun b => { b with branch := some ((addr : Int) + 4 * sextInt 21 d).toNat })))
    ∧ (x.guard gd n = true → ¬Taken x addr (addr + 4 * sextInt 21 d) true → GangBecomes (.br gd n d) s t (h.record o 2 0 g.lcyc 0))
    ∧ (Taken x addr (addr + 4 * sextInt 19 d) false → GangBecomes (.call r d) s t
      ((g.onActive o (fun b => { b with branch := some ((addr : Int) + 4 * sextInt 19 d).toNat })).later o (g.lcyc + 1)
        (.sreg r (BitVec.ofNat 64 a.next) false)))
    ∧ (¬Taken x addr (addr + 4 * sextInt 19 d) false → GangBecomes (.call r d) s t (g.record o 2 0 g.lcyc 0))
    ∧ (Taken v.x addr ((nthD 0 v.vals 0).toNat : Int) false → GangBecomes (.ret ra) s t
      ((reading g o v 0).onActive o (fun b => { b with branch := some (nthD 0 v.vals 0).toNat })))
    ∧ (¬Taken v.x addr ((nthD 0 v.vals 0).toNat : Int) false → GangBecomes (.ret ra) s t ((reading g o v 0).record o 2 0 g.lcyc 0))

/-- LOOP and LOOPS. A count above 0 with fewer than six loops open puts the entry that the bundle pushes: its body starts after the bundle
and ends at END. A count of 0 skips to END, and so does a seventh loop, with an illegal-schedule fault. LOOPS takes its count from a
register; one above 2^32 - 1 is an illegal-schedule fault and counts as 0. -/
def Obligations.LoopsOnTile : Prop :=
  ∀ (s : State) (t gid k addr count endw lb ra : Nat) (g q : Gang) (x : Tile) (a : Active) (o : Origin) (v : Reads) (n : Nat),
    AtBundle s t gid k addr g x a → o = opOf g gid 0 addr → v = x.readCodes g.lcyc 0 addr [ra] → n = (nthD 0 v.vals 0).toNat →
    q = reading g o v 0 →
    (x.loops.length < 6 →
      (0 < count → GangBecomes (.loop count endw lb) s t (g.onActive o (fun b =>
        { b with loop := some { count := count, idx := 0, start := b.next, stop := addr + 4 * endw, lb := lb, ib := 0 } })))
      ∧ GangBecomes (.loop 0 endw lb) s t (g.onActive o (fun b => { b with skipLoop := some (addr + 4 * endw) }))
      ∧ (0 < n → n < 2 ^ 32 → GangBecomes (.loops ra endw lb) s t (q.onActive o (fun b =>
        { b with loop := some { count := n, idx := 0, start := b.next, stop := addr + 4 * endw, lb := lb, ib := 0 } })))
      ∧ (n = 0 → GangBecomes (.loops ra endw lb) s t (q.onActive o (fun b => { b with skipLoop := some (addr + 4 * endw) })))
      ∧ (2 ^ 32 ≤ n → GangBecomes (.loops ra endw lb) s t
        ((q.record o 2 10 g.lcyc 0).onActive o (fun b => { b with skipLoop := some (addr + 4 * endw) }))))
    ∧ (6 ≤ x.loops.length →
      GangBecomes (.loop count endw lb) s t
        ((g.record o 2 9 g.lcyc 0).onActive o (fun b => { b with skipLoop := some (addr + 4 * endw) }))
      ∧ (n < 2 ^ 32 → GangBecomes (.loops ra endw lb) s t
        ((q.record o 2 9 g.lcyc 0).onActive o (fun b => { b with skipLoop := some (addr + 4 * endw) })))
      ∧ (2 ^ 32 ≤ n → GangBecomes (.loops ra endw lb) s t
        (((q.record o 2 10 g.lcyc 0).record o 2 9 g.lcyc 0).onActive o (fun b => { b with skipLoop := some (addr + 4 * endw) }))))

/-- NOP does nothing on a tile. SYNC with K counts at its level, DMR, and its bundle will wait; level 5 on a gang that is not the whole
domain is an illegal-schedule fault and counts at level 4; without K SYNC is an illegal-schedule fault. JOIN passes when its issue cycle
is its encoded distance from JBASE and records a timetable slip otherwise. HALT retires its tile at this cycle. TRAP records a fault of
the debug class with its code. RESYNC outside loops and without K sets the resynchronisation to its register, and is an illegal-schedule
fault otherwise. PHASE on gang identity 0 with no switch pending sets the bank from the next multiple of 256 at or after t + H on, and
records an illegal-schedule fault otherwise.
A SYNC whose K bit is ignored is a NOP beside the header's fault by the model's choice (DESIGN CHOICE, log 30) and is not stated
here. -/
def Obligations.SequencerControl : Prop :=
  ∀ (s : State) (t gid k addr e code ra bank lv : Nat) (g h : Gang) (x : Tile) (a : Active) (o : Origin) (v : Reads),
    AtBundle s t gid k addr g x a → o = opOf g gid 0 addr → v = x.readCodes g.lcyc 0 addr [ra] →
    exec .nop s = .next s
    ∧ (a.k = 1 → (x.dmr = 5 → g.p = s.cfg.packages → g.t = 32 → lv = 5 ∧ h = g) →
      (x.dmr = 5 → ¬(g.p = s.cfg.packages ∧ g.t = 32) → lv = 4 ∧ h = g.record o 2 3 g.lcyc 0) → (x.dmr ≠ 5 → lv = x.dmr ∧ h = g) →
      GangBecomes .sync s t ((h.onTile gid (fun y => { y with syncs := setKey y.syncs lv (look 0 y.syncs lv + 1) })).onActive o
        (fun b => { b with sync := some lv })))
    ∧ (a.k = 0 → GangBecomes .sync s t (g.record o 2 3 g.lcyc 0))
    ∧ ((a.t0 : Int) - x.jbase = e → GangBecomes (.join e) s t g)
    ∧ ((a.t0 : Int) - x.jbase ≠ e → GangBecomes (.join e) s t (g.record o 1 5 g.lcyc (BitVec.ofNat 64 e)))
    ∧ GangBecomes .halt s t ((g.onTile gid (fun y => { y with halted := some g.lcyc })).onActive o (fun b => { b with halt := true }))
    ∧ GangBecomes (.trapInstr code) s t (g.record o 12 code g.lcyc 0)
    ∧ (x.loops = [] → a.k = 0 → GangBecomes (.resync ra) s t
      ((reading g o v 0).onActive o (fun b => { b with resync := some (nthD 0 v.vals 0).toNat })))
    ∧ (x.loops ≠ [] ∨ a.k ≠ 0 → GangBecomes (.resync ra) s t (g.record o 2 3 g.lcyc 0))
    ∧ (gid = 0 → g.phase = none → GangBecomes (.phase bank) s t
      { g with phase := some (bank, (g.lcyc + g.h + 255) / 256 * 256) })
    ∧ (gid ≠ 0 ∨ g.phase.isSome = true → GangBecomes (.phase bank) s t (g.record o 2 3 g.lcyc 0))

/-- FMT changes FMTR at t + 4. SEGCHK passes when the segment's cycle count is that of its signature and so is the CRC, which an entry
with NOCRC does not ask; a count that differs is a control-divergence fault of detail 0, a CRC that differs one of detail 1, a SEG
beyond the signatures one of detail 2. RINGC sets a ring's descriptor at t + 1. DBGB is a NOP that reports nothing while the debugger
has not armed it; armed, it announces a debug hold with ta = t, at t + H in normal mode and at t + 1 in exact-stop mode, and reports
its tag. -/
def Obligations.FormatSegmentRing : Prop :=
  ∀ (s : State) (t gid k addr v seg h base ls clr tag count crc : Nat) (g : Gang) (x : Tile) (a : Active) (o : Origin),
    AtBundle s t gid k addr g x a → o = opOf g gid 0 addr → count = g.lcyc - x.segBase → crc = x.segCrc ^^^ 0xFFFFFFFF →
    GangBecomes (.fmt v) s t (g.later o (g.lcyc + 4) (.fmt v))
    ∧ GangBecomes (.ringc h base ls clr) s t (g.later o (g.lcyc + 1) (.ringc h base (2 ^ ls) (clr == 1)))
    ∧ (∀ e : SegSig, x.segs[seg]? = some e →
      (count % 2 ^ 32 = e.count → (e.nocrc = true ∨ e.crc = crc) → GangBecomes (.segchk seg) s t g)
      ∧ (count % 2 ^ 32 ≠ e.count → GangBecomes (.segchk seg) s t
        (g.record o 10 0 g.lcyc (BitVec.ofNat 64 (crc * 2 ^ 32 + count % 2 ^ 32))))
      ∧ (count % 2 ^ 32 = e.count → e.nocrc = false → e.crc ≠ crc → GangBecomes (.segchk seg) s t
        (g.record o 10 1 g.lcyc (BitVec.ofNat 64 (crc * 2 ^ 32 + count % 2 ^ 32)))))
    ∧ (x.segs[seg]? = none → GangBecomes (.segchk seg) s t
      (g.record o 10 2 g.lcyc (BitVec.ofNat 64 (crc * 2 ^ 32 + count % 2 ^ 32))))
    ∧ (bitAt g.dctl 3 = false → GangBecomes (.dbgb tag) s t g)
    ∧ (bitAt g.dctl 3 = true → ∀ th, th = g.lcyc + (if g.dctl % 8 = 0 then max 1 g.h else 1) → exec (.dbgb tag) s
      = .next ((s.onGang t (fun _ => { g with holds := g.holds ++ [{ cause := 3, ta := g.lcyc, th := th, gid := gid, buf := 0 }] })).emit
          10 t [gid, tag]))

/-- CRGN.OPEN in a quiescent bundle, with fewer than four regions open, opens one: its handler, the loop depth and the next
micro-generation number; deeper than four it records an illegal-schedule fault. A clean CRGN.CLOSE pops the innermost one, and leaves
every region that encloses it open, its older records added to those of the next one out; when a poisoned word was read in it, the
region fails with point 5 and nothing is popped; a region that has failed stays open. In a bundle without Q, and CRGN.CLOSE outside a
region, each is an illegal-schedule fault and nothing else. -/
def Obligations.ContainmentRegions : Prop :=
  ∀ (s : State) (t gid k addr d : Nat) (g : Gang) (x : Tile) (a : Active) (o : Origin),
    AtBundle s t gid k addr g x a → o = opOf g gid 0 addr →
    (a.q = true → x.depth < 4 → GangBecomes (.crgnOpen d) s t (g.onTile gid (fun y =>
      { y with
        regions := setKey y.regions y.depth
          { v := true, failed := false, logged := false, pseen := false, point := 0, ldep := x.loops.length,
            mg := (x.mg + 1) % 2 ^ 16, haddr := (((addr : Int) + 4 * sextInt 21 d) % (2 ^ 32 : Int)).toNat, saved := [] }
        depth := y.depth + 1
        mg := (x.mg + 1) % 2 ^ 16 })))
    ∧ (a.q = true → 4 ≤ x.depth → GangBecomes (.crgnOpen d) s t (g.record o 2 9 g.lcyc 0))
    ∧ (a.q = false → GangBecomes (.crgnOpen d) s t (g.record o 2 0 g.lcyc 0) ∧ GangBecomes .crgnClose s t (g.record o 2 0 g.lcyc 0))
    ∧ (x.depth = 0 → GangBecomes .crgnClose s t (g.record o 2 0 g.lcyc 0))
    ∧ (a.q = true → ∀ e, x.depth = e + 1 →
      ((x.region e).pseen = false → (x.region e).failed = false → GangBecomes .crgnClose s t (g.onTile gid Tile.popRegion))
      ∧ ((x.region e).pseen = true → (x.region e).failed = false → GangBecomes .crgnClose s t (g.onTile gid (fun y =>
        { y with regions := setKey y.regions e { y.region e with failed := true, point := 5 } })))
      ∧ ((x.region e).failed = true → ∃ h, GangBecomes .crgnClose s t h ∧ ∃ y, h.tile gid = some y ∧ y.depth = x.depth
        ∧ ∀ i, y.region i = x.region i)
      ∧ x.popRegion.depth = e ∧ (∀ i, i + 1 < e → x.popRegion.region i = x.region i)
      ∧ (∀ i, e = i + 1 → x.popRegion.region i = { x.region i with saved := mergeSaved (x.region i).saved (x.region e).saved }))

/-- SYSRD of a register that task code may read puts its value at the issue cycle into d at t + 2, LCYC being t itself; SYSWR puts a value
within the register's limits into it at t + 1, and one outside them is an illegal-schedule fault. On a register of device privilege,
WCYC, HLDCYC to QBOUND and DRNLIM among them, SYSRD gives 0 and SYSWR does nothing, both with a privilege fault whose detail is the
register's number. -/
def Obligations.SystemRegistersOnTile : Prop :=
  ∀ (s : State) (t gid k addr d ra r : Nat) (g : Gang) (x : Tile) (a : Active) (o : Origin) (v : Reads),
    AtBundle s t gid k addr g x a → o = opOf g gid 0 addr → v = x.readCodes g.lcyc 0 addr [ra] →
    (sregPrivileged r = false → GangBecomes (.sysrd d r) s t
      (g.later o (g.lcyc + 2) (.sreg d (x.sysReg g.lcyc g.t r) false)))
    ∧ x.sysReg g.lcyc g.t 0x000 = BitVec.ofNat 64 g.lcyc
    ∧ (sregPrivileged r = true ↔ r = 0x001 ∨ (0x00C ≤ r ∧ r ≤ 0x011))
    ∧ (sregPrivileged r = true → GangBecomes (.sysrd d r) s t
      ((g.record o 5 r g.lcyc 0).later o (g.lcyc + 2) (.sreg d 0 false)))
    ∧ (sregPrivileged r = false → sregValueOk r (nthD 0 v.vals 0) = true → GangBecomes (.syswr ra r) s t
      ((reading g o v 0).later o (g.lcyc + 1) (.sysw r (nthD 0 v.vals 0))))
    ∧ (sregPrivileged r = false → sregValueOk r (nthD 0 v.vals 0) = false → GangBecomes (.syswr ra r) s t
      ((reading g o v 0).record o 2 10 g.lcyc 0))
    ∧ (sregPrivileged r = true → GangBecomes (.syswr ra r) s t (g.record o 5 r g.lcyc 0))

/-- TLAUNCH at an address that is aligned to 64 bytes and resolves to device memory posts a task request of its task with this cycle as
its LCYC, its gang identity and the descriptor's place, to the event serialiser; in step mode the request is kept instead. A misaligned
address is an illegal-schedule fault, one that its translation denies a translation fault with the address, a poisoned or unresolved one
a consumption of point 1; none of these posts a request.
The child will enter the one scheduler of the domain (DESIGN CHOICE, log 10). -/
def Obligations.TileLaunch : Prop :=
  ∀ (s q : State) (t gid k addr ra va : Nat) (g h : Gang) (x : Tile) (o : Origin) (v : Reads) (w : Xlat) (loc : DevLoc),
    AtTile s t gid 0 k addr g x → o = opOf g gid 0 addr → v = x.readCodes g.lcyc 0 addr [ra] → va = (nthD 0 v.vals 0).toNat →
    h = g.onTile gid (fun _ => v.x) → w = g.translate v.x va 0 →
    (v.poison = true → GangBecomes (.tlaunch ra) s t (h.consume o 1 g.lcyc (nthD 0 v.vals 0)))
    ∧ (v.poison = false →
      (va % 64 ≠ 0 → GangBecomes (.tlaunch ra) s t (h.record o 2 10 g.lcyc 0))
      ∧ (va % 64 = 0 → w.hold = false →
        (w.place = .dev loc → g.dctl % 8 ≠ 1 → q = s.onGang t (fun _ => h) → exec (.tlaunch ra) s
          = .next (q.arrive { source := 6, task := some t, lcyc := g.lcyc, gid := gid, place := q.tilePlace g gid, act := .launch loc }))
        ∧ (w.place = .dev loc → g.dctl % 8 = 1 → GangBecomes (.tlaunch ra) s t
          { h with launches := g.launches ++ [{ gid := gid, t := g.lcyc, loc := loc }] })
        ∧ (w.place = .denied → GangBecomes (.tlaunch ra) s t (h.record o 4 w.detail g.lcyc (BitVec.ofNat 64 va)))
        ∧ (w.place = .unresolved → GangBecomes (.tlaunch ra) s t (h.consume o 1 g.lcyc (BitVec.ofNat 64 va)))))

/-! ### The vector slots (09, 11) -/

namespace Sys2Proof.Claims
open Machine

/-- The tile as a vector operation of a slot finds it: the operation is counted, and in V0 its lane groups are taken for this
cycle (R126, R169). -/
def vecTile (g : Gang) (x : Tile) (slot : Nat) (v : VOp) : Tile :=
  if slot = 2 then { x.count 0x05 1 with now := { x.nowAt g.lcyc with lanes := v.groups } } else x.count 0x05 1

/-- A vector operation meets no lane group of V0, and its source rings are filled as its words say (R126, R181). -/
def VecMayRun (g : Gang) (x : Tile) (slot : Nat) (v : VOp) : Prop :=
  ¬(slot = 3 ∧ v.groups.any (x.nowAt g.lcyc).lanes.contains = true) ∧ (vecTile g x slot v).badFill v = none

/-- A vector operation at its issue that may run, under a true guard; y is the tile as it finds it, h the gang with that tile. -/
def AtVector (s : State) (t gid slot k addr : Nat) (g : Gang) (x : Tile) (v : VOp) (o : Origin) (y : Tile) (h : Gang) : Prop :=
  AtTile s t gid slot k addr g x ∧ VecMayRun g x slot v ∧ (vecTile g x slot v).guard v.pg v.pn = true
    ∧ o = opOf g gid slot addr ∧ y = vecTile g x slot v ∧ h = g.onTile gid (fun _ => y)

/-- The elementwise operations of two sources: latency, and what becomes of two elements of the destination's type under a draw
(R194 to R197). -/
def vec2Rows : List ((VOp → Instr) × (VOp → Nat) × (VOp → Nat → Nat → Nat → Rounded)) :=
  [ (.vadd, fun v => if v.dt.isFloat then 4 else 2, fun v r a b => if v.dt.isFloat then addFloat v.dt v.mode v.sats r a b
      else fitInt v.dt v.sats (intValue v.dt a + intValue v.dt b)),
    (.vsub, fun v => if v.dt.isFloat then 4 else 2, fun v r a b => if v.dt.isFloat then subFloat v.dt v.mode v.sats r a b
      else fitInt v.dt v.sats (intValue v.dt a - intValue v.dt b)),
    (.vmul, fun v => if v.dt.isFloat then 4 else 2, fun v r a b => if v.dt.isFloat then mulFloat v.dt v.mode v.sats r a b
      else fitInt v.dt v.sats (intValue v.dt a * intValue v.dt b)),
    (.vmin, fun v => if v.dt.isFloat then 4 else 2, fun v _ a b => minMax v.dt false a b),
    (.vmax, fun v => if v.dt.isFloat then 4 else 2, fun v _ a b => minMax v.dt true a b),
    (.vmulh, fun _ => 2, fun v _ a b => plain (wrapInt v.dt.width (intValue v.dt a * intValue v.dt b / (2 ^ v.dt.width : Nat)))),
    (.vand, fun _ => 2, fun _ _ a b => plain (a &&& b)), (.vor, fun _ => 2, fun _ _ a b => plain (a ||| b)),
    (.vxor, fun _ => 2, fun _ _ a b => plain (a ^^^ b)),
    (.vandn, fun _ => 2, fun v _ a b => plain (a &&& (2 ^ v.dt.width - 1 - b))) ]

/-- The elementwise operations of one source (R195 to R198, R201). -/
def vec1Rows : List ((VOp → Instr) × (VOp → Nat) × (VOp → Nat → Nat → Rounded)) :=
  [ (.vabs, fun v => if v.dt.isFloat then 4 else 2, fun v _ a => if v.dt.isFloat then plain (a % v.dt.signBit)
      else fitInt v.dt v.sats ((intValue v.dt a).natAbs : Int)),
    (.vneg, fun v => if v.dt.isFloat then 4 else 2, fun v _ a => if v.dt.isFloat then plain (a ^^^ v.dt.signBit)
      else fitInt v.dt v.sats (-(intValue v.dt a))),
    (.vnot, fun _ => 2, fun v _ a => plain (2 ^ v.dt.width - 1 - a)),
    (.vclz, fun _ => 2, fun v _ a => plain (v.dt.width - bitLen a)),
    (.vpopc, fun _ => 2, fun v _ a => plain (popCount v.dt.width a)),
    (.vcvt, fun _ => 4, fun v r a => convert v.at_ v.dt v.mode v.sats r a) ]

/-- The special functions, all with latency 10 (R222, R223). -/
def specialRows : List ((VOp → Instr) × Special) :=
  [ (.vexp2, .exp2), (.vlog2, .log2), (.vrcp, .rcp), (.vrsq, .rsq), (.vsqrt, .sqrt), (.vtanh, .tanh), (.vsig, .sig),
    (.vsin, .sin), (.vcos, .cos) ]

/-- The shifts: what a count makes of an element (R198). -/
def vecShiftRows : List ((VOp → Instr) × (VOp → Nat → Nat → Nat)) :=
  [ (.vshl, fun v a n => a * 2 ^ n % 2 ^ v.dt.width), (.vshr, fun _ a n => a / 2 ^ n),
    (.vsha, fun v a n => wrapInt v.dt.width (sextInt v.dt.width a / (2 ^ n : Nat))) ]

end Sys2Proof.Claims

/-- No vector operation but ADVR gets past its gates. In V1, a lane group that V0 took in this cycle is an illegal-schedule fault of
detail 4 (R187). A source ring whose fill is not the one that the word expects is a timetable-slip fault of detail 2 with the expected
fill, whatever the guard (R181); a strided or indexed operation that then also finds the gather port taken records that overlap too
(R215). Either way the tile only counts the operation and records the fault, and no result is written. Under a false guard an
operation that passes them writes nothing (R188); a strided or indexed one still takes the gather port.
That a V0 operation with a wrong fill has taken its lane groups is the model's choice (DESIGN CHOICE, log 26). -/
def Obligations.VectorGates : Prop :=
  ∀ (s : State) (t gid slot k addr opc sf : Nat) (g : Gang) (x y : Tile) (i : Instr) (v : VOp) (ok : Bool) (o : Origin) (h : Gang),
    AtTile s t gid slot k addr g x → vectorRow i = some (opc, sf, v, ok) → i ≠ .advr v → o = opOf g gid slot addr →
    y = vecTile g x slot v → h = g.onTile gid (fun _ => y) →
    (slot = 3 → v.groups.any (x.nowAt g.lcyc).lanes.contains = true → GangBecomes i s t
      (g.onTile gid (fun _ => (x.count 0x05 1).record 2 4 slot addr g.lcyc 0)))
    ∧ (¬(slot = 3 ∧ v.groups.any (x.nowAt g.lcyc).lanes.contains = true) → ∀ f, y.badFill v = some f → ∀ q,
      q = g.onTile gid (fun _ => y.record 1 2 slot addr g.lcyc (BitVec.ofNat 64 f)) →
      (i ∉ [Instr.vlds v, .vsts v, .vgath v, .vscat v] ∨ (∀ e, x.gatherPort = some e → e < g.lcyc + 3) → GangBecomes i s t q)
      ∧ (i ∈ [Instr.vlds v, .vsts v, .vgath v, .vscat v] → ∀ e, x.gatherPort = some e → g.lcyc + 3 ≤ e →
        GangBecomes i s t (q.record o 2 8 g.lcyc 0)))
    ∧ (∀ f, y.badFill v = some f → ∃ d ∈ [v.oa, v.ob, v.oc], d.kind = 1 ∧ f = d.fill ∧ d.fill % (y.ring d.reg).size ≠ (y.ring d.reg).fill)
    ∧ (y.badFill v = none → ∀ d ∈ [v.oa, v.ob, v.oc], d.kind = 1 → d.fill % (y.ring d.reg).size = (y.ring d.reg).fill)
    ∧ (VecMayRun g x slot v → y.guard v.pg v.pn = false →
      (i ∉ [Instr.vlds v, .vsts v, .vgath v, .vscat v] → GangBecomes i s t h)
      ∧ (i ∈ [Instr.vlds v, .vsts v, .vgath v, .vscat v] → (∀ e, y.gatherPort = some e → e < g.lcyc + 3) →
        GangBecomes i s t ((h.onTile gid (fun _ => { y with gatherPort := some (g.lcyc + 6) })).busy o (g.lcyc + 6))))

/-- The elementwise operations, under a true guard: each enabled element of the destination is f of the elements of the sources,
the others are kept, or zeroed under ZM; the entry at the destination's place is written at t + L with the flags raised then,
and nothing else of the tile changes before. -/
def Obligations.VectorElementwise : Prop :=
  ∀ (s : State) (t gid slot k addr : Nat) (g : Gang) (x : Tile) (v : VOp) (o : Origin) (y : Tile) (h : Gang),
    AtVector s t gid slot k addr g x v o y h →
    (∀ e ∈ vec2Rows, GangBecomes (e.1 v) s t (h.vmap y o v k (e.2.1 v) [⟨v.oa, v.at_.width⟩, ⟨v.ob, v.bt.width⟩] v.dt
      (fun r a => e.2.2 v r (argAt a 0) (argAt a 1))))
    ∧ (∀ e ∈ vec1Rows, GangBecomes (e.1 v) s t (h.vmap y o v k (e.2.1 v) [⟨v.oa, v.at_.width⟩] v.dt
      (fun r a => e.2.2 v r (argAt a 0))))
    ∧ (∀ e ∈ vecShiftRows, (v.ob.kind = 0 → GangBecomes (e.1 v) s t (h.vmap y o v k 2 [⟨v.oa, v.at_.width⟩] v.dt
        (fun _ a => plain (e.2 v (argAt a 0) (v.aux % 64)))))
      ∧ (v.ob.kind ≠ 0 → GangBecomes (e.1 v) s t (h.vmap y o v k 2 [⟨v.oa, v.at_.width⟩, ⟨v.ob, v.bt.width⟩] v.dt
        (fun _ a => plain (e.2 v (argAt a 0) (argAt a 1 % v.dt.width))))))
    ∧ (∀ e ∈ specialRows, GangBecomes (e.1 v) s t (h.vmap y o v k 10 [⟨v.oa, v.at_.width⟩] v.dt
      (fun r a => e.2.apply v.dt v.mode v.sats r (argAt a 0))))

/-- The multiply-adds: c + a b, -c + a b in VFMS, c - a b in VFNMA, exact before one rounding, at t + 4 for floating types and t + 2
for integers; a 16-bit source of a wider form is widened first. VCMP writes, for each enabled element, the outcome of its condition to
every mask bit of the element's bytes, at t + 4 for floating types and t + 2 for integers; a poisoned element that takes part is a
consumption of point 1. VSEL takes the element of OA where the mask of OC has the bit of its lowest byte, else that of OB, at t + 2 and
without flags. -/
def Obligations.VectorMultiplyAddCompareSelect : Prop :=
  ∀ (s : State) (t gid slot k addr : Nat) (g : Gang) (x : Tile) (v : VOp) (o : Origin) (y : Tile) (h : Gang) (a b c : Source),
    AtVector s t gid slot k addr g x v o y h → a = ⟨v.oa, v.at_.width⟩ → b = ⟨v.ob, v.bt.width⟩ → c = ⟨v.oc, v.dt.width⟩ →
    (v.dt.isFloat = true → ∀ wa wb : Nat → Rounded, (∀ e, wa e = widen v.at_ v.dt e) → (∀ e, wb e = widen v.bt v.dt e) →
      ∀ f : Bool → Bool → Nat → List Nat → Rounded, (∀ m n r l, f m n r l =
        { fmaFloat v.dt v.mode v.sats r m n (argAt l 2) (wa (argAt l 0)).bits (wb (argAt l 1)).bits with
          flags := (fmaFloat v.dt v.mode v.sats r m n (argAt l 2) (wa (argAt l 0)).bits (wb (argAt l 1)).bits).flags
            ||| (wa (argAt l 0)).flags ||| (wb (argAt l 1)).flags }) →
      GangBecomes (.vfma v) s t (h.vmap y o v k 4 [a, b, c] v.dt (f false false))
      ∧ GangBecomes (.vfms v) s t (h.vmap y o v k 4 [a, b, c] v.dt (f true false))
      ∧ GangBecomes (.vfnma v) s t (h.vmap y o v k 4 [a, b, c] v.dt (f false true)))
    ∧ (v.dt.isFloat = false → ∀ p d : List Nat → Int, (∀ l, p l = intValue v.dt (argAt l 0) * intValue v.dt (argAt l 1)) →
      (∀ l, d l = intValue v.dt (argAt l 2)) →
      GangBecomes (.vfma v) s t (h.vmap y o v k 2 [a, b, c] v.dt (fun _ l => fitInt v.dt v.sats (d l + p l)))
      ∧ GangBecomes (.vfms v) s t (h.vmap y o v k 2 [a, b, c] v.dt (fun _ l => fitInt v.dt v.sats (-d l + p l)))
      ∧ GangBecomes (.vfnma v) s t (h.vmap y o v k 2 [a, b, c] v.dt (fun _ l => fitInt v.dt v.sats (d l + -p l))))
    ∧ (∀ (n due : Nat) (rd : Tile × List (List Lane)) (rs : List (Option LaneOut)) (m : Nat × Nat) (q : Gang),
      n = v.w / v.at_.width → due = g.lcyc + (if v.at_.isFloat then 4 else 2) → rd = y.readSources g.lcyc o v k n [a, b] →
      rs = y.elements o v v.at_.width n rd.2 (fun _ l => vcmpElem v.at_ (v.aux % 8) (argAt l 0) (argAt l 1)) →
      m = maskWrite v v.at_.width 0 rs (0, 0) →
      q = (if outPoison rs then ((h.onTile gid (fun _ => rd.1)).onTile gid Tile.sawPoison).consume o 1 g.lcyc 0
        else h.onTile gid (fun _ => rd.1)) →
      GangBecomes (.vcmp v) s t ((q.later o due (.mask v.od.reg (BitVec.ofNat 128 m.1) (BitVec.ofNat 128 m.2))).laterFlags o due
        (outFlags rs)))
    ∧ (∀ e u : Nat, v.at_.isFloat = false →
      (vcmpElem v.at_ 0 e u = plain (if intValue v.at_ e = intValue v.at_ u then 1 else 0))
      ∧ (vcmpElem v.at_ 1 e u = plain (if intValue v.at_ e = intValue v.at_ u then 0 else 1))
      ∧ (vcmpElem v.at_ 2 e u = plain (if intValue v.at_ e < intValue v.at_ u then 1 else 0))
      ∧ (vcmpElem v.at_ 3 e u = plain (if intValue v.at_ e < intValue v.at_ u then 0 else 1))
      ∧ (vcmpElem v.at_ 4 e u = plain (if intValue v.at_ e ≤ intValue v.at_ u then 1 else 0))
      ∧ (vcmpElem v.at_ 5 e u = plain (if intValue v.at_ e ≤ intValue v.at_ u then 0 else 1)))
    ∧ (∀ (n : Nat) (rd : Tile × List (List Lane)) (rs : List (Option LaneOut)),
      n = v.w / v.dt.width → rd = y.readSources g.lcyc o v k n [a, b] →
      rs = ((List.range n).zip (byElement n rd.2)).map (fun e =>
        if y.enabled v v.dt.width e.1 then
          some ⟨plain (nthD ⟨0, false⟩ e.2 (if y.maskBit v v.oc.reg v.dt.width e.1 then 0 else 1)).val,
            (nthD ⟨0, false⟩ e.2 (if y.maskBit v v.oc.reg v.dt.width e.1 then 0 else 1)).poison⟩
        else none) →
      GangBecomes (.vsel v) s t (((h.onTile gid (fun _ => rd.1)).sawPoison o (outPoison rs)).laterEntry o (g.lcyc + 2)
        (y.dstEntry k v.od) (ringWrite v v.dt.width 0 rs EntryWrite.empty)))

/-- MX blocks, scalings, reductions, the scan and the selection of the k largest. VQMX gives each block of 32 elements the scale of its
enabled finite elements, 255 when one of them is not finite, and each enabled element its code under it, at t + 6, the rest of the
entry's bits 0; VDQMX the value of each code under its block's scale, at t + 4. VSCL multiplies by a power of two, the elements of a
floating type, or the scale bytes of MX blocks, at t + 4. The reductions put one value into element 0 or a scalar register at t + 8: an
integer sum is exact before it is fitted; VRARG gives the lowest index of a NaN, else that of the extreme. VSCAN gives each enabled
element the running value, at t + 8; VTOPK packs, in each block, the k enabled elements of largest magnitude with the mask of their
places, at t + 8.
Which flags a NaN of a block raises and where a scan starts are the model's reading (DEDUCED, log 25). -/
def Obligations.VectorBlocksAndReductions : Prop :=
  (∀ (s : State) (t gid slot k addr : Nat) (g : Gang) (x : Tile) (v : VOp) (o : Origin) (y : Tile) (h : Gang)
      (ls : List (Option Lane)) (sl : Nat × Nat),
    AtVector s t gid slot k addr g x v o y h → ls = y.source o v k → sl = (y.entry (y.srcEntry v k v.oa)).slice v →
    (∀ (n b : Nat) (z : Tile) (l : List Lane) (lanes : Nat → List (Nat × Lane)) (sc : Nat → Nat × Nat) (bad : Nat → Bool)
        (codes : Nat → List (Option LaneOut)) (r : EntryWrite × Nat × Bool),
      n = v.w / v.at_.width → b = n / 32 → (z, l) = y.readOperand g.lcyc o v k v.oa v.at_.width n →
      (∀ j, lanes j = y.blockLanes v v.at_.width j l) → (∀ j, sc j = blockScale v.at_ v.dt ((lanes j).map (·.2.val))) →
      (∀ j, bad j = (lanes j).any (·.2.poison)) →
      (∀ j, codes j = (upFrom (32 * j) 32).map (fun i => (find? (lanes j) i).map (fun q =>
        ⟨quantElem v.at_ v.dt (sc j).1 v.mode (y.draw o i) q.val, bad j⟩))) →
      r = (List.range b).foldl (fun a j =>
        ((ringWrite v v.dt.width (32 * j) (codes j) a.1).put (256 * v.lgb + v.w - 64 + 8 * j) 8 (sc j).1 (bad j),
          a.2.1 ||| (sc j).2 ||| outFlags (codes j), a.2.2 || bad j)) (EntryWrite.empty, 0, false) →
      GangBecomes (.vqmx v) s t ((((h.onTile gid (fun _ => z)).sawPoison o r.2.2).laterEntry o (g.lcyc + 6) (y.dstEntry k v.od)
        ((r.1.put (256 * v.lgb + 32 * v.dt.width * b) (v.w - 64 - 32 * v.dt.width * b) 0 false).put
          (256 * v.lgb + v.w - 64 + 8 * b) (64 - 8 * b) 0 false)).laterFlags o (g.lcyc + 6) r.2.1))
    ∧ (∀ rs : List (Option LaneOut), rs = (List.range (v.w / v.dt.width)).map (fun i =>
        if y.enabled v v.dt.width i then
          some ⟨fromMx v.at_ v.dt v.mode v.sats (y.draw o i) (sl.1 / 2 ^ (v.w - 64 + 8 * (i / 32)) % 256) (laneOf sl v.at_.width i).val,
            (laneOf sl v.at_.width i).poison || marked sl.2 (v.w - 64 + 8 * (i / 32)) 8⟩
        else none) →
      GangBecomes (.vdqmx v) s t (((h.sawPoison o (outPoison rs)).laterEntry o (g.lcyc + 4) (y.dstEntry k v.od)
        (ringWrite v v.dt.width 0 rs EntryWrite.empty)).laterFlags o (g.lcyc + 4) (outFlags rs)))
    ∧ (∀ (z : Tile) (d : Scalar) (q : Gang), (v.ob.kind = 3 → (z, d) = y.readCode v.ob.reg g.lcyc slot addr) →
      (v.ob.kind ≠ 3 → z = y ∧ d = ⟨BitVec.ofInt 64 (sextInt 8 (bitsOf v.aux 15 8)), false⟩) → q = h.onTile gid (fun _ => z) →
      (v.dt.isFloat = true → isMxElem v.td = false → ∀ rs,
        rs = y.elements o v v.dt.width (v.w / v.dt.width)
          [(y.readOperand g.lcyc o v k v.oa v.dt.width (v.w / v.dt.width)).2.map (fun l => ⟨l.val, l.poison || d.poison⟩)]
          (fun r a => scaleFloat v.dt v.mode v.sats r d.val.toInt (argAt a 0)) →
        GangBecomes (.vscl v) s t (((q.sawPoison o (outPoison rs)).laterEntry o (g.lcyc + 4) (y.dstEntry k v.od)
          (ringWrite v v.dt.width 0 rs EntryWrite.empty)).laterFlags o (g.lcyc + 4) (outFlags rs)))
      ∧ (v.dt.isFloat = false ∨ isMxElem v.td = true → ∀ r marks, r = scaleMx v.w (v.aux % 16) d.val.toInt sl.1 →
        marks = (if d.poison then (List.range (v.aux % 16)).foldl (fun m j => m ||| 2 ^ ((v.w - 64 + 8 * j) / 32)) sl.2 else sl.2) →
        GangBecomes (.vscl v) s t (((q.sawPoison o (marks != 0)).laterEntry o (g.lcyc + 4) (y.dstEntry k v.od)
          { v := r.1 * 2 ^ (256 * v.lgb), en := (2 ^ v.w - 1) * 2 ^ (256 * v.lgb), poison := marks * 2 ^ (8 * v.lgb) }).laterFlags o
            (g.lcyc + 4) r.2)))
    ∧ GangBecomes (.vrsum v) s t (h.single y o v k 8 (sumReduce v (y.draw o) ls) (lanesPoison ls))
    ∧ GangBecomes (.vrmax v) s t (h.single y o v k 8 (extremeReduce v true ls) (lanesPoison ls))
    ∧ GangBecomes (.vrmin v) s t (h.single y o v k 8 (extremeReduce v false ls) (lanesPoison ls))
    ∧ GangBecomes (.vrarg v) s t (h.single y o v k 8 (argReduce v ls) (lanesPoison ls))
    ∧ (∀ rs, rs = scanAll v (y.draw o) ls → GangBecomes (.vscan v) s t
      (((h.sawPoison o (outPoison rs)).laterEntry o (g.lcyc + 8) (y.dstEntry k v.od)
        (ringWrite v v.dt.width 0 rs EntryWrite.empty)).laterFlags o (g.lcyc + 8) (outFlags rs)))
    ∧ (∀ (lanes : Nat → List (Nat × Lane)) (r : EntryWrite × Bool),
      (∀ j, lanes j = y.blockLanes v v.dt.width j (y.readOperand g.lcyc o v k v.oa v.dt.width (v.w / v.dt.width)).2) →
      r = (List.range (v.w / v.dt.width / 32)).foldl (fun a j =>
        (a.1.put (256 * v.lgb + 32 * v.dt.width * j) (32 * v.dt.width) (topkBlock v.dt (v.aux % 64) (lanes j))
          ((lanes j).any (·.2.poison)), a.2 || (lanes j).any (·.2.poison))) (EntryWrite.empty, false) →
      GangBecomes (.vtopk v) s t ((h.sawPoison o r.2).laterEntry o (g.lcyc + 8) (y.dstEntry k v.od) r.1)))
  ∧ (∀ (v : VOp) (draw : Nat → Nat) (ls : List (Option Lane)) (src dst : ElemType) (xs : List Nat) (m : Rnd) (r e b y : Nat) (w : Bool)
      (p : Bool) (l : Lane),
    (v.dt.isFloat = false → sumReduce v draw ls
      = fitInt v.dt v.sats ((ls.filterMap (fun q => q.map (fun a => intValue v.at_ a.val))).foldl (· + ·) 0))
    ∧ (ls.all (·.isNone) = true → v.dt.isFloat = true → sumReduce v draw ls = plain 0)
    ∧ (∀ i q, ls[i]? = some (some q) → isNanBits v.at_ q.val = true →
      (∀ j a, j < i → ls[j]? = some (some a) → isNanBits v.at_ a.val = false) → (argReduce v ls).bits = i)
    ∧ (ls.all (·.isNone) = true → argReduce v ls = plain (2 ^ v.dt.width - 1)
      ∧ extremeReduce v w ls = plain (identityOf v.at_ (if w then 1 else 2)))
    ∧ ((∃ a ∈ xs, finiteOf src a = none) → (blockScale src dst xs).1 = 255)
    ∧ ((∀ a ∈ xs, finiteOf src a ≠ none) → blockScale src dst xs = (mxScale dst (absMax (xs.filterMap (finiteOf src))), 0))
    ∧ quantElem src dst 255 m r b = plain 0
    ∧ scanAll v draw (some l :: ls) = some ⟨plain l.val, l.poison⟩ :: scanRun v draw 1 l.val l.poison ls
    ∧ scanAll v draw (none :: ls) = none :: scanRun v draw 1 (identityOf v.dt (v.aux % 4)) false ls
    ∧ scanRun v draw e y p (none :: ls) = none :: scanRun v draw (e + 1) y p ls
    ∧ scanRun v draw e y p (some l :: ls) = some ⟨scanStep v (draw e) y l.val, p || l.poison⟩
      :: scanRun v draw (e + 1) (scanStep v (draw e) y l.val).bits (p || l.poison) ls)

/-- The movers of elements: VXPND spreads the elements of OA over the enabled places, VCOUNT counts enabled elements that are not
zero bits, VIOTA numbers the enabled places from AUX on, VBRD puts one element or a scalar into every enabled place, VEXTR takes
one element to a scalar register; all at t + 2 and without flags. VNOP does nothing, and ADVR moves the head and the tail of its
ring at t + 1 under a true guard, whatever the fill. -/
def Obligations.VectorMoves : Prop :=
  (∀ (s : State) (t gid slot k addr n : Nat) (g : Gang) (x : Tile) (v : VOp) (o : Origin) (y : Tile) (h : Gang) (l : List Lane)
      (z : Tile),
    AtVector s t gid slot k addr g x v o y h → n = v.w / v.dt.width → (z, l) = y.readOperand g.lcyc o v k v.oa v.dt.width n →
    GangBecomes (.vxpnd v) s t (h.moveElems y o v k ((countBelow 0 (y.enables v v.dt.width n)).map (fun e =>
      if e.1 then some ⟨plain (nthD ⟨0, false⟩ l e.2).val, (nthD ⟨0, false⟩ l e.2).poison⟩ else none)))
    ∧ GangBecomes (.vcount v) s t (h.single y o v k 2
      (plain ((y.source o v k).filter (fun l => match l with | some q => q.val != 0 | none => false)).length)
      (lanesPoison (y.source o v k)))
    ∧ GangBecomes (.viota v) s t (h.moveElems y o v k ((countBelow 0 (y.enables v v.dt.width n)).map (fun e =>
      if e.1 then some ⟨plain ((v.aux % 2 ^ 32 + e.2) % 2 ^ v.dt.width), false⟩ else none)))
    ∧ GangBecomes (.vbrd v) s t ((h.onTile gid (fun _ => z)).moveElems y o v k ((y.enables v v.dt.width n).map (fun e =>
      if e then some ⟨plain (nthD ⟨0, false⟩ l (if v.oa.kind = 1 then v.aux % 128 else 0)).val,
        (nthD ⟨0, false⟩ l (if v.oa.kind = 1 then v.aux % 128 else 0)).poison⟩ else none)))
    ∧ GangBecomes (.vextr v) s t (h.single y o v k 2 (plain (nthD ⟨0, false⟩ l (v.aux % 128)).val)
      (nthD ⟨0, false⟩ l (v.aux % 128)).poison))
  ∧ (∀ s : State, exec .vNop s = .next s)
  ∧ (∀ (s : State) (t gid slot k addr : Nat) (g : Gang) (x : Tile) (v : VOp) (o : Origin),
    AtTile s t gid slot k addr g x → o = opOf g gid slot addr →
    (x.guard v.pg v.pn = true → GangBecomes (.advr v) s t
      ((g.onTile gid (fun y => y.count 0x05 1)).later o (g.lcyc + 1)
        (.advr v.od.reg (sextInt 8 (v.aux % 256)) (sextInt 8 (bitsOf v.aux 15 8)))))
    ∧ (x.guard v.pg v.pn = false → GangBecomes (.advr v) s t (g.onTile gid (fun y => y.count 0x05 1))))

/-- Vector loads and stores of scratch. VLD reads the W bits at its address, VLDB one element for every enabled one, each once, at t + 3
for a result at t + 6; VST writes its enabled elements at t + 3; MX operands take their scale bytes from a second address. V1 may not
meet a bank that V0 uses in the cycle: it then only records a bank fault of detail 7 with the offset, due at t + 3. VLDS, VSTS, VGATH
and VSCAT take the gather port from t + 3 to t + 6, so that one that overlaps an earlier one is a NOP with an illegal-schedule fault of
detail 8; with the port free they load for t + 8 or store at t + 4 the enabled elements at their strided or indexed addresses that
their banks serve, at most four lines of a bank in order of elements; a poisoned index is a consumption of point 1. -/
def Obligations.VectorMemory : Prop :=
  ∀ (s : State) (t gid slot k addr : Nat) (g : Gang) (x : Tile) (v : VOp) (o : Origin) (y : Tile) (h : Gang),
    AtVector s t gid slot k addr g x v o y h →
    (∀ (q : Gang) (z u : Tile) (ra : Word) (ea w : Nat) (now : Cycle) (ens : List Bool) (sl : Nat × Nat),
      (q, z, ra) = h.vmemRead y o v k → q.tile gid = some u → now = u.nowAt g.lcyc → ea = vmemAddr (vmemBase v k ra) 32 →
      w = v.dt.width → ens = z.enables v w (v.w / w) → sl = (z.entry (z.srcEntry v k v.oa)).slice v →
      (∀ (i : Instr) (reads : List Nat) (pieces : List (Nat × Nat)) (en : Nat),
        (i = .vld v ∧ isMxElem v.td = false ∧ reads = (List.range (v.w / 8)).map (fun j => z.map (ea + j))
            ∧ pieces = (((List.range ens.length).zip ens).filter (·.2)).flatMap (fun e => elementPieces z v w (ea + w / 8 * e.1) e.1)
            ∧ en = elementBits v w ens)
          ∨ (i = .vld v ∧ isMxElem v.td = true ∧ pieces = mxPieces z v w ea (vmemAddr (vmemScale v k ra) 1)
            ∧ reads = pieces.map (·.1) ∧ en = (2 ^ v.w - 1) * 2 ^ (256 * v.lgb))
          ∨ (i = .vldb v ∧ reads = (List.range (w / 8)).map (fun j => z.map (vmemAddr (vmemBase v k ra) (w / 8) + j))
            ∧ pieces = (((List.range ens.length).zip ens).filter (·.2)).flatMap (fun e =>
              elementPieces z v w (vmemAddr (vmemBase v k ra) (w / 8)) e.1)
            ∧ en = elementBits v w ens) →
        ((slot = 3 → ∀ a ∈ reads, now.reads.contains (bankOf a) = false) → GangBecomes i s t
          (((q.onTile gid (fun p => { p with
            now := if slot = 2 then { now with reads := dedupNat (reads.map bankOf) } else now })).later o (g.lcyc + 3)
              (.vread reads pieces (z.dstEntry k v.od) (BitVec.ofNat 1024 en) (g.lcyc + 6))).busy o (g.lcyc + 6)))
        ∧ (slot = 3 → ∀ a, reads.find? (fun a => now.reads.contains (bankOf a)) = some a → GangBecomes i s t
          (q.later o (g.lcyc + 3) (.trapFault 2 7 (BitVec.ofNat 64 a)))))
      ∧ (∀ (bytes : List (Nat × PByte)) (p : Gang) (r : Tile) (used : Cycle),
        (isMxElem v.ta = false → bytes = (((List.range (z.enables v v.at_.width (v.w / v.at_.width)).length).zip
            (z.enables v v.at_.width (v.w / v.at_.width))).filter (·.2)).flatMap (fun e =>
              elementBytes z v.at_.width (ea + v.at_.width / 8 * e.1) (laneOf sl v.at_.width e.1))) →
        (isMxElem v.ta = true → bytes = (mxPieces z v v.at_.width ea (vmemAddr (vmemScale v k ra) 1)).map (fun e =>
          (e.1, { b := BitVec.ofNat 8 (sl.1 / 2 ^ (e.2 - 256 * v.lgb) % 256), p := marked sl.2 (e.2 - 256 * v.lgb) 8 }))) →
        p = q.sawPoison o (bytes.any (·.2.p)) → p.tile gid = some r → used = r.nowAt g.lcyc →
        ((slot = 3 → ∀ a ∈ bytes, used.writes.contains (bankOf a.1) = false) → GangBecomes (.vst v) s t
          ((p.onTile gid (fun e => { e with
            now := if slot = 2 then { used with writes := dedupNat ((bytes.map (·.1)).map bankOf) } else used })).later o (g.lcyc + 3)
              (.put (lastBytes bytes))))
        ∧ (slot = 3 → ∀ a, (bytes.map (·.1)).find? (fun a => used.writes.contains (bankOf a)) = some a → GangBecomes (.vst v) s t
          (p.later o (g.lcyc + 3) (.trapFault 2 7 (BitVec.ofNat 64 a))))))
    ∧ (∀ i ∈ [Instr.vlds v, .vsts v, .vgath v, .vscat v], ∀ e, y.gatherPort = some e → g.lcyc + 3 ≤ e →
      GangBecomes i s t (h.record o 2 8 g.lcyc 0))
    ∧ ((∀ e, y.gatherPort = some e → e < g.lcyc + 3) → ∀ (y' z : Tile) (h' q : Gang) (ra : Word),
      y' = { y with gatherPort := some (g.lcyc + 6) } →
      h' = (h.onTile gid (fun _ => y')).busy o (g.lcyc + 6) → (q, z, ra) = h'.vmemRead y' o v k →
      GangBecomes (.vlds v) s t (q.gatherLoad z o v k v.dt.width (stridedAddrs v k ra v.dt.width (v.w / v.dt.width))
        (z.enables v v.dt.width (v.w / v.dt.width)))
      ∧ GangBecomes (.vsts v) s t (q.gatherStore z o v.at_.width (stridedAddrs v k ra v.at_.width (v.w / v.at_.width))
        (z.enables v v.at_.width (v.w / v.at_.width)) (z.readOperand q.lcyc o v k v.oa v.at_.width (v.w / v.at_.width)).2)
      ∧ (∀ (m n : Nat) (idx : List Lane) (addrs : List Nat), m = max v.dt.width v.bt.width → n = v.w / m →
        idx = (z.readOperand q.lcyc o v k v.ob v.bt.width n).2 → addrs = indexedAddrs v k ra v.dt.width idx →
        GangBecomes (.vgath v) s t ((q.indexPoison o idx addrs (z.enables v m n)).gatherLoad z o v k v.dt.width addrs (z.enables v m n)))
      ∧ (∀ (m n : Nat) (idx : List Lane) (addrs : List Nat), m = max v.at_.width v.bt.width → n = v.w / m →
        idx = (z.readOperand q.lcyc o v k v.ob v.bt.width n).2 → addrs = indexedAddrs v k ra v.at_.width idx →
        GangBecomes (.vscat v) s t ((q.indexPoison o idx addrs (z.enables v m n)).gatherStore z o v.at_.width addrs
          (z.enables v m n) (z.readOperand q.lcyc o v k v.oa v.at_.width n).2)))
    ∧ (∀ (q : Gang) (z : Tile) (w : Nat) (addrs : List Nat) (ens : List Bool) (lanes : List Lane) (live : List (Nat × Nat))
        (keep : List (Nat × Bool × Lane)) (served : List Bool),
      live = (((List.range ens.length).zip (addrs.zip ens)).filter (fun e => e.2.2)).map (fun e => (e.1, e.2.1)) →
      keep = (addrs.zip (ens.zip lanes)).filter (fun e => e.2.1) →
      (∀ ps f, served = serveLines [] (live.map (fun e => z.map e.2)) →
        ps = ((live.zip served).filter (·.2)).flatMap (fun e => elementPieces z v w e.1.2 e.1.1) →
        ((live.map (·.2)).zip served).find? (fun e => !e.2) = f →
        (f = none → q.gatherLoad z o v k w addrs ens
          = ((q.later o (q.lcyc + 3) (.vread (ps.map (·.1)) ps (z.dstEntry k v.od) (BitVec.ofNat 1024 (elementBits v w ens))
              (q.lcyc + 8))).busy o (q.lcyc + 8)))
        ∧ (∀ a b, f = some (a, b) → q.gatherLoad z o v k w addrs ens
          = (((q.later o (q.lcyc + 3) (.trapFault 2 7 (BitVec.ofNat 64 (z.map a)))).later o (q.lcyc + 3)
              (.vread (ps.map (·.1)) ps (z.dstEntry k v.od) (BitVec.ofNat 1024 (elementBits v w ens)) (q.lcyc + 8))).busy o
                (q.lcyc + 8))))
      ∧ (∀ bs f, served = serveLines [] (keep.map (fun e => z.map e.1)) →
        bs = ((keep.zip served).filter (·.2)).flatMap (fun e => elementBytes z w e.1.1 e.1.2.2) →
        ((keep.map (·.1)).zip served).find? (fun e => !e.2) = f →
        (f = none → q.gatherStore z o w addrs ens lanes
          = (q.sawPoison o (bs.any (·.2.p))).later o (q.lcyc + 4) (.put (lastBytes bs)))
        ∧ (∀ a b, f = some (a, b) → q.gatherStore z o w addrs ens lanes
          = ((q.later o (q.lcyc + 4) (.trapFault 2 7 (BitVec.ofNat 64 (z.map a)))).sawPoison o (bs.any (·.2.p))).later o (q.lcyc + 4)
              (.put (lastBytes bs)))))

/-- The crossbar: each X operation moves the sixteen-bit ports of the entry at the head of its source ring to the whole entry at the
tail of its destination ring, at t + 2, with the marks of their words: XROT by 2n ports, XSHUF and XTRN by their unit permutations,
XBRD word j to every word, XPERM by a pattern whose valid entries name each destination once (otherwise an illegal-schedule fault of
detail 5 and nothing). XPAT sets a pattern register at t + 2 from an entry; a poisoned one is a consumption of point 1. A NOP does
nothing. -/
def Obligations.Crossbar : Prop :=
  (∀ s : State, exec .xNop s = .next s)
  ∧ (∀ (s : State) (t gid slot k addr hd hs n mode p j : Nat) (g : Gang) (x : Tile) (o : Origin) (e : VEntry)
      (moved : List (Nat × Nat) → Gang),
    AtTile s t gid slot k addr g x → o = opOf g gid slot addr → e = x.entry ((x.ring hs).at (((x.ring hs).head : Int) + k)) →
    (∀ rs, moved rs = (g.sawPoison o ((routeEntry e rs).2 != 0)).later o (g.lcyc + 2)
      (.vent ((x.ring hd).at (((x.ring hd).tail : Int) + k)) (routeEntry e rs).1 (BitVec.allOnes 1024) (routeEntry e rs).2)) →
    GangBecomes (.xrot hd hs n) s t (moved ((List.range 64).map (fun q => (q, (q + 2 * n) % 64))))
    ∧ GangBecomes (.xshuf hd hs mode p) s t (moved
      ((List.range 64).map (fun q => (q, shuffleUnit mode (64 / 2 ^ p) (q / 2 ^ p) * 2 ^ p + q % 2 ^ p))))
    ∧ GangBecomes (.xtrn hd hs p) s t (moved
      ((List.range 64).map (fun q => (q, (q / 4 ^ p % (8 / 2 ^ p) * (8 / 2 ^ p) + q / 4 ^ p / (8 / 2 ^ p)) * 4 ^ p + q % 4 ^ p))))
    ∧ GangBecomes (.xbrd hd hs j) s t (moved ((List.range 64).map (fun q => (2 * j + q % 2, q))))
    ∧ ((dedupNat ((patternTargets (x.pattern n)).map (·.2))).length = (patternTargets (x.pattern n)).length →
      GangBecomes (.xperm hd hs n) s t (moved (patternTargets (x.pattern n))))
    ∧ ((dedupNat ((patternTargets (x.pattern n)).map (·.2))).length ≠ (patternTargets (x.pattern n)).length →
      GangBecomes (.xperm hd hs n) s t (g.record o 2 5 g.lcyc 0))
    ∧ (∀ q : Gang, q = (if e.poison = 0 then g else (g.onTile gid Tile.sawPoison).consume o 1 g.lcyc 0) →
      GangBecomes (.xpat hs n) s t (q.later o (g.lcyc + 2) (.xpat n ((List.range 64).map (fun q =>
        e.bits.toNat / 2 ^ (16 * q) % 2 ^ 16 / 2 ^ 15 * 64 + e.bits.toNat / 2 ^ (16 * q) % 2 ^ 16 % 64))))))


/-! ### The matrix and factorisation slots (17) -/

/-- The control words of the matrix array. With no nest pending, MCFG, MNEST, MNEST.CLR, MMUL and MMULG read their registers at
issue and write the shadow set at t + 1; with one pending each is an illegal-schedule fault of detail 8 and writes nothing. MCFG of
word 3 lands whatever is pending. A level's count outside 1 to 65,536, a set bit 63, or a stride on level 0 is a fault of detail 10.
MMUL and MMULG of a group without banks are a fault; a poisoned index entry of MMULG is a consumption of point 1. A NOP does nothing.
MGO of a valid set, with no nest active, starts the nest at t + 12 and its accumulator group is in use until 3 cycles after its last
step; a pending nest refuses it with detail 8, an invalid set with detail 10. With a nest active, the new one waits and starts at the
later of t + 12 and the cycle after the active one's last step. A set is valid when its types are a pair that may be multiplied, its
edges are within the pair's limits, its scales are as the pair asks, its group has banks, reserved bits are 0, and with scales its pass
length is a multiple of 32. -/
def Obligations.MatrixShadowSetAndGo : Prop :=
  (∀ s : State, exec .mNop s = .next s)
  ∧ (∀ (s : State) (t gid k addr n lv a b c ag hd cnt v : Nat) (g q : Gang) (x : Tile) (o : Origin) (r r2 r3 : Reads)
      (es : List VEntry),
    AtTile s t gid 5 k addr g x → o = opOf g gid 5 addr →
    r = x.readCodes g.lcyc 5 addr [a] → r2 = x.readCodes g.lcyc 5 addr [a, b] → r3 = x.readCodes g.lcyc 5 addr [a, b, c] →
    es = (List.range 6).map (fun (q : Nat) => x.entry ((x.ring hd).at (((x.ring hd).head : Int) + (q : Int)))) →
    cnt = (nthD 0 r2.vals 0).toNat → v = (nthD 0 r2.vals 1).toNat →
    (x.nestPending = none →
      (n ≠ 3 → GangBecomes (.mcfg n a) s t ((reading g o r 0).later o (g.lcyc + 1) (.shadow (.mxc n (nthD 0 r.vals 0)))))
      ∧ (1 ≤ cnt → cnt ≤ 65536 → v < 2 ^ 63 → (lv = 0 → v = 0) → GangBecomes (.mnest lv a b) s t
          ((reading g o r2 0).later o (g.lcyc + 1) (.shadow (.level lv
            { count := cnt, sa := sextInt 21 (bitsOf v 62 42), sb := sextInt 21 (bitsOf v 41 21), sc := sextInt 21 (bitsOf v 20 0) }))))
      ∧ (cnt = 0 ∨ 65536 < cnt ∨ 2 ^ 63 ≤ v ∨ (lv = 0 ∧ v ≠ 0) → GangBecomes (.mnest lv a b) s t
          ((reading g o r2 0).record o 2 10 g.lcyc 0))
      ∧ GangBecomes .mnestClr s t (g.later o (g.lcyc + 1) (.shadow .clear))
      ∧ (x.group ag ≠ [] → GangBecomes (.mmul a b c ag) s t
        ((reading g o r3 0).later o (g.lcyc + 1) (.shadow (.op 1 ((nthD 0 r3.vals 0).toNat % 2 ^ 21)
          ((nthD 0 r3.vals 1).toNat % 2 ^ 21) (nthD 0 r3.vals 2).toNat ag []))))
      ∧ (x.group ag ≠ [] → (q = if es.any (fun e => e.poison != 0) then
            ((reading g o r3 0).onTile gid Tile.sawPoison).consume o 1 g.lcyc 0 else reading g o r3 0) →
        GangBecomes (.mmulg a b c ag hd) s t (q.later o (g.lcyc + 1) (.shadow (.op 2 ((nthD 0 r3.vals 0).toNat % 2 ^ 21)
          ((nthD 0 r3.vals 1).toNat % 2 ^ 21) (nthD 0 r3.vals 2).toNat ag
          (es.flatMap (fun e => (List.range 64).map (fun i => e.bits.toNat / 2 ^ (16 * i) % 65536))))))))
    ∧ GangBecomes (.mcfg 3 a) s t ((reading g o r 0).later o (g.lcyc + 1) (.shadow (.mxc 3 (nthD 0 r.vals 0))))
    ∧ (x.group ag = [] → ∀ i ∈ [Instr.mmul a b c ag, .mmulg a b c ag hd], GangBecomes i s t (g.record o 2 0 g.lcyc 0))
    ∧ (x.nestPending.isSome = true → (∀ i ∈ [Instr.mnest lv a b, .mnestClr, .mcfg 0 a, .mcfg 1 a, .mcfg 2 a],
        GangBecomes i s t (g.record o 2 8 g.lcyc 0))
      ∧ (x.group ag ≠ [] → ∀ i ∈ [Instr.mmul a b c ag, .mmulg a b c ag hd], GangBecomes i s t (g.record o 2 8 g.lcyc 0))))
  ∧ (∀ (s : State) (t gid k addr : Nat) (g : Gang) (x : Tile) (o : Origin) (n : NestSet) (w : Nest),
    AtTile s t gid 5 k addr g x → o = opOf g gid 5 addr → n = x.nestShadow →
    (x.nestPending = none → n.valid (x.group n.ag).length = true → x.nest = none →
      w = { set := n, t0 := g.lcyc + 12, mgo := g.lcyc, addr := addr, steps := n.passes * n.k0, dropped := false } →
      GangBecomes .mgo s t (((g.onTile gid (fun y => y.useGroup n.ag (w.t0 + w.steps - 1 + 3))).later o (g.lcyc + 1)
        (.copyNest w)).busy o (w.t0 + w.steps - 1 + 3)))
    ∧ (∀ a : Nest, x.nestPending = none → n.valid (x.group n.ag).length = true → x.nest = some a →
      w = { set := n, t0 := max (g.lcyc + 12) (a.t0 + a.steps - 1 + 1), mgo := g.lcyc, addr := addr, steps := n.passes * n.k0,
            dropped := false } →
      GangBecomes .mgo s t ((g.onTile gid (fun y => { y.useGroup n.ag (w.t0 + w.steps - 1 + 3) with nestPending := some w })).busy o
        (w.t0 + w.steps - 1 + 3)))
    ∧ (x.nestPending.isSome = true → GangBecomes .mgo s t (g.record o 2 8 g.lcyc 0))
    ∧ (x.nestPending = none → n.valid (x.group n.ag).length = false → GangBecomes .mgo s t (g.record o 2 10 g.lcyc 0)))
  ∧ (∀ (n : NestSet) (banks : Nat), n.valid banks = true ↔ ∃ m k sc, mulPair n.ta n.tb = some (m, k, sc) ∧ n.kind ≠ 0 ∧ banks ≠ 0
    ∧ (sc = 0 → n.sca = false ∧ n.scb = false) ∧ (sc = 1 → n.sca = true ∧ n.scb = true) ∧ 1 ≤ n.me ∧ n.me ≤ m ∧ 1 ≤ n.ne ∧ n.ne ≤ k
    ∧ n.mxc0.toNat % 2 ^ 36 = 0 ∧ n.mxc1.toNat < 2 ^ 42 ∧ n.mxc2.toNat < 2 ^ 42 ∧ (n.sca = true ∨ n.scb = true → n.k0 % 32 = 0))

/-- Accumulator groups. ABALLOC of a free group takes the lowest free banks at t + 1 when the tile's bound allows them, else it is a
fault of detail 9; ABFREE of a group returns its banks at t + 1, and one that is in use is a fault of detail 8; MZERO clears the words of
NB + 1 logical banks of a held group at t + 1. On a group without banks ABFREE and MZERO are a fault. -/
def Obligations.AccumulatorGroups : Prop :=
  ∀ (s : State) (t gid k addr ag count bank nb : Nat) (g : Gang) (x : Tile) (o : Origin) (held free : List Nat),
    AtTile s t gid 5 k addr g x → o = opOf g gid 5 addr → held = x.groups.flatMap (·.2) →
    free = (List.range 512).filter (fun b => !held.contains b) →
    (x.group ag = [] → count ≤ free.length → held.length + count ≤ x.accBound →
      GangBecomes (.aballoc ag count) s t (g.later o (g.lcyc + 1) (.banks ag (free.take count))))
    ∧ (x.group ag ≠ [] ∨ free.length < count ∨ x.accBound < held.length + count →
      GangBecomes (.aballoc ag count) s t (g.record o 2 9 g.lcyc 0))
    ∧ (x.group ag ≠ [] → x.groupInUse ag g.lcyc = false → GangBecomes (.abfree ag) s t (g.later o (g.lcyc + 1) (.unbank ag)))
    ∧ (x.group ag ≠ [] → x.groupInUse ag g.lcyc = true → GangBecomes (.abfree ag) s t (g.record o 2 8 g.lcyc 0))
    ∧ (x.group ag ≠ [] → GangBecomes (.mzero ag bank nb) s t (g.later o (g.lcyc + 1) (.mzero ag bank (nb + 1))))
    ∧ (x.group ag = [] → GangBecomes (.abfree ag) s t (g.record o 2 0 g.lcyc 0)
        ∧ GangBecomes (.mzero ag bank nb) s t (g.record o 2 0 g.lcyc 0))

/-- MLDACC and MSTACC of 1 to 16,384 lines, with the group held and the accumulator path free: line q is read at t + 1 + q for a write
at t + 3 + q, and path and group are taken through the last write; another number of lines is a fault of detail 10. MCHK, whose edges
lie in 1 to 384, reads its words at t + 2 and takes the path through its last line. With the path busy each is a fault of detail 8, on
a group without banks one of detail 0. -/
def Obligations.AccumulatorMoves : Prop :=
  ∀ (s : State) (t gid k addr a l c ag bank : Nat) (g h : Gang) (x : Tile) (o : Origin) (r rc : Reads) (base n me ne due : Nat),
    AtTile s t gid 5 k addr g x → o = opOf g gid 5 addr →
    r = x.readCodes g.lcyc 5 addr [a, l] → rc = x.readCodes g.lcyc 5 addr [a, c] → me = x.nestShadow.me → ne = x.nestShadow.ne →
    n = (nthD 0 r.vals 1).toNat →
    (x.group ag ≠ [] → x.pathBusy g.lcyc = false →
      (base = alignDown (nthD 0 r.vals 0).toNat 64 → h = reading g o r (BitVec.ofNat 64 base) →
        (1 ≤ n → n ≤ 16384 → GangBecomes (.mldacc a l ag bank) s t (((List.range n).foldl (fun g' q => g'.later o (g'.lcyc + 1 + q)
            (.read 4 (.scratch gid (x.map (base + 64 * q))) 64 (.toAcc ag (2048 * bank + 64 * q) (g'.lcyc + 3 + q)))) h).takePath o ag
              (g.lcyc + 2 + n))
          ∧ GangBecomes (.mstacc a l ag bank) s t (((List.range n).foldl (fun g' q => g'.later o (g'.lcyc + 1 + q)
            (.accGet ag (2048 * bank + 64 * q) (x.map (base + 64 * q)) (g'.lcyc + 3 + q))) h).takePath o ag (g.lcyc + 2 + n)))
        ∧ (n = 0 ∨ 16384 < n → ∀ i ∈ [Instr.mldacc a l ag bank, .mstacc a l ag bank], GangBecomes i s t (h.record o 2 10 g.lcyc 0)))
      ∧ (base = alignDown (nthD 0 rc.vals 0).toNat 64 → h = reading g o rc (BitVec.ofNat 64 base) →
        1 ≤ me → me ≤ 384 → 1 ≤ ne → ne ≤ 384 → due = g.lcyc + 12 + max me ne →
        GangBecomes (.mchk a c ag) s t
          ((h.later o (g.lcyc + 2) (.mchk ag (nthD 0 rc.vals 1).toNat me ne base due)).takePath o ag
            (due + (ceilDiv (4 * (me + ne)) 64 - 1) / 32)))
      ∧ (me = 0 ∨ 384 < me ∨ ne = 0 ∨ 384 < ne → GangBecomes (.mchk a c ag) s t (g.record o 2 10 g.lcyc 0)))
    ∧ (x.group ag ≠ [] → x.pathBusy g.lcyc = true → ∀ i ∈ [Instr.mldacc a l ag bank, .mstacc a l ag bank, .mchk a c ag],
      GangBecomes i s t (g.record o 2 8 g.lcyc 0))
    ∧ (x.group ag = [] → ∀ i ∈ [Instr.mldacc a l ag bank, .mstacc a l ag bank, .mchk a c ag],
      GangBecomes i s t (g.record o 2 0 g.lcyc 0))

/-- The factorisations and the triangular solution: with the unit free, valid descriptors, a held group and, for MFLU and MFCH, a
usable pivot threshold, the unit is taken until the instruction's end cycle E. MPERM takes it too and reads row i at t + 2 + i. With
the unit occupied each is a fault of detail 8; a descriptor out of its limits, or an unusable threshold, is one of detail 10, a group
without banks one of detail 0, and MPERM of scratch with the accumulator path occupied one of detail 8. -/
def Obligations.Factorisations : Prop :=
  ∀ (s : State) (t gid k addr ag ra rb up tr u inv w : Nat) (g h h2 : Gang) (x : Tile) (o : Origin) (r r2 : Reads) (d b : TileDesc),
    AtTile s t gid 5 k addr g x → o = opOf g gid 5 addr →
    r = x.readCodes g.lcyc 5 addr [ra] → r2 = x.readCodes g.lcyc 5 addr [ra, rb] → h = reading g o r 0 → h2 = reading g o r2 0 →
    (x.unitBusy g.lcyc = false → TileDesc.ofWord (nthD 0 r.vals 0).toNat = some d →
      (x.group ag ≠ [] →
        (∀ p, d.ok 0 = true → x.pivotThreshold = some p →
          GangBecomes (.mflu ag ra) s t (h.startFactor o { Factor.new 1 ag d TileDesc.none o with pthr := p })
          ∧ GangBecomes (.mfch ag ra) s t (h.startFactor o { Factor.new 2 ag d TileDesc.none o with pthr := p }))
        ∧ (d.ok 1 = true → GangBecomes (.mfqr ag ra) s t
          (h.startFactor o { Factor.new 3 ag d TileDesc.none o with pthr := x.pivotThreshold.getD 0 }))
        ∧ (∀ f : Factor, 1 ≤ d.edge → d.edge ≤ 64 →
          f = { Factor.new 5 ag d TileDesc.none o with
            scratch := false, words := w + 1, up := inv == 1, rows := List.replicate d.edge []
            perm := (List.range 64).map (fun i => look i x.perm i) } →
          GangBecomes (.mpermAcc ag ra inv w) s t
            ((List.range d.edge).foldl (fun g' i => g'.later o (g'.lcyc + 2 + i) (.permGet i)) (h.startFactor o f))))
      ∧ (d.ok 0 = false ∨ (x.group ag ≠ [] ∧ x.pivotThreshold = none) → GangBecomes (.mflu ag ra) s t (h.record o 2 10 g.lcyc 0)
        ∧ GangBecomes (.mfch ag ra) s t (h.record o 2 10 g.lcyc 0))
      ∧ (d.ok 1 = false → GangBecomes (.mfqr ag ra) s t (h.record o 2 10 g.lcyc 0))
      ∧ (d.edge = 0 ∨ 64 < d.edge → ∀ i ∈ [Instr.mpermAcc ag ra inv w, .mpermScratch ra inv w],
        GangBecomes i s t (h.record o 2 10 g.lcyc 0))
      ∧ (x.group ag = [] → (d.ok 0 = true → GangBecomes (.mflu ag ra) s t (h.record o 2 0 g.lcyc 0)
          ∧ GangBecomes (.mfch ag ra) s t (h.record o 2 0 g.lcyc 0))
        ∧ (d.ok 1 = true → GangBecomes (.mfqr ag ra) s t (h.record o 2 0 g.lcyc 0))
        ∧ (1 ≤ d.edge → d.edge ≤ 64 → GangBecomes (.mpermAcc ag ra inv w) s t (h.record o 2 0 g.lcyc 0))))
    ∧ (x.unitBusy g.lcyc = false → TileDesc.ofWord (nthD 0 r.vals 0).toNat = none →
      ∀ i ∈ [Instr.mflu ag ra, .mfch ag ra, .mfqr ag ra, .mpermAcc ag ra inv w, .mpermScratch ra inv w],
        GangBecomes i s t (h.record o 2 10 g.lcyc 0))
    ∧ (∀ f : Factor, x.unitBusy g.lcyc = false → TileDesc.ofWord (nthD 0 r.vals 0).toNat = some d → 1 ≤ d.edge → d.edge ≤ 64 →
      f = { Factor.new 5 0 d TileDesc.none o with
        scratch := true, words := w + 1, up := inv == 1, rows := List.replicate d.edge []
        perm := (List.range 64).map (fun i => look i x.perm i) } →
      (x.pathBusy g.lcyc = false → GangBecomes (.mpermScratch ra inv w) s t
        ((List.range d.edge).foldl (fun g' i => (x.rowPieces (d.at i 0) (4 * (w + 1))).foldl (fun g'' p =>
          g''.later o (g''.lcyc + 2 + i) (.read 4 (.scratch gid p.1) p.2 (.toRow i))) g') (h.startFactor o f)))
      ∧ (x.pathBusy g.lcyc = true → GangBecomes (.mpermScratch ra inv w) s t (h.record o 2 8 g.lcyc 0)))
    ∧ (x.unitBusy g.lcyc = false → TileDesc.ofWord (nthD 0 r2.vals 0).toNat = some d →
      TileDesc.ofWord (nthD 0 r2.vals 1).toNat = some b →
      (d.ok 0 = true → b.ok 0 = true → x.group ag ≠ [] → GangBecomes (.mtrs ag ra rb up tr u) s t (h2.startFactor o
        { Factor.new 4 ag d b o with up := up == 1, tr := tr == 1, unit := u == 1 }))
      ∧ (d.ok 0 = true → b.ok 0 = true → x.group ag = [] → GangBecomes (.mtrs ag ra rb up tr u) s t (h2.record o 2 0 g.lcyc 0))
      ∧ (d.ok 0 = false ∨ b.ok 0 = false → GangBecomes (.mtrs ag ra rb up tr u) s t (h2.record o 2 10 g.lcyc 0)))
    ∧ (x.unitBusy g.lcyc = false → TileDesc.ofWord (nthD 0 r2.vals 0).toNat = none ∨ TileDesc.ofWord (nthD 0 r2.vals 1).toNat = none →
      GangBecomes (.mtrs ag ra rb up tr u) s t (h2.record o 2 10 g.lcyc 0))
    ∧ (x.unitBusy g.lcyc = true → ∀ i ∈ [Instr.mflu ag ra, .mfch ag ra, .mfqr ag ra, .mtrs ag ra rb up tr u, .mpermAcc ag ra inv w,
        .mpermScratch ra inv w], GangBecomes i s t (g.record o 2 8 g.lcyc 0))

/-! ### The D slot (15) -/

namespace Sys2Proof.Claims
open Machine

/-- A D-slot instruction at its issue with its buffer number, below the limit of 1,024 operations in flight of its tile (R274): y is
the tile as it finds it and h the gang with that tile. -/
def AtD (s : State) (t gid k addr buf : Nat) (g : Gang) (x : Tile) (o : Origin) (y : Tile) (h : Gang) : Prop :=
  AtTile s t gid 6 k addr g x ∧ x.gid = gid ∧ x.dCount g.lcyc + s.pendingDeliveries t gid g.lcyc < 1024
    ∧ o = { opOf g gid 6 addr with buf := buf } ∧ y = { x with dEnds := x.dEnds.filter (fun e => g.lcyc ≤ e) }
    ∧ h = g.onTile gid (fun _ => y)

/-- A D-slot operation has read registers: rd is what it read, q the gang and v the tile after it, a poisoned source consumed at the
operation with its address (R416, R423). -/
def Read (h q : Gang) (v : Tile) (o : Origin) (rd : Reads) (at_ : Nat) : Prop :=
  q = reading h o rd (BitVec.ofNat 64 at_) ∧ q.tile o.gid = some v

/-- A channel is bound to a k register other than n (R282). -/
def BoundElsewhere (x : Tile) (n ch : Nat) : Prop := ∃ k, k < 8 ∧ k ≠ n ∧ ((x.bound k).chs = ch ∨ (x.bound k).chr = ch)

/-- CHBIND cannot bind a channel to k register n: its mode or its element size is not that of R282, or another k register has it. -/
def BadBind (x : Tile) (n ch mode : Nat) : Prop :=
  ch < 64 ∧ ((x.chan ch).mode ≠ mode ∨ (x.chan ch).esz ≠ 0 ∨ BoundElsewhere x n ch)

/-- The ATOM instructions of an old value and one operand, with their operation numbers (R288). -/
def atomRows : List ((Nat → Nat → Nat → Nat → Nat → Instr) × Nat) :=
  [ (.atomAdd, 0), (.atomAnd, 1), (.atomOr, 2), (.atomXor, 3), (.atomMin, 4), (.atomMax, 5), (.atomMinn, 6), (.atomMaxn, 7),
    (.atomSwap, 8) ]

/-- The ATOM instructions of a fixed width (R288, R289). -/
def atomFixedRows : List ((Nat → Nat → Nat → Nat → Instr) × Nat) :=
  [ (.atomFadd, 10), (.atomArv, 11), (.atomBreg, 12), (.atomBcpl, 13) ]

end Sys2Proof.Claims

/-- With 1,024 operations in flight, every instruction of the D slot but its NOP is an illegal-schedule fault of detail 9 and does
nothing else; a TARM is stated of a tile without an arm of this very cycle, as every tile is when it issues its one D-slot
instruction of the cycle. -/
def Obligations.DataSlotFull : Prop :=
  ∀ (s : State) (t gid k addr buf d r a b c n m hi hv it e w : Nat) (g : Gang) (x : Tile),
    AtTile s t gid 6 k addr g x → x.gid = gid → 1024 ≤ x.dCount g.lcyc + s.pendingDeliveries t gid g.lcyc →
    (∀ i ∈ [Instr.xfer buf d r a b n, .xferr buf d r a b n c m, .rld buf d a b n r, .rst buf d a b n r, .chsend buf a b n,
        .chrecv buf a b n, .chbind buf b n r, .sacc buf a hi hv it n m e w, .shist buf a hi it n m, .ctrsnap buf a,
        .atomCas buf d a b c w, .snap buf d n, .genq buf d n, .tpost buf hi a b n, .trecv buf hi a b n, .tstat buf hi d n]
          ++ atomRows.map (fun f => f.1 buf d a b w) ++ atomFixedRows.map (fun f => f.1 buf d a b),
      GangBecomes i s t (g.record { opOf g gid 6 addr with buf := buf } 2 9 g.lcyc 0))
    ∧ ((∀ q ∈ x.arms, q.issue ≠ g.lcyc) →
      GangBecomes (.tarm buf hi a n) s t (g.record { opOf g gid 6 addr with buf := buf } 2 9 g.lcyc 0))

/-- RLD and RST, with λ the latency to the endpoint of the access. The address is the sum of its register and its offset, aligned to
its size. RLD of device memory reads at t + λ + 66 for a result at t + 2λ + 132, RLD of a scratch slice at t + max(1, λ) for a result
λ + 2 later; RST writes the low bytes of its register, with their poison, at t + λ + 66 or t + max(1, λ), and a poisoned store to device
memory, or an unresolved address, is a consumption of point 2. A denied access keeps its cycles and is a translation fault with the
address; RLD then gives 0. A NOP does nothing.
Hops that the configuration does not list are free, and an access without an endpoint has latency 0 (DESIGN CHOICE, log 5). -/
def Obligations.SingleAccesses : Prop :=
  (∀ s : State, exec .dNop s = .next s)
  ∧ ∀ (s : State) (t gid k addr buf d a sp z off va n l p due : Nat) (g h q q2 u : Gang) (x y v : Tile) (o : Origin) (rd rv : Reads)
      (w : Xlat),
    AtD s t gid k addr buf g x o y h → rd = y.readCodes g.lcyc 6 addr [a] → n = accessSize z →
    va = alignDown (nthD 0 rd.vals 0 + BitVec.ofInt 64 (sextInt 20 off)).toNat n → Read h q v o rd va →
    p = g.lcyc + (if sp = 1 then max 1 l else l + 66) →
    (w = q.locate v sp va 0 → l = s.cfg.lambdaOpt q (some (q.endOf v.gid)) w.port →
      due = (if sp = 1 then p + l + 2 else g.lcyc + 2 * l + 132) → u = ((q.refetch o w).flit o w.port).inFlight o due →
      (w.place ≠ .denied → GangBecomes (.rld buf d a sp z off) s t
        (((u.later o p (.read 4 w.place n (.toReg d n z due))).reaches o w.place p).charge o n n))
      ∧ (w.place = .denied → GangBecomes (.rld buf d a sp z off) s t
        ((u.record o 4 w.detail g.lcyc (BitVec.ofNat 64 va)).later o due (.sreg d 0 false))))
    ∧ (rv = v.readCodes g.lcyc 6 addr [d] → q2 = q.onTile gid (fun _ => rv.x) → w = q2.locate rv.x sp va 1 →
      l = s.cfg.lambdaOpt q2 (some (q2.endOf v.gid)) w.port → u = ((q2.refetch o w).flit o w.port).inFlight o p →
      (w.place ≠ .denied → w.place ≠ .unresolved → rv.poison = false ∨ sp ≠ 2 → GangBecomes (.rst buf d a sp z off) s t
        (((u.charge o n n).later o p (.write 4 w.place (pbytes n (nthD 0 rv.vals 0).toNat rv.poison))).reaches o w.place p))
      ∧ (w.place ≠ .denied → w.place = .unresolved ∨ (rv.poison = true ∧ sp = 2) → GangBecomes (.rst buf d a sp z off) s t
        ((((u.charge o n n).consume o 2 g.lcyc (BitVec.ofNat 64 va)).later o p
          (.write 4 w.place (pbytes n (nthD 0 rv.vals 0).toNat rv.poison))).reaches o w.place p))
      ∧ (w.place = .denied → GangBecomes (.rst buf d a sp z off) s t (u.record o 4 w.detail g.lcyc (BitVec.ofNat 64 va))))

/-- XFER moves NB + 1 lines: line j is read from its place r cycles on and written w cycles on, with λ the latency to the source and μ
the one from source to destination: r is λ + 66 for device memory and max(1, λ) for a scratch slice, plus j; w adds 66 for a source
in device memory, and μ + 66 or max(1, μ). The first denied side traps at its cycle; an unresolved destination is a consumption of
point 2. The buffer is charged for the lines that are not denied. XFERR does the same and puts the updates of its record behind
the last line: its start at λ + 66, its completion at the last line's λ + 66 or one later, an arrival one after that; a denied record is
a translation fault, an unresolved one a consumption.
Hops that the configuration does not list are free, and an access without an endpoint has latency 0 (DESIGN CHOICE, log 5). -/
def Obligations.Transfers : Prop :=
  ∀ (s : State) (t gid k addr buf d r dsp ssp nb b arv d0 s0 : Nat) (g h q q1 q2 q3 q4 : Gang) (x y v : Tile) (o : Origin) (rd : Reads)
      (bs : List Beat),
    AtD s t gid k addr buf g x o y h → d0 = alignDown (nthD 0 rd.vals 0).toNat 64 → s0 = alignDown (nthD 0 rd.vals 1).toNat 64 →
    Read h q v o rd d0 → bs = (List.range (nb + 1)).map (q.beat s.cfg v dsp ssp d0 s0) →
    q1 = bs.foldl (fun u e => ((((((u.refetch o e.src).refetch o e.dst).later o e.r (.read 4 e.src.place 64
        (.toBeat e.dst.place e.w (e.src.port.getD (q.endOf v.gid)) (e.dst.port.getD (q.endOf v.gid))))).reaches o e.src.place e.r).reaches
          o e.dst.place e.w).busy o e.w)) q →
    q2 = (match firstFault (bs.flatMap Beat.faults) with
      | some f => q1.later o f.1 (.trapFault 4 f.2.1 (BitVec.ofNat 64 f.2.2))
      | none => q1) →
    q3 = (match bs.find? (fun e => e.dst.place == .unresolved) with
      | some e => q2.consume o 2 g.lcyc (BitVec.ofNat 64 e.dva)
      | none => q2) →
    q4 = q3.charge o (64 * (bs.filter (fun e : Beat => !e.src.denied)).length)
      (64 * (bs.filter (fun e : Beat => !e.dst.denied)).length) →
    (rd = y.readCodes g.lcyc 6 addr [d, r] → GangBecomes (.xfer buf d r dsp ssp nb) s t (q4.inFlight o (maxOf (bs.map Beat.w))))
    ∧ (∀ (last : Beat) (va l pr pc : Nat) (w : Xlat) (u : Gang), rd = y.readCodes g.lcyc 6 addr [d, r, b] → bs.getLast? = some last →
      va = alignDown (nthD 0 rd.vals 2).toNat 16 → w = (q4.busy o (maxOf (bs.map Beat.w))).translate v va 2 →
      u = (q4.busy o (maxOf (bs.map Beat.w))).refetch o w → l = s.cfg.lambdaOpt u (some (u.endOf v.gid)) w.port →
      pr = u.lcyc + l + 66 → pc = max (last.w + s.cfg.lambdaOpt u last.dst.port w.port + 66) (pr + 1) →
      (∀ loc : DevLoc, w.place = .dev loc → GangBecomes (.xferr buf d r dsp ssp nb b arv) s t
        ((u.later o pr (.barrier { kind := 0, n := nb + 1, loc := loc } ((pc, { kind := 1, n := nb + 1, loc := loc })
          :: (if arv = 1 then [(pc + 1, { kind := 2, n := 1, loc := loc })] else [])) none 0)).inFlight o (pc + arv)))
      ∧ (w.place = .unresolved → GangBecomes (.xferr buf d r dsp ssp nb b arv) s t
        ((u.consume o 2 u.lcyc (BitVec.ofNat 64 va)).inFlight o (maxOf (bs.map Beat.w))))
      ∧ (w.place = .denied → GangBecomes (.xferr buf d r dsp ssp nb b arv) s t
        ((u.record o 4 w.detail u.lcyc (nthD 0 rd.vals 2)).inFlight o (maxOf (bs.map Beat.w)))))
    ∧ (∀ (e : Beat) (j l m : Nat), j ≤ nb → e = nthD e bs j → l = s.cfg.lambdaOpt q (some (q.endOf v.gid)) e.src.port →
      m = s.cfg.lambdaOpt q e.src.port e.dst.port →
      e.sva = (s0 + 64 * j) % 2 ^ 64 ∧ e.dva = (d0 + 64 * j) % 2 ^ 64 ∧ e.src = q.locate v ssp e.sva 0
        ∧ e.dst = q.locate v dsp e.dva 1 ∧ e.r = q.lcyc + (if ssp = 2 then l + 66 else max 1 l) + j
        ∧ e.w = e.r + (if ssp = 2 then 66 else 0) + (if dsp = 2 then m + 66 else max 1 m))

/-- Channels. CHSEND of an outgoing channel reads its element beat by beat from t + 1 on for a push at t + m + 1; CHRECV of an incoming
one pops the head element at t and writes its beats from t + 1 on; on an empty FIFO it is a timetable slip of detail 3. The element's
address is its register plus the step for the re-issue count, aligned to the element or to 64 bytes. CHBIND binds a k register at
t + 1. On a channel of the wrong direction, or one bound to a k register, each is an illegal-schedule fault. -/
def Obligations.Channels : Prop :=
  ∀ (s : State) (t gid k addr buf a ch astep n chs chr at_ : Nat) (g h q : Gang) (x y v : Tile) (o : Origin) (rd : Reads) (c : Chan),
    AtD s t gid k addr buf g x o y h → rd = y.readCodes g.lcyc 6 addr [a] → c = y.chan ch →
    at_ = alignDown ((((nthD 0 rd.vals 0).toNat : Int) + (k : Int) * sextInt 8 astep * (c.size : Int)) % (2 ^ 64 : Int)).toNat
      (min c.size 64) → Read h q v o rd at_ →
    (∀ (l : Nat) (ls : List Nat), c.mode = 1 → ¬ BoundElsewhere y 8 ch →
      (List.range c.beats).map (fun j => v.map (at_ + 64 * j)) = l :: ls →
      GangBecomes (.chsend buf a ch astep) s t
        (((q.later o (g.lcyc + 1) (.read 4 (.scratch gid l) (min c.size 64) (.toPush ch at_ (g.lcyc + c.beats + 1) [] ls))).inFlight o
          (g.lcyc + c.beats + 1)).charge o c.size c.size))
    ∧ (∀ (e : Elem) (es : List Elem), c.mode = 2 → ¬ BoundElsewhere y 8 ch → (v.fifo ch).elems = e :: es →
      GangBecomes (.chrecv buf a ch astep) s t
        (((((List.range c.beats).zip (chunks (min c.size 64) c.beats e.data)).foldl (fun u f =>
            u.later o (u.lcyc + 1 + f.1) (.write 5 (.scratch gid (v.map (at_ + 64 * f.1))) f.2))
          (q.onTile gid (fun z => z.setFifo ch { z.fifo ch with elems := es }))).inFlight o (g.lcyc + c.beats)).charge
            o c.size c.size))
    ∧ (c.mode = 2 → ¬ BoundElsewhere y 8 ch → (v.fifo ch).elems = [] →
      GangBecomes (.chrecv buf a ch astep) s t ((q.record o 1 3 g.lcyc 0).inFlight o g.lcyc))
    ∧ (c.mode ≠ 1 ∨ BoundElsewhere y 8 ch → GangBecomes (.chsend buf a ch astep) s t (h.record o 2 0 g.lcyc 0))
    ∧ (c.mode ≠ 2 ∨ BoundElsewhere y 8 ch → GangBecomes (.chrecv buf a ch astep) s t (h.record o 2 0 g.lcyc 0))
    ∧ (¬ BadBind y n chs 1 → ¬ BadBind y n chr 2 →
      GangBecomes (.chbind buf n chs chr) s t ((h.later o (g.lcyc + 1) (.chbind n chs chr)).inFlight o (g.lcyc + 1)))
    ∧ (BadBind y n chs 1 ∨ BadBind y n chr 2 → GangBecomes (.chbind buf n chs chr) s t (h.record o 2 0 g.lcyc 0))

/-- Streams and counters. SACC, with a value type that is no MX or FP8 type and no SACC in cycles t + 4 to t + 7 of an earlier one,
takes the elements of its value entry whose index is not all ones, merges those of one index in order, and at t + 6 updates each word
that its bank serves, an element of no served bank being a fault; the flags of the merging are raised at t + 6, a poisoned index is a
consumption. SHIST increments the bins 0 to 63 of its indices at t + 2; CTRSNAP takes the 64 histogram counters at t, clears them, and
writes their 256 bytes at t + 2. -/
def Obligations.StreamsAndCounters : Prop :=
  ∀ (s : State) (t gid k addr buf a hi hv it ioff voff istep vstep : Nat) (g h q : Gang) (x y v : Tile) (o : Origin) (rd : Reads),
    AtD s t gid k addr buf g x o y h → rd = y.readCodes g.lcyc 6 addr [a] →
    (∀ (T : ElemType) (b m n w : Nat) (sat : Bool) (ix vx : VEntry) (es : List (Nat × Nat × Lane))
        (us : List (Nat × Nat × Bool × Nat × Nat)) (ok : List Bool) (q1 q2 q3 q4 : Gang),
      T = ElemType.ofCode (bitsOf y.fmtr 7 4) →
      (T.isMx = true ∨ T = .e4m3 ∨ T = .e5m2 → GangBecomes (.sacc buf a hi hv it ioff voff istep vstep) s t
        (h.onTile gid (fun z => z.undefined 6 (((find? y.sticky 6).map (·.syl)).getD 0) addr g.lcyc .field)))
      ∧ (T.isMx = false → T ≠ .e4m3 → T ≠ .e5m2 → (∃ c ∈ y.saccs, c + 4 ≤ g.lcyc ∧ g.lcyc ≤ c + 7) →
        GangBecomes (.sacc buf a hi hv it ioff voff istep vstep) s t (h.record o 2 8 g.lcyc 0))
      ∧ (T.isMx = false → T ≠ .e4m3 → T ≠ .e5m2 → (∀ c ∈ y.saccs, g.lcyc < c + 4 ∨ c + 7 < g.lcyc) →
        Read h q v o rd (nthD 0 rd.vals 0).toNat → T = v.saccType → m = v.fmtr % 8 → sat = bitAt v.fmtr 3 → w = indexWidth it →
        b = T.width / 8 → n = 1024 / max w T.width → ix = v.streamEntry hi ioff istep k → vx = v.streamEntry hv voff vstep k →
        es = ((List.range n).map (fun i => (i, (ix.elem w i).val, vx.elem T.width i))).filter (fun e => e.2.1 + 1 != 2 ^ w) →
        us = (dedupNat (es.map (fun e => e.2.1))).filterMap (fun j =>
          match es.filter (fun e => e.2.1 == j) with
          | [] => none
          | e :: rest =>
            let r : Nat × Nat × Bool := rest.foldl (fun c f =>
              let z := saccAdd T m sat (v.draw o f.1) c.1 f.2.2.val
              (z.bits, c.2.1 ||| z.flags, c.2.2 || f.2.2.poison)) (e.2.2.val, 0, e.2.2.poison)
            some (v.map (alignDown ((((nthD 0 rd.vals 0).toNat : Int) + (if it < 2 then sextInt w j else (j : Int)) * (b : Int))
              % (2 ^ 21 : Int)).toNat b), r.1, r.2.2, e.1, r.2.1)) →
        ok = serveLines [] (us.map (·.1)) →
        q1 = (if (List.range n).any (fun i => (ix.elem w i).poison) then (q.onTile gid Tile.sawPoison).consume o 1 g.lcyc (nthD 0 rd.vals 0)
          else q) →
        q2 = (if es.any (fun e => e.2.2.poison) then q1.onTile gid Tile.sawPoison else q1) →
        q3 = (((us.zip ok).filter (·.2)).foldl (fun u e => u.later o (u.lcyc + 6)
          (.sacc e.1.1 e.1.2.1 e.1.2.2.1 (v.draw o e.1.2.2.2.1) (bitsOf v.fmtr 7 4) m sat)) q2).laterFlags o (g.lcyc + 6)
            (us.foldl (fun f e => f ||| e.2.2.2.2) 0) →
        q4 = (match (us.zip ok).find? (fun e => !e.2) with
          | some e => q3.later o (g.lcyc + 6) (.trapFault 2 7 (BitVec.ofNat 64 e.1.1))
          | none => q3) →
        GangBecomes (.sacc buf a hi hv it ioff voff istep vstep) s t
          (((q4.onTile gid (fun z => { z with saccs := g.lcyc :: z.saccs.filter (fun c => g.lcyc ≤ c + 7) })).charge o (b * es.length)
            (b * es.length)).inFlight o (g.lcyc + 7))))
    ∧ (∀ (w : Nat) (ls : List Lane) (u : Gang), Read h q v o rd 0 → w = indexWidth it →
      ls = (List.range (1024 / w)).map (fun i => (v.streamEntry hi ioff istep k).elem w i) →
      u = (if ls.any (·.poison) then (q.onTile gid Tile.sawPoison).consume o 1 g.lcyc 0 else q) →
      GangBecomes (.shist buf a hi it ioff istep) s t
        ((u.later o (g.lcyc + 2) (.hist ((((ls.filter (fun e => e.val + 1 != 2 ^ w)).map (fun e =>
          ((BitVec.ofInt 64 (if it < 2 then sextInt w e.val else (e.val : Int))) - nthD 0 rd.vals 0).toInt)).filter
            (fun b => 0 ≤ b ∧ b ≤ 63)).map Int.toNat))).inFlight o (g.lcyc + 2)))
    ∧ (∀ at_ : Nat, at_ = alignDown (nthD 0 rd.vals 0).toNat 64 → Read h q v o rd at_ →
      (∀ c ∈ y.saccs, g.lcyc < c + 4 ∨ c + 7 < g.lcyc) → GangBecomes (.ctrsnap buf a) s t
        (((((List.range 4).foldl (fun u i => u.later o (u.lcyc + 2) (.ctrsnap (v.map (at_ + 64 * i))
          ((List.range 16).flatMap (fun j => pbytes 4 (look 0 v.hc (16 * i + j)) false)))) q).onTile gid
            (fun z => { z with hc := [] })).charge o 0 256).inFlight o (g.lcyc + 2)))
    ∧ ((∃ c ∈ y.saccs, c + 4 ≤ g.lcyc ∧ g.lcyc ≤ c + 7) → GangBecomes (.ctrsnap buf a) s t (h.record o 2 8 g.lcyc 0))

/-- Every ATOM of a permitted location performs at t + λ + 66 on its naturally aligned address, 16 bytes for the barrier operations, and
its old value lands at t + 2λ + 140; a poisoned operand is a consumption of point 2 and goes with the operation. A denied one is a
translation fault with the address and gives 0; an unresolved one is a consumption and gives a poisoned 0x7FE40000.
Hops that the configuration does not list are free, and an access without an endpoint has latency 0 (DESIGN CHOICE, log 5). -/
def Obligations.Atomics : Prop :=
  ∀ (s : State) (t gid k addr buf d a b c wd n wn op l due at_ : Nat) (i : Instr) (cs : List Nat) (g h q q2 u : Gang)
      (x y v v2 : Tile) (o : Origin) (ra rb : Reads) (w : Xlat),
    AtD s t gid k addr buf g x o y h →
    ((∃ e ∈ atomRows, i = e.1 buf d a b wd ∧ op = e.2 ∧ cs = [b] ∧ n = (if wd = 1 then 8 else 4) ∧ wn = n)
      ∨ (∃ e ∈ atomFixedRows, i = e.1 buf d a b ∧ op = e.2 ∧ cs = [b] ∧ n = (if e.2 = 10 then 4 else 16) ∧ wn = 4)
      ∨ (i = .atomCas buf d a b c wd ∧ op = 9 ∧ cs = [b, c] ∧ n = (if wd = 1 then 8 else 4) ∧ wn = n)) →
    ra = y.readCodes g.lcyc 6 addr [a] → at_ = alignDown (nthD 0 ra.vals 0).toNat n → Read h q v o ra at_ →
    rb = v.readCodes g.lcyc 6 addr cs →
    q2 = (if rb.poison then (q.onTile gid (fun _ => rb.x)).consume o 2 g.lcyc (BitVec.ofNat 64 at_) else q.onTile gid (fun _ => rb.x)) →
    q2.tile gid = some v2 → w = q2.translate v2 at_ 2 → l = s.cfg.lambdaOpt q2 (some (q2.endOf v2.gid)) w.port →
    due = g.lcyc + 2 * l + 140 → u = ((q2.refetch o w).flit o w.port).inFlight o due →
    (∀ loc : DevLoc, w.place = .dev loc → GangBecomes i s t
      ((u.later o (g.lcyc + l + 66) (.atom op loc wn (nthD 0 rb.vals 0).toNat (nthD 0 rb.vals 1).toNat rb.poison d due)).charge o n n))
    ∧ (w.place = .denied → GangBecomes i s t ((u.record o 4 w.detail g.lcyc (BitVec.ofNat 64 at_)).later o due (.sreg d 0 false)))
    ∧ (w.place = .unresolved → GangBecomes i s t
      ((u.consume o 2 g.lcyc (BitVec.ofNat 64 at_)).later o due (.sreg d 0x7FE40000 true)))

/-- SNAP on gang identity 0 asks for a snapshot at t + H, whose result lands 600 cycles later; while one of its domain is still ahead its
status is 3; elsewhere it is an illegal-schedule fault. GENQ asks every stack of its domain at t + λ + 66 and answers at t + 600; the
stacks are those of the domain's pages in the gang's table, each once.
Hops that the configuration does not list are free (DESIGN CHOICE, log 5). -/
def Obligations.Generations : Prop :=
  ∀ (s : State) (t gid k addr buf d dom : Nat) (g h : Gang) (x y : Tile) (o : Origin) (r : SnapReq) (q : GenqReq),
    AtD s t gid k addr buf g x o y h →
    r = { dom := dom, t := g.lcyc, c := g.lcyc + g.h, code := d, gid := 0, addr := addr,
          status := if g.snaps.any (fun e => e.dom == dom && g.lcyc < e.c) then 3 else 0, g := 0 } →
    q = { dom := dom, t := g.lcyc, code := d, gid := gid, addr := addr,
          left := (h.domainStacks dom).map (fun e =>
            (e, g.lcyc + s.cfg.lambda h (h.endOf gid) (endPort (h.logicalPackage (e / 8)) (e % 8)) + 66)),
          live := 0, blocks := 0, g := 0 } →
    (gid = 0 → GangBecomes (.snap buf d dom) s t (({ h with snaps := g.snaps ++ [r] } : Gang).inFlight o (g.lcyc + g.h + 600)))
    ∧ (gid ≠ 0 → GangBecomes (.snap buf d dom) s t (h.record o 2 0 g.lcyc 0))
    ∧ GangBecomes (.genq buf d dom) s t (({ h with genqs := g.genqs ++ [q] } : Gang).inFlight o (g.lcyc + 600))
    ∧ h.domainStacks dom = dedupNat ((g.table.filter (fun e => bitAt e.2 54 && bitsOf e.2 58 56 == dom)).map (fun e =>
        devAddr (nthD 0 g.pkgs (bitsOf e.2 91 85)) (bitsOf e.2 84 82) (bitsOf e.2 81 67 * 2 ^ 21) / 2 ^ 36))

/-! ### Collective trees on tiles (21) -/

/-- Tree operations of a tile. TARM of an entry of its tile's arm list for that handle, by a member of a live tree, of segments below 2^24
that no incomplete arm of the handle holds, adds the arm of the entry's count, whose C is COFF cycles ahead, and pins the slots of
its path when all are present, else announces a hold; a refused one is an illegal-schedule fault of detail 11. TPOST of a segment of
an arm, at or after the horizon, not posted before, under KIND 2 by the root, reads beat j from t + 1 + j on for its node. TRECV of a segment
of an arm, not covered before, under KIND 0 by the root, covers it until its last delivery. What else they are given is the same fault.
TSTAT gives the handle's state at t + 2, and clears its sticky bits when it is told to.
That a frozen tree takes no arm is the model's choice (DESIGN CHOICE, log 17). -/
def Obligations.TreeOperationsOnTile : Prop :=
  ∀ (s : State) (t gid k addr buf hd ra rb step aix d : Nat) (g h : Gang) (x y : Tile) (o : Origin),
    AtD s t gid k addr buf g x o y h →
    (∀ (q g2 : Gang) (v : Tile) (rd : Reads) (s0 : Nat) (u : State), rd = y.readCodes g.lcyc 6 addr [ra] → Read h q v o rd 0 →
      s0 = (nthD 0 rd.vals 0).toNat →
      (∀ (r : Tree) (e : ArmEntry) (who : Nat × Bool) (a : Arm), find? s.trees hd = some r → v.armList[aix]? = some e →
        e.handle = hd → r.frozen = false → s0 < 2 ^ 24 → s0 + e.count ≤ 2 ^ 24 → r.roleOf v.gid = some who →
        (∀ b ∈ v.arms, b.live = true → b.handle = hd → b.s0 + b.n ≤ s0 ∨ s0 + e.count ≤ b.s0) →
        a = { handle := hd, s0 := s0, n := e.count, c := g.lcyc + e.coff, issue := g.lcyc, addr := addr, buf := buf, cpl := e.cpl, irq := e.irq,
              mi := who.1, alt := who.2, live := true, pinned := false, bad := false, range := none, posts := [], beats := [] } →
        g2 = q.onTile gid (fun w => ({ w with arms := w.arms ++ [a] } : Tile).markArmed hd) →
        u = (s.onGang t (fun _ => g2)).onTree hd (fun r => { r with
          users := addNum r.users t
          edits := r.edits.map (fun e => if e.at_ < a.s0 + a.n then { e with reached := true } else e) }) →
        ((∀ p ∈ g2.armEnds r a.mi, (u.slotOf g2 p hd).isSome = true) → exec (.tarm buf hd ra aix) s
          = .next (((g2.armEnds r a.mi).foldl (fun z p => z.pinSlot g2 p hd (t, gid, a.s0)) u).markPinned t gid hd a.s0))
        ∧ ((∃ p ∈ g2.armEnds r a.mi, u.slotOf g2 p hd = none) →
          exec (.tarm buf hd ra aix) s = .next (u.onGang t (fun z => z.announce 0 gid buf))))
      ∧ ((∀ b ∈ v.arms, b.issue ≠ g.lcyc) →
        (find? s.trees hd = none ∨ v.armList[aix]? = none ∨ ∃ r e, find? s.trees hd = some r ∧ v.armList[aix]? = some e
          ∧ (e.handle ≠ hd ∨ r.frozen = true ∨ 2 ^ 24 ≤ s0 ∨ 2 ^ 24 < s0 + e.count ∨ r.roleOf v.gid = none
            ∨ ∃ b ∈ v.arms, b.live = true ∧ b.handle = hd ∧ s0 < b.s0 + b.n ∧ b.s0 < s0 + e.count)) →
        GangBecomes (.tarm buf hd ra aix) s t ((q.record o 2 11 g.lcyc 0).inFlight o g.lcyc)))
    ∧ (∀ (q : Gang) (v : Tile) (rd : Reads) (kk s0 seg : Nat), rd = y.readCodes g.lcyc 6 addr [ra, rb] →
      Read h q v o rd (alignDown (nthD 0 rd.vals 1).toNat 16) → kk = (if step = 1 then k else 0) → s0 = (nthD 0 rd.vals 0).toNat →
      seg = s0 + kk →
      (∀ (r : Tree) (a : Arm) (base node : Nat), find? s.trees hd = some r → v.armOf hd seg = some a → s0 < 2 ^ 24 →
        base = alignDown (((nthD 0 rd.vals 1).toNat + kk * r.segSize) % 2 ^ 64) 16 →
        node = q.nodeEnd (nthD TreeNode.none r.nodes (r.takes r.nodes a.mi)) →
        (a.issue + q.horizon ≤ g.lcyc → (∀ p ∈ a.posts, p.seg ≠ seg) → (r.kind = 2 → v.gid = r.gidOf r.root) →
          GangBecomes (.tpost buf hd ra rb step) s t
            ((((List.range r.beats).foldl (fun g' j =>
              (linePieces (base + 64 * j) (min 64 (r.segSize - 64 * j))).foldl (fun g'' p =>
                g''.later o (g''.lcyc + 1 + j) (.read 4 (.scratch gid (v.map (base + 64 * j + p.1))) p.2 (.toPost hd seg j p.1 node))) g')
              (q.onTile gid (fun w => (w.onArms (fun b => b == a)
                (fun b => { b with posts := b.posts ++ [{ seg := seg, issue := g.lcyc, base := base }] })).count 0x0A 1))).charge
                  o r.segSize 0).inFlight o (g.lcyc + r.beats)))
        ∧ (∀ (last : Nat) (c : Cover), last = a.c + (seg - a.s0 + 1) * r.beats - 1 + s.cfg.topDelay q r.nodes + 1
              + s.cfg.lambda q (q.topEnd r.nodes) (q.endOf v.gid) →
          (∀ w ∈ v.covers, w.handle = hd → w.seg ≠ seg) → (r.kind = 0 → v.gid = r.gidOf r.root) →
          c = { handle := hd, seg := seg, base := base, issue := g.lcyc, addr := addr, buf := buf, last := last, got := [] } →
          GangBecomes (.trecv buf hd ra rb step) s t
            (((q.onTile gid (fun w => { w with covers := w.covers ++ [c] })).busy o last).charge o 0 r.segSize)))
      ∧ ((find? s.trees hd = none ∨ v.armOf hd seg = none ∨ 2 ^ 24 ≤ s0 ∨ ∃ r a, find? s.trees hd = some r ∧ v.armOf hd seg = some a
          ∧ (g.lcyc < a.issue + q.horizon ∨ (∃ p ∈ a.posts, p.seg = seg) ∨ (r.kind = 2 ∧ v.gid ≠ r.gidOf r.root))) →
        GangBecomes (.tpost buf hd ra rb step) s t ((q.record o 2 11 g.lcyc 0).inFlight o g.lcyc))
      ∧ ((find? s.trees hd = none ∨ v.armOf hd seg = none ∨ 2 ^ 24 ≤ s0 ∨ ∃ r, find? s.trees hd = some r
          ∧ ((∃ w ∈ v.covers, w.handle = hd ∧ w.seg = seg) ∨ (r.kind = 0 ∧ v.gid ≠ r.gidOf r.root))) →
        GangBecomes (.trecv buf hd ra rb step) s t ((q.record o 2 11 g.lcyc 0).inFlight o g.lcyc)))
    ∧ (∀ (v : TreeStat) (w : Nat) (u : Gang), v = look { armed := false, sticky := 0, next := 0 } y.trees hd →
      w = (if v.armed = true then v.sticky % 16 * 2 ^ 32
        + min 255 (y.arms.filter (fun a => a.live && a.handle == hd)).length * 2 ^ 24 + v.next % 2 ^ 24 else 0) →
      u = (h.later o (g.lcyc + 2) (.sreg d (BitVec.ofNat 64 w) false)).inFlight o (g.lcyc + 2) →
      (∀ c, c ≠ 1 → GangBecomes (.tstat buf hd d c) s t u)
      ∧ (find? y.trees hd = some v → GangBecomes (.tstat buf hd d 1) s t
        (u.onTile gid (fun z => { z with trees := setKey z.trees hd { v with sticky := 0 } })))
      ∧ (find? y.trees hd = none → GangBecomes (.tstat buf hd d 1) s t (u.onTile gid (fun z => z))))

/-! ### Agent cores (13, 23) -/

/-- Loads and stores of a core. LDS takes s(A) plus its scaled offset, LDA an aligned s(A); within reach, the core's stores of the same
class and those that meet the bytes are performed first, the value is extended to the register, and a poisoned one raises cause 5 with
its address; out of reach, or misaligned in LDA and STL, is cause 3. STS and STL put the store behind the core's others, in private SRAM
perform it at once, STL of a scope above the agent's after performing them all; FENCE of such a scope performs those of the classes
in its mask.
The order of a core's accesses is the model's reading (DEDUCED, log 9). -/
def Obligations.AgentLoadsAndStores : Prop :=
  ∀ (s q : State) (c d a b z cls off scope w m n at_ : Nat) (y : AgentCore), AtCore s c → y = s.core c →
    (at_ = agentAddr (y.reg a) z off → n = accessSize z →
      (s.spaceOk y.lv y.afunc at_ n = true → q = (s.beforeLoad c cls at_ n).cacheLine at_ →
        (anyPoison (q.agentRead c at_ n) = false →
          exec (.ldsAgent d a z cls off) s = .next (q.finish d (extendLoad z (pval (q.agentRead c at_ n)))))
        ∧ (anyPoison (q.agentRead c at_ n) = true →
          exec (.ldsAgent d a z cls off) s = .next ((q.noteAgent at_ n).exception 5 at_)))
      ∧ (s.spaceOk y.lv y.afunc at_ n = true → exec (.stsAgent d a z cls off) s
          = .next (((s.agentStore c cls at_ (pbytes n (y.reg d).toNat false)).cacheLine at_).onMe (·.advance)))
      ∧ (s.spaceOk y.lv y.afunc at_ n = false → exec (.ldsAgent d a z cls off) s = .next (s.exception 3 at_)
          ∧ exec (.stsAgent d a z cls off) s = .next (s.exception 3 at_)))
    ∧ (at_ = (y.reg a).toNat → n = (if w = 1 then 8 else 4) →
      (at_ % n = 0 → s.spaceOk y.lv y.afunc at_ n = true → q = (s.beforeLoad c cls at_ n).cacheLine at_ →
        (anyPoison (q.agentRead c at_ n) = false →
          exec (.lda d a cls scope w) s = .next (q.finish d (BitVec.ofNat 64 (pval (q.agentRead c at_ n)))))
        ∧ (anyPoison (q.agentRead c at_ n) = true →
          exec (.lda d a cls scope w) s = .next ((q.noteAgent at_ n).exception 5 at_)))
      ∧ (at_ % n = 0 → s.spaceOk y.lv y.afunc at_ n = true → q = (if scope = 0 then s else s.flush c (fun _ => true)) →
        exec (.stl a b cls scope w) s
          = .next (((q.agentStore c cls at_ (pbytes n (y.reg b).toNat false)).cacheLine at_).onMe (·.advance)))
      ∧ (at_ % n ≠ 0 ∨ s.spaceOk y.lv y.afunc at_ n = false → exec (.lda d a cls scope w) s = .next (s.exception 3 at_)
          ∧ exec (.stl a b cls scope w) s = .next (s.exception 3 at_)))
    ∧ (scope ≠ 0 → exec (.fence m scope) s = .next ((s.flush c (fun e => bitAt m e.cls)).onMe (·.advance)))
    ∧ exec (.fence m 0) s = .next (s.onMe (·.advance))
    ∧ (∀ bs : List PByte, (at_ / 2 ^ 46 ≠ 2 → s.agentStore c cls at_ bs
        = s.setCore c { y with stores := y.stores ++ [{ cls := cls, addr := at_, bytes := bs }] })
      ∧ (at_ / 2 ^ 46 = 2 → s.agentStore c cls at_ bs = s.setCore c { y with
        sram := writeBytes y.sram (at_ % 2 ^ 16) (bs.map (·.b))
        sramPoison := markBytes y.sramPoison (at_ % 2 ^ 16) bs }))

/-- What STS of a core leaves: whatever its form, no byte of device memory or system memory changes as it executes, and a byte of the
core's private SRAM changes only when the store goes there and meets it.
That a store waits for its turn is the model's reading (DEDUCED, log 9). -/
def Obligations.AgentStoreFrame : Prop :=
  ∀ (s u : State) (c d a z cls off n at_ : Nat), AtCore s c → at_ = agentAddr ((s.core c).reg a) z off → n = accessSize z →
    exec (.stsAgent d a z cls off) s = .next u →
    u.dev = s.dev ∧ u.sys = s.sys ∧ u.devPoison = s.devPoison
      ∧ (∀ b, ¬(at_ / 2 ^ 46 = 2 ∧ at_ % 2 ^ 16 ≤ b ∧ b < at_ % 2 ^ 16 + n) → readByte (u.core c).sram b = readByte (s.core c).sram b)
      ∧ (∀ r, (u.core c).reg r = (s.core c).reg r)
      ∧ (∀ c', c' ≠ c → u.core c' = s.core c')

namespace Sys2Proof.Claims
open Machine

/-- The AMO instructions of the 64-bit old value and s(RB), with what they leave in memory (R388). -/
def amoRows : List ((Nat → Nat → Nat → Nat → Instr) × (Nat → Nat → Nat)) :=
  [ (.amoAdd, fun v b => (v + b) % 2 ^ 64), (.amoAnd, fun v b => v &&& b % 2 ^ 64), (.amoOr, fun v b => v ||| b % 2 ^ 64),
    (.amoSwap, fun _ b => b % 2 ^ 64), (.amoMaxn, fun v b => max v (b % 2 ^ 64)) ]

/-- An instruction of a core on its turn with a true guard: y is the core as it stands. -/
def Guarded (s : State) (c g n : Nat) (y : AgentCore) : Prop := AtCore s c ∧ y = s.core c ∧ y.guard g n = true

/-- The same at device level. -/
def Privileged (s : State) (c g n : Nat) (y : AgentCore) : Prop := Guarded s c g n y ∧ y.lv = 1

end Sys2Proof.Claims

/-- An AMO on aligned device memory within reach without poison: the earlier stores of its class and those that meet it perform, the old
value returns in s(RD), and memory takes the new one; AMO.CAS writes s(RB) when the old value equals s(RD). AMO.ARV performs every
earlier store and then arrives at a barrier record, AMO.BREG registers s(RB) at one; both return the generation that the record then has
and, at bit 32, whether they were refused. A record settles when as many have arrived as it expects and no beat is outstanding: its generation
counts up and its arrivals restart; an arrival beyond the expected, or at a record that expects none, and a register beyond 2^32 are
refused. A misaligned address, one outside device memory or out of reach is cause 3, a poisoned old value or record cause 5. -/
def Obligations.AgentAtomics : Prop :=
  ∀ (s q : State) (c d a b cls at_ : Nat) (y : AgentCore), AtCore s c → y = s.core c → at_ = (y.reg a).toNat →
    (∀ old : Nat, at_ / 2 ^ 46 = 0 → at_ % 8 = 0 → s.spaceOk y.lv y.afunc at_ 8 = true → q = s.beforeLoad c cls at_ 8 →
      old = pval (q.devRead at_ 8) →
      (anyPoison (q.devRead at_ 8) = false →
        (∀ e ∈ amoRows, exec (e.1 d a b cls) s
          = .next ((q.devWrite at_ (pbytes 8 (e.2 old (y.reg b).toNat) false)).finish d (BitVec.ofNat 64 old)))
        ∧ (old = (y.reg d).toNat → exec (.amoCas d a b cls) s
          = .next ((q.devWrite at_ (pbytes 8 (y.reg b).toNat false)).finish d (BitVec.ofNat 64 old)))
        ∧ (old ≠ (y.reg d).toNat → exec (.amoCas d a b cls) s = .next (q.finish d (BitVec.ofNat 64 old))))
      ∧ (anyPoison (q.devRead at_ 8) = true → (∀ e ∈ amoRows, exec (e.1 d a b cls) s = .next ((q.noteAgent at_ 8).exception 5 at_))
          ∧ exec (.amoCas d a b cls) s = .next ((q.noteAgent at_ 8).exception 5 at_)))
    ∧ (∀ (i : Instr) (kind : Nat) (r : Barrier), at_ / 2 ^ 46 = 0 → at_ % 16 = 0 → s.spaceOk y.lv y.afunc at_ 16 = true →
      (i = .amoArv d a b cls ∧ kind = 2 ∧ q = s.flush c (fun _ => true))
        ∨ (i = .amoBreg d a b cls ∧ kind = 0 ∧ q = s.beforeLoad c cls at_ 16) →
      r = Barrier.ofNat (pval (q.devRead at_ 16)) →
      (∀ v : Barrier, anyPoison (q.devRead at_ 16) = false → r.update kind ((y.reg b).toNat % 2 ^ 32) = some v → exec i s
        = .next ((q.devWrite at_ (pbytes 16 v.toNat false)).finish d (BitVec.ofNat 64 v.gen)))
      ∧ (anyPoison (q.devRead at_ 16) = false → r.update kind ((y.reg b).toNat % 2 ^ 32) = none → exec i s
        = .next (q.finish d (BitVec.ofNat 64 (r.gen + 2 ^ 32))))
      ∧ (anyPoison (q.devRead at_ 16) = true → exec i s = .next ((q.noteAgent at_ 16).exception 5 at_)))
    ∧ (at_ / 2 ^ 46 ≠ 0 ∨ at_ % 8 ≠ 0 ∨ s.spaceOk y.lv y.afunc at_ 8 = false →
      (∀ e ∈ amoRows, exec (e.1 d a b cls) s = .next (s.exception 3 at_)) ∧ exec (.amoCas d a b cls) s = .next (s.exception 3 at_))
    ∧ (at_ / 2 ^ 46 ≠ 0 ∨ at_ % 16 ≠ 0 ∨ s.spaceOk y.lv y.afunc at_ 16 = false →
      exec (.amoArv d a b cls) s = .next (s.exception 3 at_) ∧ exec (.amoBreg d a b cls) s = .next (s.exception 3 at_))
    ∧ (∀ (r v w : Barrier) (n : Nat), w = (if v.arrived = v.expected ∧ v.beats = 0 then
          { v with gen := (v.gen + 1) % 2 ^ 32, arrived := 0 } else v) →
      (v = { r with beats := r.beats + n } → (r.beats + n < 2 ^ 32 → r.update 0 n = some w)
        ∧ (2 ^ 32 ≤ r.beats + n → r.update 0 n = none))
      ∧ (v = { r with arrived := r.arrived + n } →
        (r.expected ≠ 0 → r.arrived + n ≤ r.expected → r.update 2 n = some w)
        ∧ (r.expected = 0 ∨ r.expected < r.arrived + n → r.update 2 n = none)))

/-- Waits, batches, copies, interrupts and records. WAITA of a reachable line makes the core wait for a write of it, for at most the
limit when it is not 0; WAITT of a submitted operation waits for its context's timeline, of one not submitted answers 10; WAITB waits
for the batches of a context below 14; BATCH.CLOSE closes the open batch there; COPY of a sound descriptor into such a context performs
the core's stores, enters the operation there and answers its number, of an unreadable or bad one answers 4; WAITB, BATCH.CLOSE and COPY
of context 14 or 15 answer 8; INTR raises a vector of the core's function; CPLPOST posts 32 readable bytes as a record of kind 3, of bytes
out of reach is cause 3, of poisoned ones cause 5.
When a wait ends and how far a copy has come are free (DESIGN CHOICE, log 1); which descriptor is bad is the model's reading
(DEDUCED, log 19). -/
def Obligations.AgentWaitsAndCopies : Prop :=
  ∀ (s q : State) (c d a b g n i : Nat) (y z : AgentCore) (x : Ctx), Guarded s c g n y →
    (∀ line, line = alignDown (y.reg a).toNat 64 →
      (s.spaceOk y.lv y.afunc line 64 = true → CoreBecomes (.waita d a b g n) s c
        { y with wait := some (.line line (if (y.reg b).toNat = 0 then none else some (y.reg b).toNat) s.wall false d) })
      ∧ (s.spaceOk y.lv y.afunc line 64 = false → exec (.waita d a b g n) s = .next (s.exception 3 (y.reg a).toNat)))
    ∧ (i = (y.reg a).toNat % 16 →
      ((y.reg b).toNat ≤ s.ctxSub c i → CoreBecomes (.waitt d a b g n) s c { y with wait := some (.timeline i (y.reg b).toNat d) })
      ∧ (s.ctxSub c i < (y.reg b).toNat → CoreBecomes (.waitt d a b g n) s c ((y.setReg d 10).advance))
      ∧ (i < 14 → CoreBecomes (.waitb d a b g n) s c { y with wait := some (.batches i (y.reg b).toNat d) })
      ∧ (i < 14 → x = y.ctx i → CoreBecomes (.batchClose d a g n) s c
        (((y.setCtx i { x with openBatch := [], closed := x.closed.filter (fun ns => ns.any (fun m => x.ops.any (fun o => o.n == m)))
          ++ [x.openBatch] }).setReg d 0).advance))
      ∧ (14 ≤ i → CoreBecomes (.waitb d a b g n) s c ((y.setReg d 8).advance)
        ∧ CoreBecomes (.batchClose d a g n) s c ((y.setReg d 8).advance)))
    ∧ exec (.intr a g n) s = .next ((s.emit 1 y.afunc [(y.reg a).toNat % 2048]).onMe (·.advance))
    ∧ (q = s.flush c (fun _ => true) → z = q.core c →
      (i = (z.reg b).toNat % 16 → x = z.ctx i →
        (∀ w op, i < 14 → q.agentBlock (z.reg a).toNat 1 32 = some w → q.copyOf w (x.sub + 1) = some op →
          exec (.copy d a b g n) s = .next ((q.onMe (fun v => v.setCtx i { x with
            sub := x.sub + 1
            ops := x.ops ++ [op]
            openBatch := x.openBatch ++ [op.n] })).finish d (BitVec.ofNat 64 (op.n * 2 ^ 32)))
          ∧ op.n = x.sub + 1 ∧ op.dst = fieldOf w 0 8 ∧ op.src = fieldOf w 8 8 ∧ op.len = fieldOf w 0x10 4
          ∧ op.bar = (if bitAt (fieldOf w 0x14 1) 0 then some (fieldOf w 0x18 8) else none) ∧ op.arv = bitAt (fieldOf w 0x14 1) 1
          ∧ op.started = false ∧ op.at_ = 0 ∧ op.refused = false)
        ∧ (i < 14 → (q.agentBlock (z.reg a).toNat 1 32).bind (fun w => q.copyOf w (x.sub + 1)) = none →
          exec (.copy d a b g n) s = .next ((q.noteAgent (z.reg a).toNat 32).status d 4))
        ∧ (14 ≤ i → exec (.copy d a b g n) s = .next (q.status d 8)))
      ∧ (∀ at_ bs r, at_ = (z.reg a).toNat → bs = q.agentRead c at_ 32 →
        r = { kind := 3, status := 0, id := 0, osig := 0, ltime := 0, wtime := 0, flags := 0, raw := some (bs.map (·.b)) } →
        (q.spaceOk z.lv z.afunc at_ 32 = true → anyPoison bs = false → exec (.cplpost d a g n) s = .next ((q.arrive
          { source := 4, task := none, lcyc := 0, gid := 0, place := c / 8 * 512 + 64 + c % 8, act := .record z.afunc r }).status d 0))
        ∧ (q.spaceOk z.lv z.afunc at_ 32 = true → anyPoison bs = true → exec (.cplpost d a g n) s = .next (q.exception 5 at_))
        ∧ (q.spaceOk z.lv z.afunc at_ 32 = false → exec (.cplpost d a g n) s = .next (q.exception 3 at_))))

/-- Instructions that name a task. TASKQ of a sound descriptor, when the configuration record is verified, performs the core's stores,
submits the task under the next id of the core's function and answers that id; a bad one answers 4, an unverified record 8. TKILL ends a
task that has not ended; TSTATUS answers its state and its end status; TPRE parks a waiting or queued task, asks a running or held
one for a drain or a checkpoint when its policy permits, else answers 8, and queues a parked one again. An id that is no task answers 1, a
task of another function 5, an ended one 1, one in another state 3.
One scheduler for the domain, the bad descriptors and the dependence words of KIND 0 are the model's (DESIGN CHOICE, log 10;
DEDUCED, logs 19 and 24); so is cause 1 for the reserved mode 0 of TPRE (DEDUCED, log 18). -/
def Obligations.TaskControl : Prop :=
  ∀ (s q : State) (c d a b g n id : Nat) (y z : AgentCore) (x : Task), Guarded s c g n y →
    (q = s.flush c (fun _ => true) → z = q.core c →
      (∀ t v, q.cfg.verified = true → (q.agentBlock (z.reg a).toNat 64 64).bind descOf = some t → v = z.ctx 14 →
        exec (.taskq d a g n) s
          = .next (((({ q.onMe (fun w => w.setCtx 14 { v with sub := v.sub + 1 }) with serial := (q.serial + 1) % 2 ^ 64 } : State).submit
              z.afunc t c (c / 8) (v.sub + 1) none).finish d (BitVec.ofNat 64 (q.nextTaskId z.afunc * 2 ^ 32)))))
      ∧ (q.cfg.verified = true → (q.agentBlock (z.reg a).toNat 64 64).bind descOf = none →
        exec (.taskq d a g n) s = .next ((q.noteAgent (z.reg a).toNat 64).status d 4))
      ∧ (q.cfg.verified = false → exec (.taskq d a g n) s = .next (q.status d 8)))
    ∧ ((y.reg b).toNat % 4 = 0 → exec (.tpreDrain d a b g n) s = .next (s.exception 1 0))
    ∧ (id = (y.reg a).toNat % 2 ^ 32 →
      (∀ v i, v = (if s.task id = none then 1 else 5) → (∀ w, s.task id = some w → w.fn ≠ y.afunc) →
        (i ∈ [Instr.tkill d a g n, .tstatus d a g n, .tpreCheckpoint d a b g n, .tpreRequeue d a b g n]
          ∨ (i = .tpreDrain d a b g n ∧ (y.reg b).toNat % 4 ≠ 0)) → CoreBecomes i s c ((y.setReg d v).advance))
      ∧ (s.task id = some x → x.fn = y.afunc →
        CoreBecomes (.tstatus d a g n) s c ((y.setReg d (BitVec.ofNat 64 (x.st.code * 2 ^ 16 + x.endStatus.getD 0 * 2 ^ 32))).advance)
        ∧ (x.endStatus = none → exec (.tkill d a g n) s = .next ((s.killTask x.id 1).status d 0))
        ∧ (x.endStatus ≠ none → CoreBecomes (.tkill d a g n) s c ((y.setReg d 1).advance))
        ∧ (x.st = .parked → exec (.tpreRequeue d a b g n) s = .next ((s.requeue x).status d 0))
        ∧ (x.st ≠ .parked → CoreBecomes (.tpreRequeue d a b g n) s c ((y.setReg d (if x.endStatus = none then 3 else 1)).advance))
        ∧ (∀ (i : Instr) (bit : Nat), (i = .tpreCheckpoint d a b g n ∧ bit = 2) ∨ (i = .tpreDrain d a b g n ∧ bit = 1
            ∧ (y.reg b).toNat % 4 ≠ 0) →
          (x.st = .waiting ∨ x.st = .queued → exec i s = .next ((s.onTask x.id (fun v => { v with st := .parked })).status d 0))
          ∧ (x.st = .running ∨ x.st = .held → bitAt x.desc.policy bit = true → ∀ e, e = Config.choice s.tape % 2 ^ 16 →
            q = ({ s with tape := s.tape + 1 } : State).onTask x.id (fun v => { v with park := true }) →
            exec i s = .next ((if bit = 2 then q.askCheckpoint x.id e else q.askDrain x.id e).status d 0))
          ∧ (x.st = .running ∨ x.st = .held → bitAt x.desc.policy bit = false → CoreBecomes i s c ((y.setReg d 8).advance))
          ∧ (x.st = .parked ∨ x.st = .restoring ∨ (∃ u w, x.st = .saving u w) → CoreBecomes i s c ((y.setReg d 3).advance))
          ∧ (x.endStatus ≠ none → CoreBecomes i s c ((y.setReg d 1).advance)))))
    ∧ (∀ (w : Gang) (e : Nat), s.task id = some x → s.gang id = some w → w.drain = none → w.holds = [] →
      s.askDrain id e = s.onGang id (fun u => { u with drain := some (u.lcyc + u.horizon + e, 0) })
      ∧ (x.st ≠ .held → s.askCheckpoint id e
        = s.onGang id (fun u => { u.announceAt 2 (u.lcyc + u.horizon + e) 0 with drain := none }))
      ∧ (x.st = .held → s.askCheckpoint id e = s.startSave id 2))

/-- SCALL and ERET. SCALL saves the address of the next instruction in EPC, cause 4 in ECAUSE, its code in EVAL and the level in PLV, and
goes on at ETVEC at device level. ERET at device level goes back to EPC at the level in PLV; at host level it is the privilege
exception, whose EPC is its own address. Every other exception does the same with its own cause and address. Nothing else changes: no
scalar register, no predicate, no byte of memory. The words of SCALL 7 and of ERET are those that the spec writes out. -/
def Obligations.SystemCallAndReturn : Prop :=
  ∀ (s : State) (c code : Nat) (y : AgentCore), AtCore s c → y = s.core c →
    CoreBecomes (.scall code) s c { y with epc := y.pc + 4, ecause := 4, eval := BitVec.ofNat 64 code, plv := y.lv, lv := 1, pc := y.etvec }
    ∧ (y.lv = 1 → CoreBecomes .eret s c { y with pc := y.epc, lv := y.plv })
    ∧ (y.lv ≠ 1 → CoreBecomes .eret s c { y with epc := y.pc, ecause := 2, eval := 0, plv := y.lv, lv := 1, pc := y.etvec })
    ∧ (∀ cause at_ : Nat, s.exception cause at_ = s.setCore c
        { y with epc := y.pc, ecause := BitVec.ofNat 64 cause, eval := BitVec.ofNat 64 at_, plv := y.lv, lv := 1, pc := y.etvec })
    ∧ decodeAgent 0xDE000007 = .ok (.scall 7) ∧ decodeAgent 0xE0000000 = .ok .eret

namespace Sys2Proof.Claims
open Machine

/-- The control and status registers below the tile window: first and last number, read-only, of device level (R383). -/
def csrTable : List (Nat × Nat × Bool × Bool) :=
  [ (0x000, 0x000, true, false), (0x001, 0x005, false, true), (0x006, 0x006, false, false), (0x010, 0x03F, true, false),
    (0x040, 0x041, false, true), (0x042, 0x042, true, true), (0x050, 0x052, false, false), (0x053, 0x054, true, false),
    (0x055, 0x055, false, false), (0x060, 0x061, true, true), (0x062, 0x063, false, true), (0x064, 0x064, true, true),
    (0x070, 0x077, true, true), (0x080, 0x08F, false, false), (0x0C0, 0x0C0, false, true) ]

/-- A number names a control and status register, read-only or not, of device level or not: one of the table, or the tile window's
for a system register of R168 (R383). -/
def IsCsr (r : Nat) (ro dev : Bool) : Prop :=
  (∃ e ∈ csrTable, e.1 ≤ r ∧ r ≤ e.2.1 ∧ ro = e.2.2.1 ∧ dev = e.2.2.2)
    ∨ (0x800 ≤ r ∧ r ≤ 0xA3F ∧ sregDefined (r - 0x800) = true ∧ ro = !sregWritable (r - 0x800) ∧ dev = true)

end Sys2Proof.Claims

/-- CSRR writes the register to s(RD), CSRW writes s(RA) to the register, and the core goes on to its next instruction: ECAUSE, EPC, EVAL,
ETVEC and SEPOCH whole, FSTATUS and TSEL in their low bits, AFUNC a function number or 0xFF, SLICE, SPRES and DRNSLOT in their fields (an
exponent outside 2 to 6 changes nothing), CQBASE, CQSIZE, CQHEAD and CQVEC in the bank of the core's function, CTXERR to 0, and through the
window a register of the tile that TSEL names: QBOUND and DRNLIM always, any other where no task runs, a legal value of its fields. A
reserved number, and a write of a read-only register, raise cause 1, and an access above the core's level cause 2; they change
nothing else. CSRR counts the model's draws of free values on (DESIGN CHOICE, log 1). -/
def Obligations.ControlRegisters : Prop :=
  ∀ (s : State) (c a d r : Nat) (y : AgentCore) (v : Word) (ro dev : Bool), AtCore s c → y = s.core c → v = y.reg a →
    (IsCsr r ro dev → (dev = true → y.lv = 1) → exec (.csrr d r) s
      = .next { s.setCore c ((y.setReg d (s.csrValue c r)).advance) with tape := s.tape + 1 })
    ∧ ((∀ p l, ¬ IsCsr r p l) → CoreBecomes (.csrr d r) s c (y.takeException 1 y.pc 0)
        ∧ CoreBecomes (.csrw a r) s c (y.takeException 1 y.pc 0))
    ∧ (IsCsr r true dev → (dev = true → y.lv = 1) → CoreBecomes (.csrw a r) s c (y.takeException 1 y.pc 0))
    ∧ (IsCsr r ro true → y.lv = 0 → CoreBecomes (.csrr d r) s c (y.takeException 2 y.pc 0)
        ∧ (ro = false → CoreBecomes (.csrw a r) s c (y.takeException 2 y.pc 0)))
    ∧ (y.lv = 1 → CoreBecomes (.csrw a 1) s c ({ y with ecause := v }.advance) ∧ CoreBecomes (.csrw a 2) s c ({ y with epc := v }.advance)
        ∧ CoreBecomes (.csrw a 3) s c ({ y with eval := v }.advance) ∧ CoreBecomes (.csrw a 4) s c ({ y with etvec := v }.advance)
        ∧ (v.toNat < 64 ∨ v.toNat = 255 → CoreBecomes (.csrw a 5) s c ({ y with afunc := v.toNat }.advance))
        ∧ CoreBecomes (.csrw a 0x0C0) s c ({ y with tsel := v.toNat % 32 }.advance)
        ∧ exec (.csrw a 0x040) s = .next (({ s with slice := v.toNat % 2 ^ 32 } : State).onMe (·.advance))
        ∧ exec (.csrw a 0x041) s = .next (({ s with sepoch := v } : State).onMe (·.advance))
        ∧ (∀ (p : Pkg) (k : Nat), p = s.pkg (c / 8) → k = v.toNat % 8 →
          (2 ≤ k → k ≤ 6 → exec (.csrw a 0x062) s = .next ((s.setPkg (c / 8) { p with spres := k }).onMe (·.advance))
            ∧ exec (.csrw a 0x063) s = .next ((s.setPkg (c / 8) { p with drnslot := k }).onMe (·.advance)))
          ∧ (k < 2 ∨ 6 < k → exec (.csrw a 0x062) s = .next ((s.setPkg (c / 8) p).onMe (·.advance))
            ∧ exec (.csrw a 0x063) s = .next ((s.setPkg (c / 8) p).onMe (·.advance))))
        ∧ (∀ (i p phys : Nat), sregDefined i = true → sregWritable i = true → i ≤ 0x23F → p = c / 8 → phys = y.tsel →
          (s.tileAt p phys = none → i ≠ 0x010 → i ≠ 0x011 → exec (.csrw a (0x800 + i)) s
            = .next ((s.setPkg p (if sregValueOk i v = true then { s.pkg p with
                idle := setKey (s.pkg p).idle phys { (s.pkg p).idleTile phys with tile := ((s.pkg p).idleTile phys).tile.setSysReg i v } }
              else s.pkg p)).onMe (·.advance)))
          ∧ (s.tileAt p phys = none → i = 0x010 ∨ i = 0x011 → exec (.csrw a (0x800 + i)) s
            = .next ((s.setPkg p ((s.pkg p).setLimit phys i v.toNat)).onMe (·.advance)))
          ∧ (∀ t gid, s.tileAt p phys = some (t, gid) → i = 0x010 ∨ i = 0x011 → exec (.csrw a (0x800 + i)) s
            = .next (((s.setPkg p ((s.pkg p).setLimit phys i v.toNat)).onTile t gid (fun x => x.setSysReg i v)).onMe (·.advance)))
          ∧ (∀ t gid, s.tileAt p phys = some (t, gid) → i ≠ 0x010 → i ≠ 0x011 →
            CoreBecomes (.csrw a (0x800 + i)) s c (y.takeException 1 y.pc 0))))
    ∧ CoreBecomes (.csrw a 6) s c ({ y with fstatus := v.toNat % 128 }.advance)
    ∧ (∀ i, i < 16 → CoreBecomes (.csrw a (0x080 + i)) s c
        ((y.setCtx i { y.ctx i with errCount := 0, errOpn := 0 }).advance))
    ∧ (∀ x : Fn, x = s.fn y.afunc →
        exec (.csrw a 0x050) s = .next ((s.setFn y.afunc { x with cqbase := v.toNat / 4096 * 4096 }).onMe (·.advance))
        ∧ exec (.csrw a 0x051) s = .next (((s.setFn y.afunc { x with cqsize := v.toNat % 16 }).wakeQueue y.afunc).onMe (·.advance))
        ∧ exec (.csrw a 0x052) s = .next (((s.setFn y.afunc { x with cqhead := v.toNat % 2 ^ 32 }).wakeQueue y.afunc).onMe (·.advance))
        ∧ exec (.csrw a 0x055) s = .next ((s.setFn y.afunc { x with cqvec := v.toNat % 2048 }).onMe (·.advance)))
    ∧ (∀ i, i < 16 → ∀ (p : Pkg) (x : Fn) (z : Ctx), p = s.pkg (c / 8) → x = s.fn y.afunc → z = y.ctx i →
        s.csrValue c 0 = BitVec.ofNat 64 (2 * y.plv + y.lv) ∧ s.csrValue c 1 = y.ecause ∧ s.csrValue c 2 = y.epc ∧ s.csrValue c 3 = y.eval
        ∧ s.csrValue c 4 = y.etvec ∧ s.csrValue c 5 = BitVec.ofNat 64 y.afunc ∧ s.csrValue c 6 = BitVec.ofNat 64 y.fstatus
        ∧ s.csrValue c (0x010 + i) = BitVec.ofNat 64 (s.ctxTime c i) ∧ s.csrValue c (0x020 + i) = BitVec.ofNat 64 (s.ctxSub c i)
        ∧ s.csrValue c (0x030 + i) = BitVec.ofNat 64 (z.openBatches * 2 ^ 32 + z.openBatch.length)
        ∧ s.csrValue c 0x040 = BitVec.ofNat 64 s.slice ∧ s.csrValue c 0x041 = s.sepoch ∧ s.csrValue c 0x042 = BitVec.ofNat 64 s.ptime
        ∧ s.csrValue c 0x050 = BitVec.ofNat 64 x.cqbase ∧ s.csrValue c 0x051 = BitVec.ofNat 64 x.cqsize
        ∧ s.csrValue c 0x052 = BitVec.ofNat 64 x.cqhead ∧ s.csrValue c 0x053 = BitVec.ofNat 64 x.cqtail
        ∧ s.csrValue c 0x054 = BitVec.ofNat 64 x.cqlost ∧ s.csrValue c 0x055 = BitVec.ofNat 64 x.cqvec
        ∧ (p.scrub = none → s.csrValue c 0x060 = 0)
        ∧ (∀ j, p.scrub = some j → s.csrValue c 0x060 = BitVec.ofNat 64 (j.total * 2 ^ 32 + j.done))
        ∧ s.csrValue c 0x061 = BitVec.ofNat 64 (p.quarFrames.length * 2 ^ 32 + p.quarTiles)
        ∧ s.csrValue c 0x062 = BitVec.ofNat 64 p.spres ∧ s.csrValue c 0x063 = BitVec.ofNat 64 p.drnslot
        ∧ s.csrValue c 0x064 = BitVec.ofNat 64 (s.drainProgress (c / 8))
        ∧ (i < 8 → s.csrValue c (0x070 + i) = BitVec.ofNat 64 (p.keyStatus i))
        ∧ s.csrValue c (0x080 + i) = BitVec.ofNat 64 (z.errCount * 2 ^ 32 + z.errOpn) ∧ s.csrValue c 0x0C0 = BitVec.ofNat 64 y.tsel)
    ∧ (∀ i, s.csrValue c (0x800 + i) = match s.tileAt (c / 8) y.tsel with
        | some (t, gid) => s.windowTask (c / 8) y.tsel t gid i
        | none => s.windowIdle (c / 8) y.tsel i)

/-- Keys, scrubs, moves and image checks, at device level but for IMGCHK. KEYZ empties a key slot; KEYLD of an empty slot takes the
keys of a sound blob, of a full one answers 3; SCRUB with none running performs the core's stores, quarantines the tiles and frames of
its block and starts; MIGR of a page that may be moved asks for the move, and what may not answers the status of R410; IMGCHK writes the
SM3 digest of an image and answers 0 or 4, with a destination out of reach cause 3. An unreadable or bad block answers 4.
The ciphers and digests are those of the published standards (PRESUMED, log 15); bad blocks and the corners of MIGR are the
model's reading (DEDUCED, logs 19 and 24). -/
def Obligations.KeysScrubsAndImages : Prop :=
  ∀ (s q : State) (c d a b g n k at_ : Nat) (y z : AgentCore) (p : Pkg),
    (Privileged s c g n y →
      (k = (y.reg a).toNat % 128 → p = s.pkg (c / 8) →
        exec (.keyz d a g n) s = .next ((s.setPkg (c / 8) { p with keys := dropKey p.keys k }).status d 0))
      ∧ (q = s.flush c (fun _ => true) → z = q.core c → at_ = (z.reg a).toNat → p = q.pkg (c / 8) →
        (k = (z.reg b).toNat % 128 →
          ((look KeySlot.empty p.keys k).alg ≠ 0 → exec (.keyld d a b g n) s = .next (q.status d 3))
          ∧ (∀ v, (look KeySlot.empty p.keys k).alg = 0 → (q.agentBlock at_ 1 96).bind (keyOfBlob p.wrapKey) = some v →
            exec (.keyld d a b g n) s = .next ((q.setPkg (c / 8) { p with keys := setKey p.keys k v }).status d 0))
          ∧ ((look KeySlot.empty p.keys k).alg = 0 → (q.agentBlock at_ 1 96).bind (keyOfBlob p.wrapKey) = none →
            exec (.keyld d a b g n) s = .next ((q.noteAgent at_ 96).status d 4)))
        ∧ (∀ j, p.scrubbing = false → (q.agentBlock at_ 1 32).bind q.scrubOf = some j →
          exec (.scrub d a g n) s = .next ((q.setPkg (c / 8) { p with
            scrub := some j
            quarTiles := p.quarTiles ||| j.tiles
            quarFrames := j.frames.foldl addNum p.quarFrames }).status d 0))
        ∧ (p.scrubbing = false → (q.agentBlock at_ 1 32).bind q.scrubOf = none →
          exec (.scrub d a g n) s = .next ((q.noteAgent at_ 32).status d 4))
        ∧ (p.scrubbing = true → exec (.scrub d a g n) s = .next (q.status d 3))
        ∧ (q.agentBlock at_ 1 32 = none → exec (.migr d a g n) s = .next ((q.noteAgent at_ 32).status d 4))
        ∧ (∀ w, q.agentBlock at_ 1 32 = some w →
          (q.task (fieldOf w 0 4) = none → exec (.migr d a g n) s = .next (q.status d 1))
          ∧ (∀ x, q.task (fieldOf w 0 4) = some x →
            (x.fn ≠ z.afunc → exec (.migr d a g n) s = .next (q.status d 5))
            ∧ (x.fn = z.afunc → x.endStatus ≠ none → exec (.migr d a g n) s = .next (q.status d 1))
            ∧ (x.fn = z.afunc → x.endStatus = none → x.gang ≠ none → exec (.migr d a g n) s = .next (q.status d 3))
            ∧ (x.fn = z.afunc → x.endStatus = none → x.gang = none →
              (x.image = none → exec (.migr d a g n) s = .next (q.status d 4))
              ∧ (∀ i e dst, x.image = some i → dst = fieldOf w 0x10 8 → i.gang.entryFor (fieldOf w 8 8) = some e →
                fieldOf w 4 4 = 0 → fieldOf w 0x18 1 < 16 → fieldOf w 0x19 7 = 0 → dst % (entryFrames (look 0 i.gang.table e) * 2 ^ 21) = 0 →
                q.devExists dst = true → i.gang.pkgs.contains (dst / 2 ^ 39) = true → exec (.migr d a g n) s = .next (({ q with
                  migrations := q.migrations ++ [{ task := x.id, va := fieldOf w 8 8, dst := dst, key := fieldOf w 0x18 1, entry := e }] }
                    : State).status d 0))
              ∧ (∀ i e dst, x.image = some i → dst = fieldOf w 0x10 8 → i.gang.entryFor (fieldOf w 8 8) = some e →
                fieldOf w 4 4 ≠ 0 ∨ 16 ≤ fieldOf w 0x18 1 ∨ fieldOf w 0x19 7 ≠ 0 ∨ dst % (entryFrames (look 0 i.gang.table e) * 2 ^ 21) ≠ 0
                  ∨ q.devExists dst = false ∨ i.gang.pkgs.contains (dst / 2 ^ 39) = false → exec (.migr d a g n) s = .next (q.status d 4))
              ∧ (∀ i, x.image = some i → i.gang.entryFor (fieldOf w 8 8) = none → exec (.migr d a g n) s = .next (q.status d 4)))))))
    ∧ (Guarded s c g n y → q = s.flush c (fun _ => true) → z = q.core c → at_ = (z.reg a).toNat → k = (z.reg b).toNat →
      (q.spaceOk z.lv z.afunc k 32 = false → exec (.imgchk d a b g n) s = .next (q.exception 3 k))
      ∧ (q.spaceOk z.lv z.afunc k 32 = true →
        (q.agentImage at_ = none → exec (.imgchk d a b g n) s = .next ((q.noteAgent at_ 64).status d 4))
        ∧ (∀ bytes, q.agentImage at_ = some bytes → exec (.imgchk d a b g n) s
          = .next ((q.agentWrite c k (clean ((sm3 bytes).map (BitVec.ofNat 8)))).status d
            (if imageOk bytes q.cfg.stepping = true then 0 else 4)))))

/-- Trees as an agent core manages them. TREE.CREATE of a sound block makes the tree under a free handle and answers the number of its
nodes; a live handle answers 2, a bad block 4. TREE.EDIT of an idle tree adds the edit, and TREE.ALT sets a member's alternate; another
function's core at host level answers 5, a tree with incomplete arms that is not frozen 3, a bad block, index or alternate 4, an edit of a
boundary already folded 6. TREE.FREEZE of a tree with no incomplete arm of a running gang saves it and frees its slots, else 3;
TREE.THAW of a frozen one whose gangs are placed refills its slots, or answers 3 when it cannot, else 7; TREE.DESTROY of an idle tree
that no arm list names takes it away, else 3. A handle without a tree answers 1.
The contents of a save area are free (DESIGN CHOICE, log 17); bad blocks are the model's reading (DEDUCED, log 19). -/
def Obligations.TreeManagement : Prop :=
  ∀ (s q : State) (c d a b h : Nat) (y z : AgentCore) (r : Tree), AtCore s c → y = s.core c →
    (q = s.flush c (fun _ => true) → z = q.core c →
      (q.blockAt (z.reg a).toNat 64 64 = none → exec (.treeEdit d a) s = .next (q.status d 4))
      ∧ (∀ w, q.blockAt (z.reg a).toNat 64 64 = some w → h = fieldOf w 0 2 →
        (find? q.trees h = none → exec (.treeEdit d a) s = .next (q.status d 1))
        ∧ (find? q.trees h = some r →
          (∀ v, (z.lv ≠ 1 ∧ r.fn ≠ z.afunc ∧ v = 5) ∨ ((z.lv = 1 ∨ r.fn = z.afunc) ∧ editOfBlock r w = none ∧ v = 4)
              ∨ ((z.lv = 1 ∨ r.fn = z.afunc) ∧ editOfBlock r w ≠ none
                ∧ ((r.frozen = false ∧ q.liveArms h ≠ []) ∨ ∃ x ∈ r.edits, x.reached = false) ∧ v = 3)
              ∨ (∃ e, (z.lv = 1 ∨ r.fn = z.afunc) ∧ editOfBlock r w = some e ∧ (∀ x ∈ r.edits, x.reached = true)
                ∧ r.frozen = true ∧ q.folded r e.1 = true ∧ v = 6) →
            exec (.treeEdit d a) s = .next ((q.onTree h (fun _ => r)).status d v))
          ∧ (∀ e, z.lv = 1 ∨ r.fn = z.afunc → editOfBlock r w = some e → r.frozen = true ∨ q.liveArms h = [] →
            (∀ x ∈ r.edits, x.reached = true) → r.frozen = false ∨ q.folded r e.1 = false →
            exec (.treeEdit d a) s = .next ((q.onTree h (fun _ => { r with edits := r.edits ++ [{
              at_ := e.1, changes := e.2, reached := (q.liveArms h).any (fun x => e.1 < x.2.s0 + x.2.n) }] })).status d 0)))))
    ∧ (h = (y.reg a).toNat % 65536 →
      (∀ i alt, i = bitsOf (y.reg a).toNat 31 16 → alt = (if bitAt (y.reg b).toNat 12 then some ((y.reg b).toNat % 4096) else none) →
        find? s.trees h = some r →
        (∀ v, (y.lv ≠ 1 ∧ r.fn ≠ y.afunc ∧ v = 5) ∨ ((y.lv = 1 ∨ r.fn = y.afunc) ∧ r.frozen = false ∧ s.liveArms h ≠ [] ∧ v = 3)
            ∨ ((y.lv = 1 ∨ r.fn = y.afunc) ∧ (r.frozen = true ∨ s.liveArms h = [])
              ∧ (r.members.length ≤ i ∨ ∃ g, alt = some g ∧ g ∈ memberGids r.members) ∧ v = 4) →
          exec (.treeAlt d a b) s = .next ((s.onTree h (fun _ => r)).status d v))
        ∧ (∀ w, (y.lv = 1 ∨ r.fn = y.afunc) → (r.frozen = true ∨ s.liveArms h = []) → i < r.members.length →
          (∀ g, alt = some g → g ∉ memberGids r.members) →
          w = nthD 0 r.members i % 4096 + (if bitAt (nthD 0 r.members i) 30 then 2 ^ 30 else 0)
            + (if bitAt (y.reg b).toNat 12 then 2 ^ 31 + (y.reg b).toNat % 4096 * 2 ^ 16 else 0) →
          exec (.treeAlt d a b) s = .next ((s.onTree h (fun _ => { r with members := r.members.set i w })).status d 0)))
      ∧ (find? s.trees h = none → CoreBecomes (.treeAlt d a b) s c ((y.setReg d 1).advance))
      ∧ (y.lv = 1 →
        (find? s.trees h = none → ∀ i ∈ [Instr.treeFreeze d a, .treeThaw d a, .treeDestroy d a],
          CoreBecomes i s c ((y.setReg d 1).advance))
        ∧ (find? s.trees h = some r →
          (r.frozen = false → (∀ e ∈ s.liveArms h, e.1.run ≠ .running) → exec (.treeFreeze d a) s
            = .next ((((s.devWrite r.save (clean ((upFrom (s.wall * 2 ^ 40) (4096 + r.nodes.length * (16384 + r.segSize))).map
              Config.treeByte))).dropSlots h).onTree h (fun r => { r with frozen := true })).status d 0))
          ∧ (r.frozen = true ∨ (∃ e ∈ s.liveArms h, e.1.run = .running) → CoreBecomes (.treeFreeze d a) s c ((y.setReg d 3).advance))
          ∧ (∀ u, r.frozen = true → (∀ t ∈ s.treeUsers h, s.gang t ≠ none) → s.thawTree h r = some u →
            exec (.treeThaw d a) s = .next (u.status d 0))
          ∧ (r.frozen = true → (∀ t ∈ s.treeUsers h, s.gang t ≠ none) → s.thawTree h r = none →
            CoreBecomes (.treeThaw d a) s c ((y.setReg d 3).advance))
          ∧ (r.frozen = false ∨ (∃ t ∈ s.treeUsers h, s.gang t = none) → CoreBecomes (.treeThaw d a) s c ((y.setReg d 7).advance))
          ∧ (r.frozen = false → s.liveArms h = [] → s.namesTree h = false →
            exec (.treeDestroy d a) s = .next ((({ s with trees := dropKey s.trees h } : State).dropSlots h).status d 0))
          ∧ (r.frozen = true ∨ s.liveArms h ≠ [] ∨ s.namesTree h = true →
            CoreBecomes (.treeDestroy d a) s c ((y.setReg d 3).advance)))))
    ∧ (y.lv = 1 → q = s.flush c (fun _ => true) → z = q.core c →
      (q.blockAt (z.reg a).toNat 64 64 = none → exec (.treeCreate d a) s = .next (q.status d 4))
      ∧ (∀ w, q.blockAt (z.reg a).toNat 64 64 = some w → h = fieldOf w 0 2 →
        (find? q.trees h ≠ none → exec (.treeCreate d a) s = .next (q.status d 2))
        ∧ (find? q.trees h = none → 65535 < fieldOf w 8 4 ∨ q.blockAt (fieldOf w 16 8) 64 (4 * (fieldOf w 8 4 + 1)) = none →
          exec (.treeCreate d a) s = .next (q.status d 4))
        ∧ (∀ l ws, find? q.trees h = none → fieldOf w 8 4 ≤ 65535 → q.blockAt (fieldOf w 16 8) 64 (4 * (fieldOf w 8 4 + 1)) = some l →
          ws = (List.range (fieldOf w 8 4 + 1)).map (fun i => fieldOf l (4 * i) 4) →
          (treeOfBlock w ws = none → exec (.treeCreate d a) s = .next (q.status d 4))
          ∧ (treeOfBlock w ws = some r → exec (.treeCreate d a) s
            = .next (({ q with trees := setKey q.trees h r } : State).finish d (BitVec.ofNat 64 (r.nodes.length * 2 ^ 32)))))))

namespace Sys2Proof.Claims
open Machine

/-- The instructions of device level under a guard (R377). -/
def deviceRows (d a b g n : Nat) : List Instr := [.keyz d a g n, .keyld d a b g n, .scrub d a g n, .migr d a g n]

/-- The instructions of a core under a guard (R377). -/
def guardedRows (d a b g n : Nat) : List Instr :=
  [.waita d a b g n, .waitt d a b g n, .batchClose d a g n, .waitb d a b g n, .copy d a b g n, .taskq d a g n, .tkill d a g n,
    .tpreDrain d a b g n, .tpreCheckpoint d a b g n, .tpreRequeue d a b g n, .tstatus d a g n, .cplpost d a g n, .intr a g n,
    .imgchk d a b g n] ++ deviceRows d a b g n

/-- The other instructions that a core alone runs (R377). -/
def plainRows (d a b g n m k : Nat) : List Instr :=
  [.ldsAgent d a g n m, .stsAgent d a g n m, .lda d a g n m, .stl d a g n m, .fence g n, .amoAdd d a b g, .amoAnd d a b g, .amoOr d a b g,
    .amoSwap d a b g, .amoMaxn d a b g, .amoCas d a b g, .amoArv d a b g, .amoBreg d a b g, .csrr d k, .csrw d k, .scall k, .eret,
    .treeCreate d a, .treeEdit d a, .treeAlt d a b, .treeFreeze d a, .treeThaw d a, .treeDestroy d a]

end Sys2Proof.Claims

/-- The privilege rule: at host level every instruction of device level raises cause 2 with its own address in EPC and 0 in EVAL, before
its guard is asked and without any other effect; a guarded instruction of a core whose guard is false only goes on to the next one. Every
instruction that a core alone runs answers a next state, whatever its operands.
That a read-only register of device level raises cause 1 at host level, and a reserved function number cause 1, is the model's reading
(DEDUCED, log 23). -/
def Obligations.PrivilegeAndGuards : Prop :=
  ∀ (s : State) (c d a b g n m k : Nat) (y : AgentCore), AtCore s c → y = s.core c →
    (y.lv = 0 → ∀ i ∈ [Instr.eret, .treeCreate d a, .treeFreeze d a, .treeThaw d a, .treeDestroy d a] ++ deviceRows d a b g n,
      CoreBecomes i s c { y with epc := y.pc, ecause := 2, eval := 0, plv := 0, lv := 1, pc := y.etvec })
    ∧ (y.guard g n = false → ∀ i ∈ guardedRows d a b g n, y.lv = 1 ∨ i ∉ deviceRows d a b g n →
      CoreBecomes i s c { y with pc := y.pc + 4 })
    ∧ (IsCsr k true true → y.lv = 0 → CoreBecomes (.csrw a k) s c (y.takeException 1 y.pc 0))
    ∧ (y.lv = 1 → 64 ≤ (y.reg a).toNat → (y.reg a).toNat ≠ 255 → CoreBecomes (.csrw a 5) s c (y.takeException 1 y.pc 0))
    ∧ (∀ i ∈ guardedRows d a b g n ++ plainRows d a b g n m k, ∃ u, exec i s = .next u)

/-! ### What falls due in a cycle (07, 09, 13, 15, 17, 19) -/

namespace Sys2Proof.Claims
open Machine

/-- It is the turn of an event of a tile of a gang that has exactly one effect due, d; h is the gang without it. -/
def SoleDue (s : State) (t gid : Nat) (g h : Gang) (d : Due) : Prop :=
  AtEvent s t gid ∧ s.gang t = some g ∧ d.due ≤ g.lcyc ∧ d.o.gid = gid
    ∧ ∃ l r : List Due, g.dues = l ++ d :: r ∧ h = { g with dues := l ++ r } ∧ ∀ e ∈ l ++ r, e.due ≤ g.lcyc → e.o.gid ≠ gid

/-- It is the turn of an event of a tile of a gang that has exactly the two effects d and e due, d of lower precedence. -/
def TwoDue (s : State) (t gid : Nat) (g : Gang) (d e : Due) : Prop :=
  AtEvent s t gid ∧ s.gang t = some g ∧ d.due ≤ g.lcyc ∧ e.due ≤ g.lcyc ∧ d.o.gid = gid ∧ e.o.gid = gid ∧ d.o.rank < e.o.rank
    ∧ (g.dues = [d, e] ∨ g.dues = [e, d])

/-- Bytes pushed on an outgoing FIFO of a tile by an operation that read them at an address: poison is a consumption of point 3, a full
FIFO a timetable slip of detail 4 (R281, R283, R423). -/
def pushed (g : Gang) (o : Origin) (x : Tile) (ch at_ : Nat) (bs : List PByte) : Gang :=
  let h := if anyPoison bs = true then (g.onTile o.gid Tile.sawPoison).consume o 3 g.lcyc (BitVec.ofNat 64 at_) else g
  if (x.chan ch).depth < (x.fifo ch).elems.length then h.record o 1 4 g.lcyc 0
  else h.onTile o.gid (fun y => y.setFifo ch
    { x.fifo ch with elems := (x.fifo ch).elems ++ [{ data := bs, pushed := g.lcyc }] })

/-- The bytes that a place shows: a slice, device memory, zeros where a read is denied, the poison value where it is unresolved
(R239, R241). -/
def shown (s : State) (g : Gang) (p : Place) (n : Nat) : List PByte :=
  match p with
  | .scratch i off => ((g.tile i).map (fun y => readP y.scratch y.scratchPoison off n)).getD []
  | .dev l => s.locRead l n
  | .denied => clean (List.replicate n 0)
  | .unresolved => poisonedBytes 0 n

/-- The state once an operation has read bytes at a place: the counter of bytes read and the watch of a slice, the log entry of an
uncorrectable word of device memory, PSEEN for poison (R169, R425, R433, R437). -/
def sawBytes (s : State) (t : Nat) (h : Gang) (o : Origin) (p : Place) (n : Nat) (bs : List PByte) : State :=
  let seen (g : Gang) : Gang := if anyPoison bs = true then g.onTile o.gid Tile.sawPoison else g
  match p with
  | .scratch i off => s.onGang t (fun _ => seen ((h.onTile o.gid (fun y => y.count 7 n)).watch i off n false))
  | .dev l => ((s.onGang t (fun _ => h)).noteBad t l.addr n).onGang t seen
  | _ => s.onGang t (fun _ => seen h)

/-- A beat's way from one end to another: where it meets an output that is not its own in this cycle or a later one, that is a fault
of detail 11 of that cycle and the beat is poisoned (R273). -/
def onItsWay (c : Cfg) (g : Gang) (o : Origin) (a b : Nat) (bs : List PByte) : Gang × List PByte :=
  match c.strayAt g a b g.lcyc with
  | none => (g, bs)
  | some at_ =>
    (if at_ ≤ g.lcyc then g.record o 2 11 g.lcyc 0 else { g with dues := g.dues ++ [{ due := at_, o := o, job := .trapFault 2 11 0 }] },
      bs.map (fun b => { b with p := true }))

/-- A beat sent to a place: one flit between two ends, poison for device memory a consumption of point 2 with its gang address, and
the write at its cycle unless the place is denied or unresolved (R169, R239, R271, R277, R423). -/
def sent (c : Cfg) (g : Gang) (o : Origin) (dst : Place) (due a b : Nat) (bs : List PByte) : Gang :=
  let w := onItsWay c g o a b bs
  let h := if a = b then w.1 else w.1.onTile o.gid (fun y => y.count 9 1)
  match dst with
  | .scratch i off => h.later o due (.write 5 (.scratch i off) w.2)
  | .dev l =>
    (if anyPoison w.2 = true then h.consume o 2 g.lcyc (BitVec.ofNat 64 (h.vaOf l)) else h).later o due (.write 5 (.dev l) w.2)
  | _ => h

/-- A beat of a tree post that leaves for its node, taken by its arm: poison is a consumption of point 4 (R357, R423). -/
def posted (c : Cfg) (g : Gang) (o : Origin) (hd seg beat node at_ : Nat) (bs : List PByte) : Gang :=
  let own := g.endOf o.gid
  let h := if anyPoison bs = true then g.consume o 4 g.lcyc (BitVec.ofNat 64 at_) else g
  let w := onItsWay c h o own node bs
  w.1.onTile o.gid (fun y => (y.takeBeat hd { seg := seg, beat := beat, off := 0, read := w.1.lcyc
                                              arrive := w.1.lcyc + c.lambda w.1 own node, data := w.2 }).count 9 1)

/-- The gang with a write of bytes staged for an operation: to a slice, where the tile's counter of bytes written and the watch see
it, or to device memory; nowhere where the place is denied or unresolved (R169, R239, R245, R433). -/
def stagedTo (h : Gang) (o : Origin) (p : Place) (bs : List PByte) : Gang :=
  match p with
  | .scratch i off =>
    let w : Staged := { space := 0, gid := i, addr := off, o := o, atomic := false, bytes := bs, loc := none, act := none }
    { (h.onTile o.gid (fun x => x.count 8 bs.length)).watch i off bs.length true with staged := h.staged ++ [w] }
  | .dev l =>
    let w : Staged := { space := 2, gid := 0, addr := l.addr, o := o, atomic := false, bytes := bs, loc := some l, act := none }
    { h with staged := h.staged ++ [w] }
  | _ => h

/-- The events of writes with the ports of their writes (R213, R270, R271, R315, R316, R337). -/
def writeRows : List (Instr × Nat) :=
  [(.dAccessPerform, 1), (.dAccessPerform, 4), (.beatWrite, 5), (.accLineMove, 6), (.mchkWrite, 7), (.mpermRowWrite, 8)]

end Sys2Proof.Claims

/-- Results land at their result cycle. A scalar result replaces its register or predicate, or is pushed through the channel that its
k register binds; a binding or a charge of a buffer replaces it. Of two results for one destination in one cycle the lower one is an
illegal-schedule fault of detail 6 of its operation and the higher lands (R145). A vector result replaces the enabled bits of its
entry or mask and marks only words of which it writes something; of two for one entry the lower keeps the bits that the higher does
not write, and is such a fault when they share one (R192). ADVR moves both pointers of its ring; FMT, SYSWR, RINGC and XPAT replace
their registers; SHIST counts its bins up, to 2^32 - 1.
The order of effects within a cycle is the model's reading (DEDUCED, log 7). -/
def Obligations.ResultsLand : Prop :=
  (∀ (s : State) (t gid : Nat) (g h : Gang) (d : Due), SoleDue s t gid g h d →
    (∀ c v p, d.job = .sreg c v p →
      (c < 32 → GangBecomes .scalarResultWrite s t (h.onTile gid (fun x => x.setSreg c { val := v, poison := p })))
      ∧ (∀ x ch, 32 ≤ c → g.tile gid = some x → ch = (x.bound (c - 32)).chs →
        (64 ≤ ch → GangBecomes .scalarResultWrite s t (h.record d.o 1 4 g.lcyc 0))
        ∧ (ch < 64 → GangBecomes .scalarResultWrite s t (pushed h d.o x ch 0 (pbytes 8 v.toNat p)))))
    ∧ (∀ n v, d.job = .pred n v → GangBecomes .scalarResultWrite s t (h.onTile gid (fun x => x.setPred n v)))
    ∧ (∀ n chs chr, d.job = .chbind n chs chr → GangBecomes .scalarResultWrite s t (h.onTile gid (fun x =>
        { x with kbind := put KBind.none x.kbind n { chs := chs, chr := chr } })))
    ∧ (∀ b rd wr, d.job = .charge b rd wr → GangBecomes .scalarResultWrite s t (h.onTile gid (fun x =>
        { x with brd := put 0 x.brd b (look 0 x.brd b + BitVec.ofNat 64 rd)
                 bwr := put 0 x.bwr b (look 0 x.bwr b + BitVec.ofNat 64 wr) })))
    ∧ (∀ e v en p, d.job = .vent e v en p → GangBecomes .vectorResultWrite s t (h.onTile gid (fun x => x.setEntry e v en (p &&& hitWords en))))
    ∧ (∀ m v en, d.job = .mask m v en → GangBecomes .vectorResultWrite s t (h.onTile gid (fun x => x.setMask m v en)))
    ∧ (∀ hd dh dt, d.job = .advr hd dh dt → GangBecomes .vectorResultWrite s t (h.onTile gid (fun x => x.setRing hd
        { x.ring hd with head := ((((x.ring hd).head : Int) + dh) % ((x.ring hd).size : Int)).toNat
                         tail := ((((x.ring hd).tail : Int) + dt) % ((x.ring hd).size : Int)).toNat })))
    ∧ (∀ v, d.job = .fmt v → GangBecomes .fmtApply s t (h.onTile gid (fun x => { x with fmtr := v % 65536 })))
    ∧ (∀ r v, d.job = .sysw r v → GangBecomes .systemRegisterWrite s t (h.onTile gid (fun x => x.setSysReg r v)))
    ∧ (∀ hd b n c, d.job = .ringc hd b n c → GangBecomes .systemRegisterWrite s t (h.onTile gid (fun x => x.setRing hd
        { base := b, size := n, head := if c = true then 0 else (x.ring hd).head % n
          tail := if c = true then 0 else (x.ring hd).tail % n })))
    ∧ (∀ n ps, d.job = .xpat n ps → GangBecomes .xpatWrite s t (h.onTile gid (fun x => { x with xp := setKey x.xp n ps })))
    ∧ (∀ bs, d.job = .hist bs → GangBecomes .shistIncrement s t
        (h.onTile gid (fun x => { x with hc := bs.foldl (fun m b => put 0 m b (min 4294967295 (look 0 m b + 1))) x.hc }))))
  ∧ (∀ (s : State) (t gid : Nat) (g f : Gang) (d e : Due), TwoDue s t gid g d e →
      f = ({ g with dues := [] } : Gang).record d.o 2 6 g.lcyc 0 →
      (∀ c v w p q, d.job = .sreg c v p → e.job = .sreg c w q → 1 ≤ c → c < 32 →
        GangBecomes .scalarResultWrite s t (f.onTile gid (fun x => x.setSreg c { val := w, poison := q })))
      ∧ (∀ n v w, d.job = .pred n v → e.job = .pred n w → 1 ≤ n →
        GangBecomes .scalarResultWrite s t (f.onTile gid (fun x => x.setPred n w)))
      ∧ (∀ k v w a b p q, d.job = .vent k v a p → e.job = .vent k w b q → a &&& b ≠ 0 → GangBecomes .vectorResultWrite s t
        ((f.onTile gid (fun x => x.setEntry k v (a &&& ~~~b) (p &&& hitWords (a &&& ~~~b)))).onTile gid
          (fun x => x.setEntry k w b (q &&& hitWords b))))
      ∧ (∀ m v w a b, d.job = .mask m v a → e.job = .mask m w b → a &&& b ≠ 0 → m ≠ 0 → GangBecomes .vectorResultWrite s t
        ((f.onTile gid (fun x => x.setMask m v (a &&& ~~~b))).onTile gid (fun x => x.setMask m w b))))

/-- Accesses perform at their perform cycle. A read shows a slice or device memory as it stands, for a register, the write of its
beat, a FIFO, a tree's node or a unit; one that its port dropped shows words of the poison value. A write is staged for the cycle's
end and an atomic as one operation, in the order of precedence there; a dropped write does nothing. CHSEND's element goes to its
FIFO; an element that arrives at a full FIFO is discarded, a timetable slip of detail 4 of the receiver. The lines of MLDACC and
MSTACC, the words of MZERO, the rows of MPERM, MCHK's sums and the sums of a nest: what goes to the accumulator memory of a group
is staged there, to one that is not held goes nowhere; a nest's group is summed with the words as they stand, its flags raised. The
head of an outgoing FIFO departs in a slot cycle of its channel, at least a cycle after its push and when the beats of the last one
have left; each beat has its route, the element arrives a latency and its beats later, and until then it is addressed to its peer.
The order of effects within a cycle and the operation that a channel's fault names are the model's reading (DEDUCED, logs 7, 27);
what a dropped read gives is log 17 (DESIGN CHOICE). -/
def Obligations.AccessesPerform : Prop :=
  (∀ (s u : State) (t gid : Nat) (g h : Gang) (d : Due) (x : Tile), SoleDue s t gid g h d → g.tile gid = some x → x.gid = gid →
    (∀ p src n bs, bs = (if p = 15 then pbytes n 0 true else shown s h src n) →
      u = (if p = 15 then sawBytes s t h d.o .denied n bs else sawBytes s t h d.o src n bs) →
      (p = 15 → ∀ l, src ≠ .dev l) →
      (∀ code m sz due, d.job = .read p src n (.toReg code m sz due) →
        exec .dAccessPerform s = .next (u.onGang t (fun k => k.later d.o due (.sreg code (extendLoad sz (pval bs)) (anyPoison bs)))))
      ∧ (∀ dst due a b, d.job = .read p src n (.toBeat dst due a b) →
        exec .beatRead s = .next (u.onGang t (fun k => sent s.cfg k d.o dst due a b bs)))
      ∧ (∀ ch base due sofar rest, d.job = .read p src n (.toPush ch base due sofar rest) →
        (rest = [] → exec .beatRead s = .next (u.onGang t (fun k => k.later d.o due (.push ch base (sofar ++ bs)))))
        ∧ (∀ l ls, rest = l :: ls → exec .beatRead s = .next (u.onGang t (fun k => k.later d.o (g.lcyc + 1)
            (.read 4 (.scratch gid l) bs.length (.toPush ch base due (sofar ++ bs) ls))))))
      ∧ (∀ hd seg beat node i off, src = .scratch i off → d.job = .read p src n (.toPost hd seg beat 0 node) →
        exec .beatRead s = .next (u.onGang t (fun k => posted s.cfg k d.o hd seg beat node off bs)))
      ∧ (∀ ag off due, d.job = .read p src n (.toAcc ag off due) →
        exec .accLineMove s = .next (u.onGang t (fun k => k.later d.o due (.accPut ag off bs))))
      ∧ (∀ r, d.job = .read p src n (.toRow r) → exec .mpermRowWrite s = .next (u.onGang t (fun k => k.onTile gid (fun y =>
          { y with factor := y.factor.map (fun f => f.addRow r bs) })))))
    ∧ (∀ w ∈ writeRows, ∀ p bs, d.job = .write w.2 p bs → GangBecomes w.1 s t (stagedTo h d.o p bs))
    ∧ (∀ p bs, d.job = .write 15 p bs → GangBecomes .beatWrite s t h)
    ∧ (∀ off bs, d.job = .ctrsnap off bs →
      (bs ≠ [] → GangBecomes .ctrsnapWrite s t (stagedTo h d.o (.scratch gid off) bs))
      ∧ (bs = [] → GangBecomes .ctrsnapWrite s t h))
    ∧ (∀ off p q dr sty m sat n, d.job = .sacc off p q dr sty m sat → n = (ElemType.ofCode sty).width / 8 →
      GangBecomes .saccUpdate s t ((((h.onTile gid (fun y => (y.count 7 n).count 8 n)).watch gid off n false).watch gid off n true
        ).stageAtomic d.o 0 gid off n none d.job))
    ∧ (∀ op l w b c p code due, d.job = .atom op l w b c p code due → GangBecomes .dAccessPerform s t
        (h.stageAtomic d.o 2 0 l.addr (if 11 ≤ op then 16 else w) (some l) d.job))
    ∧ (∀ v rest c due, d.job = .barrier v rest c due →
      (v.kind = 0 → GangBecomes .barrierRegister s t (h.stageAtomic d.o 2 0 v.loc.addr 16 (some v.loc) d.job))
      ∧ (v.kind = 1 → GangBecomes .barrierCompleteBeats s t (h.stageAtomic d.o 2 0 v.loc.addr 16 (some v.loc) d.job))
      ∧ (v.kind = 2 → GangBecomes .barrierArrival s t (h.stageAtomic d.o 2 0 v.loc.addr 16 (some v.loc) d.job)))
    ∧ (∀ ch at_ bs, d.job = .push ch at_ bs → GangBecomes .chsendPush s t (pushed h d.o x ch at_ bs))
    ∧ (∀ ch bs, d.job = .arrive ch bs →
      ((x.fifo ch).elems.length ≤ (x.chan ch).depth → GangBecomes .channelArrive s t (h.onTile gid (fun y =>
        y.setFifo ch { y.fifo ch with elems := (y.fifo ch).elems ++ [{ data := bs, pushed := g.lcyc }] })))
      ∧ ((x.chan ch).depth < (x.fifo ch).elems.length → GangBecomes .channelArrive s t (h.onTile gid (fun y => y.record 1 4 6
        (if y.active.isSome ∨ y.last = (g.lcyc : Int) then y.issuedAt else y.pc) g.lcyc (BitVec.ofNat 64 ch))))))
  ∧ (∀ (s : State) (t gid : Nat) (g h : Gang) (d : Due) (x : Tile), SoleDue s t gid g h d → g.tile gid = some x → x.gid = gid →
    (∀ ag off bs, d.job = .accPut ag off bs →
      (x.group ag = [] → GangBecomes .accLineMove s t h)
      ∧ (x.group ag ≠ [] → GangBecomes .accLineMove s t (h.stageAcc d.o (x.accByte ag (off : Int)) bs)))
    ∧ (∀ ag off dst due bs, d.job = .accGet ag off dst due → bs = x.accRead ag (off : Int) 64 →
      GangBecomes .accLineMove s t ((h.sawPoison d.o (anyPoison bs)).later d.o due (.write 6 (.scratch gid dst) bs)))
    ∧ (∀ ag bank nb n, d.job = .mzero ag bank nb → n = (x.group ag).length → GangBecomes .accLineMove s t
      ((dedupNat ((List.range (min nb n)).map (fun i => (bank + i) % n))).foldl (fun k b =>
        k.stageAcc d.o (x.accByte ag ((2048 * b : Nat) : Int)) (pbytes 2048 0 false)) h))
    ∧ (∀ ag off bs, d.job = .permRow ag off bs →
      (x.group ag = [] → GangBecomes .mpermRowWrite s t h)
      ∧ (x.group ag ≠ [] → GangBecomes .mpermRowWrite s t (((List.range (bs.length / 4)).zip (chunks 4 (bs.length / 4) bs)).foldl (fun k e =>
          k.stageAcc d.o (x.accByte ag ((off + 4 * e.1 : Nat) : Int)) e.2) h)))
    ∧ (∀ r, d.job = .permGet r →
      (x.factor = none → GangBecomes .mpermRowWrite s t h)
      ∧ (∀ f bs, x.factor = some f →
        bs = (List.range f.words).flatMap (fun j => x.accRead f.ag ((f.d1.at r 0 + 4 * j : Nat) : Int) 4) →
        GangBecomes .mpermRowWrite s t ((h.onTile gid (fun y => { y with factor := some (f.addRow r bs) })).sawPoison d.o (anyPoison bs))))
    ∧ (∀ ag c me ne base due sums bytes, d.job = .mchk ag c me ne base due → sums = x.checkSums ag c me ne →
      bytes = sums.flatMap (fun v => pbytes 4 v.1 v.2.2) → GangBecomes .mchkWrite s t
        (((List.range (chunks 64 (ceilDiv bytes.length 64) bytes).length).zip (chunks 64 (ceilDiv bytes.length 64) bytes)).foldl
          (fun k l => k.later d.o (due + l.1 / 32) (.write 7 (.scratch gid (x.map (base + 64 * l.1))) l.2))
          ((h.sawPoison d.o (anyPoison bytes)).laterFlags d.o due (sums.foldl (fun f v => f ||| v.2.1) 0))))
    ∧ (∀ q ws, d.job = .nestC q → ws = q.words x →
      (x.group q.ag = [] → GangBecomes .nestCWrite s t h)
      ∧ (x.group q.ag ≠ [] → GangBecomes .nestCWrite s t
        (ws.foldl (fun k w => k.stageAcc d.o w.1 (pbytes 4 w.2.1 w.2.2.2))
          ((h.sawPoison d.o (ws.any (fun w => w.2.2.2))).laterFlags d.o g.lcyc (ws.foldl (fun f w => f ||| w.2.2.1) 0))))))
  ∧ (∀ (s : State) (t gid ch : Nat) (g : Gang) (x : Tile) (c : Chan), AtEvent s t gid → s.gang t = some g → g.tile gid = some x →
      x.gid = gid → c = x.chan ch →
      GangBecomes .channelDepart s t ((List.range 64).foldl (fun k i => match k.tile gid with
        | none => k
        | some y => k.depart s.cfg y i) g)
      ∧ (∀ e es o due h, (x.fifo ch).elems = e :: es → c.mode = 1 → (g.lcyc % 256 + 256 - c.first % 256) % 2 ^ c.per = 0 →
          e.pushed + 1 ≤ g.lcyc → (∀ v, (x.fifo ch).departed = some v → v + c.beats ≤ g.lcyc) →
          o = { gid := gid, slot := 6, addr := x.pc, issue := g.lcyc, buf := 0 } → due = g.lcyc + c.lat + c.beats - 1 →
          h = (g.onTile gid (fun y => (y.setFifo ch { elems := es, departed := some g.lcyc }).count 9 c.beats)) →
          ∀ r d, r = h.routedBeats s.cfg o (h.endOf gid) (h.endOf c.peer) g.lcyc (chunks (max 1 (c.size / c.beats)) c.beats e.data) →
          d = { due := due, o := { o with gid := c.peer }, job := .arrive c.pch r.2 } →
          g.depart s.cfg x ch = ({ r.1 with dues := r.1.dues ++ [d] } : Gang).onTile c.peer (fun y =>
            { y with addrTo := max y.addrTo (due : Int) }))
      ∧ (∀ e es, (x.fifo ch).elems = e :: es →
          c.mode ≠ 1 ∨ (g.lcyc % 256 + 256 - c.first % 256) % 2 ^ c.per ≠ 0 ∨ g.lcyc ≤ e.pushed
            ∨ (∃ v, (x.fifo ch).departed = some v ∧ g.lcyc < v + c.beats) → g.depart s.cfg x ch = g)
      ∧ ((x.fifo ch).elems = [] → g.depart s.cfg x ch = g)
      ∧ (∀ o a b cyc bs rest, g.routedBeats s.cfg o a b cyc [] = (g, [])
          ∧ (s.cfg.strayAt g a b cyc = none → (g.routedBeats s.cfg o a b cyc (bs :: rest)).1 = (g.routedBeats s.cfg o a b (cyc + 1) rest).1
            ∧ (g.routedBeats s.cfg o a b cyc (bs :: rest)).2 = bs ++ (g.routedBeats s.cfg o a b (cyc + 1) rest).2)
          ∧ (∀ at_ f, s.cfg.strayAt g a b cyc = some at_ → f = (if at_ ≤ g.lcyc then g.record o 2 11 g.lcyc 0
              else { g with dues := g.dues ++ [{ due := at_, o := o, job := .trapFault 2 11 0 }] }) →
            (g.routedBeats s.cfg o a b cyc (bs :: rest)).1 = (f.routedBeats s.cfg o a b (cyc + 1) rest).1
            ∧ (g.routedBeats s.cfg o a b cyc (bs :: rest)).2 = bs.map (fun v => { v with p := true })
                ++ (f.routedBeats s.cfg o a b (cyc + 1) rest).2)))

/-! ### The sequencer, the life of a task, the scheduler, the debugger (01, 02, 23, 25) -/

namespace Sys2Proof.Claims
open Machine

/-- A fault hold announced for a tile with a class: its target is the horizon ahead, and the class of the first one stays the task's,
in one cycle that of the lowest gang identity (R41, R43). -/
def heldFor (g : Gang) (gid cls : Nat) : Gang :=
  { g with holds := g.holds ++ [{ cause := 5, ta := g.lcyc, th := g.lcyc + g.horizon, gid := gid, buf := 0 }]
           hclass := match g.hclass with
             | none => some (g.lcyc, gid, cls)
             | some (c, i, k) => if c = g.lcyc ∧ gid < i then some (c, gid, cls) else some (c, i, k)
           anyFault := true }

/-- The members of a SYNC of a tile: the tiles of its unit (R34). -/
def syncMembers (g : Gang) (x : Tile) (w : SyncWait) : List Tile :=
  (g.tiles.map (·.2)).filter (fun y => syncUnit g.t w.level y.gid == syncUnit g.t w.level x.gid)

/-- A task held with its gang: the freeze of HOLD_FREEZE (R43). -/
def frozen (s : State) (t : Nat) (g : Gang) : State :=
  (s.onTask t (fun y => { y with st := .held })).onGang t
    (fun _ => { g with run := .frozen g.lcyc, heldSince := s.wall, resumeAt := none })

/-- A gang that stood runs on: its freeze is charged, the holds that are over and the image that its hold left are gone (R44, R45). -/
def ranOn (s : State) (t : Nat) : State :=
  (s.onTask t (fun y => { y with st := .running, snap := none })).onGang t (fun g =>
    { (match g.run with
       | .frozen _ => g.chargeHold (s.wall - g.heldSince)
       | _ => g) with holds := g.holds.filter (fun h => g.lcyc < h.th), run := .running, resumeAt := none })

end Sys2Proof.Claims

/-- The sequencer. A bundle is due in the cycle firstCycle of its tile; when that lies past the end of the stream, or its words do, the
tile records a timetable slip and is trapped. A bundle that cannot issue is skipped with its fault, class 2 detail 1 when its cycle is
not after the last one, and the tile looks for its next bundle in the same cycle. A HALT with an open region or banks retires and is
trapped with its faults. Otherwise the bundle issues: its turns go first on the agenda, a present slot with its own syllable, an
absent sticky slot with its next re-issue. A pending fault is taken at a quiescent bundle: the tile is trapped and a fault hold
announced. Quiescence that is more than max(256, QBOUND) cycles ago is a fault of class 9. A SYNC whose members have all arrived or
halted resolves at A + L for them; a quiescent one of gang level at or after a drain's target is a drain point. A failed region enters
its handler: its writes are reverted, regions from its depth on are gone, loops are cut, base is this cycle.
The CYCLE of a skipped bundle's fault, the first bundle of a handler and the order of SLOT 0's faults are the model's (DEDUCED, logs
7, 8, 29; DESIGN CHOICE, log 30). -/
def Obligations.SequencerEvents : Prop :=
  (∀ (s : State) (t gid : Nat) (g : Gang) (x : Tile), AtEvent s t gid → s.gang t = some g → g.tile gid = some x → x.gid = gid →
    (∀ (b : Bundle) (t0 : Nat), b = x.bundleAt x.pc → t0 = x.firstCycle → x.halted = none → x.trapped = none → x.active = none →
      x.wait = none →
      (g.lcyc < t0 → exec .bundleIssue s = .next s)
      ∧ (t0 ≤ g.lcyc →
        (x.pastEnd = true ∨ x.refusal b t0 g.lcyc = none ∧ x.runsOut b = true → GangBecomes .bundleIssue s t
          (heldFor (g.onTile gid (fun _ => { x.record 1 1 0 x.pc g.lcyc 0 with trapped := some g.lcyc })) gid
            (x.record 1 1 0 x.pc g.lcyc 0).fault.cls))
        ∧ (x.pastEnd = false →
          (∀ cls detail, x.refusal b t0 g.lcyc = some (cls, detail) → exec .bundleIssue s
            = .next ((s.onTile t gid (fun y => (y.record cls detail 0 b.addr t0 0).skip b t0 t0)).before [.tileTurn t gid]))
          ∧ ((t0 : Int) ≤ x.last → x.refusal b t0 g.lcyc = some (2, 1))
          ∧ (x.refusal b t0 g.lcyc = none → x.runsOut b = false →
            (b.isHalt = true → x.depth ≠ 0 ∨ x.banksHeld ≠ 0 → ∀ y z, y = (if x.depth = 0 then x else x.record 2 0 0 b.addr g.lcyc 0) →
              z = (if x.banksHeld = 0 then y else y.record 6 x.banksHeld 0 b.addr g.lcyc 0) → GangBecomes .bundleIssue s t
              (heldFor (g.onTile gid (fun _ => { z with quietAt := g.lcyc, halted := some g.lcyc, issuedAt := b.addr
                                                        trapped := some g.lcyc })) gid z.fault.cls))
            ∧ ((b.isHalt = true → x.depth = 0 ∧ x.banksHeld = 0) → ∀ v w y h,
              v = (if x.syncMark b = 2 then x.record 2 3 0 b.addr g.lcyc 0 else x) →
              w = (if b.padBad = true then v.record 3 65535 0 b.addr g.lcyc (BitVec.ofNat 64 b.header) else v) →
              y = { w with
                active := some { t0 := g.lcyc, addr := b.addr, next := b.next, rep := b.rep, i := 0, present := b.present
                                 k := x.syncMark b, q := b.q, quiet := x.isQuiet b g.lcyc, halt := false, branch := none, loop := none
                                 skipLoop := none, resync := none, sync := none
                                 issued := b.present % 2 + sumOf ((x.stickyAt b).map (fun e => 2 ^ e.1)) }
                issuedAt := b.addr
                sticky := x.stickyAt b
                quietAt := if x.isQuiet b g.lcyc = true then g.lcyc else w.quietAt
                quietWas := if x.isQuiet b g.lcyc = true ∧ b.isHalt = false then some w.quietAt else none } →
              h = g.onTile gid (fun _ => y) →
              exec .bundleIssue s = .next ((s.onGang t (fun _ => if y.breakAt b.addr = true then h.announce 3 gid 0 else h)).before
                (issueTurns t gid b.addr (b.syl 0) (x.stickyAt b))))))))
    ∧ (x.halted ≠ none ∨ x.trapped ≠ none ∨ x.active ≠ none ∨ x.wait ≠ none → exec .bundleIssue s = .next s)
    ∧ (∀ a, x.active = some a → exec .stickyReissue s
        = .next ((s.onTile t gid (fun y => { y with
            sticky := x.sticky.map (fun e => (e.1, { e.2 with k := e.2.k + 1 }))
            active := some { a with issued := sumOf (x.stickyNext.map (fun e => 2 ^ e.1)) } })).before
              (issueTurns t gid a.addr none x.stickyNext)))
    ∧ (x.active = none → exec .stickyReissue s = .next s)
    ∧ (x.fault.v = true → x.trapped = none →
      GangBecomes .trap s t (heldFor (g.onTile gid (fun y => { y with trapped := some g.lcyc })) gid x.fault.cls))
    ∧ (x.fault.v = false ∨ x.trapped ≠ none → GangBecomes .trap s t g)
    ∧ (x.halted = none → x.trapped = none → x.overdue = none → x.quietAt + max 256 x.qbound < g.lcyc →
      GangBecomes .quiescenceOverdue s t (heldFor (g.onTile gid (fun y =>
        { y.record 9 0 0 x.pc g.lcyc (BitVec.ofNat 64 (max 256 x.qbound + 1)) with overdue := some g.lcyc })) gid 9))
    ∧ (x.halted ≠ none ∨ x.trapped ≠ none ∨ x.overdue ≠ none ∨ g.lcyc ≤ x.quietAt + max 256 x.qbound →
      exec .quiescenceOverdue s = .next s)
    ∧ GangBecomes .syncResolve s t ((g.tiles.map (·.1)).foldl Gang.resolveOne g)
    ∧ (∀ w ms, x.wait = some w → ms = syncMembers g x w →
      ((∃ y ∈ ms, y.halted = none ∧ ∀ v, y.wait = some v → v.level ≠ w.level ∨ v.number ≠ w.number) → g.resolveOne gid = g)
      ∧ ((∀ y ∈ ms, y.halted ≠ none ∨ ∃ v, y.wait = some v ∧ v.level = w.level ∧ v.number = w.number) →
        ∀ a b h, a = maxOf (ms.map Tile.arrivedAt) → b = a + syncLatency g.p w.level →
        h = ms.foldl (fun h y => h.onTile y.gid (fun z => if z.wait.isSome = true then { z.newSegment b with wait := none } else z)) g →
        (g.drain = none → g.resolveOne gid = { h with stopAt := g.stopAt })
        ∧ (∀ td l, g.drain = some (td, l) →
          (4 ≤ w.level → td ≤ a → (∀ y ∈ ms, y.fault.v = false) → (∀ y ∈ ms, ∀ v, y.wait = some v → v.quiet = true
              ∧ y.busyTo < (b : Int) ∧ y.addrTo < (b : Int) ∧ y.arms.any (·.live) = false) →
            g.resolveOne gid = { h with stopAt := some b })
          ∧ (w.level < 4 ∨ a < td ∨ (∃ y ∈ ms, y.fault.v = true) ∨ (∃ y ∈ ms, ∃ v, y.wait = some v ∧ v.quiet = false) →
            g.resolveOne gid = { h with stopAt := g.stopAt }))))
    ∧ (∀ bank c, g.phase = some (bank, c) → c ≤ g.lcyc → GangBecomes .phaseSwitch s t { g with bank := bank, phase := none })
    ∧ ((∀ bank c, g.phase = some (bank, c) → g.lcyc < c) → GangBecomes .phaseSwitch s t g)
    ∧ (∀ d, x.failedRegion = some d → ∀ y o, o = { gid := gid, slot := 0, addr := x.pc, issue := g.lcyc, buf := 0 } →
      y = { x.cutRegions d with
        loops := x.loops.drop (x.loops.length - (x.region d).ldep)
        sticky := []
        base := g.lcyc
        pc := (x.region d).haddr
        late := (g.lcyc : Int)
        quietAt := g.lcyc } →
      exec .handlerEntry s = .next ((s.onGang t (fun _ => { g.onTile gid (fun _ => y) with
        staged := g.staged ++ revertWrites o (x.reversions d) })).before [.tileTurn t gid]))
    ∧ (x.failedRegion = none → exec .handlerEntry s = .next s))
  ∧ (∀ p, syncLatency p 0 = 1 ∧ syncLatency p 1 = 8 ∧ syncLatency p 2 = 16 ∧ syncLatency p 3 = 48
      ∧ syncLatency p 4 = (if p = 1 then 48 else 1152) ∧ syncLatency p 5 = 1152)

/-- Holds and drains. A gang freezes at the target of its earliest hold and is held; the causes that are due have their effects: a
refill, a reload, a mode of DCTL, the image of a debug hold, a checkpoint's save, the end of a fault hold. It resumes at the announced
wall cycle when its trees are thawed, its holds counted and gone. A drain stops at its drain point with a drain image, or goes on when a
fault is recorded; with none within its limit a checkpoint hold is announced. A save that is over frees the tiles: the task is queued at
the head of its function's queue, parked, or ends. The life of a task. A queued one without an image is launched on a placement that is
free and its turn, its frames those of its frame map or the lowest that are open; an image that cannot be read or is not sound for
launch ends it with status 7, a frame map that is not allowed with 9, no frames with 5. One with an image is restored: its gang stands as
it was saved. A running one whose tiles have all halted, with nothing in flight and no fault, ends with status 0. A record goes to its
slot of the queue, whose tail advances, and raises the function's vector when it asks for it.
When the scheduler acts and which free placement it takes are free (DESIGN CHOICE, logs 1, 10); layouts of an image, the statuses of a
drained task and the requests held at an end are the model's (DESIGN CHOICE, logs 6, 29, 31, 32). -/
def Obligations.TaskLifeEvents : Prop :=
  ((∀ (s : State) (t gid : Nat) (g : Gang) (x : Task), AtEvent s t gid → s.gang t = some g → s.task t = some x → x.id = t →
      (g.dueHolds = [] ∨ g.isHeld = true → exec .holdFreeze s = .next s)
      ∧ (g.dueHolds ≠ [] → g.isHeld = false →
        (g.allHalted = true → (∀ h ∈ g.dueHolds, h.cause ≠ 5 ∧ (g.dctl % 8 ≠ 1 ∨ h.cause ≠ 3)) → GangBecomes .holdFreeze s t
          { g with holds := g.holds.filter (fun h => h.cause == 5 || (g.dctl % 8 == 1 && h.cause == 3)) })
        ∧ (g.allHalted = false ∨ (∃ h ∈ g.dueHolds, h.cause = 5 ∨ g.dctl % 8 = 1 ∧ h.cause = 3) →
          ∀ p, p = (if g.holdsFor 0 = true then (frozen s t g).refillArms t else frozen s t g) →
          (g.holdsFor 1 = true → g.tableBad = true → exec .holdFreeze s = .next (p.killTask t 6))
          ∧ (g.holdsFor 1 = false ∨ g.tableBad = false → ∀ q r u,
            q = (if g.holdsFor 1 = true then p.onGang t (fun k => { k with tiles := k.tiles.map (fun e =>
              (e.1, { e.2 with prim := k.table, shadow := k.table })) }) else p) →
            r = (match g.dctlNext with
              | some m => if g.holdsFor 3 = true then q.applyMode t m else q
              | none => q) →
            u = (if g.holdsFor 3 = true then r.onTask t (fun y => { y with snap := y.gang.map (fun k => k.image 2 0) }) else r) →
            ∀ k y, u.gang t = some k → u.task t = some y →
            (g.holdsFor 5 = true →
              (bitAt k.dctl 4 = true → exec .holdFreeze s
                = .next (u.onTask t (fun y => { y with snap := y.gang.map (fun k => k.image 2 0) })))
              ∧ (bitAt k.dctl 4 = false → y.desc.fimg = true → exec .holdFreeze s = .next (u.onTask t (fun y => { y with st := .saving 2 2 })))
              ∧ (bitAt k.dctl 4 = false → y.desc.fimg = false → exec .holdFreeze s = .next (u.endTask t (256 + k.faultClass))))
            ∧ (g.holdsFor 5 = false → g.holdsFor 2 = true → exec .holdFreeze s
              = .next (u.onTask t (fun y => { y with st := .saving 2 (if y.park = true then 1 else 0) })))
            ∧ (g.holdsFor 5 = false → g.holdsFor 2 = false → exec .holdFreeze s = .next u))))
      ∧ (∀ w, g.resumeAt = some w →
        (w ≤ s.wall → x.st = .held ∨ x.st = .restoring → g.resolved = true →
          (s.thawAll t = none → exec .holdResume s = .next s)
          ∧ (∀ q, s.thawAll t = some q → exec .holdResume s = .next (ranOn q t)))
        ∧ (s.wall < w ∨ g.resolved = false ∨ (x.st ≠ .held ∧ x.st ≠ .restoring) → exec .holdResume s = .next s))
      ∧ (g.resumeAt = none → exec .holdResume s = .next s)
      ∧ (s.trees = [] → s.thawAll t = some s)
      ∧ (∀ b, g.stopAt = some b →
        (g.tiles.any (fun e => e.2.fault.v) = true → GangBecomes .drainStop s t { g with stopAt := none })
        ∧ (g.tiles.any (fun e => e.2.fault.v) = false →
          (b ≤ g.lcyc → g.isHeld = false → exec .drainStop s
            = .next ((s.onGang t (fun _ => { g with run := .drained b, stopAt := none, drain := none, heldSince := s.wall })).onTask t
                (fun y => { y with st := .saving 1 (if y.park = true then 1 else 0) })))
          ∧ (g.lcyc < b ∨ g.isHeld = true → exec .drainStop s = .next s)))
      ∧ (g.stopAt = none → exec .drainStop s = .next s)
      ∧ (∀ td l, g.drain = some (td, l) → l ≠ 0 → g.stopAt = none → td + l ≤ g.lcyc + 1 → GangBecomes .drainLimitExpiry s t
        { g with holds := g.holds ++ [{ cause := 2, ta := g.lcyc, th := g.lcyc + g.horizon, gid := 0, buf := 64 }]
                 drain := none })
      ∧ ((∀ td l, g.drain = some (td, l) → l = 0 ∨ g.stopAt ≠ none ∨ g.lcyc + 1 < td + l) → GangBecomes .drainLimitExpiry s t g))
    ∧ (∀ (s : State) (t : Nat) (g : Gang) (x : Task), AtOutside s [t] → s.gang t = some g → s.task t = some x →
      (∀ k n, x.st ≠ .saving k n) → exec .imageSaveComplete s = .next s)
    ∧ (∀ (s q r : State) (t kind next : Nat) (g : Gang) (x : Task), AtOutside s [t] → s.gang t = some g → s.task t = some x →
      x.st = .saving kind next → q = (({ s with imageGens := s.imageGens + 1 } : State).keepLimits g).leaveTiles g →
      r = s.onTask t (fun y => { y with snap := some (g.image 2 0), fimg := true }) →
      (next = 1 → exec .imageSaveComplete s = .next (q.onTask t (fun y => { y with
        st := .parked, gang := none, image := some (g.image kind (s.imageGens + 1)), park := false, redecide := none, extended := false
        killAt := none, snap := none, dueBy := none })))
      ∧ (next = 2 → exec .imageSaveComplete s = .next (r.endTask t (256 + g.faultClass)))
      ∧ (next = 4 → exec .imageSaveComplete s = .next (r.endTask t 10))
      ∧ (next ≠ 1 → next ≠ 2 → next ≠ 4 → exec .imageSaveComplete s = .next ((q.onTask t (fun y => { y with
        st := .queued, gang := none, image := some (g.image kind (s.imageGens + 1)), park := false, redecide := none, extended := false
        killAt := none, snap := none, dueBy := none })).toFront t))))
  ∧ (
    (∀ (s : State) (t : Nat) (x : Task), AtOutside s [t] → s.task t = some x → x.id = t →
      (x.st ≠ .queued → exec .taskLaunch s = .next s ∧ exec .drainRestore s = .next s ∧ exec .freezeRestore s = .next s)
      ∧ (x.st = .queued → x.image = none → exec .drainRestore s = .next s ∧ exec .freezeRestore s = .next s
        ∧ (s.cfg.verified = false → exec .taskLaunch s = .next s)
        ∧ (s.cfg.verified = true →
          (s.imageAt x.desc.image = none → exec .taskLaunch s = .next (s.endTask t 7))
          ∧ (∀ b, s.imageAt x.desc.image = some b →
            (s.launchable x.fn x.desc.place b = false → exec .taskLaunch s = .next (s.endTask t 7))
            ∧ (∀ v map fixed, v = imageView b → s.launchable x.fn x.desc.place b = true →
              map = (if x.desc.fmap = 0 then none else s.mapFrames x v.entries) →
              fixed = map.bind (s.mapPackages v.p v.entries) →
              (x.desc.fmap ≠ 0 → fixed = none → exec .taskLaunch s = .next (s.endTask t 9))
              ∧ (x.desc.fmap = 0 ∨ fixed ≠ none → ∀ pl, pl = (s.freePlaces x v.shape fixed).filter (s.itsTurn x v.t) →
                (pl = [] → exec .taskLaunch s = .next s)
                ∧ (∀ pkgs place n q, n = Config.choice s.tape % pl.length → pl[n]? = some (pkgs, place) → q = { s with tape := s.tape + 1 } →
                  (∀ f, map = some f → exec .taskLaunch s = .next (q.startTask x b pkgs place f))
                  ∧ (map = none → ∀ f, s.pickFrames x pkgs [] v.entries = some f → exec .taskLaunch s = .next (q.startTask x b pkgs place f))
                  ∧ (map = none → s.pickFrames x pkgs [] v.entries = none → exec .taskLaunch s = .next (q.endTask t 5))))))))
      ∧ (∀ i, x.st = .queued → x.image = some i → exec .taskLaunch s = .next s
        ∧ (i.kind ≠ 1 → exec .drainRestore s = .next s) ∧ (i.kind ≠ 2 → exec .freezeRestore s = .next s)
        ∧ ∀ r ∈ [(Instr.drainRestore, 1), (Instr.freezeRestore, 2)], i.kind = r.2 → ∀ g, g = i.gang →
          ((i.intact = false ∨ i.records.all FlightRec.ok = false ∨ g.tiles.all (fun e => s.armsOk x.fn g.t e.2.armList) = false) →
            (x.desc.snaprst = false ∨ (∃ d ∈ g.genDomains, s.liveGens t d = []) → exec r.1 s = .next (s.endTask t 4))
            ∧ (x.desc.snaprst = true → (∀ d ∈ g.genDomains, s.liveGens t d ≠ []) → ∀ q,
              q = g.genDomains.foldl (fun q d => q.revertDomain t d) ((s.onTask t (fun y => { y with restarted := true })).endTask t 4) →
              exec r.1 s = .next ((q.submit x.fn x.desc 0 x.home 0 none).onTask (q.nextTaskId x.fn) (fun y => { y with deps := [] }))))
          ∧ (i.intact = true → i.records.all FlightRec.ok = true → g.tiles.all (fun e => s.armsOk x.fn g.t e.2.armList) = true →
            (s.restoreReady x = false → exec r.1 s = .next s)
            ∧ (s.restoreReady x = true → s.restorePlace x g = none → exec r.1 s = .next s)
            ∧ (∀ pkgs place h, s.restoreReady x = true → s.restorePlace x g = some (pkgs, place) →
              h = s.withDebug (g.placed pkgs place (s.limitsAt pkgs place g.t)) →
              (∀ q, s.place x h = some q → exec r.1 s = .next q) ∧ (s.place x h = none → exec r.1 s = .next s)
              ∧ (s.trees = [] → s.place x h = some ((((s.uncacheHost h).clearIdle h).onTask t (fun y =>
                  { y with st := .restoring, gang := some h, image := none, waited := 0, dueBy := none })).releaseLaunches t))))))
    ∧ (∀ (s : State) (x : Task) (b : List Nat) (pkgs : List Nat) (place : Nat) (f : List (Nat × Nat)), s.task x.id = some x →
        ∃ h, (s.startTask x b pkgs place f).task x.id
            = some { x with st := .running, gang := some h, frames := f, waited := 0, killAt := none, dueBy := none }
          ∧ h.pkgs = pkgs ∧ h.placeIdx = place ∧ h.lcyc = 0 ∧ h.run = .running ∧ h.dues = [] ∧ h.dctl = 0 ∧ h.bank = 0)
    ∧ (∀ (s : State) (t gid : Nat) (g : Gang) (x : Task), AtEvent s t gid → s.gang t = some g → s.task t = some x →
        (x.st = .running → s.canRetire t g = true → exec .taskRetire s = .next ((s.releaseLaunches t).endTask t 0))
        ∧ (x.st ≠ .running ∨ s.canRetire t g = false → exec .taskRetire s = .next s))
    ∧ (∀ (s : State) (f : Nat) (x : Fn), AtOutside s [f] → x = s.fn f → x.pending = [] ∨ x.room = 0 →
        exec .completionRecordWrite s = .next s)
    ∧ (∀ (s q : State) (f : Nat) (x : Fn) (r : CplRec) (rest : List CplRec), AtOutside s [f] → x = s.fn f → x.pending = r :: rest →
        x.room ≠ 0 →
        q = (s.sysWrite ((x.cqbase + 32 * (x.cqtail % x.slots)) % 2 ^ 46) (clean (r.bytes x.cqtail))).setFn f
          { x with pending := rest, cqtail := (x.cqtail + 1) % 2 ^ 32 } →
        (r.irq = false → rest = [] → exec .completionRecordWrite s = .next q)
        ∧ (r.irq = true → rest = [] → exec .completionRecordWrite s = .next (q.emit 1 f [x.cqvec]))
        ∧ (r.irq = false → rest ≠ [] → exec .completionRecordWrite s = .next (q.before [.act .completionRecordWrite (.outside [f])]))
        ∧ (r.irq = true → rest ≠ [] → exec .completionRecordWrite s
          = .next ((q.emit 1 f [x.cqvec]).before [.act .completionRecordWrite (.outside [f])]))))

/-- The scheduler. A decision fixes the function that is next in a partition and applies, to every task that stands there, the row
of the table for it; the table is R405's. Row 3 extends a task for an eighth of a slice and decides again, row 4 asks for a drain and
row 5 for a checkpoint, 8,192 cycles ahead or at the horizon, row 6 sets its kill for 8,192 wall cycles ahead, rows 1 and 2 leave it
alone. An extension that is over is decided without row 3. A boundary is an instant for the serialiser, makes the next function the
current one, ages the heads of its functions' queues and performs the kills that are due.
The debugger. DEBUG_STEP lets a held gang in step mode run one cycle; a write of DCTL sets the claim and the boundary bit at once and its
mode at once for a held gang, else at its next debug hold; a reserved mode does nothing; breakpoints and watch ranges of a physical tile
keep their defined bits; a fault hold is released into the end of the task, a debug hold into its resumption; an edit of a freeze
image replaces the field, and one whose value is out of limits does nothing.
One scheduler for the domain, its candidate, the wall cycle of a boundary and the numbering of edits are the model's (DESIGN CHOICE,
logs 10, 11; DEDUCED, log 24). -/
def Obligations.SchedulerAndDebugger : Prop :=
  (
    (∀ (s q : State) (i : Nat) (p : Partition), AtOutside s [i] →
      (find? s.parts i = none → exec .schedulerDecision s = .next s ∧ exec .sliceBoundary s = .next s)
      ∧ (find? s.parts i = some p →
        (q = { s with parts := setKey s.parts i { p with next := s.nextFn p } } → exec .schedulerDecision s
          = .next ((q.tasksOf p).foldl (fun s' x => s'.decide x.id (q.candidate i { p with next := s.nextFn p }) false) q))
        ∧ (∀ r, r = s.arrive { source := 3, task := none, lcyc := 0, gid := 0, place := p.pkg * 512, act := .note } →
          q = { r with parts := setKey r.parts i { p with turn := if p.next < 256 then p.next else r.nextFn p, next := 256 } } →
          exec .sliceBoundary s = .next (((q.agedBy i p).foldl State.ageHead q).dueKills))))
    ∧ (∀ (s : State) (t gid : Nat) (x : Task), AtEvent s t gid → s.task t = some x →
        (x.redecide = none → exec .extensionRedecide s = .next s)
        ∧ (∀ w, x.redecide = some w →
          (s.parts.find? (fun e => (s.tasksOf e.2).any (fun y => y.id == t)) = none →
            exec .extensionRedecide s = .next (s.onTask t (fun y => { y with redecide := none })))
          ∧ (∀ e, s.parts.find? (fun e => (s.tasksOf e.2).any (fun y => y.id == t)) = some e →
            (w ≤ s.wall → exec .extensionRedecide s = .next (s.decide t (s.candidate e.1 e.2) true))
            ∧ (s.wall < w → exec .extensionRedecide s = .next s))))
    ∧ (∀ (s : State) (t row : Nat) (cand : Option Task) (again : Bool) (x : Task) (g : Gang), s.task t = some x → s.gang t = some g →
        row = s.rowFor x g cand again →
        s.decide t cand again = (s.onTask t (fun y => { y with redecide := none, extended := false })).actOn t row
        ∧ ((∃ p ∈ g.pkgs, (s.pkg p).pewter.hotWarn = true) →
          (bitAt g.dctl 4 = true ∨ g.dctl % 8 ≠ 0 → row = 2) ∧ (bitAt g.dctl 4 = false → g.dctl % 8 = 0 → row = 5))
        ∧ ((∀ p ∈ g.pkgs, (s.pkg p).pewter.hotWarn = false) →
          (cand = none → row = 1)
          ∧ (∀ y e m, cand = some y → e = ((g.tile 0).map (fun z => z.estm.toNat)).getD 0 → m = x.desc.policy →
            (s.wants y g = false ∨ (y.fn = x.fn ∧ y.effective ≤ x.desc.prio) → row = 1)
            ∧ (s.wants y g = true → y.fn ≠ x.fn ∨ x.desc.prio < y.effective →
              (bitAt g.dctl 4 = true ∨ g.dctl % 8 ≠ 0 → row = 2)
              ∧ (bitAt g.dctl 4 = false → g.dctl % 8 = 0 →
                (e ≤ s.sliceCycles / 8 → x.extended = false → again = false → row = 3)
                ∧ (s.sliceCycles / 8 < e ∨ x.extended = true ∨ again = true →
                  (bitAt m 1 = true → y.effective ≤ x.desc.prio + 3 ∨ bitAt m 2 = false → row = 4)
                  ∧ (bitAt m 1 = false ∨ (x.desc.prio + 3 < y.effective ∧ bitAt m 2 = true) → bitAt m 2 = true → row = 5)
                  ∧ (bitAt m 1 = false → bitAt m 2 = false → row = 6))))))
        ∧ s.actOn t 1 = s ∧ s.actOn t 2 = s
        ∧ s.actOn t 3 = s.onTask t (fun y => { y with extended := true, redecide := some (s.wall + s.sliceCycles / 8) })
        ∧ (g.drain = none → (∀ h ∈ g.holds, h.cause ≠ 2) →
          s.actOn t 4 = s.onGang t (fun _ => { g with drain := some (g.lcyc + max g.h 8192, 0) }))
        ∧ (x.st ≠ .held → (∀ h ∈ g.holds, h.cause ≠ 2) → s.actOn t 5 = s.onGang t (fun _ =>
          { g with holds := g.holds ++ [{ cause := 2, ta := g.lcyc, th := g.lcyc + max g.h 8192, gid := 0, buf := 64 }], drain := none }))
        ∧ (x.st = .held → g.holdsFor 5 = false → s.actOn t 5
          = s.onTask t (fun y => { y with st := .saving 2 (if y.park = true then 1 else 0) }))
        ∧ (x.st = .held → g.holdsFor 5 = true → s.actOn t 5 = s)
        ∧ s.actOn t 6 = s.onTask t (fun y => { y with killAt := some (s.wall + 8192) })))
  ∧ (
    (∀ (s : State) (t : Nat) (g : Gang) (x : Task), AtOutside s [t] → s.gang t = some g → s.task t = some x →
      (x.st ≠ .held → exec .debugStep s = .next s ∧ exec .debugRelease s = .next s ∧ exec .debugHoldRelease s = .next s)
      ∧ (x.st = .held →
        (g.dctl % 8 = 1 → g.holdsFor 4 = false → g.holdsFor 5 = false →
          (∀ q, s.thawAll t = some q → exec .debugStep s = .next ((ranOn q t).onGang t (fun k =>
            { k with holds := k.holds ++ [{ cause := 3, ta := k.lcyc, th := k.lcyc + 1, gid := 0, buf := 64 }] })))
          ∧ (s.thawAll t = none → exec .debugStep s = .next s))
        ∧ (g.dctl % 8 ≠ 1 ∨ g.holdsFor 4 = true ∨ g.holdsFor 5 = true → exec .debugStep s = .next s)
        ∧ (g.holdsFor 5 = true → exec .debugRelease s = .next ((s.releaseLaunches t).endTask t (256 + g.faultClass)))
        ∧ (g.holdsFor 5 = false → exec .debugRelease s = .next s)
        ∧ exec .debugHoldRelease s = .next (((s.releaseLaunches t).onGang t (fun k =>
            { k with holds := k.holds.filter (fun h => k.lcyc < h.th || h.cause != 3) })).planResume t)))
    ∧ (∀ (s : State) (t v : Nat) (g : Gang) (x : Task), AtOutside s [t, v] → s.gang t = some g → s.task t = some x →
      (3 ≤ v % 8 → exec .dctlWrite s = .next s)
      ∧ (v % 8 < 3 → ∀ p q r, p = s.onGang t (fun _ => { g with dctl := g.dctl % 8 + v / 8 % 4 * 8 }) →
        (x.st ≠ .held → q = s.onGang t (fun _ => { g with dctl := g.dctl % 8 + v / 8 % 4 * 8, dctlNext := some (v % 8) })) →
        (x.st = .held → g.dctl % 8 = v % 8 → q = p) →
        (x.st = .held → g.dctl % 8 ≠ v % 8 → q = (p.applyMode t (v % 8)).onGang t (fun k => { k with resumeAt := none })) →
        r = (if bitAt g.dctl 4 = true ∧ bitAt v 4 = false then q.releaseLaunches t else q) →
        exec .dctlWrite s = .next (if x.st = .held ∧ g.holdsFor 5 = true ∧ bitAt v 4 = false then r.endTask t (256 + g.faultClass) else r)))
    ∧ (∀ (s : State) (p f r v : Nat), AtOutside s [p, f, r, v] →
      (12 ≤ r ∨ 32 ≤ f → exec .debugRegisterWrite s = .next s)
      ∧ (r < 12 → f < 32 → ∀ w q, w = BitVec.ofNat 64 (if r < 8 then bitsOf v 63 63 * 2 ^ 63 + bitsOf v 31 0
          else bitsOf v 63 61 * 2 ^ 61 + bitsOf v 41 0) →
        q = s.setPkg p { s.pkg p with debug := setKey (s.pkg p).debug f (put 0 (look [] (s.pkg p).debug f) r w) } →
        (q.tileAt p f = none → exec .debugRegisterWrite s = .next q)
        ∧ (∀ t gid, q.tileAt p f = some (t, gid) → exec .debugRegisterWrite s = .next (q.onTile t gid (fun x =>
          if r < 8 then { x with bpa := put 0 x.bpa r w } else { x with wr := put 0 x.wr (r - 8) w })))))
    ∧ (∀ (s : State) (t kind gid n v p : Nat) (x : Task), AtOutside s [t, kind, gid, n, v, p] → s.task t = some x →
      (∀ g, x.gang = some g → s.gang t = some g →
        (x.st = .held → x.snap ≠ none → exec .freezeImageEdit s = .next ((s.onGang t (fun _ => g.edit kind gid n v p)).onTask t (fun y =>
          { y with snap := y.gang.map (fun k => k.image 2 0) })))
        ∧ (x.st ≠ .held ∨ x.snap = none → exec .freezeImageEdit s = .next s))
      ∧ (x.gang = none → exec .freezeImageEdit s = .next (s.onTask t (fun y => { y with
          image := y.image.map (fun i => if i.kind = 2 then (i.gang.edit kind gid n v p).image 2 i.gen else i)
          snap := y.snap.map (fun i => (i.gang.edit kind gid n v p).image 2 i.gen) }))))
    ∧ (∀ (g : Gang) (x : Tile) (gid n v p : Nat), g.tile gid = some x →
      (1 ≤ n → n < 32 → v < 2 ^ 64 → p < 2 → g.edit 1 gid n v p
        = g.onTile gid (fun _ => x.setSreg n { val := BitVec.ofNat 64 v, poison := p == 1 }))
      ∧ (1 ≤ n → n < 8 → v < 2 → g.edit 2 gid n v p = g.onTile gid (fun _ => x.setPred n (v == 1)))
      ∧ (n < x.size → v < 256 → g.edit 4 gid n v p = g.onTile gid (fun _ => { x with scratch := writeByte x.scratch n (BitVec.ofNat 8 v) }))
      ∧ (v < 4 * x.codeLen → v % 4 = 0 → g.edit 5 gid n v p = g.onTile gid (fun _ => { x with pc := v }))
      ∧ (4 * x.codeLen ≤ v ∨ v % 4 ≠ 0 → g.edit 5 gid n v p = g)
      ∧ (n < 128 → v < 2 ^ 1024 → p < 2 ^ 32 → g.edit 7 gid n v p = g.onTile gid (fun _ =>
          { x with v := put VEntry.zero x.v n { bits := BitVec.ofNat 1024 v, poison := BitVec.ofNat 32 p } }))
      ∧ (2 ^ 64 ≤ v → g.edit 3 gid n v p = g)))

/-! ### Units, trees, engines, the world outside (13, 15, 17, 19, 21, 23, 26, 27) -/

namespace Sys2Proof.Claims
open Machine

/-- What a tile keeps while an instruction issues on it: its scalar, predicate, mask and vector registers, its rings, every byte of
its memories, FMTR, its patterns, k bindings, control words and PERM, the accumulator groups and the shadow set. -/
def Keeps (x y : Tile) : Prop :=
  y.s = x.s ∧ y.p = x.p ∧ y.m = x.m ∧ y.v = x.v ∧ y.rings = x.rings ∧ y.scratch = x.scratch ∧ y.scratchPoison = x.scratchPoison
    ∧ y.acc = x.acc ∧ y.accPoison = x.accPoison ∧ y.fmtr = x.fmtr ∧ y.xp = x.xp ∧ y.kbind = x.kbind ∧ y.vct = x.vct ∧ y.perm = x.perm
    ∧ y.groups = x.groups ∧ y.nestShadow = x.nestShadow

/-- A scalar result of a D slot's operation that is due in the cycle in progress (R145). -/
def landing (g : Gang) (gid addr issue code v : Nat) : Due :=
  { due := g.lcyc, o := { gid := gid, slot := 6, addr := addr, issue := issue, buf := 0 }, job := .sreg code (BitVec.ofNat 64 v) false }

/-- Pewter of a package changed. -/
def pewtered (s : State) (p : Nat) (w : Pewter) : State := s.setPkg p { s.pkg p with pewter := w }

/-- An SPDM response of a package: its code, then its content (R459). -/
def replied (s : State) (p code : Nat) (content : List Nat) : State :=
  ({ s with tape := s.tape + 1 } : State).emit 4 p (code :: content)

/-- The connection of a package's responder changed. -/
def connected (s : State) (p : Nat) (c : Spdm) : State := pewtered s p { (s.pkg p).pewter with spdm := c }

end Sys2Proof.Claims

/-- The units of a tile and the engines of the device. A nest whose copy is due becomes the active one; a pending one follows at the
last step of the active one. Every nest reads its group of the cycle; a factorisation loads, steps and tests its next step, and ends. A
snapshot at its cycle starts a generation or answers why not; it and GENQ give their results to the tile 600 cycles later, of the
samples that were taken. The oldest generation of a stack drains there; the last part puts it into the lower tier. The trees of a gang
fold their ranges, then their deliveries perform. A wait of a core that may end ends with its status; a copy of a context goes on by a
line; a scrub zeroes its next unit but for a mapped frame; a move of a page takes along its lines, its entry and what names it; a
patrol changes no value.
The times of engines are free (DESIGN CHOICE, log 1), the order within a cycle is the model's reading (DEDUCED, log 7), a wait of a
scrub, the packages of a move and the lower tier are logs 24 and 33 (DESIGN CHOICE, DEDUCED). -/
def Obligations.UnitsTreesEngines : Prop :=
  (∀ (s : State) (t gid : Nat) (g : Gang) (x : Tile), AtEvent s t gid → s.gang t = some g → g.tile gid = some x → x.gid = gid →
    (∀ h d n, SoleDue s t gid g h d → d.job = .copyNest n →
      GangBecomes .nestStart s t (h.onTile gid (fun y => ({ y with nest := some n } : Tile).turnNest g.lcyc)))
    ∧ ((∀ d ∈ g.dues, d.due ≤ g.lcyc → d.o.gid ≠ gid) → GangBecomes .nestStart s t (g.onTile gid (fun y => y.turnNest g.lcyc)))
    ∧ (∀ a w, x.nest = some a → x.nestPending = some w → a.t0 + a.steps ≤ g.lcyc + 1 →
      x.turnNest g.lcyc = { x with nest := some w, nestPending := none })
    ∧ (∀ a, x.nest = some a → x.nestPending = none → a.t0 + a.steps ≤ g.lcyc → 1 ≤ a.steps → x.turnNest g.lcyc = { x with nest := none })
    ∧ (x.nest = none → x.nestPending = none → GangBecomes .nestStep s t g)
    ∧ (∀ n h k, x.nest = some n → x.nestPending = none → 1 ≤ n.steps →
      (n.groupAt g.lcyc = none → h = g) →
      (∀ p q len r, n.groupAt g.lcyc = some (p, q, len) → r = g.readGroup x n p q len →
        h = if r.2 = true then r.1.onTile gid (fun y => { y with nest := y.nest.map (fun m => { m with dropped := true }) }) else r.1) →
      k = (if n.t0 ≤ g.lcyc ∧ g.lcyc < n.t0 + n.steps then h.onTile gid (fun y => y.count 6 1) else h) →
      GangBecomes .nestStep s t k)
    ∧ GangBecomes .nestStep s t (g.stepNests x)
    ∧ (x.factor = none → GangBecomes .factorisationStep s t g ∧ exec .factorisationEnd s = .next s)
    ∧ (∀ f o, x.factor = some f → o = { gid := gid, slot := 5, addr := f.addr, issue := f.issue, buf := 0 } →
      (f.kind = 5 → g.lcyc = f.issue + 2 + f.d1.edge → ∀ r h, r = f.exchange →
        h = g.onTile gid (fun y => { y with factor := some r.1 }) →
        GangBecomes .factorisationStep s t ((if r.2 = true then h.record o 2 10 h.lcyc 0 else h).writeRows x o r.1))
      ∧ (f.kind = 5 → g.lcyc ≠ f.issue + 2 + f.d1.edge → GangBecomes .factorisationStep s t g)
      ∧ (f.kind ≠ 5 → g.lcyc = f.issue + 2 → GangBecomes .factorisationStep s t (g.loadFactor x f))
      ∧ (∀ k h, f.kind ≠ 5 → g.lcyc = f.issue + 3 + k * f.stepCycles → 1 ≤ f.stepCycles → g.lcyc ≤ f.end_ →
        h = (if k = 0 then f else f.runStep (k - 1)) →
        (h.stopsAt k = false → GangBecomes .factorisationStep s t (g.onTile gid (fun y => { y with factor := some h })))
        ∧ (h.stopsAt k = true → ∀ q, q = { h with stop := some k } → GangBecomes .factorisationStep s t
          ((g.onTile gid (fun y => { y with factor := some q })).record o (if f.kind = 1 then 7 else 8) k g.lcyc (BitVec.ofNat 64 q.status))))
      ∧ (f.end_ ≤ g.lcyc → GangBecomes .factorisationEnd s t (g.endFactor x f)
        ∧ (f.kind = 5 → g.endFactor x f = g.onTile gid (fun y => { y with factor := none })))
      ∧ (g.lcyc < f.end_ → exec .factorisationEnd s = .next s))
    ∧ ((∀ q ∈ g.snaps, q.c ≠ g.lcyc) → GangBecomes .snapCycle s t g)
    ∧ (∀ q st n m, g.snaps = [q] → q.c = g.lcyc → n = look 0 g.gnum q.dom → m = (n + 1) % 65536 →
      st = (if q.status = 3 then 3 else if 4 ≤ (s.liveGens t q.dom).length then 2
        else if (g.domainStacks q.dom).any (fun k => s.spareFree k < g.writableBlocks q.dom k) = true then 1 else 0) →
      (st ≠ 0 → GangBecomes .snapCycle s t { g with snaps := [{ q with status := st, g := n }] })
      ∧ (st = 0 → ∀ k e w a, k = { g with gnum := put 0 g.gnum q.dom m } →
        e = ({ task := t, dom := q.dom, number := m, pages := k.domainPages q.dom, old := [], bad := []
               left := (k.domainStacks q.dom).map (fun i => (i, pageBlocks (k.domainPages q.dom) i)), ops := [], blocks := [] } : Gen) →
        w = { s.onGang t (fun _ => k) with gens := s.gens ++ [e] } →
        a = ({ source := 6, task := some t, lcyc := g.lcyc, gid := 0, place := w.tilePlace k 0, act := .gen t q.dom m } : Ev) →
        exec .snapCycle s = .next ((w.arrive a).onGang t (fun h => { h with snaps := [{ q with status := 0, g := m }] }))))
    ∧ GangBecomes .snapResult s t { g with
        snaps := g.snaps.filter (fun q => g.lcyc < q.c + 600)
        dues := g.dues ++ (g.snaps.filter (fun q => q.c + 600 ≤ g.lcyc)).map (fun q =>
          landing g q.gid q.addr q.t q.code (q.g * 2 ^ 48 + q.status * 2 ^ 40)) }
    ∧ GangBecomes .genqSample s t { g with genqs := g.genqs.map (fun q =>
        { q with left := q.left.filter (fun e => g.lcyc < e.2)
                 live := max q.live (maxOf (((q.left.filter (fun e => e.2 ≤ g.lcyc)).map (fun e => s.genqSampleOf t q.dom e.1)).map (·.1)))
                 blocks := q.blocks + sumOf (((q.left.filter (fun e => e.2 ≤ g.lcyc)).map (fun e => s.genqSampleOf t q.dom e.1)).map (·.2)) }) }
    ∧ (∀ dom k live, live = s.gens.filter (fun e => e.task == t && e.dom == dom && e.left.any (fun p => p.1 == k)) →
      (s.genqSampleOf t dom k).1 = live.length ∧ (live = [] → (s.genqSampleOf t dom k).2 = 0)
      ∧ (∀ e es n, live = e :: es → e.left.find? (fun p => p.1 == k) = some (k, n) → (s.genqSampleOf t dom k).2 = n))
    ∧ GangBecomes .genqResult s t { g with
        genqs := g.genqs.filter (fun q => g.lcyc < q.t + 600)
        dues := g.dues ++ (g.genqs.filter (fun q => q.t + 600 ≤ g.lcyc)).map (fun q => landing g q.gid q.addr q.t q.code
          (look 0 g.gnum q.dom * 2 ^ 48 + min 7 q.live * 2 ^ 45 + min (2 ^ 32 - 1) q.blocks)) }
    ∧ exec .treeFold s = .next ((s.trees.filter (fun e => e.2.users.contains t)).foldl (fun s' e => s'.foldTree t e.1 e.2) s)
    ∧ (∀ h r, r.frozen = true → s.foldTree t h r = s)
    ∧ (∃ u, exec .treeDelivery s = .next u ∧ u.dev = s.dev ∧ u.sys = s.sys ∧ u.cores = s.cores)
    ∧ (s.trees = [] → ∀ h d hd seg beat fl p bs, SoleDue s t gid g h d → d.job = .deliver hd seg beat fl p bs →
      (bs ≠ [] → GangBecomes .treeDelivery s t ((stagedTo h d.o p bs).onTile gid (fun y => y.delivered hd seg beat fl)))
      ∧ (bs = [] → GangBecomes .treeDelivery s t h)))
  ∧ (∀ (s : State) (t dom k : Nat), AtOutside s [t, dom, k] →
    (s.gens.find? (fun g => g.task == t && g.dom == dom && (g.left.isEmpty || s.draining k == some g)) = none →
      exec .generationDrainComplete s = .next s)
    ∧ (∀ g h, s.gens.find? (fun g => g.task == t && g.dom == dom && (g.left.isEmpty || s.draining k == some g)) = some g →
      h = { g with left := g.left.filter (fun e => e.1 != k) } →
      (h.left ≠ [] → exec .generationDrainComplete s = .next { s with gens := s.gens.map (fun e => if e = g then h else e) })
      ∧ (h.left = [] → ∀ d u, d = s.drainedCopy g →
        u = (dedupNat ((s.badWordsOf g).map (· / 16))).foldl (fun q w =>
          q.logEvent 1 1 (w * 64 / 2 ^ 39 * 512 + w * 64 / 2 ^ 36 % 8) t (64 * w) 0) s →
        exec .generationDrainComplete s = .next { u with
          gens := s.gens.filter (fun e => !(e == g)), tier := s.tier.filter (fun e => !(e.task == t && e.dom == dom)) ++ [d] })))
  ∧ (∀ (s : State) (c : Nat) (y : AgentCore), AtOutside s [c] → y = s.core c →
    (∀ line lim since d, y.wait = some (.line line lim since true d) →
      CoreBecomes .waitaReturn s c ((({ y with wait := none } : AgentCore).setReg d 0).advance) ∧ exec .waitaTimeout s = .next s)
    ∧ (∀ line l since d, y.wait = some (.line line (some l) since false d) → since + l ≤ s.wall →
      CoreBecomes .waitaTimeout s c ((({ y with wait := none } : AgentCore).setReg d 11).advance) ∧ exec .waitaReturn s = .next s)
    ∧ (∀ line lim since d, y.wait = some (.line line lim since false d) → (∀ l, lim = some l → s.wall < since + l) →
      exec .waitaReturn s = .next s ∧ exec .waitaTimeout s = .next s)
    ∧ (∀ i n d, y.wait = some (.timeline i n d) →
      (n ≤ s.ctxTime c i → CoreBecomes .waittReturn s c ((({ y with wait := none } : AgentCore).setReg d 0).advance))
      ∧ (s.ctxTime c i < n → exec .waittReturn s = .next s))
    ∧ (∀ i n d, y.wait = some (.batches i n d) →
      ((y.ctx i).openBatches ≤ n → CoreBecomes .waitbReturn s c ((({ y with wait := none } : AgentCore).setReg d 0).advance))
      ∧ (n < (y.ctx i).openBatches → exec .waitbReturn s = .next s))
    ∧ (y.wait = none → ∀ i ∈ [Instr.waitaReturn, .waitaTimeout, .waittReturn, .waitbReturn], exec i s = .next s))
  ∧ (∀ (s q : State) (c i : Nat) (ops : List CopyOp), AtOutside s [c, i] → ops = ((s.core c).ctx i).ops → q = { s with tape := s.tape + 1 } →
    (ops = [] → exec .copyComplete s = .next s)
    ∧ (∀ o, ops[Config.choice s.tape % ops.length]? = some o →
      (o.started = false → o.bar = none → exec .copyComplete s = .next (q.onCopy c i o.n (fun e => { e with started := true })))
      ∧ (∀ a r, o.started = false → o.bar = some a → r = q.barrierAt (rawLoc a) 0 o.beats false →
        (r.2.2 = true → exec .copyComplete s = .next (r.1.copyEnds c i { o with refused := true }))
        ∧ (r.2.2 = false → exec .copyComplete s = .next (r.1.onCopy c i o.n (fun e => { e with started := true }))))
      ∧ (∀ stop r, o.started = true → o.at_ < o.len → stop = min o.len (o.at_ + (64 - (o.dst + o.at_) % 64)) →
        r = q.copyPieces c o 9 o.at_ stop →
        exec .copyComplete s = .next (r.1.onCopy c i o.n (fun e => { e with at_ := stop, refused := r.2 })))
      ∧ (o.started = true → o.len ≤ o.at_ → exec .copyComplete s = .next ((q.copyBeats o).copyEnds c i o))))
  ∧ (∀ (s : State) (p : Nat), AtOutside s [p] →
    ((s.pkg p).scrub = none → exec .scrubUnitDone s = .next s)
    ∧ (∀ j, (s.pkg p).scrub = some j →
      (j.total ≤ j.done ∨ j.frame.any s.frameMapped = true → exec .scrubUnitDone s = .next s)
      ∧ (j.frame.any s.frameMapped = false → ∀ q, q = s.scrubUnit p j →
        (j.done + 1 < j.total → exec .scrubUnitDone s = .next (q.setPkg p { q.pkg p with scrub := some { j with done := j.done + 1 } }))
        ∧ (j.done + 1 = j.total → exec .scrubUnitDone s = .next
          ((q.setPkg p { q.pkg p with scrub := some { j with done := j.done + 1 } }).scrubEnds p { j with done := j.done + 1 })))
      ∧ (∀ i, j.done = popCount 32 j.tiles + i → s.scrubUnit p j
        = s.devWrite (nthD 0 j.frames (i / 32) * 2 ^ 21 + i % 32 * 65536) (clean (List.replicate 65536 0)))
      ∧ (∀ k f q, j.done < popCount 32 j.tiles → k = s.pkg p → f = nthD 0 ((List.range 32).filter (fun b => bitAt j.tiles b)) j.done →
        q = s.setPkg p { k with idle := setKey k.idle f { k.idleTile f with tile := (k.idleTile f).tile.scrubbed, lcyc := 0 }
                                limits := setKey k.limits f (0, 0), debug := dropKey k.debug f } →
        (q.tileAt p f = none → s.scrubUnit p j = q)
        ∧ (∀ t gid, q.tileAt p f = some (t, gid) → s.scrubUnit p j = q.onTile t gid Tile.scrubbed))))
  ∧ (∀ (s : State) (n : Nat), AtOutside s [n] →
    (s.migrations[n]? = none → exec .migrationComplete s = .next s)
    ∧ (∀ m, s.migrations[n]? = some m →
      ((∀ x, s.task m.task = some x → x.image = none) → exec .migrationComplete s = .next { s with migrations := s.migrations.eraseIdx n })
      ∧ (∀ x i e e' v r own, s.task m.task = some x → x.image = some i → e = look 0 i.gang.table m.entry →
        v = { src := i.gang.xlLoc e 0, dst := { i.gang.xlLoc e 0 with addr := m.dst, key := m.key }, size := entryFrames e * 2 ^ 21 } →
        own = (fun (h : Gen) => h.task == m.task) →
        r = ({ s with migrations := s.migrations.eraseIdx n, gens := s.gens.filter (fun h => !own h) } : State).moveLines v.src v.dst
          (v.size / 64) 0 →
        e' = movedEntry e (i.gang.logicalPackage (m.dst / 2 ^ 39)) (m.dst / 2 ^ 36 % 8) (m.dst / 2 ^ 21) m.key →
        exec .migrationComplete s = .next (({ r with gens := s.gens.map (fun h =>
            if own h = true then h.moved { s with migrations := s.migrations.eraseIdx n } v
            else (r.gens.find? (fun k => k.task == h.task && k.dom == h.dom && k.number == h.number)).getD h) } : State).onTask m.task (fun y =>
          { y with image := some { (i.gang.movePage m.entry e' v).image i.kind i.gen with intact := i.intact }
                   frames := moveFrames y.frames (frameOf v.src.addr) (frameOf m.dst) })))))
  ∧ (∀ (s : State) (p k : Nat), AtOutside s [p, k] → exec .patrolScrub s
      = .next (s.setPkg p { s.pkg p with scrPos := ((s.pkg p).scrPos + 1) % (8 * (stackLimit / 64)) }))

/-- The world outside: power and resets, requests to Pewter of a package, errors, temperatures, firmware, the SPDM responder, links, flits
and the host port, writes of registers. A refused request answers 0 and changes nothing else. Flits have 384 bytes, striped over the
working lanes.
What the model chose or took from elsewhere in these events is in logs 4, 5, 10 to 14, 21 and 34 (DESIGN CHOICE, DEDUCED) and in 15 and
16 (PRESUMED). -/
def Obligations.OutsideEvents : Prop :=
  (∀ (s : State) (p : Nat), AtOutside s [p] →
    (s.cfg.packages ≤ p → exec .powerOn s = .next s)
    ∧ (p < s.cfg.packages → ∃ u, exec .powerOn s = .next u ∧ u.sys = s.sys ∧ u.parts = s.parts ∧ u.grants = s.grants ∧ u.wall = s.wall
      ∧ u.dev = s.dev.filter (fun e => e.1 / 2 ^ 39 != p) ∧ u.tasks = s.tasks.filter (fun e => !e.2.livesOn p)
      ∧ (u.pkg p).pewter.log = (s.pkg p).pewter.log ∧ (u.pkg p).pewter.banks = (s.pkg p).pewter.banks
      ∧ (u.pkg p).pewter.activeBank = (s.pkg p).pewter.bootBank ∧ (u.pkg p).quarTiles = (s.pkg p).quarTiles
      ∧ (u.pkg p).quarFrames = (s.pkg p).quarFrames ∧ (u.pkg p).since = s.wall ∧ (u.pkg p).pewter.powered = true
      ∧ (∀ c fw, c / 8 = p → fw = (((s.pkg p).pewter.bank (s.pkg p).pewter.bootBank).agent.take 65536) →
        u.core c = { AgentCore.reset with sram := writeBytes [] 0 fw })
      ∧ (∀ c, c / 8 ≠ p → u.core c = s.core c) ∧ (∀ l, l < 12 → (u.link p l).latency = some (Config.linkLatency p l))
      ∧ (p = 0 → u.fns = [] ∧ u.ptm = none))
    ∧ (∃ u, exec .warmReset s = .next u ∧ (u.pkg p).drainSub = 0 ∧ (u.pkg p).quarTiles = (s.pkg p).quarTiles
      ∧ (u.pkg p).since = (s.pkg p).since ∧ (u.pkg p).limits = (s.pkg p).limits ∧ (u.pkg p).scrub = (s.pkg p).scrub.map ScrubJob.again
      ∧ (∀ c, c / 8 = p → (u.core c).pc = AgentCore.reset.pc ∧ (u.core c).lv = 1 ∧ (u.core c).wait = none ∧ ∀ r, (u.core c).reg r = 0))
    ∧ exec .functionReset s
      = .next (s.setFn p { s.fn p with cqbase := 0, cqsize := 0, cqhead := 0, cqtail := 0, cqlost := 0, cqvec := 0 })
    ∧ (∀ q, q = pewtered (s.logEvent 4 0 (512 * p) 0 0 0) p { ((s.logEvent 4 0 (512 * p) 0 0 0).pkg p).pewter with powered := false } →
      exec .criticalTemperature s = .next { q with tasks := s.tasks.filter (fun e => match e.2.gang with
        | some g => !g.pkgs.contains p
        | none => true) })
    ∧ exec .ptmSync s = .next { s with ptm := some (s.wall, p) })
  ∧ (∀ (s : State) (a b c d : Nat), AtOutside s [a, b, c, d] →
    (∀ p, s.partitionAs a b c d = some p → exec .partitionRequest s = .next (({ s with parts := p } : State).emit 3 0 [1]))
    ∧ (s.partitionAs a b c d = none → exec .partitionRequest s = .next (s.emit 3 0 [0])))
  ∧ (∀ (s : State) (part v tiles : Nat) (p : Partition),
    (v < s.cfg.packages → tiles < 2 ^ 32 → s.tilesApart part v tiles = true → s.partitionAs 0 part v tiles = some (setKey s.parts part
      { (find? s.parts part).getD { Partition.whole v with fns := [] } with pkg := v, tiles := tiles }))
    ∧ (s.cfg.packages ≤ v ∨ 2 ^ 32 ≤ tiles ∨ s.tilesApart part v tiles = false → s.partitionAs 0 part v tiles = none)
    ∧ (find? s.parts part = none → s.partitionAs 1 part v tiles = none ∧ s.partitionAs 2 part v tiles = none ∧ s.partitionAs 3 part v tiles = none)
    ∧ (find? s.parts part = some p →
      (p.fns.contains v = true → s.partitionAs 1 part v tiles = some s.parts)
      ∧ (p.fns.contains v = false → p.fns.length < 64 → v < 64 ∨ v = 255 →
        s.partitionAs 1 part v tiles = some (setKey s.parts part { p with fns := p.fns ++ [v] }))
      ∧ (p.fns.contains v = false → 64 ≤ p.fns.length ∨ (64 ≤ v ∧ v ≠ 255) → s.partitionAs 1 part v tiles = none)
      ∧ s.partitionAs 2 part v tiles = some (setKey s.parts part { p with fns := p.fns.filter (· != v) })
      ∧ s.partitionAs 3 part v tiles = some (dropKey s.parts part)))
  ∧ (∀ (s : State) (fn a b c n first : Nat), AtOutside s [fn, a, b, c, n] → first = a * 2 ^ 18 + b * 2 ^ 15 + c →
    (s.cfg.packages ≤ a ∨ 8 ≤ b ∨ 24576 < c + n → exec .frameGrant s = .next (s.emit 3 0 [0]))
    ∧ (a < s.cfg.packages → b < 8 → c + n ≤ 24576 →
      (fn = 256 ∨ ((fn < 64 ∨ fn = 255) ∧ ∀ f ∈ upFrom first n, s.cfg.reserved.contains f = false ∧ (find? s.grants f).getD fn = fn) →
        exec .frameGrant s = .next (({ s with grants := grantRun s.grants fn first n } : State).emit 3 0 [1]))
      ∧ (fn ≠ 256 → (64 ≤ fn ∧ fn ≠ 255) ∨ (∃ f ∈ upFrom first n, s.cfg.reserved.contains f = true ∨ (find? s.grants f).getD fn ≠ fn) →
        exec .frameGrant s = .next (s.emit 3 0 [0]))))
  ∧ (∀ (s : State) (a b c d : Nat),
    (AtOutside s [0, a] →
      (s.devExists a = true → exec .errorInjection s
        = .next (({ s with devBad := (upFrom (a / 64 * 16) 16).foldl addNum s.devBad } : State).emit 3 0 [1]))
      ∧ (s.devExists a = false → exec .errorInjection s = .next (s.emit 3 0 [0])))
    ∧ (AtOutside s [1, a, b, c] → exec .errorInjection s = .next ((s.onTile a b (fun y =>
        if 4 * c + 4 ≤ y.size then y.storeScratch (4 * c) (poisonedBytes 0 4) else y)).noteTile a b (4 * c)))
    ∧ (AtOutside s [2, a, b, c] → exec .errorInjection s = .next ((s.onTile a b (fun y =>
        if c < 262144 then y.storeAcc (4 * c) (poisonedBytes 0 4) else y)).noteTile a b (4 * c)))
    ∧ (AtOutside s [3, a, b, c, d] → exec .errorInjection s = .next (s.onTile a b (fun y =>
        { y with prim := setKey y.prim c ((look 0 y.prim c ^^^ d) % 2 ^ 128) })))
    ∧ (AtOutside s [4, a, b, c, d] → exec .errorInjection s = .next (s.onTile a b (fun y =>
        { y with shadow := setKey y.shadow c ((look 0 y.shadow c ^^^ d) % 2 ^ 128) })))
    ∧ (AtOutside s [5, a, b, c] → exec .errorInjection s = .next (s.onTile a b (fun y => { y with badWords := addNum y.badWords c })))
    ∧ (AtOutside s [6, a] → exec .errorInjection s = .next (s.onGang a (fun g => { g with tableBad := true })))
    ∧ (AtOutside s [7, a] → exec .errorInjection s
      = .next (s.onTask a (fun x => { x with image := x.image.map (fun i => { i with intact := false }) })))
    ∧ (AtOutside s [8, a, b, c, d] → exec .errorInjection s = .next (s.logEvent 0 a b c d 0))
    ∧ (AtOutside s [9, a, b, c, d] → exec .errorInjection s = .next ((s.onTile a b (fun y =>
        if c < 128 ∧ d < 32 then y.breakEntry c d else y)).noteTile a b c)))
  ∧ (∀ (s : State) (p n k : Nat), (AtOutside s [p, n] →
      (∀ v, (s.pkg p).pewter.log[n]? = some v → exec .logRead s
        = .next (s.emit 3 0 [1, v.wtime, v.sev, v.unit, v.place, v.task, v.addr, v.code]))
      ∧ ((s.pkg p).pewter.log[n]? = none → exec .logRead s = .next (s.emit 3 0 [0]))
      ∧ exec .warningTemperature s = .next (pewtered s p { (s.pkg p).pewter with hotWarn := n ≠ 0 }))
    ∧ (AtOutside s [p, k, n] →
      (k = 0 → exec .sensorRead s
        = .next (({ s with tape := s.tape + 1 } : State).emit 3 0 [1, Config.sensor (64 * p + n) s.tape]))
      ∧ (k = 1 → p < s.cfg.packages → n < 12 → exec .sensorRead s = .next (s.emit 3 0
          [1, (s.link p n).unc * 2 ^ 48 + (s.link p n).corr * 2 ^ 32 + look 0 s.cfg.dw (16 * p + n) % 16 * 2 ^ 20
            + (s.link p n).w % 16 * 2 ^ 16 + (s.link p n).lmap]))
      ∧ (k = 1 → s.cfg.packages ≤ p ∨ 12 ≤ n → exec .sensorRead s = .next (s.emit 3 0 [0]))
      ∧ (2 ≤ k → exec .sensorRead s = .next (s.emit 3 0 [0]))))
  ∧ (∀ (s : State) (p v sig n : Nat) (bs ds : List Nat) (w : Pewter), AtOutside s (p :: v :: sig :: n :: bs) → w = (s.pkg p).pewter →
    ds = bs.map (· % 256) →
    (v < w.minVersion ∨ Config.sm2Valid (digestOf ds) sig = false → exec .firmwareUpdate s = .next (s.emit 3 0 [0]))
    ∧ (w.minVersion ≤ v → Config.sm2Valid (digestOf ds) sig = true → exec .firmwareUpdate s = .next ((pewtered s p { w with
        banks := setKey w.banks (1 - w.activeBank)
          { version := v, bytes := (ds.map (BitVec.ofNat 8)).take n, agent := (ds.map (BitVec.ofNat 8)).drop n, valid := true } }).emit 3 0 [1])))
  ∧ (∀ (s : State) (p l k : Nat) (x : Link), x = s.link p l →
    (AtOutside s [p, l] →
      (p < s.cfg.packages → l < 12 → exec .linkTraining s
        = .next { s.setLink p l { x with latency := some (Config.linkLatency p l), w := popCount 16 x.lmap, errs := [] } with
            dcycStart := some (s.dcycStart.getD s.wall) })
      ∧ (s.cfg.packages ≤ p ∨ 12 ≤ l → exec .linkTraining s = .next s)
      ∧ (x.next = none → x.drop = 0 → exec .linkWidthChange s = .next s)
      ∧ (s.widthReady p l = false → exec .linkWidthChange s = .next s)
      ∧ (x.next ≠ none ∨ x.drop ≠ 0 → s.widthReady p l = true → exec .linkWidthChange s
        = .next (s.tasks.foldl (fun u e => u.afterWidth e.1 p l) (s.setLink p l
            { x with lmap := x.wanted, w := popCount 16 x.wanted, next := none, drop := 0, errs := [] }))))
    ∧ (AtOutside s [p, l, k] → ∀ y z, y = { x with next := some (k % 65536) } → z = { x with drop := x.drop + 2 ^ k } →
      (p < s.cfg.packages → l < 12 →
        (y.wanted ≠ 0 → exec .lmapWrite s = .next ((s.setLink p l y).announceWidth p l))
        ∧ (bitAt x.drop k = false → k < 16 → z.wanted ≠ 0 → exec .laneRetire s = .next ((s.setLink p l z).announceWidth p l)))
      ∧ (s.cfg.packages ≤ p ∨ 12 ≤ l ∨ y.wanted = 0 → exec .lmapWrite s = .next s)
      ∧ (s.cfg.packages ≤ p ∨ 12 ≤ l ∨ bitAt x.drop k = true ∨ 16 ≤ k ∨ z.wanted = 0 → exec .laneRetire s = .next s)))
  ∧ (∀ (s : State) (p l t n : Nat) (as : List Nat) (x : Link) (r : Option (Flit × List Nat)), AtOutside s (p :: l :: t :: n :: as) →
    x = s.link p l → r = flitDecode (unstripe x.w (chunks (24 * flitCycles x.w) x.w (as.drop (4 * n)))) →
    (s.cfg.packages ≤ p ∨ 12 ≤ l → exec .flitReceive s = .next s)
    ∧ (p < s.cfg.packages → l < 12 →
      (∀ f, r = some (f, []) → exec .flitReceive s = .next s)
      ∧ (∀ f e es, r = some (f, e :: es) → exec .flitReceive s
        = .next ((s.setLink p l { x.countErrors (e :: es) with corr := min 65535 (x.corr + 1) }).retireNoisy p l))
      ∧ (r = none → exec .flitReceive s = .next (((chunks 4 n (as.take (4 * n))).take 5).foldl (fun q e => q.loseBeat t e)
          ((s.setLink p l { x with unc := min 65535 (x.unc + 1) }).logEvent 1 2 (p * 512 + l) 0 0 0)))))
  ∧ (∀ (f : Flit) (w : Nat) (b : List Nat), f.bytes.length = 384
    ∧ (1 ≤ w → w ≤ 16 → b.length = 384 → unstripe w (stripe w b) = b ∧ (stripe w b).length = w
      ∧ ∀ v ∈ stripe w b, v.length = 24 * ceilDiv 16 w))
  ∧ (∀ (s : State) (mode width rate flit : Nat) (ds : List Nat) (q : State), AtOutside s (mode :: width :: rate :: flit :: ds) →
    q = { s with hostMode := mode, hostWidth := width, hostRate := rate, hostFlit := flit } →
    (mode < 2 → width ∈ [1, 2, 4, 8, 16] → rate ∈ [25, 50, 80, 160, 320, 640] → flit = 68 ∨ flit = 256 →
      (mode = 1 → exec .hostPortTraining s = .next { q with hdm := hdmOf ds })
      ∧ (mode = 0 → exec .hostPortTraining s
        = .next { q with cores := q.cores.map (fun e => (e.1, { e.2 with lines := [] })), hdm := [], hostLines := [] }))
    ∧ (2 ≤ mode ∨ width ∉ [1, 2, 4, 8, 16] ∨ rate ∉ [25, 50, 80, 160, 320, 640] ∨ (flit ≠ 68 ∧ flit ≠ 256) →
      exec .hostPortTraining s = .next s))
  ∧ (∀ (s : State) (fn wr off len v ep n : Nat), AtOutside s [fn, wr, off, len, v, ep] → n = min 64 len →
    (s.grantedFrame fn (off / 2 ^ 21) = none → exec .bar2Access s = .next (s.emit 2 fn [0]))
    ∧ (∀ f a, s.grantedFrame fn (off / 2 ^ 21) = some f → a = f * 2 ^ 21 + off % 2 ^ 21 →
      (s.frameQuarantined f = true ∨ 2 ^ 21 < off % 2 ^ 21 + n → exec .bar2Access s = .next (s.emit 2 fn [0]))
      ∧ (s.frameQuarantined f = false → off % 2 ^ 21 + n ≤ 2 ^ 21 →
        (wr ≠ 0 → exec .bar2Access s = .next ((s.devWrite a (pbytes n v (ep ≠ 0))).emit 2 fn [1, 0, 0]))
        ∧ (wr = 0 → ∀ bs, bs = s.devRead a n → exec .bar2Access s
          = .next ((s.noteBad 0 a n).emit 2 fn [1, pval bs, if anyPoison bs = true then 1 else 0])))))
  ∧ (∀ (s : State) (wr at_ len v ep keep n : Nat), AtOutside s [wr, at_, len, v, ep, keep] → n = min 64 len →
    (s.hdmAddr at_ = none → exec .cxlMemAccess s = .next (s.emit 2 255 [0]))
    ∧ (∀ a, s.hdmAddr at_ = some a →
      (s.hostMode ≠ 1 ∨ s.devExists a = false ∨ s.devExists (a + n - 1) = false ∨ s.cfg.reserved.contains (frameOf a) = true
        ∨ s.cfg.reserved.contains (frameOf (a + n - 1)) = true → exec .cxlMemAccess s = .next (s.emit 2 255 [0]))
      ∧ (s.hostMode = 1 → s.devExists a = true → s.devExists (a + n - 1) = true → s.cfg.reserved.contains (frameOf a) = false →
        s.cfg.reserved.contains (frameOf (a + n - 1)) = false →
        (wr ≠ 0 → exec .cxlMemAccess s = .next ((s.devWrite a (pbytes n v (ep ≠ 0))).emit 2 255 [1, 0, 0]))
        ∧ (wr = 0 → ∀ bs q, bs = s.devRead a n →
          q = (s.noteBad 0 a n).emit 2 255 [1, pval bs, if anyPoison bs = true then 1 else 0] →
          (keep = 0 → exec .cxlMemAccess s = .next q)
          ∧ (keep ≠ 0 → q.hostUncached (frameOf a) = true → exec .cxlMemAccess s = .next q)
          ∧ (keep ≠ 0 → q.hostUncached (frameOf a) = false → exec .cxlMemAccess s
            = .next { q with hostLines := addNum q.hostLines (alignDown a 64) })))))
  ∧ (∀ (s : State) (a b : Nat), AtOutside s [a, b] →
    exec .cqheadWrite s = .next ((s.setFn a { s.fn a with cqhead := b % 2 ^ 32 }).wakeQueue a)
    ∧ exec .ctxerrWrite s = .next (s.setCore a ((s.core a).setCtx b { (s.core a).ctx b with errCount := 0, errOpn := 0 })))
  ∧ (∀ (s : State) (a n v : Nat) (y : AgentCore) (w : Word), AtOutside s [a, n, v] → y = s.core a → w = BitVec.ofNat 64 v →
    (csrDefined n = false ∨ csrReadOnly n = true → exec .registerWrite s = .next s)
    ∧ (csrDefined n = true → csrReadOnly n = false →
      exec .registerWrite s = .next ((s.csrPut a n w).getD s)
      ∧ (n = 1 → exec .registerWrite s = .next (s.setCore a { y with ecause := w }))
      ∧ (n = 2 → exec .registerWrite s = .next (s.setCore a { y with epc := w }))
      ∧ (n = 3 → exec .registerWrite s = .next (s.setCore a { y with eval := w }))
      ∧ (n = 4 → exec .registerWrite s = .next (s.setCore a { y with etvec := w }))
      ∧ (n = 5 → w.toNat < 64 ∨ w.toNat = 255 → exec .registerWrite s = .next (s.setCore a { y with afunc := w.toNat }))
      ∧ (n = 5 → 64 ≤ w.toNat → w.toNat ≠ 255 → exec .registerWrite s = .next s)
      ∧ (n = 6 → exec .registerWrite s = .next (s.setCore a { y with fstatus := w.toNat % 128 }))
      ∧ (n = 0x040 → exec .registerWrite s = .next { s with slice := w.toNat % 2 ^ 32 })
      ∧ (n = 0x041 → exec .registerWrite s = .next { s with sepoch := w })
      ∧ (n = 0x0C0 → exec .registerWrite s = .next (s.setCore a { y with tsel := w.toNat % 32 }))))
  ∧ (∀ (s : State) (p : Nat) (as : List Nat) (c : Spdm), AtOutside s (p :: as) → c = (s.pkg p).pewter.spdm →
    exec .getVersion s = .next (replied (connected s p { version := true, caps := false, algs := false, session := 0, authed := false }) p 4 [0x13])
    ∧ (c.version = false → exec .getCapabilities s = .next (replied s p 0x7F [4]))
    ∧ (c.version = true → exec .getCapabilities s = .next (replied (connected s p { c with caps := true }) p 0x61 [0, 982]))
    ∧ (c.caps = false → exec .negotiateAlgorithms s = .next (replied s p 0x7F [4]))
    ∧ (∀ a b e, as = [a, b, e] → c.caps = true →
      (bitAt a 9 = true → bitAt b 6 = true →
        (bitAt e 1 = true → exec .negotiateAlgorithms s = .next (replied (connected s p { c with algs := true }) p 0x63 [512, 64, 2]))
        ∧ (bitAt e 1 = false → bitAt e 3 = true →
          exec .negotiateAlgorithms s = .next (replied (connected s p { c with algs := true }) p 0x63 [512, 64, 8]))
        ∧ (bitAt e 1 = false → bitAt e 3 = false → exec .negotiateAlgorithms s = .next (replied s p 0x7F [1])))
      ∧ (bitAt a 9 = false ∨ bitAt b 6 = false → exec .negotiateAlgorithms s = .next (replied s p 0x7F [1])))
    ∧ (c.algs = false → ∀ i ∈ [Instr.getDigests, .getCertificate, .challenge, .getMeasurements, .keyExchange],
      exec i s = .next (replied s p 0x7F [4]))
    ∧ (c.algs = true → exec .getDigests s = .next (replied s p 1 (1 :: sm3 (s.certChain p)))
      ∧ (∀ slot off n part, as = [slot, off, n] → part = (s.certChain p).drop off →
        (slot = 0 → exec .getCertificate s = .next (replied s p 2 ([0, part.length - (part.take n).length] ++ part.take n)))
        ∧ (slot ≠ 0 → exec .getCertificate s = .next (replied s p 0x7F [1])))
      ∧ (∀ i, as = [i] →
        (i = 0 → exec .challenge s = .next (replied s p 3 ([0] ++ sm3 (s.certChain p) ++ s.spdmBytes 96))
          ∧ exec .getMeasurements s = .next (replied s p 0x60 [4])
          ∧ exec .keyExchange s = .next (replied (connected s p { c with session := c.session + 1, authed := false }) p 0x64 (s.spdmBytes 160)))
        ∧ (i ≠ 0 → exec .challenge s = .next (replied s p 0x7F [1]) ∧ exec .keyExchange s = .next (replied s p 0x7F [1]))
        ∧ (1 ≤ i → i < 5 → exec .getMeasurements s = .next (replied s p 0x60 (i :: s.measurement p i ++ s.spdmBytes 64)))
        ∧ (i = 255 → exec .getMeasurements s
          = .next (replied s p 0x60 (4 :: [1, 2, 3, 4].flatMap (s.measurement p) ++ s.spdmBytes 64)))
        ∧ (5 ≤ i → i ≠ 255 → exec .getMeasurements s = .next (replied s p 0x7F [1]))))
    ∧ (c.session = 0 → exec .finish s = .next (replied s p 0x7F [4]))
    ∧ (∀ m what n key q, as = [m, what, n, key] → c.session ≠ 0 →
      (Config.spdmPeerValid m = false → exec .finish s = .next (replied s p 0x7F [1]))
      ∧ (Config.spdmPeerValid m = true → q = replied (connected s p { c with authed := true }) p 0x65 (s.spdmBytes 32) →
        (what = 1 → exec .finish s = .next (q.setPkg p { q.pkg p with wrapKey := key % 2 ^ 256 }))
        ∧ (what = 2 → exec .finish s = .next { q with ide := setKey q.ide n (key % 2 ^ 256) })
        ∧ (what ≠ 1 → what ≠ 2 → exec .finish s = .next q)))
    ∧ s.measurement p 1 = sm3 (((s.pkg p).pewter.bank (s.pkg p).pewter.activeBank).bytes.map (·.toNat))
    ∧ s.measurement p 2 = sm3 (((s.pkg p).pewter.bank (s.pkg p).pewter.activeBank).agent.map (·.toNat))
    ∧ s.measurement p 3 = sm3 (s.cfg.bytes.map (·.toNat)))

/-- What every issue leaves alone, and that it answers. An instruction of a slot of a tile writes no memory of the device or of the
system and no core, and its tile and every other tile of its gang keep every register and every byte of their memories: results land
later (R144, R191, R270). No package changes but for the tree slots that a TARM pins (R354). But for TLAUNCH, which submits a task, no other task changes either. -/
def Obligations.IssueChangesNoResult : Prop :=
  ∀ (s : State) (t gid slot k addr : Nat) (g : Gang) (x : Tile) (i : Instr) (p : Stream), AtTile s t gid slot k addr g x → x.gid = gid →
    p ∈ [Stream.c, .s, .v, .x, .m, .d] → i.standsIn p = true → (∀ a, i ≠ .tlaunch a) → ∃ u, exec i s = .next u ∧
    u.dev = s.dev ∧ u.devPoison = s.devPoison ∧ u.sys = s.sys ∧ u.sysPoison = s.sysPoison ∧ u.cores = s.cores
      ∧ (∀ q, (u.pkg q).pewter = (s.pkg q).pewter) ∧ ((∀ b h r a, i ≠ .tarm b h r a) → u.pkgs = s.pkgs) ∧ (∀ v, v ≠ t → u.task v = s.task v)
      ∧ ∃ h, u.gang t = some h ∧ h.lcyc = g.lcyc ∧ ∀ j y, h.tile j = some y → ∃ z, g.tile j = some z ∧ Keeps z y
end

