-- ==== Sys2Proof/Laws/State.lean ====
section
/-! SUPPORT. What each update of the state, of a gang and of an agent core leaves alone and what it sets: one lemma per field
and update, so that no proof unfolds a record update. -/
namespace Sys2Proof.Machine

/-! setCore -/

@[simp] theorem State.setCore_wall (s : State) (c : Nat) (x : AgentCore) : (s.setCore c x).wall = s.wall := rfl
@[simp] theorem State.setCore_agenda (s : State) (c : Nat) (x : AgentCore) : (s.setCore c x).agenda = s.agenda := rfl
@[simp] theorem State.setCore_cur (s : State) (c : Nat) (x : AgentCore) : (s.setCore c x).cur = s.cur := rfl
@[simp] theorem State.setCore_inputs (s : State) (c : Nat) (x : AgentCore) : (s.setCore c x).inputs = s.inputs := rfl
@[simp] theorem State.setCore_tape (s : State) (c : Nat) (x : AgentCore) : (s.setCore c x).tape = s.tape := rfl
@[simp] theorem State.setCore_cfg (s : State) (c : Nat) (x : AgentCore) : (s.setCore c x).cfg = s.cfg := rfl
@[simp] theorem State.setCore_cores (s : State) (c : Nat) (x : AgentCore) : (s.setCore c x).cores = setKey s.cores c x := rfl
@[simp] theorem State.setCore_dev (s : State) (c : Nat) (x : AgentCore) : (s.setCore c x).dev = s.dev := rfl
@[simp] theorem State.setCore_devPoison (s : State) (c : Nat) (x : AgentCore) : (s.setCore c x).devPoison = s.devPoison := rfl
@[simp] theorem State.setCore_devBad (s : State) (c : Nat) (x : AgentCore) : (s.setCore c x).devBad = s.devBad := rfl
@[simp] theorem State.setCore_sys (s : State) (c : Nat) (x : AgentCore) : (s.setCore c x).sys = s.sys := rfl
@[simp] theorem State.setCore_sysPoison (s : State) (c : Nat) (x : AgentCore) : (s.setCore c x).sysPoison = s.sysPoison := rfl
@[simp] theorem State.setCore_tasks (s : State) (c : Nat) (x : AgentCore) : (s.setCore c x).tasks = s.tasks := rfl
@[simp] theorem State.setCore_fns (s : State) (c : Nat) (x : AgentCore) : (s.setCore c x).fns = s.fns := rfl
@[simp] theorem State.setCore_pkgs (s : State) (c : Nat) (x : AgentCore) : (s.setCore c x).pkgs = s.pkgs := rfl
@[simp] theorem State.setCore_parts (s : State) (c : Nat) (x : AgentCore) : (s.setCore c x).parts = s.parts := rfl
@[simp] theorem State.setCore_grants (s : State) (c : Nat) (x : AgentCore) : (s.setCore c x).grants = s.grants := rfl
@[simp] theorem State.setCore_slice (s : State) (c : Nat) (x : AgentCore) : (s.setCore c x).slice = s.slice := rfl
@[simp] theorem State.setCore_sepoch (s : State) (c : Nat) (x : AgentCore) : (s.setCore c x).sepoch = s.sepoch := rfl
@[simp] theorem State.setCore_dcycStart (s : State) (c : Nat) (x : AgentCore) : (s.setCore c x).dcycStart = s.dcycStart := rfl
@[simp] theorem State.setCore_ptm (s : State) (c : Nat) (x : AgentCore) : (s.setCore c x).ptm = s.ptm := rfl
@[simp] theorem State.setCore_serial (s : State) (c : Nat) (x : AgentCore) : (s.setCore c x).serial = s.serial := rfl
@[simp] theorem State.setCore_arrivals (s : State) (c : Nat) (x : AgentCore) : (s.setCore c x).arrivals = s.arrivals := rfl
@[simp] theorem State.setCore_imageGens (s : State) (c : Nat) (x : AgentCore) : (s.setCore c x).imageGens = s.imageGens := rfl
@[simp] theorem State.setCore_order (s : State) (c : Nat) (x : AgentCore) : (s.setCore c x).order = s.order := rfl
@[simp] theorem State.setCore_front (s : State) (c : Nat) (x : AgentCore) : (s.setCore c x).front = s.front := rfl
@[simp] theorem State.setCore_trees (s : State) (c : Nat) (x : AgentCore) : (s.setCore c x).trees = s.trees := rfl
@[simp] theorem State.setCore_migrations (s : State) (c : Nat) (x : AgentCore) : (s.setCore c x).migrations = s.migrations := rfl
@[simp] theorem State.setCore_gens (s : State) (c : Nat) (x : AgentCore) : (s.setCore c x).gens = s.gens := rfl
@[simp] theorem State.setCore_tier (s : State) (c : Nat) (x : AgentCore) : (s.setCore c x).tier = s.tier := rfl
@[simp] theorem State.setCore_hostMode (s : State) (c : Nat) (x : AgentCore) : (s.setCore c x).hostMode = s.hostMode := rfl
@[simp] theorem State.setCore_hostWidth (s : State) (c : Nat) (x : AgentCore) : (s.setCore c x).hostWidth = s.hostWidth := rfl
@[simp] theorem State.setCore_hostRate (s : State) (c : Nat) (x : AgentCore) : (s.setCore c x).hostRate = s.hostRate := rfl
@[simp] theorem State.setCore_hostFlit (s : State) (c : Nat) (x : AgentCore) : (s.setCore c x).hostFlit = s.hostFlit := rfl
@[simp] theorem State.setCore_hdm (s : State) (c : Nat) (x : AgentCore) : (s.setCore c x).hdm = s.hdm := rfl
@[simp] theorem State.setCore_ide (s : State) (c : Nat) (x : AgentCore) : (s.setCore c x).ide = s.ide := rfl
@[simp] theorem State.setCore_hostLines (s : State) (c : Nat) (x : AgentCore) : (s.setCore c x).hostLines = s.hostLines := rfl
@[simp] theorem State.setCore_out (s : State) (c : Nat) (x : AgentCore) : (s.setCore c x).out = s.out := rfl

/-! setFn -/

@[simp] theorem State.setFn_wall (s : State) (f : Nat) (x : Fn) : (s.setFn f x).wall = s.wall := rfl
@[simp] theorem State.setFn_agenda (s : State) (f : Nat) (x : Fn) : (s.setFn f x).agenda = s.agenda := rfl
@[simp] theorem State.setFn_cur (s : State) (f : Nat) (x : Fn) : (s.setFn f x).cur = s.cur := rfl
@[simp] theorem State.setFn_inputs (s : State) (f : Nat) (x : Fn) : (s.setFn f x).inputs = s.inputs := rfl
@[simp] theorem State.setFn_tape (s : State) (f : Nat) (x : Fn) : (s.setFn f x).tape = s.tape := rfl
@[simp] theorem State.setFn_cfg (s : State) (f : Nat) (x : Fn) : (s.setFn f x).cfg = s.cfg := rfl
@[simp] theorem State.setFn_cores (s : State) (f : Nat) (x : Fn) : (s.setFn f x).cores = s.cores := rfl
@[simp] theorem State.setFn_dev (s : State) (f : Nat) (x : Fn) : (s.setFn f x).dev = s.dev := rfl
@[simp] theorem State.setFn_devPoison (s : State) (f : Nat) (x : Fn) : (s.setFn f x).devPoison = s.devPoison := rfl
@[simp] theorem State.setFn_devBad (s : State) (f : Nat) (x : Fn) : (s.setFn f x).devBad = s.devBad := rfl
@[simp] theorem State.setFn_sys (s : State) (f : Nat) (x : Fn) : (s.setFn f x).sys = s.sys := rfl
@[simp] theorem State.setFn_sysPoison (s : State) (f : Nat) (x : Fn) : (s.setFn f x).sysPoison = s.sysPoison := rfl
@[simp] theorem State.setFn_tasks (s : State) (f : Nat) (x : Fn) : (s.setFn f x).tasks = s.tasks := rfl
@[simp] theorem State.setFn_fns (s : State) (f : Nat) (x : Fn) : (s.setFn f x).fns = setKey s.fns f x := rfl
@[simp] theorem State.setFn_pkgs (s : State) (f : Nat) (x : Fn) : (s.setFn f x).pkgs = s.pkgs := rfl
@[simp] theorem State.setFn_parts (s : State) (f : Nat) (x : Fn) : (s.setFn f x).parts = s.parts := rfl
@[simp] theorem State.setFn_grants (s : State) (f : Nat) (x : Fn) : (s.setFn f x).grants = s.grants := rfl
@[simp] theorem State.setFn_slice (s : State) (f : Nat) (x : Fn) : (s.setFn f x).slice = s.slice := rfl
@[simp] theorem State.setFn_sepoch (s : State) (f : Nat) (x : Fn) : (s.setFn f x).sepoch = s.sepoch := rfl
@[simp] theorem State.setFn_dcycStart (s : State) (f : Nat) (x : Fn) : (s.setFn f x).dcycStart = s.dcycStart := rfl
@[simp] theorem State.setFn_ptm (s : State) (f : Nat) (x : Fn) : (s.setFn f x).ptm = s.ptm := rfl
@[simp] theorem State.setFn_serial (s : State) (f : Nat) (x : Fn) : (s.setFn f x).serial = s.serial := rfl
@[simp] theorem State.setFn_arrivals (s : State) (f : Nat) (x : Fn) : (s.setFn f x).arrivals = s.arrivals := rfl
@[simp] theorem State.setFn_imageGens (s : State) (f : Nat) (x : Fn) : (s.setFn f x).imageGens = s.imageGens := rfl
@[simp] theorem State.setFn_order (s : State) (f : Nat) (x : Fn) : (s.setFn f x).order = s.order := rfl
@[simp] theorem State.setFn_front (s : State) (f : Nat) (x : Fn) : (s.setFn f x).front = s.front := rfl
@[simp] theorem State.setFn_trees (s : State) (f : Nat) (x : Fn) : (s.setFn f x).trees = s.trees := rfl
@[simp] theorem State.setFn_migrations (s : State) (f : Nat) (x : Fn) : (s.setFn f x).migrations = s.migrations := rfl
@[simp] theorem State.setFn_gens (s : State) (f : Nat) (x : Fn) : (s.setFn f x).gens = s.gens := rfl
@[simp] theorem State.setFn_tier (s : State) (f : Nat) (x : Fn) : (s.setFn f x).tier = s.tier := rfl
@[simp] theorem State.setFn_hostMode (s : State) (f : Nat) (x : Fn) : (s.setFn f x).hostMode = s.hostMode := rfl
@[simp] theorem State.setFn_hostWidth (s : State) (f : Nat) (x : Fn) : (s.setFn f x).hostWidth = s.hostWidth := rfl
@[simp] theorem State.setFn_hostRate (s : State) (f : Nat) (x : Fn) : (s.setFn f x).hostRate = s.hostRate := rfl
@[simp] theorem State.setFn_hostFlit (s : State) (f : Nat) (x : Fn) : (s.setFn f x).hostFlit = s.hostFlit := rfl
@[simp] theorem State.setFn_hdm (s : State) (f : Nat) (x : Fn) : (s.setFn f x).hdm = s.hdm := rfl
@[simp] theorem State.setFn_ide (s : State) (f : Nat) (x : Fn) : (s.setFn f x).ide = s.ide := rfl
@[simp] theorem State.setFn_hostLines (s : State) (f : Nat) (x : Fn) : (s.setFn f x).hostLines = s.hostLines := rfl
@[simp] theorem State.setFn_out (s : State) (f : Nat) (x : Fn) : (s.setFn f x).out = s.out := rfl

/-! setPkg -/

@[simp] theorem State.setPkg_wall (s : State) (p : Nat) (x : Pkg) : (s.setPkg p x).wall = s.wall := rfl
@[simp] theorem State.setPkg_agenda (s : State) (p : Nat) (x : Pkg) : (s.setPkg p x).agenda = s.agenda := rfl
@[simp] theorem State.setPkg_cur (s : State) (p : Nat) (x : Pkg) : (s.setPkg p x).cur = s.cur := rfl
@[simp] theorem State.setPkg_inputs (s : State) (p : Nat) (x : Pkg) : (s.setPkg p x).inputs = s.inputs := rfl
@[simp] theorem State.setPkg_tape (s : State) (p : Nat) (x : Pkg) : (s.setPkg p x).tape = s.tape := rfl
@[simp] theorem State.setPkg_cfg (s : State) (p : Nat) (x : Pkg) : (s.setPkg p x).cfg = s.cfg := rfl
@[simp] theorem State.setPkg_cores (s : State) (p : Nat) (x : Pkg) : (s.setPkg p x).cores = s.cores := rfl
@[simp] theorem State.setPkg_dev (s : State) (p : Nat) (x : Pkg) : (s.setPkg p x).dev = s.dev := rfl
@[simp] theorem State.setPkg_devPoison (s : State) (p : Nat) (x : Pkg) : (s.setPkg p x).devPoison = s.devPoison := rfl
@[simp] theorem State.setPkg_devBad (s : State) (p : Nat) (x : Pkg) : (s.setPkg p x).devBad = s.devBad := rfl
@[simp] theorem State.setPkg_sys (s : State) (p : Nat) (x : Pkg) : (s.setPkg p x).sys = s.sys := rfl
@[simp] theorem State.setPkg_sysPoison (s : State) (p : Nat) (x : Pkg) : (s.setPkg p x).sysPoison = s.sysPoison := rfl
@[simp] theorem State.setPkg_tasks (s : State) (p : Nat) (x : Pkg) : (s.setPkg p x).tasks = s.tasks := rfl
@[simp] theorem State.setPkg_fns (s : State) (p : Nat) (x : Pkg) : (s.setPkg p x).fns = s.fns := rfl
@[simp] theorem State.setPkg_pkgs (s : State) (p : Nat) (x : Pkg) : (s.setPkg p x).pkgs = setKey s.pkgs p x := rfl
@[simp] theorem State.setPkg_parts (s : State) (p : Nat) (x : Pkg) : (s.setPkg p x).parts = s.parts := rfl
@[simp] theorem State.setPkg_grants (s : State) (p : Nat) (x : Pkg) : (s.setPkg p x).grants = s.grants := rfl
@[simp] theorem State.setPkg_slice (s : State) (p : Nat) (x : Pkg) : (s.setPkg p x).slice = s.slice := rfl
@[simp] theorem State.setPkg_sepoch (s : State) (p : Nat) (x : Pkg) : (s.setPkg p x).sepoch = s.sepoch := rfl
@[simp] theorem State.setPkg_dcycStart (s : State) (p : Nat) (x : Pkg) : (s.setPkg p x).dcycStart = s.dcycStart := rfl
@[simp] theorem State.setPkg_ptm (s : State) (p : Nat) (x : Pkg) : (s.setPkg p x).ptm = s.ptm := rfl
@[simp] theorem State.setPkg_serial (s : State) (p : Nat) (x : Pkg) : (s.setPkg p x).serial = s.serial := rfl
@[simp] theorem State.setPkg_arrivals (s : State) (p : Nat) (x : Pkg) : (s.setPkg p x).arrivals = s.arrivals := rfl
@[simp] theorem State.setPkg_imageGens (s : State) (p : Nat) (x : Pkg) : (s.setPkg p x).imageGens = s.imageGens := rfl
@[simp] theorem State.setPkg_order (s : State) (p : Nat) (x : Pkg) : (s.setPkg p x).order = s.order := rfl
@[simp] theorem State.setPkg_front (s : State) (p : Nat) (x : Pkg) : (s.setPkg p x).front = s.front := rfl
@[simp] theorem State.setPkg_trees (s : State) (p : Nat) (x : Pkg) : (s.setPkg p x).trees = s.trees := rfl
@[simp] theorem State.setPkg_migrations (s : State) (p : Nat) (x : Pkg) : (s.setPkg p x).migrations = s.migrations := rfl
@[simp] theorem State.setPkg_gens (s : State) (p : Nat) (x : Pkg) : (s.setPkg p x).gens = s.gens := rfl
@[simp] theorem State.setPkg_tier (s : State) (p : Nat) (x : Pkg) : (s.setPkg p x).tier = s.tier := rfl
@[simp] theorem State.setPkg_hostMode (s : State) (p : Nat) (x : Pkg) : (s.setPkg p x).hostMode = s.hostMode := rfl
@[simp] theorem State.setPkg_hostWidth (s : State) (p : Nat) (x : Pkg) : (s.setPkg p x).hostWidth = s.hostWidth := rfl
@[simp] theorem State.setPkg_hostRate (s : State) (p : Nat) (x : Pkg) : (s.setPkg p x).hostRate = s.hostRate := rfl
@[simp] theorem State.setPkg_hostFlit (s : State) (p : Nat) (x : Pkg) : (s.setPkg p x).hostFlit = s.hostFlit := rfl
@[simp] theorem State.setPkg_hdm (s : State) (p : Nat) (x : Pkg) : (s.setPkg p x).hdm = s.hdm := rfl
@[simp] theorem State.setPkg_ide (s : State) (p : Nat) (x : Pkg) : (s.setPkg p x).ide = s.ide := rfl
@[simp] theorem State.setPkg_hostLines (s : State) (p : Nat) (x : Pkg) : (s.setPkg p x).hostLines = s.hostLines := rfl
@[simp] theorem State.setPkg_out (s : State) (p : Nat) (x : Pkg) : (s.setPkg p x).out = s.out := rfl

/-! setTask -/

@[simp] theorem State.setTask_wall (s : State) (x : Task) : (s.setTask x).wall = s.wall := rfl
@[simp] theorem State.setTask_agenda (s : State) (x : Task) : (s.setTask x).agenda = s.agenda := rfl
@[simp] theorem State.setTask_cur (s : State) (x : Task) : (s.setTask x).cur = s.cur := rfl
@[simp] theorem State.setTask_inputs (s : State) (x : Task) : (s.setTask x).inputs = s.inputs := rfl
@[simp] theorem State.setTask_tape (s : State) (x : Task) : (s.setTask x).tape = s.tape := rfl
@[simp] theorem State.setTask_cfg (s : State) (x : Task) : (s.setTask x).cfg = s.cfg := rfl
@[simp] theorem State.setTask_cores (s : State) (x : Task) : (s.setTask x).cores = s.cores := rfl
@[simp] theorem State.setTask_dev (s : State) (x : Task) : (s.setTask x).dev = s.dev := rfl
@[simp] theorem State.setTask_devPoison (s : State) (x : Task) : (s.setTask x).devPoison = s.devPoison := rfl
@[simp] theorem State.setTask_devBad (s : State) (x : Task) : (s.setTask x).devBad = s.devBad := rfl
@[simp] theorem State.setTask_sys (s : State) (x : Task) : (s.setTask x).sys = s.sys := rfl
@[simp] theorem State.setTask_sysPoison (s : State) (x : Task) : (s.setTask x).sysPoison = s.sysPoison := rfl
@[simp] theorem State.setTask_tasks (s : State) (x : Task) : (s.setTask x).tasks = setKey s.tasks x.id x := rfl
@[simp] theorem State.setTask_fns (s : State) (x : Task) : (s.setTask x).fns = s.fns := rfl
@[simp] theorem State.setTask_pkgs (s : State) (x : Task) : (s.setTask x).pkgs = s.pkgs := rfl
@[simp] theorem State.setTask_parts (s : State) (x : Task) : (s.setTask x).parts = s.parts := rfl
@[simp] theorem State.setTask_grants (s : State) (x : Task) : (s.setTask x).grants = s.grants := rfl
@[simp] theorem State.setTask_slice (s : State) (x : Task) : (s.setTask x).slice = s.slice := rfl
@[simp] theorem State.setTask_sepoch (s : State) (x : Task) : (s.setTask x).sepoch = s.sepoch := rfl
@[simp] theorem State.setTask_dcycStart (s : State) (x : Task) : (s.setTask x).dcycStart = s.dcycStart := rfl
@[simp] theorem State.setTask_ptm (s : State) (x : Task) : (s.setTask x).ptm = s.ptm := rfl
@[simp] theorem State.setTask_serial (s : State) (x : Task) : (s.setTask x).serial = s.serial := rfl
@[simp] theorem State.setTask_arrivals (s : State) (x : Task) : (s.setTask x).arrivals = s.arrivals := rfl
@[simp] theorem State.setTask_imageGens (s : State) (x : Task) : (s.setTask x).imageGens = s.imageGens := rfl
@[simp] theorem State.setTask_order (s : State) (x : Task) : (s.setTask x).order = s.order := rfl
@[simp] theorem State.setTask_front (s : State) (x : Task) : (s.setTask x).front = s.front := rfl
@[simp] theorem State.setTask_trees (s : State) (x : Task) : (s.setTask x).trees = s.trees := rfl
@[simp] theorem State.setTask_migrations (s : State) (x : Task) : (s.setTask x).migrations = s.migrations := rfl
@[simp] theorem State.setTask_gens (s : State) (x : Task) : (s.setTask x).gens = s.gens := rfl
@[simp] theorem State.setTask_tier (s : State) (x : Task) : (s.setTask x).tier = s.tier := rfl
@[simp] theorem State.setTask_hostMode (s : State) (x : Task) : (s.setTask x).hostMode = s.hostMode := rfl
@[simp] theorem State.setTask_hostWidth (s : State) (x : Task) : (s.setTask x).hostWidth = s.hostWidth := rfl
@[simp] theorem State.setTask_hostRate (s : State) (x : Task) : (s.setTask x).hostRate = s.hostRate := rfl
@[simp] theorem State.setTask_hostFlit (s : State) (x : Task) : (s.setTask x).hostFlit = s.hostFlit := rfl
@[simp] theorem State.setTask_hdm (s : State) (x : Task) : (s.setTask x).hdm = s.hdm := rfl
@[simp] theorem State.setTask_ide (s : State) (x : Task) : (s.setTask x).ide = s.ide := rfl
@[simp] theorem State.setTask_hostLines (s : State) (x : Task) : (s.setTask x).hostLines = s.hostLines := rfl
@[simp] theorem State.setTask_out (s : State) (x : Task) : (s.setTask x).out = s.out := rfl

/-! onMe -/

@[simp] theorem State.onMe_wall (s : State) (f : AgentCore → AgentCore) : (s.onMe f).wall = s.wall := rfl
@[simp] theorem State.onMe_agenda (s : State) (f : AgentCore → AgentCore) : (s.onMe f).agenda = s.agenda := rfl
@[simp] theorem State.onMe_cur (s : State) (f : AgentCore → AgentCore) : (s.onMe f).cur = s.cur := rfl
@[simp] theorem State.onMe_inputs (s : State) (f : AgentCore → AgentCore) : (s.onMe f).inputs = s.inputs := rfl
@[simp] theorem State.onMe_tape (s : State) (f : AgentCore → AgentCore) : (s.onMe f).tape = s.tape := rfl
@[simp] theorem State.onMe_cfg (s : State) (f : AgentCore → AgentCore) : (s.onMe f).cfg = s.cfg := rfl
@[simp] theorem State.onMe_cores (s : State) (f : AgentCore → AgentCore) : (s.onMe f).cores = setKey s.cores s.coreId (f s.me) := rfl
@[simp] theorem State.onMe_dev (s : State) (f : AgentCore → AgentCore) : (s.onMe f).dev = s.dev := rfl
@[simp] theorem State.onMe_devPoison (s : State) (f : AgentCore → AgentCore) : (s.onMe f).devPoison = s.devPoison := rfl
@[simp] theorem State.onMe_devBad (s : State) (f : AgentCore → AgentCore) : (s.onMe f).devBad = s.devBad := rfl
@[simp] theorem State.onMe_sys (s : State) (f : AgentCore → AgentCore) : (s.onMe f).sys = s.sys := rfl
@[simp] theorem State.onMe_sysPoison (s : State) (f : AgentCore → AgentCore) : (s.onMe f).sysPoison = s.sysPoison := rfl
@[simp] theorem State.onMe_tasks (s : State) (f : AgentCore → AgentCore) : (s.onMe f).tasks = s.tasks := rfl
@[simp] theorem State.onMe_fns (s : State) (f : AgentCore → AgentCore) : (s.onMe f).fns = s.fns := rfl
@[simp] theorem State.onMe_pkgs (s : State) (f : AgentCore → AgentCore) : (s.onMe f).pkgs = s.pkgs := rfl
@[simp] theorem State.onMe_parts (s : State) (f : AgentCore → AgentCore) : (s.onMe f).parts = s.parts := rfl
@[simp] theorem State.onMe_grants (s : State) (f : AgentCore → AgentCore) : (s.onMe f).grants = s.grants := rfl
@[simp] theorem State.onMe_slice (s : State) (f : AgentCore → AgentCore) : (s.onMe f).slice = s.slice := rfl
@[simp] theorem State.onMe_sepoch (s : State) (f : AgentCore → AgentCore) : (s.onMe f).sepoch = s.sepoch := rfl
@[simp] theorem State.onMe_dcycStart (s : State) (f : AgentCore → AgentCore) : (s.onMe f).dcycStart = s.dcycStart := rfl
@[simp] theorem State.onMe_ptm (s : State) (f : AgentCore → AgentCore) : (s.onMe f).ptm = s.ptm := rfl
@[simp] theorem State.onMe_serial (s : State) (f : AgentCore → AgentCore) : (s.onMe f).serial = s.serial := rfl
@[simp] theorem State.onMe_arrivals (s : State) (f : AgentCore → AgentCore) : (s.onMe f).arrivals = s.arrivals := rfl
@[simp] theorem State.onMe_imageGens (s : State) (f : AgentCore → AgentCore) : (s.onMe f).imageGens = s.imageGens := rfl
@[simp] theorem State.onMe_order (s : State) (f : AgentCore → AgentCore) : (s.onMe f).order = s.order := rfl
@[simp] theorem State.onMe_front (s : State) (f : AgentCore → AgentCore) : (s.onMe f).front = s.front := rfl
@[simp] theorem State.onMe_trees (s : State) (f : AgentCore → AgentCore) : (s.onMe f).trees = s.trees := rfl
@[simp] theorem State.onMe_migrations (s : State) (f : AgentCore → AgentCore) : (s.onMe f).migrations = s.migrations := rfl
@[simp] theorem State.onMe_gens (s : State) (f : AgentCore → AgentCore) : (s.onMe f).gens = s.gens := rfl
@[simp] theorem State.onMe_tier (s : State) (f : AgentCore → AgentCore) : (s.onMe f).tier = s.tier := rfl
@[simp] theorem State.onMe_hostMode (s : State) (f : AgentCore → AgentCore) : (s.onMe f).hostMode = s.hostMode := rfl
@[simp] theorem State.onMe_hostWidth (s : State) (f : AgentCore → AgentCore) : (s.onMe f).hostWidth = s.hostWidth := rfl
@[simp] theorem State.onMe_hostRate (s : State) (f : AgentCore → AgentCore) : (s.onMe f).hostRate = s.hostRate := rfl
@[simp] theorem State.onMe_hostFlit (s : State) (f : AgentCore → AgentCore) : (s.onMe f).hostFlit = s.hostFlit := rfl
@[simp] theorem State.onMe_hdm (s : State) (f : AgentCore → AgentCore) : (s.onMe f).hdm = s.hdm := rfl
@[simp] theorem State.onMe_ide (s : State) (f : AgentCore → AgentCore) : (s.onMe f).ide = s.ide := rfl
@[simp] theorem State.onMe_hostLines (s : State) (f : AgentCore → AgentCore) : (s.onMe f).hostLines = s.hostLines := rfl
@[simp] theorem State.onMe_out (s : State) (f : AgentCore → AgentCore) : (s.onMe f).out = s.out := rfl

/-! onTask -/

@[simp] theorem State.onTask_wall (s : State) (t : Nat) (f : Task → Task) : (s.onTask t f).wall = s.wall := by unfold State.onTask; split <;> rfl
@[simp] theorem State.onTask_agenda (s : State) (t : Nat) (f : Task → Task) : (s.onTask t f).agenda = s.agenda := by unfold State.onTask; split <;> rfl
@[simp] theorem State.onTask_cur (s : State) (t : Nat) (f : Task → Task) : (s.onTask t f).cur = s.cur := by unfold State.onTask; split <;> rfl
@[simp] theorem State.onTask_inputs (s : State) (t : Nat) (f : Task → Task) : (s.onTask t f).inputs = s.inputs := by unfold State.onTask; split <;> rfl
@[simp] theorem State.onTask_tape (s : State) (t : Nat) (f : Task → Task) : (s.onTask t f).tape = s.tape := by unfold State.onTask; split <;> rfl
@[simp] theorem State.onTask_cfg (s : State) (t : Nat) (f : Task → Task) : (s.onTask t f).cfg = s.cfg := by unfold State.onTask; split <;> rfl
@[simp] theorem State.onTask_cores (s : State) (t : Nat) (f : Task → Task) : (s.onTask t f).cores = s.cores := by unfold State.onTask; split <;> rfl
@[simp] theorem State.onTask_dev (s : State) (t : Nat) (f : Task → Task) : (s.onTask t f).dev = s.dev := by unfold State.onTask; split <;> rfl
@[simp] theorem State.onTask_devPoison (s : State) (t : Nat) (f : Task → Task) : (s.onTask t f).devPoison = s.devPoison := by unfold State.onTask; split <;> rfl
@[simp] theorem State.onTask_devBad (s : State) (t : Nat) (f : Task → Task) : (s.onTask t f).devBad = s.devBad := by unfold State.onTask; split <;> rfl
@[simp] theorem State.onTask_sys (s : State) (t : Nat) (f : Task → Task) : (s.onTask t f).sys = s.sys := by unfold State.onTask; split <;> rfl
@[simp] theorem State.onTask_sysPoison (s : State) (t : Nat) (f : Task → Task) : (s.onTask t f).sysPoison = s.sysPoison := by unfold State.onTask; split <;> rfl
@[simp] theorem State.onTask_fns (s : State) (t : Nat) (f : Task → Task) : (s.onTask t f).fns = s.fns := by unfold State.onTask; split <;> rfl
@[simp] theorem State.onTask_pkgs (s : State) (t : Nat) (f : Task → Task) : (s.onTask t f).pkgs = s.pkgs := by unfold State.onTask; split <;> rfl
@[simp] theorem State.onTask_parts (s : State) (t : Nat) (f : Task → Task) : (s.onTask t f).parts = s.parts := by unfold State.onTask; split <;> rfl
@[simp] theorem State.onTask_grants (s : State) (t : Nat) (f : Task → Task) : (s.onTask t f).grants = s.grants := by unfold State.onTask; split <;> rfl
@[simp] theorem State.onTask_slice (s : State) (t : Nat) (f : Task → Task) : (s.onTask t f).slice = s.slice := by unfold State.onTask; split <;> rfl
@[simp] theorem State.onTask_sepoch (s : State) (t : Nat) (f : Task → Task) : (s.onTask t f).sepoch = s.sepoch := by unfold State.onTask; split <;> rfl
@[simp] theorem State.onTask_dcycStart (s : State) (t : Nat) (f : Task → Task) : (s.onTask t f).dcycStart = s.dcycStart := by unfold State.onTask; split <;> rfl
@[simp] theorem State.onTask_ptm (s : State) (t : Nat) (f : Task → Task) : (s.onTask t f).ptm = s.ptm := by unfold State.onTask; split <;> rfl
@[simp] theorem State.onTask_serial (s : State) (t : Nat) (f : Task → Task) : (s.onTask t f).serial = s.serial := by unfold State.onTask; split <;> rfl
@[simp] theorem State.onTask_arrivals (s : State) (t : Nat) (f : Task → Task) : (s.onTask t f).arrivals = s.arrivals := by unfold State.onTask; split <;> rfl
@[simp] theorem State.onTask_imageGens (s : State) (t : Nat) (f : Task → Task) : (s.onTask t f).imageGens = s.imageGens := by unfold State.onTask; split <;> rfl
@[simp] theorem State.onTask_order (s : State) (t : Nat) (f : Task → Task) : (s.onTask t f).order = s.order := by unfold State.onTask; split <;> rfl
@[simp] theorem State.onTask_front (s : State) (t : Nat) (f : Task → Task) : (s.onTask t f).front = s.front := by unfold State.onTask; split <;> rfl
@[simp] theorem State.onTask_trees (s : State) (t : Nat) (f : Task → Task) : (s.onTask t f).trees = s.trees := by unfold State.onTask; split <;> rfl
@[simp] theorem State.onTask_migrations (s : State) (t : Nat) (f : Task → Task) : (s.onTask t f).migrations = s.migrations := by unfold State.onTask; split <;> rfl
@[simp] theorem State.onTask_gens (s : State) (t : Nat) (f : Task → Task) : (s.onTask t f).gens = s.gens := by unfold State.onTask; split <;> rfl
@[simp] theorem State.onTask_tier (s : State) (t : Nat) (f : Task → Task) : (s.onTask t f).tier = s.tier := by unfold State.onTask; split <;> rfl
@[simp] theorem State.onTask_hostMode (s : State) (t : Nat) (f : Task → Task) : (s.onTask t f).hostMode = s.hostMode := by unfold State.onTask; split <;> rfl
@[simp] theorem State.onTask_hostWidth (s : State) (t : Nat) (f : Task → Task) : (s.onTask t f).hostWidth = s.hostWidth := by unfold State.onTask; split <;> rfl
@[simp] theorem State.onTask_hostRate (s : State) (t : Nat) (f : Task → Task) : (s.onTask t f).hostRate = s.hostRate := by unfold State.onTask; split <;> rfl
@[simp] theorem State.onTask_hostFlit (s : State) (t : Nat) (f : Task → Task) : (s.onTask t f).hostFlit = s.hostFlit := by unfold State.onTask; split <;> rfl
@[simp] theorem State.onTask_hdm (s : State) (t : Nat) (f : Task → Task) : (s.onTask t f).hdm = s.hdm := by unfold State.onTask; split <;> rfl
@[simp] theorem State.onTask_ide (s : State) (t : Nat) (f : Task → Task) : (s.onTask t f).ide = s.ide := by unfold State.onTask; split <;> rfl
@[simp] theorem State.onTask_hostLines (s : State) (t : Nat) (f : Task → Task) : (s.onTask t f).hostLines = s.hostLines := by unfold State.onTask; split <;> rfl
@[simp] theorem State.onTask_out (s : State) (t : Nat) (f : Task → Task) : (s.onTask t f).out = s.out := by unfold State.onTask; split <;> rfl

/-! onGang -/

@[simp] theorem State.onGang_wall (s : State) (t : Nat) (f : Gang → Gang) : (s.onGang t f).wall = s.wall := by simp [State.onGang]
@[simp] theorem State.onGang_agenda (s : State) (t : Nat) (f : Gang → Gang) : (s.onGang t f).agenda = s.agenda := by simp [State.onGang]
@[simp] theorem State.onGang_cur (s : State) (t : Nat) (f : Gang → Gang) : (s.onGang t f).cur = s.cur := by simp [State.onGang]
@[simp] theorem State.onGang_inputs (s : State) (t : Nat) (f : Gang → Gang) : (s.onGang t f).inputs = s.inputs := by simp [State.onGang]
@[simp] theorem State.onGang_tape (s : State) (t : Nat) (f : Gang → Gang) : (s.onGang t f).tape = s.tape := by simp [State.onGang]
@[simp] theorem State.onGang_cfg (s : State) (t : Nat) (f : Gang → Gang) : (s.onGang t f).cfg = s.cfg := by simp [State.onGang]
@[simp] theorem State.onGang_cores (s : State) (t : Nat) (f : Gang → Gang) : (s.onGang t f).cores = s.cores := by simp [State.onGang]
@[simp] theorem State.onGang_dev (s : State) (t : Nat) (f : Gang → Gang) : (s.onGang t f).dev = s.dev := by simp [State.onGang]
@[simp] theorem State.onGang_devPoison (s : State) (t : Nat) (f : Gang → Gang) : (s.onGang t f).devPoison = s.devPoison := by simp [State.onGang]
@[simp] theorem State.onGang_devBad (s : State) (t : Nat) (f : Gang → Gang) : (s.onGang t f).devBad = s.devBad := by simp [State.onGang]
@[simp] theorem State.onGang_sys (s : State) (t : Nat) (f : Gang → Gang) : (s.onGang t f).sys = s.sys := by simp [State.onGang]
@[simp] theorem State.onGang_sysPoison (s : State) (t : Nat) (f : Gang → Gang) : (s.onGang t f).sysPoison = s.sysPoison := by simp [State.onGang]
@[simp] theorem State.onGang_fns (s : State) (t : Nat) (f : Gang → Gang) : (s.onGang t f).fns = s.fns := by simp [State.onGang]
@[simp] theorem State.onGang_pkgs (s : State) (t : Nat) (f : Gang → Gang) : (s.onGang t f).pkgs = s.pkgs := by simp [State.onGang]
@[simp] theorem State.onGang_parts (s : State) (t : Nat) (f : Gang → Gang) : (s.onGang t f).parts = s.parts := by simp [State.onGang]
@[simp] theorem State.onGang_grants (s : State) (t : Nat) (f : Gang → Gang) : (s.onGang t f).grants = s.grants := by simp [State.onGang]
@[simp] theorem State.onGang_slice (s : State) (t : Nat) (f : Gang → Gang) : (s.onGang t f).slice = s.slice := by simp [State.onGang]
@[simp] theorem State.onGang_sepoch (s : State) (t : Nat) (f : Gang → Gang) : (s.onGang t f).sepoch = s.sepoch := by simp [State.onGang]
@[simp] theorem State.onGang_dcycStart (s : State) (t : Nat) (f : Gang → Gang) : (s.onGang t f).dcycStart = s.dcycStart := by simp [State.onGang]
@[simp] theorem State.onGang_ptm (s : State) (t : Nat) (f : Gang → Gang) : (s.onGang t f).ptm = s.ptm := by simp [State.onGang]
@[simp] theorem State.onGang_serial (s : State) (t : Nat) (f : Gang → Gang) : (s.onGang t f).serial = s.serial := by simp [State.onGang]
@[simp] theorem State.onGang_arrivals (s : State) (t : Nat) (f : Gang → Gang) : (s.onGang t f).arrivals = s.arrivals := by simp [State.onGang]
@[simp] theorem State.onGang_imageGens (s : State) (t : Nat) (f : Gang → Gang) : (s.onGang t f).imageGens = s.imageGens := by simp [State.onGang]
@[simp] theorem State.onGang_order (s : State) (t : Nat) (f : Gang → Gang) : (s.onGang t f).order = s.order := by simp [State.onGang]
@[simp] theorem State.onGang_front (s : State) (t : Nat) (f : Gang → Gang) : (s.onGang t f).front = s.front := by simp [State.onGang]
@[simp] theorem State.onGang_trees (s : State) (t : Nat) (f : Gang → Gang) : (s.onGang t f).trees = s.trees := by simp [State.onGang]
@[simp] theorem State.onGang_migrations (s : State) (t : Nat) (f : Gang → Gang) : (s.onGang t f).migrations = s.migrations := by simp [State.onGang]
@[simp] theorem State.onGang_gens (s : State) (t : Nat) (f : Gang → Gang) : (s.onGang t f).gens = s.gens := by simp [State.onGang]
@[simp] theorem State.onGang_tier (s : State) (t : Nat) (f : Gang → Gang) : (s.onGang t f).tier = s.tier := by simp [State.onGang]
@[simp] theorem State.onGang_hostMode (s : State) (t : Nat) (f : Gang → Gang) : (s.onGang t f).hostMode = s.hostMode := by simp [State.onGang]
@[simp] theorem State.onGang_hostWidth (s : State) (t : Nat) (f : Gang → Gang) : (s.onGang t f).hostWidth = s.hostWidth := by simp [State.onGang]
@[simp] theorem State.onGang_hostRate (s : State) (t : Nat) (f : Gang → Gang) : (s.onGang t f).hostRate = s.hostRate := by simp [State.onGang]
@[simp] theorem State.onGang_hostFlit (s : State) (t : Nat) (f : Gang → Gang) : (s.onGang t f).hostFlit = s.hostFlit := by simp [State.onGang]
@[simp] theorem State.onGang_hdm (s : State) (t : Nat) (f : Gang → Gang) : (s.onGang t f).hdm = s.hdm := by simp [State.onGang]
@[simp] theorem State.onGang_ide (s : State) (t : Nat) (f : Gang → Gang) : (s.onGang t f).ide = s.ide := by simp [State.onGang]
@[simp] theorem State.onGang_hostLines (s : State) (t : Nat) (f : Gang → Gang) : (s.onGang t f).hostLines = s.hostLines := by simp [State.onGang]
@[simp] theorem State.onGang_out (s : State) (t : Nat) (f : Gang → Gang) : (s.onGang t f).out = s.out := by simp [State.onGang]

/-! onTile -/

@[simp] theorem State.onTile_wall (s : State) (t i : Nat) (f : Tile → Tile) : (s.onTile t i f).wall = s.wall := by simp [State.onTile]
@[simp] theorem State.onTile_agenda (s : State) (t i : Nat) (f : Tile → Tile) : (s.onTile t i f).agenda = s.agenda := by simp [State.onTile]
@[simp] theorem State.onTile_cur (s : State) (t i : Nat) (f : Tile → Tile) : (s.onTile t i f).cur = s.cur := by simp [State.onTile]
@[simp] theorem State.onTile_inputs (s : State) (t i : Nat) (f : Tile → Tile) : (s.onTile t i f).inputs = s.inputs := by simp [State.onTile]
@[simp] theorem State.onTile_tape (s : State) (t i : Nat) (f : Tile → Tile) : (s.onTile t i f).tape = s.tape := by simp [State.onTile]
@[simp] theorem State.onTile_cfg (s : State) (t i : Nat) (f : Tile → Tile) : (s.onTile t i f).cfg = s.cfg := by simp [State.onTile]
@[simp] theorem State.onTile_cores (s : State) (t i : Nat) (f : Tile → Tile) : (s.onTile t i f).cores = s.cores := by simp [State.onTile]
@[simp] theorem State.onTile_dev (s : State) (t i : Nat) (f : Tile → Tile) : (s.onTile t i f).dev = s.dev := by simp [State.onTile]
@[simp] theorem State.onTile_devPoison (s : State) (t i : Nat) (f : Tile → Tile) : (s.onTile t i f).devPoison = s.devPoison := by simp [State.onTile]
@[simp] theorem State.onTile_devBad (s : State) (t i : Nat) (f : Tile → Tile) : (s.onTile t i f).devBad = s.devBad := by simp [State.onTile]
@[simp] theorem State.onTile_sys (s : State) (t i : Nat) (f : Tile → Tile) : (s.onTile t i f).sys = s.sys := by simp [State.onTile]
@[simp] theorem State.onTile_sysPoison (s : State) (t i : Nat) (f : Tile → Tile) : (s.onTile t i f).sysPoison = s.sysPoison := by simp [State.onTile]
@[simp] theorem State.onTile_fns (s : State) (t i : Nat) (f : Tile → Tile) : (s.onTile t i f).fns = s.fns := by simp [State.onTile]
@[simp] theorem State.onTile_pkgs (s : State) (t i : Nat) (f : Tile → Tile) : (s.onTile t i f).pkgs = s.pkgs := by simp [State.onTile]
@[simp] theorem State.onTile_parts (s : State) (t i : Nat) (f : Tile → Tile) : (s.onTile t i f).parts = s.parts := by simp [State.onTile]
@[simp] theorem State.onTile_grants (s : State) (t i : Nat) (f : Tile → Tile) : (s.onTile t i f).grants = s.grants := by simp [State.onTile]
@[simp] theorem State.onTile_slice (s : State) (t i : Nat) (f : Tile → Tile) : (s.onTile t i f).slice = s.slice := by simp [State.onTile]
@[simp] theorem State.onTile_sepoch (s : State) (t i : Nat) (f : Tile → Tile) : (s.onTile t i f).sepoch = s.sepoch := by simp [State.onTile]
@[simp] theorem State.onTile_dcycStart (s : State) (t i : Nat) (f : Tile → Tile) : (s.onTile t i f).dcycStart = s.dcycStart := by simp [State.onTile]
@[simp] theorem State.onTile_ptm (s : State) (t i : Nat) (f : Tile → Tile) : (s.onTile t i f).ptm = s.ptm := by simp [State.onTile]
@[simp] theorem State.onTile_serial (s : State) (t i : Nat) (f : Tile → Tile) : (s.onTile t i f).serial = s.serial := by simp [State.onTile]
@[simp] theorem State.onTile_arrivals (s : State) (t i : Nat) (f : Tile → Tile) : (s.onTile t i f).arrivals = s.arrivals := by simp [State.onTile]
@[simp] theorem State.onTile_imageGens (s : State) (t i : Nat) (f : Tile → Tile) : (s.onTile t i f).imageGens = s.imageGens := by simp [State.onTile]
@[simp] theorem State.onTile_order (s : State) (t i : Nat) (f : Tile → Tile) : (s.onTile t i f).order = s.order := by simp [State.onTile]
@[simp] theorem State.onTile_front (s : State) (t i : Nat) (f : Tile → Tile) : (s.onTile t i f).front = s.front := by simp [State.onTile]
@[simp] theorem State.onTile_trees (s : State) (t i : Nat) (f : Tile → Tile) : (s.onTile t i f).trees = s.trees := by simp [State.onTile]
@[simp] theorem State.onTile_migrations (s : State) (t i : Nat) (f : Tile → Tile) : (s.onTile t i f).migrations = s.migrations := by simp [State.onTile]
@[simp] theorem State.onTile_gens (s : State) (t i : Nat) (f : Tile → Tile) : (s.onTile t i f).gens = s.gens := by simp [State.onTile]
@[simp] theorem State.onTile_tier (s : State) (t i : Nat) (f : Tile → Tile) : (s.onTile t i f).tier = s.tier := by simp [State.onTile]
@[simp] theorem State.onTile_hostMode (s : State) (t i : Nat) (f : Tile → Tile) : (s.onTile t i f).hostMode = s.hostMode := by simp [State.onTile]
@[simp] theorem State.onTile_hostWidth (s : State) (t i : Nat) (f : Tile → Tile) : (s.onTile t i f).hostWidth = s.hostWidth := by simp [State.onTile]
@[simp] theorem State.onTile_hostRate (s : State) (t i : Nat) (f : Tile → Tile) : (s.onTile t i f).hostRate = s.hostRate := by simp [State.onTile]
@[simp] theorem State.onTile_hostFlit (s : State) (t i : Nat) (f : Tile → Tile) : (s.onTile t i f).hostFlit = s.hostFlit := by simp [State.onTile]
@[simp] theorem State.onTile_hdm (s : State) (t i : Nat) (f : Tile → Tile) : (s.onTile t i f).hdm = s.hdm := by simp [State.onTile]
@[simp] theorem State.onTile_ide (s : State) (t i : Nat) (f : Tile → Tile) : (s.onTile t i f).ide = s.ide := by simp [State.onTile]
@[simp] theorem State.onTile_hostLines (s : State) (t i : Nat) (f : Tile → Tile) : (s.onTile t i f).hostLines = s.hostLines := by simp [State.onTile]
@[simp] theorem State.onTile_out (s : State) (t i : Nat) (f : Tile → Tile) : (s.onTile t i f).out = s.out := by simp [State.onTile]

/-! emit -/

@[simp] theorem State.emit_wall (s : State) (k w : Nat) (v : List Nat) : (s.emit k w v).wall = s.wall := rfl
@[simp] theorem State.emit_agenda (s : State) (k w : Nat) (v : List Nat) : (s.emit k w v).agenda = s.agenda := rfl
@[simp] theorem State.emit_cur (s : State) (k w : Nat) (v : List Nat) : (s.emit k w v).cur = s.cur := rfl
@[simp] theorem State.emit_inputs (s : State) (k w : Nat) (v : List Nat) : (s.emit k w v).inputs = s.inputs := rfl
@[simp] theorem State.emit_tape (s : State) (k w : Nat) (v : List Nat) : (s.emit k w v).tape = s.tape := rfl
@[simp] theorem State.emit_cfg (s : State) (k w : Nat) (v : List Nat) : (s.emit k w v).cfg = s.cfg := rfl
@[simp] theorem State.emit_cores (s : State) (k w : Nat) (v : List Nat) : (s.emit k w v).cores = s.cores := rfl
@[simp] theorem State.emit_dev (s : State) (k w : Nat) (v : List Nat) : (s.emit k w v).dev = s.dev := rfl
@[simp] theorem State.emit_devPoison (s : State) (k w : Nat) (v : List Nat) : (s.emit k w v).devPoison = s.devPoison := rfl
@[simp] theorem State.emit_devBad (s : State) (k w : Nat) (v : List Nat) : (s.emit k w v).devBad = s.devBad := rfl
@[simp] theorem State.emit_sys (s : State) (k w : Nat) (v : List Nat) : (s.emit k w v).sys = s.sys := rfl
@[simp] theorem State.emit_sysPoison (s : State) (k w : Nat) (v : List Nat) : (s.emit k w v).sysPoison = s.sysPoison := rfl
@[simp] theorem State.emit_tasks (s : State) (k w : Nat) (v : List Nat) : (s.emit k w v).tasks = s.tasks := rfl
@[simp] theorem State.emit_fns (s : State) (k w : Nat) (v : List Nat) : (s.emit k w v).fns = s.fns := rfl
@[simp] theorem State.emit_pkgs (s : State) (k w : Nat) (v : List Nat) : (s.emit k w v).pkgs = s.pkgs := rfl
@[simp] theorem State.emit_parts (s : State) (k w : Nat) (v : List Nat) : (s.emit k w v).parts = s.parts := rfl
@[simp] theorem State.emit_grants (s : State) (k w : Nat) (v : List Nat) : (s.emit k w v).grants = s.grants := rfl
@[simp] theorem State.emit_slice (s : State) (k w : Nat) (v : List Nat) : (s.emit k w v).slice = s.slice := rfl
@[simp] theorem State.emit_sepoch (s : State) (k w : Nat) (v : List Nat) : (s.emit k w v).sepoch = s.sepoch := rfl
@[simp] theorem State.emit_dcycStart (s : State) (k w : Nat) (v : List Nat) : (s.emit k w v).dcycStart = s.dcycStart := rfl
@[simp] theorem State.emit_ptm (s : State) (k w : Nat) (v : List Nat) : (s.emit k w v).ptm = s.ptm := rfl
@[simp] theorem State.emit_serial (s : State) (k w : Nat) (v : List Nat) : (s.emit k w v).serial = s.serial := rfl
@[simp] theorem State.emit_arrivals (s : State) (k w : Nat) (v : List Nat) : (s.emit k w v).arrivals = s.arrivals := rfl
@[simp] theorem State.emit_imageGens (s : State) (k w : Nat) (v : List Nat) : (s.emit k w v).imageGens = s.imageGens := rfl
@[simp] theorem State.emit_order (s : State) (k w : Nat) (v : List Nat) : (s.emit k w v).order = s.order := rfl
@[simp] theorem State.emit_front (s : State) (k w : Nat) (v : List Nat) : (s.emit k w v).front = s.front := rfl
@[simp] theorem State.emit_trees (s : State) (k w : Nat) (v : List Nat) : (s.emit k w v).trees = s.trees := rfl
@[simp] theorem State.emit_migrations (s : State) (k w : Nat) (v : List Nat) : (s.emit k w v).migrations = s.migrations := rfl
@[simp] theorem State.emit_gens (s : State) (k w : Nat) (v : List Nat) : (s.emit k w v).gens = s.gens := rfl
@[simp] theorem State.emit_tier (s : State) (k w : Nat) (v : List Nat) : (s.emit k w v).tier = s.tier := rfl
@[simp] theorem State.emit_hostMode (s : State) (k w : Nat) (v : List Nat) : (s.emit k w v).hostMode = s.hostMode := rfl
@[simp] theorem State.emit_hostWidth (s : State) (k w : Nat) (v : List Nat) : (s.emit k w v).hostWidth = s.hostWidth := rfl
@[simp] theorem State.emit_hostRate (s : State) (k w : Nat) (v : List Nat) : (s.emit k w v).hostRate = s.hostRate := rfl
@[simp] theorem State.emit_hostFlit (s : State) (k w : Nat) (v : List Nat) : (s.emit k w v).hostFlit = s.hostFlit := rfl
@[simp] theorem State.emit_hdm (s : State) (k w : Nat) (v : List Nat) : (s.emit k w v).hdm = s.hdm := rfl
@[simp] theorem State.emit_ide (s : State) (k w : Nat) (v : List Nat) : (s.emit k w v).ide = s.ide := rfl
@[simp] theorem State.emit_hostLines (s : State) (k w : Nat) (v : List Nat) : (s.emit k w v).hostLines = s.hostLines := rfl
@[simp] theorem State.emit_out (s : State) (k w : Nat) (v : List Nat) : (s.emit k w v).out = s.out ++ [{ kind := k, who := w, value := v }] := rfl

/-! logEvent -/

@[simp] theorem State.logEvent_wall (s : State) (v u p t a c : Nat) : (s.logEvent v u p t a c).wall = s.wall := rfl
@[simp] theorem State.logEvent_agenda (s : State) (v u p t a c : Nat) : (s.logEvent v u p t a c).agenda = s.agenda := rfl
@[simp] theorem State.logEvent_cur (s : State) (v u p t a c : Nat) : (s.logEvent v u p t a c).cur = s.cur := rfl
@[simp] theorem State.logEvent_inputs (s : State) (v u p t a c : Nat) : (s.logEvent v u p t a c).inputs = s.inputs := rfl
@[simp] theorem State.logEvent_tape (s : State) (v u p t a c : Nat) : (s.logEvent v u p t a c).tape = s.tape := rfl
@[simp] theorem State.logEvent_cfg (s : State) (v u p t a c : Nat) : (s.logEvent v u p t a c).cfg = s.cfg := rfl
@[simp] theorem State.logEvent_cores (s : State) (v u p t a c : Nat) : (s.logEvent v u p t a c).cores = s.cores := rfl
@[simp] theorem State.logEvent_dev (s : State) (v u p t a c : Nat) : (s.logEvent v u p t a c).dev = s.dev := rfl
@[simp] theorem State.logEvent_devPoison (s : State) (v u p t a c : Nat) : (s.logEvent v u p t a c).devPoison = s.devPoison := rfl
@[simp] theorem State.logEvent_devBad (s : State) (v u p t a c : Nat) : (s.logEvent v u p t a c).devBad = s.devBad := rfl
@[simp] theorem State.logEvent_sys (s : State) (v u p t a c : Nat) : (s.logEvent v u p t a c).sys = s.sys := rfl
@[simp] theorem State.logEvent_sysPoison (s : State) (v u p t a c : Nat) : (s.logEvent v u p t a c).sysPoison = s.sysPoison := rfl
@[simp] theorem State.logEvent_tasks (s : State) (v u p t a c : Nat) : (s.logEvent v u p t a c).tasks = s.tasks := rfl
@[simp] theorem State.logEvent_fns (s : State) (v u p t a c : Nat) : (s.logEvent v u p t a c).fns = s.fns := rfl
@[simp] theorem State.logEvent_parts (s : State) (v u p t a c : Nat) : (s.logEvent v u p t a c).parts = s.parts := rfl
@[simp] theorem State.logEvent_grants (s : State) (v u p t a c : Nat) : (s.logEvent v u p t a c).grants = s.grants := rfl
@[simp] theorem State.logEvent_slice (s : State) (v u p t a c : Nat) : (s.logEvent v u p t a c).slice = s.slice := rfl
@[simp] theorem State.logEvent_sepoch (s : State) (v u p t a c : Nat) : (s.logEvent v u p t a c).sepoch = s.sepoch := rfl
@[simp] theorem State.logEvent_dcycStart (s : State) (v u p t a c : Nat) : (s.logEvent v u p t a c).dcycStart = s.dcycStart := rfl
@[simp] theorem State.logEvent_ptm (s : State) (v u p t a c : Nat) : (s.logEvent v u p t a c).ptm = s.ptm := rfl
@[simp] theorem State.logEvent_serial (s : State) (v u p t a c : Nat) : (s.logEvent v u p t a c).serial = s.serial := rfl
@[simp] theorem State.logEvent_arrivals (s : State) (v u p t a c : Nat) : (s.logEvent v u p t a c).arrivals = s.arrivals := rfl
@[simp] theorem State.logEvent_imageGens (s : State) (v u p t a c : Nat) : (s.logEvent v u p t a c).imageGens = s.imageGens := rfl
@[simp] theorem State.logEvent_order (s : State) (v u p t a c : Nat) : (s.logEvent v u p t a c).order = s.order := rfl
@[simp] theorem State.logEvent_front (s : State) (v u p t a c : Nat) : (s.logEvent v u p t a c).front = s.front := rfl
@[simp] theorem State.logEvent_trees (s : State) (v u p t a c : Nat) : (s.logEvent v u p t a c).trees = s.trees := rfl
@[simp] theorem State.logEvent_migrations (s : State) (v u p t a c : Nat) : (s.logEvent v u p t a c).migrations = s.migrations := rfl
@[simp] theorem State.logEvent_gens (s : State) (v u p t a c : Nat) : (s.logEvent v u p t a c).gens = s.gens := rfl
@[simp] theorem State.logEvent_tier (s : State) (v u p t a c : Nat) : (s.logEvent v u p t a c).tier = s.tier := rfl
@[simp] theorem State.logEvent_hostMode (s : State) (v u p t a c : Nat) : (s.logEvent v u p t a c).hostMode = s.hostMode := rfl
@[simp] theorem State.logEvent_hostWidth (s : State) (v u p t a c : Nat) : (s.logEvent v u p t a c).hostWidth = s.hostWidth := rfl
@[simp] theorem State.logEvent_hostRate (s : State) (v u p t a c : Nat) : (s.logEvent v u p t a c).hostRate = s.hostRate := rfl
@[simp] theorem State.logEvent_hostFlit (s : State) (v u p t a c : Nat) : (s.logEvent v u p t a c).hostFlit = s.hostFlit := rfl
@[simp] theorem State.logEvent_hdm (s : State) (v u p t a c : Nat) : (s.logEvent v u p t a c).hdm = s.hdm := rfl
@[simp] theorem State.logEvent_ide (s : State) (v u p t a c : Nat) : (s.logEvent v u p t a c).ide = s.ide := rfl
@[simp] theorem State.logEvent_hostLines (s : State) (v u p t a c : Nat) : (s.logEvent v u p t a c).hostLines = s.hostLines := rfl
@[simp] theorem State.logEvent_out (s : State) (v u p t a c : Nat) : (s.logEvent v u p t a c).out = s.out := rfl

/-! devWrite -/

@[simp] theorem State.devWrite_wall (s : State) (a : Nat) (bs : List PByte) : (s.devWrite a bs).wall = s.wall := rfl
@[simp] theorem State.devWrite_agenda (s : State) (a : Nat) (bs : List PByte) : (s.devWrite a bs).agenda = s.agenda := rfl
@[simp] theorem State.devWrite_cur (s : State) (a : Nat) (bs : List PByte) : (s.devWrite a bs).cur = s.cur := rfl
@[simp] theorem State.devWrite_inputs (s : State) (a : Nat) (bs : List PByte) : (s.devWrite a bs).inputs = s.inputs := rfl
@[simp] theorem State.devWrite_tape (s : State) (a : Nat) (bs : List PByte) : (s.devWrite a bs).tape = s.tape := rfl
@[simp] theorem State.devWrite_cfg (s : State) (a : Nat) (bs : List PByte) : (s.devWrite a bs).cfg = s.cfg := rfl
@[simp] theorem State.devWrite_cores (s : State) (a : Nat) (bs : List PByte) : (s.devWrite a bs).cores = wakeCores s.cores a bs.length := rfl
@[simp] theorem State.devWrite_dev (s : State) (a : Nat) (bs : List PByte) : (s.devWrite a bs).dev = writeBytes (fillBad s.dev (s.badHit a bs.length)) a (bs.map (·.b)) := rfl
@[simp] theorem State.devWrite_devPoison (s : State) (a : Nat) (bs : List PByte) : (s.devWrite a bs).devPoison = markBytes ((s.badHit a bs.length).foldl addNum s.devPoison) a bs := rfl
@[simp] theorem State.devWrite_sys (s : State) (a : Nat) (bs : List PByte) : (s.devWrite a bs).sys = s.sys := rfl
@[simp] theorem State.devWrite_sysPoison (s : State) (a : Nat) (bs : List PByte) : (s.devWrite a bs).sysPoison = s.sysPoison := rfl
@[simp] theorem State.devWrite_tasks (s : State) (a : Nat) (bs : List PByte) : (s.devWrite a bs).tasks = s.tasks := rfl
@[simp] theorem State.devWrite_fns (s : State) (a : Nat) (bs : List PByte) : (s.devWrite a bs).fns = s.fns := rfl
@[simp] theorem State.devWrite_pkgs (s : State) (a : Nat) (bs : List PByte) : (s.devWrite a bs).pkgs = s.pkgs := rfl
@[simp] theorem State.devWrite_parts (s : State) (a : Nat) (bs : List PByte) : (s.devWrite a bs).parts = s.parts := rfl
@[simp] theorem State.devWrite_grants (s : State) (a : Nat) (bs : List PByte) : (s.devWrite a bs).grants = s.grants := rfl
@[simp] theorem State.devWrite_slice (s : State) (a : Nat) (bs : List PByte) : (s.devWrite a bs).slice = s.slice := rfl
@[simp] theorem State.devWrite_sepoch (s : State) (a : Nat) (bs : List PByte) : (s.devWrite a bs).sepoch = s.sepoch := rfl
@[simp] theorem State.devWrite_dcycStart (s : State) (a : Nat) (bs : List PByte) : (s.devWrite a bs).dcycStart = s.dcycStart := rfl
@[simp] theorem State.devWrite_ptm (s : State) (a : Nat) (bs : List PByte) : (s.devWrite a bs).ptm = s.ptm := rfl
@[simp] theorem State.devWrite_serial (s : State) (a : Nat) (bs : List PByte) : (s.devWrite a bs).serial = s.serial := rfl
@[simp] theorem State.devWrite_arrivals (s : State) (a : Nat) (bs : List PByte) : (s.devWrite a bs).arrivals = s.arrivals := rfl
@[simp] theorem State.devWrite_imageGens (s : State) (a : Nat) (bs : List PByte) : (s.devWrite a bs).imageGens = s.imageGens := rfl
@[simp] theorem State.devWrite_order (s : State) (a : Nat) (bs : List PByte) : (s.devWrite a bs).order = s.order := rfl
@[simp] theorem State.devWrite_front (s : State) (a : Nat) (bs : List PByte) : (s.devWrite a bs).front = s.front := rfl
@[simp] theorem State.devWrite_trees (s : State) (a : Nat) (bs : List PByte) : (s.devWrite a bs).trees = s.trees := rfl
@[simp] theorem State.devWrite_migrations (s : State) (a : Nat) (bs : List PByte) : (s.devWrite a bs).migrations = s.migrations := rfl
@[simp] theorem State.devWrite_tier (s : State) (a : Nat) (bs : List PByte) : (s.devWrite a bs).tier = s.tier := rfl
@[simp] theorem State.devWrite_hostMode (s : State) (a : Nat) (bs : List PByte) : (s.devWrite a bs).hostMode = s.hostMode := rfl
@[simp] theorem State.devWrite_hostWidth (s : State) (a : Nat) (bs : List PByte) : (s.devWrite a bs).hostWidth = s.hostWidth := rfl
@[simp] theorem State.devWrite_hostRate (s : State) (a : Nat) (bs : List PByte) : (s.devWrite a bs).hostRate = s.hostRate := rfl
@[simp] theorem State.devWrite_hostFlit (s : State) (a : Nat) (bs : List PByte) : (s.devWrite a bs).hostFlit = s.hostFlit := rfl
@[simp] theorem State.devWrite_hdm (s : State) (a : Nat) (bs : List PByte) : (s.devWrite a bs).hdm = s.hdm := rfl
@[simp] theorem State.devWrite_ide (s : State) (a : Nat) (bs : List PByte) : (s.devWrite a bs).ide = s.ide := rfl
@[simp] theorem State.devWrite_out (s : State) (a : Nat) (bs : List PByte) : (s.devWrite a bs).out = s.out := rfl

/-! sysWrite -/

@[simp] theorem State.sysWrite_wall (s : State) (a : Nat) (bs : List PByte) : (s.sysWrite a bs).wall = s.wall := rfl
@[simp] theorem State.sysWrite_agenda (s : State) (a : Nat) (bs : List PByte) : (s.sysWrite a bs).agenda = s.agenda := rfl
@[simp] theorem State.sysWrite_cur (s : State) (a : Nat) (bs : List PByte) : (s.sysWrite a bs).cur = s.cur := rfl
@[simp] theorem State.sysWrite_inputs (s : State) (a : Nat) (bs : List PByte) : (s.sysWrite a bs).inputs = s.inputs := rfl
@[simp] theorem State.sysWrite_tape (s : State) (a : Nat) (bs : List PByte) : (s.sysWrite a bs).tape = s.tape := rfl
@[simp] theorem State.sysWrite_cfg (s : State) (a : Nat) (bs : List PByte) : (s.sysWrite a bs).cfg = s.cfg := rfl
@[simp] theorem State.sysWrite_cores (s : State) (a : Nat) (bs : List PByte) : (s.sysWrite a bs).cores = wakeCores s.cores (sysBase + a) bs.length := rfl
@[simp] theorem State.sysWrite_dev (s : State) (a : Nat) (bs : List PByte) : (s.sysWrite a bs).dev = s.dev := rfl
@[simp] theorem State.sysWrite_devPoison (s : State) (a : Nat) (bs : List PByte) : (s.sysWrite a bs).devPoison = s.devPoison := rfl
@[simp] theorem State.sysWrite_devBad (s : State) (a : Nat) (bs : List PByte) : (s.sysWrite a bs).devBad = s.devBad := rfl
@[simp] theorem State.sysWrite_sys (s : State) (a : Nat) (bs : List PByte) : (s.sysWrite a bs).sys = writeBytes s.sys a (bs.map (·.b)) := rfl
@[simp] theorem State.sysWrite_sysPoison (s : State) (a : Nat) (bs : List PByte) : (s.sysWrite a bs).sysPoison = markBytes s.sysPoison a bs := rfl
@[simp] theorem State.sysWrite_tasks (s : State) (a : Nat) (bs : List PByte) : (s.sysWrite a bs).tasks = s.tasks := rfl
@[simp] theorem State.sysWrite_fns (s : State) (a : Nat) (bs : List PByte) : (s.sysWrite a bs).fns = s.fns := rfl
@[simp] theorem State.sysWrite_pkgs (s : State) (a : Nat) (bs : List PByte) : (s.sysWrite a bs).pkgs = s.pkgs := rfl
@[simp] theorem State.sysWrite_parts (s : State) (a : Nat) (bs : List PByte) : (s.sysWrite a bs).parts = s.parts := rfl
@[simp] theorem State.sysWrite_grants (s : State) (a : Nat) (bs : List PByte) : (s.sysWrite a bs).grants = s.grants := rfl
@[simp] theorem State.sysWrite_slice (s : State) (a : Nat) (bs : List PByte) : (s.sysWrite a bs).slice = s.slice := rfl
@[simp] theorem State.sysWrite_sepoch (s : State) (a : Nat) (bs : List PByte) : (s.sysWrite a bs).sepoch = s.sepoch := rfl
@[simp] theorem State.sysWrite_dcycStart (s : State) (a : Nat) (bs : List PByte) : (s.sysWrite a bs).dcycStart = s.dcycStart := rfl
@[simp] theorem State.sysWrite_ptm (s : State) (a : Nat) (bs : List PByte) : (s.sysWrite a bs).ptm = s.ptm := rfl
@[simp] theorem State.sysWrite_serial (s : State) (a : Nat) (bs : List PByte) : (s.sysWrite a bs).serial = s.serial := rfl
@[simp] theorem State.sysWrite_arrivals (s : State) (a : Nat) (bs : List PByte) : (s.sysWrite a bs).arrivals = s.arrivals := rfl
@[simp] theorem State.sysWrite_imageGens (s : State) (a : Nat) (bs : List PByte) : (s.sysWrite a bs).imageGens = s.imageGens := rfl
@[simp] theorem State.sysWrite_order (s : State) (a : Nat) (bs : List PByte) : (s.sysWrite a bs).order = s.order := rfl
@[simp] theorem State.sysWrite_front (s : State) (a : Nat) (bs : List PByte) : (s.sysWrite a bs).front = s.front := rfl
@[simp] theorem State.sysWrite_trees (s : State) (a : Nat) (bs : List PByte) : (s.sysWrite a bs).trees = s.trees := rfl
@[simp] theorem State.sysWrite_migrations (s : State) (a : Nat) (bs : List PByte) : (s.sysWrite a bs).migrations = s.migrations := rfl
@[simp] theorem State.sysWrite_gens (s : State) (a : Nat) (bs : List PByte) : (s.sysWrite a bs).gens = s.gens := rfl
@[simp] theorem State.sysWrite_tier (s : State) (a : Nat) (bs : List PByte) : (s.sysWrite a bs).tier = s.tier := rfl
@[simp] theorem State.sysWrite_hostMode (s : State) (a : Nat) (bs : List PByte) : (s.sysWrite a bs).hostMode = s.hostMode := rfl
@[simp] theorem State.sysWrite_hostWidth (s : State) (a : Nat) (bs : List PByte) : (s.sysWrite a bs).hostWidth = s.hostWidth := rfl
@[simp] theorem State.sysWrite_hostRate (s : State) (a : Nat) (bs : List PByte) : (s.sysWrite a bs).hostRate = s.hostRate := rfl
@[simp] theorem State.sysWrite_hostFlit (s : State) (a : Nat) (bs : List PByte) : (s.sysWrite a bs).hostFlit = s.hostFlit := rfl
@[simp] theorem State.sysWrite_hdm (s : State) (a : Nat) (bs : List PByte) : (s.sysWrite a bs).hdm = s.hdm := rfl
@[simp] theorem State.sysWrite_ide (s : State) (a : Nat) (bs : List PByte) : (s.sysWrite a bs).ide = s.ide := rfl
@[simp] theorem State.sysWrite_hostLines (s : State) (a : Nat) (bs : List PByte) : (s.sysWrite a bs).hostLines = s.hostLines := rfl
@[simp] theorem State.sysWrite_out (s : State) (a : Nat) (bs : List PByte) : (s.sysWrite a bs).out = s.out := rfl

/-! onTile -/

@[simp] theorem Gang.onTile_p (g : Gang) (i : Nat) (f : Tile → Tile) : (g.onTile i f).p = g.p := by unfold Gang.onTile; split <;> rfl
@[simp] theorem Gang.onTile_t (g : Gang) (i : Nat) (f : Tile → Tile) : (g.onTile i f).t = g.t := by unfold Gang.onTile; split <;> rfl
@[simp] theorem Gang.onTile_pkgs (g : Gang) (i : Nat) (f : Tile → Tile) : (g.onTile i f).pkgs = g.pkgs := by unfold Gang.onTile; split <;> rfl
@[simp] theorem Gang.onTile_placeIdx (g : Gang) (i : Nat) (f : Tile → Tile) : (g.onTile i f).placeIdx = g.placeIdx := by unfold Gang.onTile; split <;> rfl
@[simp] theorem Gang.onTile_lcyc (g : Gang) (i : Nat) (f : Tile → Tile) : (g.onTile i f).lcyc = g.lcyc := by unfold Gang.onTile; split <;> rfl
@[simp] theorem Gang.onTile_dues (g : Gang) (i : Nat) (f : Tile → Tile) : (g.onTile i f).dues = g.dues := by unfold Gang.onTile; split <;> rfl
@[simp] theorem Gang.onTile_staged (g : Gang) (i : Nat) (f : Tile → Tile) : (g.onTile i f).staged = g.staged := by unfold Gang.onTile; split <;> rfl
@[simp] theorem Gang.onTile_run (g : Gang) (i : Nat) (f : Tile → Tile) : (g.onTile i f).run = g.run := by unfold Gang.onTile; split <;> rfl
@[simp] theorem Gang.onTile_holds (g : Gang) (i : Nat) (f : Tile → Tile) : (g.onTile i f).holds = g.holds := by unfold Gang.onTile; split <;> rfl
@[simp] theorem Gang.onTile_hclass (g : Gang) (i : Nat) (f : Tile → Tile) : (g.onTile i f).hclass = g.hclass := by unfold Gang.onTile; split <;> rfl
@[simp] theorem Gang.onTile_heldSince (g : Gang) (i : Nat) (f : Tile → Tile) : (g.onTile i f).heldSince = g.heldSince := by unfold Gang.onTile; split <;> rfl
@[simp] theorem Gang.onTile_resumeAt (g : Gang) (i : Nat) (f : Tile → Tile) : (g.onTile i f).resumeAt = g.resumeAt := by unfold Gang.onTile; split <;> rfl
@[simp] theorem Gang.onTile_drain (g : Gang) (i : Nat) (f : Tile → Tile) : (g.onTile i f).drain = g.drain := by unfold Gang.onTile; split <;> rfl
@[simp] theorem Gang.onTile_stopAt (g : Gang) (i : Nat) (f : Tile → Tile) : (g.onTile i f).stopAt = g.stopAt := by unfold Gang.onTile; split <;> rfl
@[simp] theorem Gang.onTile_bank (g : Gang) (i : Nat) (f : Tile → Tile) : (g.onTile i f).bank = g.bank := by unfold Gang.onTile; split <;> rfl
@[simp] theorem Gang.onTile_phase (g : Gang) (i : Nat) (f : Tile → Tile) : (g.onTile i f).phase = g.phase := by unfold Gang.onTile; split <;> rfl
@[simp] theorem Gang.onTile_slots (g : Gang) (i : Nat) (f : Tile → Tile) : (g.onTile i f).slots = g.slots := by unfold Gang.onTile; split <;> rfl
@[simp] theorem Gang.onTile_quota (g : Gang) (i : Nat) (f : Tile → Tile) : (g.onTile i f).quota = g.quota := by unfold Gang.onTile; split <;> rfl
@[simp] theorem Gang.onTile_design (g : Gang) (i : Nat) (f : Tile → Tile) : (g.onTile i f).design = g.design := by unfold Gang.onTile; split <;> rfl
@[simp] theorem Gang.onTile_mask (g : Gang) (i : Nat) (f : Tile → Tile) : (g.onTile i f).mask = g.mask := by unfold Gang.onTile; split <;> rfl
@[simp] theorem Gang.onTile_smask (g : Gang) (i : Nat) (f : Tile → Tile) : (g.onTile i f).smask = g.smask := by unfold Gang.onTile; split <;> rfl
@[simp] theorem Gang.onTile_places (g : Gang) (i : Nat) (f : Tile → Tile) : (g.onTile i f).places = g.places := by unfold Gang.onTile; split <;> rfl
@[simp] theorem Gang.onTile_table (g : Gang) (i : Nat) (f : Tile → Tile) : (g.onTile i f).table = g.table := by unfold Gang.onTile; split <;> rfl
@[simp] theorem Gang.onTile_tableBad (g : Gang) (i : Nat) (f : Tile → Tile) : (g.onTile i f).tableBad = g.tableBad := by unfold Gang.onTile; split <;> rfl
@[simp] theorem Gang.onTile_gnum (g : Gang) (i : Nat) (f : Tile → Tile) : (g.onTile i f).gnum = g.gnum := by unfold Gang.onTile; split <;> rfl
@[simp] theorem Gang.onTile_snaps (g : Gang) (i : Nat) (f : Tile → Tile) : (g.onTile i f).snaps = g.snaps := by unfold Gang.onTile; split <;> rfl
@[simp] theorem Gang.onTile_genqs (g : Gang) (i : Nat) (f : Tile → Tile) : (g.onTile i f).genqs = g.genqs := by unfold Gang.onTile; split <;> rfl
@[simp] theorem Gang.onTile_dctl (g : Gang) (i : Nat) (f : Tile → Tile) : (g.onTile i f).dctl = g.dctl := by unfold Gang.onTile; split <;> rfl
@[simp] theorem Gang.onTile_dctlNext (g : Gang) (i : Nat) (f : Tile → Tile) : (g.onTile i f).dctlNext = g.dctlNext := by unfold Gang.onTile; split <;> rfl
@[simp] theorem Gang.onTile_launches (g : Gang) (i : Nat) (f : Tile → Tile) : (g.onTile i f).launches = g.launches := by unfold Gang.onTile; split <;> rfl
@[simp] theorem Gang.onTile_h (g : Gang) (i : Nat) (f : Tile → Tile) : (g.onTile i f).h = g.h := by unfold Gang.onTile; split <;> rfl
@[simp] theorem Gang.onTile_anyFault (g : Gang) (i : Nat) (f : Tile → Tile) : (g.onTile i f).anyFault = g.anyFault := by unfold Gang.onTile; split <;> rfl
@[simp] theorem Gang.onTile_doom (g : Gang) (i : Nat) (f : Tile → Tile) : (g.onTile i f).doom = g.doom := by unfold Gang.onTile; split <;> rfl

/-! later -/

@[simp] theorem Gang.later_p (g : Gang) (o : Origin) (due : Nat) (j : Job) : (g.later o due j).p = g.p := by simp [Gang.later]
@[simp] theorem Gang.later_t (g : Gang) (o : Origin) (due : Nat) (j : Job) : (g.later o due j).t = g.t := by simp [Gang.later]
@[simp] theorem Gang.later_pkgs (g : Gang) (o : Origin) (due : Nat) (j : Job) : (g.later o due j).pkgs = g.pkgs := by simp [Gang.later]
@[simp] theorem Gang.later_placeIdx (g : Gang) (o : Origin) (due : Nat) (j : Job) : (g.later o due j).placeIdx = g.placeIdx := by simp [Gang.later]
@[simp] theorem Gang.later_lcyc (g : Gang) (o : Origin) (due : Nat) (j : Job) : (g.later o due j).lcyc = g.lcyc := by simp [Gang.later]
@[simp] theorem Gang.later_dues (g : Gang) (o : Origin) (due : Nat) (j : Job) : (g.later o due j).dues = g.dues ++ [{ due := due, o := o, job := j }] := by simp [Gang.later]
@[simp] theorem Gang.later_staged (g : Gang) (o : Origin) (due : Nat) (j : Job) : (g.later o due j).staged = g.staged := by simp [Gang.later]
@[simp] theorem Gang.later_run (g : Gang) (o : Origin) (due : Nat) (j : Job) : (g.later o due j).run = g.run := by simp [Gang.later]
@[simp] theorem Gang.later_holds (g : Gang) (o : Origin) (due : Nat) (j : Job) : (g.later o due j).holds = g.holds := by simp [Gang.later]
@[simp] theorem Gang.later_hclass (g : Gang) (o : Origin) (due : Nat) (j : Job) : (g.later o due j).hclass = g.hclass := by simp [Gang.later]
@[simp] theorem Gang.later_heldSince (g : Gang) (o : Origin) (due : Nat) (j : Job) : (g.later o due j).heldSince = g.heldSince := by simp [Gang.later]
@[simp] theorem Gang.later_resumeAt (g : Gang) (o : Origin) (due : Nat) (j : Job) : (g.later o due j).resumeAt = g.resumeAt := by simp [Gang.later]
@[simp] theorem Gang.later_drain (g : Gang) (o : Origin) (due : Nat) (j : Job) : (g.later o due j).drain = g.drain := by simp [Gang.later]
@[simp] theorem Gang.later_stopAt (g : Gang) (o : Origin) (due : Nat) (j : Job) : (g.later o due j).stopAt = g.stopAt := by simp [Gang.later]
@[simp] theorem Gang.later_bank (g : Gang) (o : Origin) (due : Nat) (j : Job) : (g.later o due j).bank = g.bank := by simp [Gang.later]
@[simp] theorem Gang.later_phase (g : Gang) (o : Origin) (due : Nat) (j : Job) : (g.later o due j).phase = g.phase := by simp [Gang.later]
@[simp] theorem Gang.later_slots (g : Gang) (o : Origin) (due : Nat) (j : Job) : (g.later o due j).slots = g.slots := by simp [Gang.later]
@[simp] theorem Gang.later_quota (g : Gang) (o : Origin) (due : Nat) (j : Job) : (g.later o due j).quota = g.quota := by simp [Gang.later]
@[simp] theorem Gang.later_design (g : Gang) (o : Origin) (due : Nat) (j : Job) : (g.later o due j).design = g.design := by simp [Gang.later]
@[simp] theorem Gang.later_mask (g : Gang) (o : Origin) (due : Nat) (j : Job) : (g.later o due j).mask = g.mask := by simp [Gang.later]
@[simp] theorem Gang.later_smask (g : Gang) (o : Origin) (due : Nat) (j : Job) : (g.later o due j).smask = g.smask := by simp [Gang.later]
@[simp] theorem Gang.later_places (g : Gang) (o : Origin) (due : Nat) (j : Job) : (g.later o due j).places = g.places := by simp [Gang.later]
@[simp] theorem Gang.later_table (g : Gang) (o : Origin) (due : Nat) (j : Job) : (g.later o due j).table = g.table := by simp [Gang.later]
@[simp] theorem Gang.later_tableBad (g : Gang) (o : Origin) (due : Nat) (j : Job) : (g.later o due j).tableBad = g.tableBad := by simp [Gang.later]
@[simp] theorem Gang.later_gnum (g : Gang) (o : Origin) (due : Nat) (j : Job) : (g.later o due j).gnum = g.gnum := by simp [Gang.later]
@[simp] theorem Gang.later_snaps (g : Gang) (o : Origin) (due : Nat) (j : Job) : (g.later o due j).snaps = g.snaps := by simp [Gang.later]
@[simp] theorem Gang.later_genqs (g : Gang) (o : Origin) (due : Nat) (j : Job) : (g.later o due j).genqs = g.genqs := by simp [Gang.later]
@[simp] theorem Gang.later_dctl (g : Gang) (o : Origin) (due : Nat) (j : Job) : (g.later o due j).dctl = g.dctl := by simp [Gang.later]
@[simp] theorem Gang.later_dctlNext (g : Gang) (o : Origin) (due : Nat) (j : Job) : (g.later o due j).dctlNext = g.dctlNext := by simp [Gang.later]
@[simp] theorem Gang.later_launches (g : Gang) (o : Origin) (due : Nat) (j : Job) : (g.later o due j).launches = g.launches := by simp [Gang.later]
@[simp] theorem Gang.later_h (g : Gang) (o : Origin) (due : Nat) (j : Job) : (g.later o due j).h = g.h := by simp [Gang.later]
@[simp] theorem Gang.later_anyFault (g : Gang) (o : Origin) (due : Nat) (j : Job) : (g.later o due j).anyFault = g.anyFault := by simp [Gang.later]
@[simp] theorem Gang.later_doom (g : Gang) (o : Origin) (due : Nat) (j : Job) : (g.later o due j).doom = g.doom := by simp [Gang.later]

/-! busy -/

@[simp] theorem Gang.busy_p (g : Gang) (o : Origin) (due : Nat) : (g.busy o due).p = g.p := by simp [Gang.busy]
@[simp] theorem Gang.busy_t (g : Gang) (o : Origin) (due : Nat) : (g.busy o due).t = g.t := by simp [Gang.busy]
@[simp] theorem Gang.busy_pkgs (g : Gang) (o : Origin) (due : Nat) : (g.busy o due).pkgs = g.pkgs := by simp [Gang.busy]
@[simp] theorem Gang.busy_placeIdx (g : Gang) (o : Origin) (due : Nat) : (g.busy o due).placeIdx = g.placeIdx := by simp [Gang.busy]
@[simp] theorem Gang.busy_lcyc (g : Gang) (o : Origin) (due : Nat) : (g.busy o due).lcyc = g.lcyc := by simp [Gang.busy]
@[simp] theorem Gang.busy_dues (g : Gang) (o : Origin) (due : Nat) : (g.busy o due).dues = g.dues := by simp [Gang.busy]
@[simp] theorem Gang.busy_staged (g : Gang) (o : Origin) (due : Nat) : (g.busy o due).staged = g.staged := by simp [Gang.busy]
@[simp] theorem Gang.busy_run (g : Gang) (o : Origin) (due : Nat) : (g.busy o due).run = g.run := by simp [Gang.busy]
@[simp] theorem Gang.busy_holds (g : Gang) (o : Origin) (due : Nat) : (g.busy o due).holds = g.holds := by simp [Gang.busy]
@[simp] theorem Gang.busy_hclass (g : Gang) (o : Origin) (due : Nat) : (g.busy o due).hclass = g.hclass := by simp [Gang.busy]
@[simp] theorem Gang.busy_heldSince (g : Gang) (o : Origin) (due : Nat) : (g.busy o due).heldSince = g.heldSince := by simp [Gang.busy]
@[simp] theorem Gang.busy_resumeAt (g : Gang) (o : Origin) (due : Nat) : (g.busy o due).resumeAt = g.resumeAt := by simp [Gang.busy]
@[simp] theorem Gang.busy_drain (g : Gang) (o : Origin) (due : Nat) : (g.busy o due).drain = g.drain := by simp [Gang.busy]
@[simp] theorem Gang.busy_stopAt (g : Gang) (o : Origin) (due : Nat) : (g.busy o due).stopAt = g.stopAt := by simp [Gang.busy]
@[simp] theorem Gang.busy_bank (g : Gang) (o : Origin) (due : Nat) : (g.busy o due).bank = g.bank := by simp [Gang.busy]
@[simp] theorem Gang.busy_phase (g : Gang) (o : Origin) (due : Nat) : (g.busy o due).phase = g.phase := by simp [Gang.busy]
@[simp] theorem Gang.busy_slots (g : Gang) (o : Origin) (due : Nat) : (g.busy o due).slots = g.slots := by simp [Gang.busy]
@[simp] theorem Gang.busy_quota (g : Gang) (o : Origin) (due : Nat) : (g.busy o due).quota = g.quota := by simp [Gang.busy]
@[simp] theorem Gang.busy_design (g : Gang) (o : Origin) (due : Nat) : (g.busy o due).design = g.design := by simp [Gang.busy]
@[simp] theorem Gang.busy_mask (g : Gang) (o : Origin) (due : Nat) : (g.busy o due).mask = g.mask := by simp [Gang.busy]
@[simp] theorem Gang.busy_smask (g : Gang) (o : Origin) (due : Nat) : (g.busy o due).smask = g.smask := by simp [Gang.busy]
@[simp] theorem Gang.busy_places (g : Gang) (o : Origin) (due : Nat) : (g.busy o due).places = g.places := by simp [Gang.busy]
@[simp] theorem Gang.busy_table (g : Gang) (o : Origin) (due : Nat) : (g.busy o due).table = g.table := by simp [Gang.busy]
@[simp] theorem Gang.busy_tableBad (g : Gang) (o : Origin) (due : Nat) : (g.busy o due).tableBad = g.tableBad := by simp [Gang.busy]
@[simp] theorem Gang.busy_gnum (g : Gang) (o : Origin) (due : Nat) : (g.busy o due).gnum = g.gnum := by simp [Gang.busy]
@[simp] theorem Gang.busy_snaps (g : Gang) (o : Origin) (due : Nat) : (g.busy o due).snaps = g.snaps := by simp [Gang.busy]
@[simp] theorem Gang.busy_genqs (g : Gang) (o : Origin) (due : Nat) : (g.busy o due).genqs = g.genqs := by simp [Gang.busy]
@[simp] theorem Gang.busy_dctl (g : Gang) (o : Origin) (due : Nat) : (g.busy o due).dctl = g.dctl := by simp [Gang.busy]
@[simp] theorem Gang.busy_dctlNext (g : Gang) (o : Origin) (due : Nat) : (g.busy o due).dctlNext = g.dctlNext := by simp [Gang.busy]
@[simp] theorem Gang.busy_launches (g : Gang) (o : Origin) (due : Nat) : (g.busy o due).launches = g.launches := by simp [Gang.busy]
@[simp] theorem Gang.busy_h (g : Gang) (o : Origin) (due : Nat) : (g.busy o due).h = g.h := by simp [Gang.busy]
@[simp] theorem Gang.busy_anyFault (g : Gang) (o : Origin) (due : Nat) : (g.busy o due).anyFault = g.anyFault := by simp [Gang.busy]
@[simp] theorem Gang.busy_doom (g : Gang) (o : Origin) (due : Nat) : (g.busy o due).doom = g.doom := by simp [Gang.busy]

/-! record -/

@[simp] theorem Gang.record_p (g : Gang) (o : Origin) (cls detail cycle : Nat) (info : Word) : (g.record o cls detail cycle info).p = g.p := by simp [Gang.record]
@[simp] theorem Gang.record_t (g : Gang) (o : Origin) (cls detail cycle : Nat) (info : Word) : (g.record o cls detail cycle info).t = g.t := by simp [Gang.record]
@[simp] theorem Gang.record_pkgs (g : Gang) (o : Origin) (cls detail cycle : Nat) (info : Word) : (g.record o cls detail cycle info).pkgs = g.pkgs := by simp [Gang.record]
@[simp] theorem Gang.record_placeIdx (g : Gang) (o : Origin) (cls detail cycle : Nat) (info : Word) : (g.record o cls detail cycle info).placeIdx = g.placeIdx := by simp [Gang.record]
@[simp] theorem Gang.record_lcyc (g : Gang) (o : Origin) (cls detail cycle : Nat) (info : Word) : (g.record o cls detail cycle info).lcyc = g.lcyc := by simp [Gang.record]
@[simp] theorem Gang.record_dues (g : Gang) (o : Origin) (cls detail cycle : Nat) (info : Word) : (g.record o cls detail cycle info).dues = g.dues := by simp [Gang.record]
@[simp] theorem Gang.record_staged (g : Gang) (o : Origin) (cls detail cycle : Nat) (info : Word) : (g.record o cls detail cycle info).staged = g.staged := by simp [Gang.record]
@[simp] theorem Gang.record_run (g : Gang) (o : Origin) (cls detail cycle : Nat) (info : Word) : (g.record o cls detail cycle info).run = g.run := by simp [Gang.record]
@[simp] theorem Gang.record_holds (g : Gang) (o : Origin) (cls detail cycle : Nat) (info : Word) : (g.record o cls detail cycle info).holds = g.holds := by simp [Gang.record]
@[simp] theorem Gang.record_hclass (g : Gang) (o : Origin) (cls detail cycle : Nat) (info : Word) : (g.record o cls detail cycle info).hclass = g.hclass := by simp [Gang.record]
@[simp] theorem Gang.record_heldSince (g : Gang) (o : Origin) (cls detail cycle : Nat) (info : Word) : (g.record o cls detail cycle info).heldSince = g.heldSince := by simp [Gang.record]
@[simp] theorem Gang.record_resumeAt (g : Gang) (o : Origin) (cls detail cycle : Nat) (info : Word) : (g.record o cls detail cycle info).resumeAt = g.resumeAt := by simp [Gang.record]
@[simp] theorem Gang.record_drain (g : Gang) (o : Origin) (cls detail cycle : Nat) (info : Word) : (g.record o cls detail cycle info).drain = g.drain := by simp [Gang.record]
@[simp] theorem Gang.record_stopAt (g : Gang) (o : Origin) (cls detail cycle : Nat) (info : Word) : (g.record o cls detail cycle info).stopAt = g.stopAt := by simp [Gang.record]
@[simp] theorem Gang.record_bank (g : Gang) (o : Origin) (cls detail cycle : Nat) (info : Word) : (g.record o cls detail cycle info).bank = g.bank := by simp [Gang.record]
@[simp] theorem Gang.record_phase (g : Gang) (o : Origin) (cls detail cycle : Nat) (info : Word) : (g.record o cls detail cycle info).phase = g.phase := by simp [Gang.record]
@[simp] theorem Gang.record_slots (g : Gang) (o : Origin) (cls detail cycle : Nat) (info : Word) : (g.record o cls detail cycle info).slots = g.slots := by simp [Gang.record]
@[simp] theorem Gang.record_quota (g : Gang) (o : Origin) (cls detail cycle : Nat) (info : Word) : (g.record o cls detail cycle info).quota = g.quota := by simp [Gang.record]
@[simp] theorem Gang.record_design (g : Gang) (o : Origin) (cls detail cycle : Nat) (info : Word) : (g.record o cls detail cycle info).design = g.design := by simp [Gang.record]
@[simp] theorem Gang.record_mask (g : Gang) (o : Origin) (cls detail cycle : Nat) (info : Word) : (g.record o cls detail cycle info).mask = g.mask := by simp [Gang.record]
@[simp] theorem Gang.record_smask (g : Gang) (o : Origin) (cls detail cycle : Nat) (info : Word) : (g.record o cls detail cycle info).smask = g.smask := by simp [Gang.record]
@[simp] theorem Gang.record_places (g : Gang) (o : Origin) (cls detail cycle : Nat) (info : Word) : (g.record o cls detail cycle info).places = g.places := by simp [Gang.record]
@[simp] theorem Gang.record_table (g : Gang) (o : Origin) (cls detail cycle : Nat) (info : Word) : (g.record o cls detail cycle info).table = g.table := by simp [Gang.record]
@[simp] theorem Gang.record_tableBad (g : Gang) (o : Origin) (cls detail cycle : Nat) (info : Word) : (g.record o cls detail cycle info).tableBad = g.tableBad := by simp [Gang.record]
@[simp] theorem Gang.record_gnum (g : Gang) (o : Origin) (cls detail cycle : Nat) (info : Word) : (g.record o cls detail cycle info).gnum = g.gnum := by simp [Gang.record]
@[simp] theorem Gang.record_snaps (g : Gang) (o : Origin) (cls detail cycle : Nat) (info : Word) : (g.record o cls detail cycle info).snaps = g.snaps := by simp [Gang.record]
@[simp] theorem Gang.record_genqs (g : Gang) (o : Origin) (cls detail cycle : Nat) (info : Word) : (g.record o cls detail cycle info).genqs = g.genqs := by simp [Gang.record]
@[simp] theorem Gang.record_dctl (g : Gang) (o : Origin) (cls detail cycle : Nat) (info : Word) : (g.record o cls detail cycle info).dctl = g.dctl := by simp [Gang.record]
@[simp] theorem Gang.record_dctlNext (g : Gang) (o : Origin) (cls detail cycle : Nat) (info : Word) : (g.record o cls detail cycle info).dctlNext = g.dctlNext := by simp [Gang.record]
@[simp] theorem Gang.record_launches (g : Gang) (o : Origin) (cls detail cycle : Nat) (info : Word) : (g.record o cls detail cycle info).launches = g.launches := by simp [Gang.record]
@[simp] theorem Gang.record_h (g : Gang) (o : Origin) (cls detail cycle : Nat) (info : Word) : (g.record o cls detail cycle info).h = g.h := by simp [Gang.record]
@[simp] theorem Gang.record_anyFault (g : Gang) (o : Origin) (cls detail cycle : Nat) (info : Word) : (g.record o cls detail cycle info).anyFault = g.anyFault := by simp [Gang.record]
@[simp] theorem Gang.record_doom (g : Gang) (o : Origin) (cls detail cycle : Nat) (info : Word) : (g.record o cls detail cycle info).doom = g.doom := by simp [Gang.record]

/-! setReg -/

@[simp] theorem AgentCore.setReg_p (x : AgentCore) (r : Nat) (v : Word) : (x.setReg r v).p = x.p := by unfold AgentCore.setReg; split <;> rfl
@[simp] theorem AgentCore.setReg_pc (x : AgentCore) (r : Nat) (v : Word) : (x.setReg r v).pc = x.pc := by unfold AgentCore.setReg; split <;> rfl
@[simp] theorem AgentCore.setReg_fstatus (x : AgentCore) (r : Nat) (v : Word) : (x.setReg r v).fstatus = x.fstatus := by unfold AgentCore.setReg; split <;> rfl
@[simp] theorem AgentCore.setReg_plv (x : AgentCore) (r : Nat) (v : Word) : (x.setReg r v).plv = x.plv := by unfold AgentCore.setReg; split <;> rfl
@[simp] theorem AgentCore.setReg_lv (x : AgentCore) (r : Nat) (v : Word) : (x.setReg r v).lv = x.lv := by unfold AgentCore.setReg; split <;> rfl
@[simp] theorem AgentCore.setReg_ecause (x : AgentCore) (r : Nat) (v : Word) : (x.setReg r v).ecause = x.ecause := by unfold AgentCore.setReg; split <;> rfl
@[simp] theorem AgentCore.setReg_epc (x : AgentCore) (r : Nat) (v : Word) : (x.setReg r v).epc = x.epc := by unfold AgentCore.setReg; split <;> rfl
@[simp] theorem AgentCore.setReg_eval (x : AgentCore) (r : Nat) (v : Word) : (x.setReg r v).eval = x.eval := by unfold AgentCore.setReg; split <;> rfl
@[simp] theorem AgentCore.setReg_etvec (x : AgentCore) (r : Nat) (v : Word) : (x.setReg r v).etvec = x.etvec := by unfold AgentCore.setReg; split <;> rfl
@[simp] theorem AgentCore.setReg_afunc (x : AgentCore) (r : Nat) (v : Word) : (x.setReg r v).afunc = x.afunc := by unfold AgentCore.setReg; split <;> rfl
@[simp] theorem AgentCore.setReg_tsel (x : AgentCore) (r : Nat) (v : Word) : (x.setReg r v).tsel = x.tsel := by unfold AgentCore.setReg; split <;> rfl
@[simp] theorem AgentCore.setReg_sram (x : AgentCore) (r : Nat) (v : Word) : (x.setReg r v).sram = x.sram := by unfold AgentCore.setReg; split <;> rfl
@[simp] theorem AgentCore.setReg_sramPoison (x : AgentCore) (r : Nat) (v : Word) : (x.setReg r v).sramPoison = x.sramPoison := by unfold AgentCore.setReg; split <;> rfl
@[simp] theorem AgentCore.setReg_lines (x : AgentCore) (r : Nat) (v : Word) : (x.setReg r v).lines = x.lines := by unfold AgentCore.setReg; split <;> rfl
@[simp] theorem AgentCore.setReg_ctxs (x : AgentCore) (r : Nat) (v : Word) : (x.setReg r v).ctxs = x.ctxs := by unfold AgentCore.setReg; split <;> rfl
@[simp] theorem AgentCore.setReg_wait (x : AgentCore) (r : Nat) (v : Word) : (x.setReg r v).wait = x.wait := by unfold AgentCore.setReg; split <;> rfl
@[simp] theorem AgentCore.setReg_stores (x : AgentCore) (r : Nat) (v : Word) : (x.setReg r v).stores = x.stores := by unfold AgentCore.setReg; split <;> rfl

/-! setPred -/

@[simp] theorem AgentCore.setPred_s (x : AgentCore) (p : Nat) (v : Bool) : (x.setPred p v).s = x.s := by unfold AgentCore.setPred; split <;> rfl
@[simp] theorem AgentCore.setPred_pc (x : AgentCore) (p : Nat) (v : Bool) : (x.setPred p v).pc = x.pc := by unfold AgentCore.setPred; split <;> rfl
@[simp] theorem AgentCore.setPred_fstatus (x : AgentCore) (p : Nat) (v : Bool) : (x.setPred p v).fstatus = x.fstatus := by unfold AgentCore.setPred; split <;> rfl
@[simp] theorem AgentCore.setPred_plv (x : AgentCore) (p : Nat) (v : Bool) : (x.setPred p v).plv = x.plv := by unfold AgentCore.setPred; split <;> rfl
@[simp] theorem AgentCore.setPred_lv (x : AgentCore) (p : Nat) (v : Bool) : (x.setPred p v).lv = x.lv := by unfold AgentCore.setPred; split <;> rfl
@[simp] theorem AgentCore.setPred_ecause (x : AgentCore) (p : Nat) (v : Bool) : (x.setPred p v).ecause = x.ecause := by unfold AgentCore.setPred; split <;> rfl
@[simp] theorem AgentCore.setPred_epc (x : AgentCore) (p : Nat) (v : Bool) : (x.setPred p v).epc = x.epc := by unfold AgentCore.setPred; split <;> rfl
@[simp] theorem AgentCore.setPred_eval (x : AgentCore) (p : Nat) (v : Bool) : (x.setPred p v).eval = x.eval := by unfold AgentCore.setPred; split <;> rfl
@[simp] theorem AgentCore.setPred_etvec (x : AgentCore) (p : Nat) (v : Bool) : (x.setPred p v).etvec = x.etvec := by unfold AgentCore.setPred; split <;> rfl
@[simp] theorem AgentCore.setPred_afunc (x : AgentCore) (p : Nat) (v : Bool) : (x.setPred p v).afunc = x.afunc := by unfold AgentCore.setPred; split <;> rfl
@[simp] theorem AgentCore.setPred_tsel (x : AgentCore) (p : Nat) (v : Bool) : (x.setPred p v).tsel = x.tsel := by unfold AgentCore.setPred; split <;> rfl
@[simp] theorem AgentCore.setPred_sram (x : AgentCore) (p : Nat) (v : Bool) : (x.setPred p v).sram = x.sram := by unfold AgentCore.setPred; split <;> rfl
@[simp] theorem AgentCore.setPred_sramPoison (x : AgentCore) (p : Nat) (v : Bool) : (x.setPred p v).sramPoison = x.sramPoison := by unfold AgentCore.setPred; split <;> rfl
@[simp] theorem AgentCore.setPred_lines (x : AgentCore) (p : Nat) (v : Bool) : (x.setPred p v).lines = x.lines := by unfold AgentCore.setPred; split <;> rfl
@[simp] theorem AgentCore.setPred_ctxs (x : AgentCore) (p : Nat) (v : Bool) : (x.setPred p v).ctxs = x.ctxs := by unfold AgentCore.setPred; split <;> rfl
@[simp] theorem AgentCore.setPred_wait (x : AgentCore) (p : Nat) (v : Bool) : (x.setPred p v).wait = x.wait := by unfold AgentCore.setPred; split <;> rfl
@[simp] theorem AgentCore.setPred_stores (x : AgentCore) (p : Nat) (v : Bool) : (x.setPred p v).stores = x.stores := by unfold AgentCore.setPred; split <;> rfl

/-! advance -/

@[simp] theorem AgentCore.advance_s (x : AgentCore) : (x.advance).s = x.s := rfl
@[simp] theorem AgentCore.advance_p (x : AgentCore) : (x.advance).p = x.p := rfl
@[simp] theorem AgentCore.advance_pc (x : AgentCore) : (x.advance).pc = x.pc + 4 := rfl
@[simp] theorem AgentCore.advance_fstatus (x : AgentCore) : (x.advance).fstatus = x.fstatus := rfl
@[simp] theorem AgentCore.advance_plv (x : AgentCore) : (x.advance).plv = x.plv := rfl
@[simp] theorem AgentCore.advance_lv (x : AgentCore) : (x.advance).lv = x.lv := rfl
@[simp] theorem AgentCore.advance_ecause (x : AgentCore) : (x.advance).ecause = x.ecause := rfl
@[simp] theorem AgentCore.advance_epc (x : AgentCore) : (x.advance).epc = x.epc := rfl
@[simp] theorem AgentCore.advance_eval (x : AgentCore) : (x.advance).eval = x.eval := rfl
@[simp] theorem AgentCore.advance_etvec (x : AgentCore) : (x.advance).etvec = x.etvec := rfl
@[simp] theorem AgentCore.advance_afunc (x : AgentCore) : (x.advance).afunc = x.afunc := rfl
@[simp] theorem AgentCore.advance_tsel (x : AgentCore) : (x.advance).tsel = x.tsel := rfl
@[simp] theorem AgentCore.advance_sram (x : AgentCore) : (x.advance).sram = x.sram := rfl
@[simp] theorem AgentCore.advance_sramPoison (x : AgentCore) : (x.advance).sramPoison = x.sramPoison := rfl
@[simp] theorem AgentCore.advance_lines (x : AgentCore) : (x.advance).lines = x.lines := rfl
@[simp] theorem AgentCore.advance_ctxs (x : AgentCore) : (x.advance).ctxs = x.ctxs := rfl
@[simp] theorem AgentCore.advance_wait (x : AgentCore) : (x.advance).wait = x.wait := rfl
@[simp] theorem AgentCore.advance_stores (x : AgentCore) : (x.advance).stores = x.stores := rfl

/-! raise -/

@[simp] theorem AgentCore.raise_s (x : AgentCore) (f : Nat) : (x.raise f).s = x.s := rfl
@[simp] theorem AgentCore.raise_p (x : AgentCore) (f : Nat) : (x.raise f).p = x.p := rfl
@[simp] theorem AgentCore.raise_pc (x : AgentCore) (f : Nat) : (x.raise f).pc = x.pc := rfl
@[simp] theorem AgentCore.raise_fstatus (x : AgentCore) (f : Nat) : (x.raise f).fstatus = x.fstatus ||| f % 128 := rfl
@[simp] theorem AgentCore.raise_plv (x : AgentCore) (f : Nat) : (x.raise f).plv = x.plv := rfl
@[simp] theorem AgentCore.raise_lv (x : AgentCore) (f : Nat) : (x.raise f).lv = x.lv := rfl
@[simp] theorem AgentCore.raise_ecause (x : AgentCore) (f : Nat) : (x.raise f).ecause = x.ecause := rfl
@[simp] theorem AgentCore.raise_epc (x : AgentCore) (f : Nat) : (x.raise f).epc = x.epc := rfl
@[simp] theorem AgentCore.raise_eval (x : AgentCore) (f : Nat) : (x.raise f).eval = x.eval := rfl
@[simp] theorem AgentCore.raise_etvec (x : AgentCore) (f : Nat) : (x.raise f).etvec = x.etvec := rfl
@[simp] theorem AgentCore.raise_afunc (x : AgentCore) (f : Nat) : (x.raise f).afunc = x.afunc := rfl
@[simp] theorem AgentCore.raise_tsel (x : AgentCore) (f : Nat) : (x.raise f).tsel = x.tsel := rfl
@[simp] theorem AgentCore.raise_sram (x : AgentCore) (f : Nat) : (x.raise f).sram = x.sram := rfl
@[simp] theorem AgentCore.raise_sramPoison (x : AgentCore) (f : Nat) : (x.raise f).sramPoison = x.sramPoison := rfl
@[simp] theorem AgentCore.raise_lines (x : AgentCore) (f : Nat) : (x.raise f).lines = x.lines := rfl
@[simp] theorem AgentCore.raise_ctxs (x : AgentCore) (f : Nat) : (x.raise f).ctxs = x.ctxs := rfl
@[simp] theorem AgentCore.raise_wait (x : AgentCore) (f : Nat) : (x.raise f).wait = x.wait := rfl
@[simp] theorem AgentCore.raise_stores (x : AgentCore) (f : Nat) : (x.raise f).stores = x.stores := rfl

/-! takeException -/

@[simp] theorem AgentCore.takeException_s (x : AgentCore) (c : Nat) (epc eval : Word) : (x.takeException c epc eval).s = x.s := rfl
@[simp] theorem AgentCore.takeException_p (x : AgentCore) (c : Nat) (epc eval : Word) : (x.takeException c epc eval).p = x.p := rfl
@[simp] theorem AgentCore.takeException_pc (x : AgentCore) (c : Nat) (epc eval : Word) : (x.takeException c epc eval).pc = x.etvec := rfl
@[simp] theorem AgentCore.takeException_fstatus (x : AgentCore) (c : Nat) (epc eval : Word) : (x.takeException c epc eval).fstatus = x.fstatus := rfl
@[simp] theorem AgentCore.takeException_plv (x : AgentCore) (c : Nat) (epc eval : Word) : (x.takeException c epc eval).plv = x.lv := rfl
@[simp] theorem AgentCore.takeException_lv (x : AgentCore) (c : Nat) (epc eval : Word) : (x.takeException c epc eval).lv = 1 := rfl
@[simp] theorem AgentCore.takeException_ecause (x : AgentCore) (c : Nat) (epc eval : Word) : (x.takeException c epc eval).ecause = BitVec.ofNat 64 c := rfl
@[simp] theorem AgentCore.takeException_epc (x : AgentCore) (c : Nat) (epc eval : Word) : (x.takeException c epc eval).epc = epc := rfl
@[simp] theorem AgentCore.takeException_eval (x : AgentCore) (c : Nat) (epc eval : Word) : (x.takeException c epc eval).eval = eval := rfl
@[simp] theorem AgentCore.takeException_etvec (x : AgentCore) (c : Nat) (epc eval : Word) : (x.takeException c epc eval).etvec = x.etvec := rfl
@[simp] theorem AgentCore.takeException_afunc (x : AgentCore) (c : Nat) (epc eval : Word) : (x.takeException c epc eval).afunc = x.afunc := rfl
@[simp] theorem AgentCore.takeException_tsel (x : AgentCore) (c : Nat) (epc eval : Word) : (x.takeException c epc eval).tsel = x.tsel := rfl
@[simp] theorem AgentCore.takeException_sram (x : AgentCore) (c : Nat) (epc eval : Word) : (x.takeException c epc eval).sram = x.sram := rfl
@[simp] theorem AgentCore.takeException_sramPoison (x : AgentCore) (c : Nat) (epc eval : Word) : (x.takeException c epc eval).sramPoison = x.sramPoison := rfl
@[simp] theorem AgentCore.takeException_lines (x : AgentCore) (c : Nat) (epc eval : Word) : (x.takeException c epc eval).lines = x.lines := rfl
@[simp] theorem AgentCore.takeException_ctxs (x : AgentCore) (c : Nat) (epc eval : Word) : (x.takeException c epc eval).ctxs = x.ctxs := rfl
@[simp] theorem AgentCore.takeException_wait (x : AgentCore) (c : Nat) (epc eval : Word) : (x.takeException c epc eval).wait = x.wait := rfl
@[simp] theorem AgentCore.takeException_stores (x : AgentCore) (c : Nat) (epc eval : Word) : (x.takeException c epc eval).stores = x.stores := rfl

/-! returnFrom -/

@[simp] theorem AgentCore.returnFrom_s (x : AgentCore) : (x.returnFrom).s = x.s := rfl
@[simp] theorem AgentCore.returnFrom_p (x : AgentCore) : (x.returnFrom).p = x.p := rfl
@[simp] theorem AgentCore.returnFrom_pc (x : AgentCore) : (x.returnFrom).pc = x.epc := rfl
@[simp] theorem AgentCore.returnFrom_fstatus (x : AgentCore) : (x.returnFrom).fstatus = x.fstatus := rfl
@[simp] theorem AgentCore.returnFrom_plv (x : AgentCore) : (x.returnFrom).plv = x.plv := rfl
@[simp] theorem AgentCore.returnFrom_lv (x : AgentCore) : (x.returnFrom).lv = x.plv := rfl
@[simp] theorem AgentCore.returnFrom_ecause (x : AgentCore) : (x.returnFrom).ecause = x.ecause := rfl
@[simp] theorem AgentCore.returnFrom_epc (x : AgentCore) : (x.returnFrom).epc = x.epc := rfl
@[simp] theorem AgentCore.returnFrom_eval (x : AgentCore) : (x.returnFrom).eval = x.eval := rfl
@[simp] theorem AgentCore.returnFrom_etvec (x : AgentCore) : (x.returnFrom).etvec = x.etvec := rfl
@[simp] theorem AgentCore.returnFrom_afunc (x : AgentCore) : (x.returnFrom).afunc = x.afunc := rfl
@[simp] theorem AgentCore.returnFrom_tsel (x : AgentCore) : (x.returnFrom).tsel = x.tsel := rfl
@[simp] theorem AgentCore.returnFrom_sram (x : AgentCore) : (x.returnFrom).sram = x.sram := rfl
@[simp] theorem AgentCore.returnFrom_sramPoison (x : AgentCore) : (x.returnFrom).sramPoison = x.sramPoison := rfl
@[simp] theorem AgentCore.returnFrom_lines (x : AgentCore) : (x.returnFrom).lines = x.lines := rfl
@[simp] theorem AgentCore.returnFrom_ctxs (x : AgentCore) : (x.returnFrom).ctxs = x.ctxs := rfl
@[simp] theorem AgentCore.returnFrom_wait (x : AgentCore) : (x.returnFrom).wait = x.wait := rfl
@[simp] theorem AgentCore.returnFrom_stores (x : AgentCore) : (x.returnFrom).stores = x.stores := rfl

end Sys2Proof.Machine
end

