-- ==== Sys2Proof/Laws/Tables.lean ====
section
/-! SUPPORT. Tables and byte memories: what a key reads after an update, and that every update keeps the canonical form. -/
namespace Sys2Proof

/-! ### Reading after a write -/

theorem look_setKey {α : Type} (d : α) (t : Tbl α) (n m : Nat) (x : α) :
    look d (setKey t n x) m = if m = n then x else look d t m := by
  induction t with
  | nil => simp [setKey, look]
  | cons e r ih =>
    obtain ⟨k, v⟩ := e
    simp only [setKey]
    split
    · simp [look]
    · split
      · subst_vars
        simp only [look]
        split <;> simp_all
      · simp only [look, ih]
        split <;> rename_i h1 h2 h3
        · subst h3; simp [Ne.symm h2]
        · rfl

theorem find?_setKey {α : Type} (t : Tbl α) (n m : Nat) (x : α) :
    find? (setKey t n x) m = if m = n then some x else find? t m := by
  induction t with
  | nil => simp [setKey, find?]
  | cons e r ih =>
    obtain ⟨k, v⟩ := e
    simp only [setKey]
    split
    · simp [find?]
    · split
      · subst_vars
        simp only [find?]
        split <;> simp_all
      · simp only [find?, ih]
        split <;> rename_i h1 h2 h3
        · subst h3; simp [Ne.symm h2]
        · rfl

@[simp] theorem look_setKey_same {α : Type} (d : α) (t : Tbl α) (n : Nat) (x : α) : look d (setKey t n x) n = x := by
  simp [look_setKey]

@[simp] theorem find?_setKey_same {α : Type} (t : Tbl α) (n : Nat) (x : α) : find? (setKey t n x) n = some x := by
  simp [find?_setKey]

/-- The later of two writes of one key stands. -/
@[simp] theorem setKey_setKey {α : Type} (t : Tbl α) (n : Nat) (x y : α) : setKey (setKey t n x) n y = setKey t n y := by
  induction t with
  | nil => simp [setKey]
  | cons e r ih =>
    obtain ⟨k, v⟩ := e
    by_cases h1 : n < k
    · simp [setKey, h1]
    · by_cases h2 : n = k
      · simp [setKey, h2]
      · simp [setKey, h1, h2, ih]

/-- A rising table holds nothing below its first key. -/
theorem look_of_rises {α : Type} (d : α) (t : Tbl α) (lo n : Nat) (h : risesFrom lo t = true) (hn : n < lo) : look d t n = d := by
  induction t generalizing lo with
  | nil => rfl
  | cons e r ih =>
    obtain ⟨k, v⟩ := e
    simp only [risesFrom, Bool.and_eq_true, decide_eq_true_eq] at h
    simp only [look, if_neg (by omega : ¬ n = k)]
    exact ih (k + 1) h.2 (by omega)

theorem look_dropKey {α : Type} (d : α) (t : Tbl α) (lo n m : Nat) (h : risesFrom lo t = true) :
    look d (dropKey t n) m = if m = n then d else look d t m := by
  induction t generalizing lo with
  | nil => simp [dropKey, look]
  | cons e r ih =>
    obtain ⟨k, v⟩ := e
    simp only [risesFrom, Bool.and_eq_true, decide_eq_true_eq] at h
    simp only [dropKey]
    split
    · split
      · subst_vars
        simp only [look, if_neg (by omega : ¬ m = k)]
        exact look_of_rises d r (k + 1) m h.2 (by omega)
      · rfl
    · split
      · subst_vars
        split
        · subst_vars
          exact look_of_rises d r (k + 1) k h.2 (by omega)
        · rename_i hne
          simp [look, hne]
      · simp only [look, ih (k + 1) h.2]
        split <;> rename_i h1 h2 h3
        · subst h3; simp [Ne.symm h2]
        · rfl

theorem look_put {α : Type} [DecidableEq α] (d : α) (t : Tbl α) (lo n m : Nat) (x : α) (h : risesFrom lo t = true) :
    look d (put d t n x) m = if m = n then x else look d t m := by
  unfold put
  split
  · rename_i hx
    rw [look_dropKey d t lo n m h, hx]
  · exact look_setKey d t n m x

/-! ### The canonical form -/

theorem risesFrom_le {α : Type} (lo lo' : Nat) (t : Tbl α) (h : risesFrom lo t = true) (hl : lo' ≤ lo) : risesFrom lo' t = true := by
  cases t with
  | nil => rfl
  | cons e r =>
    obtain ⟨k, v⟩ := e
    simp only [risesFrom, Bool.and_eq_true, decide_eq_true_eq] at h ⊢
    exact ⟨by omega, h.2⟩

theorem risesFrom_setKey {α : Type} (lo : Nat) (t : Tbl α) (n : Nat) (x : α) (h : risesFrom lo t = true) (hn : lo ≤ n) :
    risesFrom lo (setKey t n x) = true := by
  induction t generalizing lo with
  | nil => simp [setKey, risesFrom, hn]
  | cons e r ih =>
    obtain ⟨k, v⟩ := e
    simp only [risesFrom, Bool.and_eq_true, decide_eq_true_eq] at h
    simp only [setKey]
    split
    · simp only [risesFrom, Bool.and_eq_true, decide_eq_true_eq]
      exact ⟨hn, by omega, h.2⟩
    · split
      · subst_vars
        simp only [risesFrom, Bool.and_eq_true, decide_eq_true_eq]
        exact ⟨hn, h.2⟩
      · simp only [risesFrom, Bool.and_eq_true, decide_eq_true_eq]
        exact ⟨h.1, ih (k + 1) h.2 (by omega)⟩

theorem risesFrom_dropKey {α : Type} (lo : Nat) (t : Tbl α) (n : Nat) (h : risesFrom lo t = true) :
    risesFrom lo (dropKey t n) = true := by
  induction t generalizing lo with
  | nil => rfl
  | cons e r ih =>
    obtain ⟨k, v⟩ := e
    have h' := h
    simp only [risesFrom, Bool.and_eq_true, decide_eq_true_eq] at h
    simp only [dropKey]
    split
    · exact h'
    · split
      · exact risesFrom_le (k + 1) lo r h.2 (by omega)
      · simp only [risesFrom, Bool.and_eq_true, decide_eq_true_eq]
        exact ⟨h.1, ih (k + 1) h.2⟩

theorem mem_setKey {α : Type} (t : Tbl α) (n : Nat) (x : α) (e : Nat × α) (h : e ∈ setKey t n x) : e = (n, x) ∨ e ∈ t := by
  induction t with
  | nil => simp_all [setKey]
  | cons f r ih =>
    obtain ⟨k, v⟩ := f
    simp only [setKey] at h
    split at h
    · simp_all
    · split at h
      · simp only [List.mem_cons] at h ⊢
        exact h.imp id .inr
      · simp only [List.mem_cons] at h ⊢
        rcases h with h | h
        · exact .inr (.inl h)
        · exact (ih h).imp id .inr

theorem mem_dropKey {α : Type} (t : Tbl α) (n : Nat) (e : Nat × α) (h : e ∈ dropKey t n) : e ∈ t := by
  induction t with
  | nil => simp_all [dropKey]
  | cons f r ih =>
    obtain ⟨k, v⟩ := f
    simp only [dropKey] at h
    split at h
    · exact h
    · split at h
      · exact List.mem_cons_of_mem _ h
      · simp only [List.mem_cons] at h ⊢
        exact h.imp id ih

theorem tableWf_put {α : Type} [DecidableEq α] (d : α) (t : Tbl α) (n : Nat) (x : α) (h : tableWf d t = true) :
    tableWf d (put d t n x) = true := by
  simp only [tableWf, Bool.and_eq_true, List.all_eq_true, decide_eq_true_eq] at h ⊢
  unfold put
  split
  · exact ⟨risesFrom_dropKey 0 t n h.1, fun e he => h.2 e (mem_dropKey t n e he)⟩
  · rename_i hx
    refine ⟨risesFrom_setKey 0 t n x h.1 (Nat.zero_le n), fun e he => ?_⟩
    rcases mem_setKey t n x e he with rfl | he
    · exact hx
    · exact h.2 e he

/-! ### Memories -/

theorem Memory.wf_nil : Memory.wf [] = true := rfl

/-- One byte written keeps the canonical form. -/
theorem Memory.wf_writeByte (m : List Host.Cell) (a : Nat) (b : Byte) (h : Memory.wf m = true) :
    Memory.wf (writeByte m a b) = true := tableWf_put emptyByte m a b h

/-- Bytes written keep the canonical form. -/
theorem Memory.wf_writeBytes (m : List Host.Cell) (a : Nat) (bs : List Byte) (h : Memory.wf m = true) :
    Memory.wf (writeBytes m a bs) = true := by
  induction bs generalizing m a with
  | nil => exact h
  | cons b bs ih => exact ih _ _ (Memory.wf_writeByte m a b h)

/-- A byte read after one byte was written. -/
theorem readByte_writeByte (m : List Host.Cell) (a c : Nat) (b : Byte) (h : Memory.wf m = true) :
    readByte (writeByte m a b) c = if c = a then b else readByte m c := by
  simp only [Memory.wf, tableWf, Bool.and_eq_true] at h
  exact look_put emptyByte m 0 a c b h.1

/-- A byte read after bytes were written from an address on. -/
theorem readByte_writeBytes (m : List Host.Cell) (a c : Nat) (bs : List Byte) (h : Memory.wf m = true) :
    readByte (writeBytes m a bs) c = if a ≤ c ∧ c < a + bs.length then bs.getD (c - a) 0 else readByte m c := by
  induction bs generalizing m a with
  | nil => simp [writeBytes] <;> omega
  | cons b bs ih =>
    rw [writeBytes, ih _ _ (Memory.wf_writeByte m a b h), readByte_writeByte m a c b h]
    by_cases h1 : c = a
    · subst h1
      rw [if_neg (by omega), if_pos rfl, if_pos (by simp)]
      simp
    · by_cases h2 : a + 1 ≤ c ∧ c < a + 1 + bs.length
      · have h3 : a ≤ c ∧ c < a + (b :: bs).length := by simp only [List.length_cons]; omega
        obtain ⟨k, hk⟩ : ∃ k, c - a = k + 1 := ⟨c - a - 1, by omega⟩
        have hk' : c - (a + 1) = k := by omega
        rw [if_pos h2, if_pos h3, hk, hk', List.getD_cons_succ]
      · have h3 : ¬ (a ≤ c ∧ c < a + (b :: bs).length) := by simp only [List.length_cons]; omega
        rw [if_neg h2, if_neg h1, if_neg h3]

/-- Bytes outside those written read as before. -/
theorem readByte_writeBytes_other (m : List Host.Cell) (a c : Nat) (bs : List Byte) (h : Memory.wf m = true)
    (hc : c < a ∨ a + bs.length ≤ c) : readByte (writeBytes m a bs) c = readByte m c := by
  rw [readByte_writeBytes m a c bs h, if_neg (by omega)]

end Sys2Proof
end

