-- ==== Sys2Proof/Laws/Ops.lean ====
section
/-! SUPPORT. What the shared operations do, each said once: cores, tasks, gangs and tiles read after they are changed, agent
registers, exceptions, memory writes, the issue of a tile's instruction. -/
namespace Sys2Proof.Machine

/-! ### Cores -/

theorem State.core_setCore (s : State) (c d : Nat) (x : AgentCore) :
    (s.setCore c x).core d = if d = c then x else s.core d := by
  simp [State.core, look_setKey]

@[simp] theorem State.core_setCore_same (s : State) (c : Nat) (x : AgentCore) : (s.setCore c x).core c = x := by
  simp [State.core_setCore]

/-- The later of two changes of a core stands. -/
@[simp] theorem State.setCore_setCore (s : State) (c : Nat) (x y : AgentCore) : (s.setCore c x).setCore c y = s.setCore c y := by
  simp [State.setCore]

theorem State.coreId_agent (s : State) (c : Nat) (h : s.cur = .agent c) : s.coreId = c := by simp [State.coreId, h]

@[simp] theorem State.coreId_setCore (s : State) (c : Nat) (x : AgentCore) : (s.setCore c x).coreId = s.coreId := rfl

@[simp] theorem State.coreId_onMe (s : State) (f : AgentCore → AgentCore) : (s.onMe f).coreId = s.coreId := rfl

@[simp] theorem State.me_onMe (s : State) (f : AgentCore → AgentCore) : (s.onMe f).me = f s.me := by
  simp [State.me, State.onMe]

/-- What a change of the core in turn leaves to every other core. -/
theorem State.core_onMe_other (s : State) (f : AgentCore → AgentCore) (d : Nat) (h : d ≠ s.coreId) :
    (s.onMe f).core d = s.core d := by
  simp [State.onMe, State.core_setCore, h]

/-! ### Agent registers (R15, R109) -/

@[simp] theorem AgentCore.reg_zero (x : AgentCore) : x.reg 0 = 0 := rfl

@[simp] theorem AgentCore.setReg_zero (x : AgentCore) (v : Word) : x.setReg 0 v = x := rfl

/-- A register read after a register was written, in a core whose table of registers rises. -/
theorem AgentCore.reg_setReg (x : AgentCore) (d r : Nat) (v : Word) (h : risesFrom 0 x.s = true) :
    (x.setReg d v).reg r = if r = d ∧ d ≠ 0 then v else x.reg r := by
  unfold AgentCore.setReg AgentCore.reg
  by_cases hd : d = 0
  · simp [hd]
  · by_cases hr : r = 0
    · subst hr
      simp [hd, Ne.symm hd]
    · rw [if_neg hd]
      simp only [if_neg hr]
      rw [look_put 0 x.s 0 d r v h]
      simp [hd]

@[simp] theorem AgentCore.pred_zero (x : AgentCore) : x.pred 0 = true := rfl

theorem AgentCore.pred_setPred (x : AgentCore) (d r : Nat) (v : Bool) (h : risesFrom 0 x.p = true) :
    (x.setPred d v).pred r = if r = d ∧ d ≠ 0 then v else x.pred r := by
  unfold AgentCore.setPred AgentCore.pred
  by_cases hd : d = 0
  · simp [hd]
  · by_cases hr : r = 0
    · subst hr
      simp [hd, Ne.symm hd]
    · rw [if_neg hd]
      simp only [if_neg hr]
      rw [look_put false x.p 0 d r v h]
      simp [hd]

@[simp] theorem AgentCore.raise_zero (x : AgentCore) : x.raise 0 = x := by
  cases x; simp [AgentCore.raise]

/-! ### Tasks, gangs, tiles -/

theorem State.task_setTask (s : State) (x : Task) (t : Nat) :
    (s.setTask x).task t = if t = x.id then some x else s.task t := by
  simp [State.task, find?_setKey]

theorem State.task_onTask (s : State) (t u : Nat) (f : Task → Task) :
    (s.onTask t f).task u = if u = t then (s.task t).map (fun x => { f x with id := t }) else s.task u := by
  unfold State.onTask
  cases h : s.task t with
  | none =>
    by_cases hu : u = t
    · subst hu; simp [h]
    · simp [hu]
  | some x => simp [State.task_setTask]

/-- The gang of a task after it was changed. -/
theorem State.gang_onGang (s : State) (t u : Nat) (f : Gang → Gang) :
    (s.onGang t f).gang u = if u = t then (s.gang t).map f else s.gang u := by
  unfold State.gang State.onGang
  rw [State.task_onTask]
  by_cases hu : u = t
  · subst hu
    cases h : s.task u with
    | none => simp
    | some x => cases h2 : x.gang <;> simp [h2]
  · simp [hu]

/-- A change of a gang leaves every other task alone. -/
theorem State.task_onGang_other (s : State) (t u : Nat) (f : Gang → Gang) (h : u ≠ t) :
    (s.onGang t f).task u = s.task u := by
  simp [State.onGang, State.task_onTask, h]

theorem Gang.tile_onTile (g : Gang) (i j : Nat) (f : Tile → Tile) :
    (g.onTile i f).tile j = if j = i then (g.tile i).map f else g.tile j := by
  unfold Gang.onTile
  cases h : g.tile i with
  | none =>
    by_cases hj : j = i
    · subst hj; simp [h]
    · simp [hj]
  | some x => simp [Gang.tile, find?_setKey]

/-- Two changes of one tile of a gang, one after the other. -/
theorem Gang.onTile_onTile (g : Gang) (i : Nat) (f h : Tile → Tile) : (g.onTile i f).onTile i h = g.onTile i (fun x => h (f x)) := by
  unfold Gang.onTile
  cases hx : g.tile i with
  | none => simp [hx]
  | some x => simp [Gang.tile]

/-- Two changes of one gang, one after the other. -/
theorem State.onGang_onGang (s : State) (t : Nat) (f h : Gang → Gang) : (s.onGang t f).onGang t h = s.onGang t (fun g => h (f g)) := by
  unfold State.onGang State.onTask
  cases hx : s.task t with
  | none => simp [hx]
  | some x => cases hg : x.gang <;> simp [State.setTask, State.task, hg]

/-- What is done to a gang that is known depends on that gang alone. -/
theorem State.onGang_at (s : State) (t : Nat) (g : Gang) (hg : s.gang t = some g) {f h : Gang → Gang} (e : f g = h g) :
    s.onGang t f = s.onGang t h := by
  unfold State.onGang State.onTask
  unfold State.gang at hg
  cases ht : s.task t with
  | none => rfl
  | some x => simp [ht] at hg; simp [hg, e]

/-- What is done to a tile that is known depends on that tile alone. -/
theorem Gang.onTile_at (g : Gang) (i : Nat) (x : Tile) (hx : g.tile i = some x) {f h : Tile → Tile} (e : f x = h x) :
    g.onTile i f = g.onTile i h := by
  unfold Gang.onTile; rw [hx]; simp [e]

/-- The mark of a kill leaves the logical time alone (R424). -/
@[simp] theorem Gang.killMark_lcyc (g : Gang) (i p : Nat) (v : Word) : (g.killMark i p v).lcyc = g.lcyc := by
  unfold Gang.killMark
  split <;> rfl

/-- A consumption of poison leaves the logical time alone (R424). -/
@[simp] theorem Gang.consume_lcyc (g : Gang) (o : Origin) (p c : Nat) (i : Word) : (g.consume o p c i).lcyc = g.lcyc := by
  unfold Gang.consume
  cases g.tile o.gid with
  | none => rfl
  | some x =>
    cases h : x.inner with
    | some d => simp [h]
    | none => simp only [h]; split <;> simp

/-- What an instruction of a tile does in its issue cycle, when it is that tile's turn. -/
theorem State.issueOn_tile (s : State) (t gid slot k addr : Nat) (g : Gang) (x : Tile)
    (hc : s.cur = .tile t gid slot k addr) (hg : s.gang t = some g) (hx : g.tile gid = some x)
    (run : Gang → Tile → Nat → Origin → Gang) :
    s.issueOn run = s.onGang t (fun _ => run g x k (originOf g gid slot addr 0)) := by
  unfold State.issueOn
  rw [hc]
  unfold State.gang at hg
  simp only [State.onGang, State.onTask]
  cases ht : s.task t with
  | none => rfl
  | some y =>
    simp only [ht] at hg
    simp [hg, hx]

/-- A scalar instruction on an agent core. -/
theorem State.scalar_agent (s : State) (c : Nat) (h : s.cur = .agent c) (guard : Option (Nat × Nat)) (srcs : List Nat)
    (d : Dst) (lat : Nat) (f : Inputs → Word × Nat) :
    s.scalar guard srcs d lat f
      = .next (s.onMe (fun x => x.scalar guard srcs d (Config.agentRsd s.tape % 2 ^ 32) f)) := by
  simp [State.scalar, h]

/-- A scalar instruction on a tile. -/
theorem State.scalar_tile (s : State) (t gid slot k addr : Nat) (g : Gang) (x : Tile)
    (hc : s.cur = .tile t gid slot k addr) (hg : s.gang t = some g) (hx : g.tile gid = some x) (guard : Option (Nat × Nat))
    (srcs : List Nat) (d : Dst) (lat : Nat) (f : Inputs → Word × Nat) :
    s.scalar guard srcs d lat f
      = .next (s.onGang t (fun _ => g.scalar x (originOf g gid slot addr 0) guard srcs d lat f)) := by
  have h : s.scalar guard srcs d lat f = .next (s.issueOn (fun g x _ o => g.scalar x o guard srcs d lat f)) := by
    simp [State.scalar, hc]
  rw [h, State.issueOn_tile s t gid slot k addr g x hc hg hx]

@[simp] theorem boolWord_ne (b : Bool) : (boolWord b != 0#64) = b := by cases b <;> rfl

/-! ### Reading operands leaves the loop stack alone -/

theorem Tile.record_loops (x : Tile) (cls detail slot addr cycle : Nat) (info : Word) :
    (x.record cls detail slot addr cycle info).loops = x.loops := by
  unfold Tile.record; dsimp only; split <;> (try split) <;> (try split) <;> rfl

theorem Tile.readK_loops (x : Tile) (k c slot addr : Nat) : (x.readK k c slot addr).1.loops = x.loops := by
  unfold Tile.readK
  dsimp only
  split
  · rfl
  · split
    · rfl
    · split
      · split
        · rfl
        · exact Tile.record_loops ..
      · exact Tile.record_loops ..

@[simp] theorem Tile.sawPoison_loops (x : Tile) : x.sawPoison.loops = x.loops := by
  unfold Tile.sawPoison; split <;> rfl

theorem Tile.readCodes_loops (c slot addr : Nat) (rs : List Nat) (x : Tile) :
    (x.readCodes c slot addr rs).x.loops = x.loops := by
  induction rs generalizing x with
  | nil => rfl
  | cons r rs ih =>
    unfold Tile.readCodes
    dsimp only
    rw [ih]
    have : (x.readCode r c slot addr).1.loops = x.loops := by
      unfold Tile.readCode; split
      · rfl
      · exact Tile.readK_loops ..
    split <;> simp [this]

/-! ### Guards and levels -/

/-- A guarded instruction of a core: with a true guard its work, else only the advance (R113). -/
theorem State.guarded_cases (s : State) (g n : Nat) (k : State → Outcome) :
    (s.me.guard g n = true ∧ s.guarded g n k = k s)
      ∨ (s.me.guard g n = false ∧ s.guarded g n k = .next (s.onMe (·.advance))) := by
  unfold State.guarded
  cases h : s.me.guard g n <;> simp

/-- A device-level instruction: its work at device level, the privilege exception at host level (R379). -/
theorem State.deviceLevel_cases (s : State) (k : State → Outcome) :
    (s.me.lv = 1 ∧ s.deviceLevel k = k s) ∨ (s.me.lv ≠ 1 ∧ s.deviceLevel k = .next (s.exception 2 0)) := by
  unfold State.deviceLevel
  by_cases h : s.me.lv = 1 <;> simp [h]

/-! ### Memories keep their canonical form -/

theorem State.memWf_reset : State.reset.memWf := ⟨rfl, rfl⟩

/-- An update that leaves both memories alone keeps their form. -/
theorem State.memWf_of_eq (s t : State) (h : s.memWf) (hd : t.dev = s.dev) (hs : t.sys = s.sys) : t.memWf := by
  unfold State.memWf at *
  rw [hd, hs]
  exact h

/-- A memory with uncorrectable words filled in keeps the form. -/
theorem Memory.wf_fillBad (m : List Host.Cell) (ws : List Nat) (h : Memory.wf m = true) : Memory.wf (fillBad m ws) = true := by
  induction ws generalizing m with
  | nil => exact h
  | cons w ws ih => exact ih _ (Memory.wf_writeBytes _ _ _ h)

theorem State.memWf_devWrite (s : State) (a : Nat) (bs : List PByte) (h : s.memWf) : (s.devWrite a bs).memWf :=
  ⟨Memory.wf_writeBytes _ _ _ (Memory.wf_fillBad _ _ h.1), h.2⟩

theorem State.memWf_sysWrite (s : State) (a : Nat) (bs : List PByte) (h : s.memWf) : (s.sysWrite a bs).memWf :=
  ⟨h.1, Memory.wf_writeBytes _ _ _ h.2⟩

theorem State.memWf_setCore (s : State) (c : Nat) (x : AgentCore) (h : s.memWf) : (s.setCore c x).memWf := h

theorem State.memWf_onMe (s : State) (f : AgentCore → AgentCore) (h : s.memWf) : (s.onMe f).memWf := h

theorem State.memWf_onTask (s : State) (t : Nat) (f : Task → Task) (h : s.memWf) : (s.onTask t f).memWf :=
  State.memWf_of_eq _ _ h (by simp) (by simp)

theorem State.memWf_onGang (s : State) (t : Nat) (f : Gang → Gang) (h : s.memWf) : (s.onGang t f).memWf :=
  State.memWf_of_eq _ _ h (by simp) (by simp)

theorem State.memWf_agentWrite (s : State) (c a : Nat) (bs : List PByte) (h : s.memWf) : (s.agentWrite c a bs).memWf := by
  unfold State.agentWrite
  split
  · exact State.memWf_devWrite _ _ _ h
  · exact State.memWf_sysWrite _ _ _ h
  · exact h

theorem memWf_performStores (c : Nat) (xs : List (Store × Bool)) (s : State) (h : s.memWf) :
    (performStores s c xs).1.memWf := by
  induction xs generalizing s with
  | nil => exact h
  | cons x xs ih =>
    unfold performStores
    split
    · exact ih _ (State.memWf_agentWrite _ _ _ _ h)
    · exact ih _ h

theorem State.memWf_flush (s : State) (c : Nat) (pick : Store → Bool) (h : s.memWf) : (s.flush c pick).memWf :=
  memWf_performStores c _ s h

theorem State.memWf_agentStore (s : State) (c cls a : Nat) (bs : List PByte) (h : s.memWf) :
    (s.agentStore c cls a bs).memWf := by
  unfold State.agentStore
  split
  · exact State.memWf_agentWrite _ _ _ _ h
  · exact h

/-- The private memory of a core keeps its form under a write to it. -/
theorem State.sramWf_agentWrite (s : State) (c a : Nat) (bs : List PByte) (h : Memory.wf (s.core c).sram = true) :
    Memory.wf (((s.agentWrite c a bs).core c).sram) = true := by
  have wake : ∀ (cs : Tbl AgentCore) (b n : Nat),
      (look AgentCore.reset (wakeCores cs b n) c).sram = (look AgentCore.reset cs c).sram := by
    intro cs b n
    induction cs with
    | nil => rfl
    | cons e r ih =>
      obtain ⟨k, x⟩ := e
      by_cases hk : c = k
      · subst hk
        simp only [wakeCores, List.map_cons, look, if_true]
        cases hw : x.wait with
        | none => simp [look]
        | some w =>
          cases w with
          | line w l sn hit d => dsimp only; split <;> simp [look]
          | timeline => simp [look]
          | batches => simp [look]
      · simp only [wakeCores, List.map_cons, look, if_neg hk] at ih ⊢
        cases hw : x.wait with
        | none => simpa [look, hk] using ih
        | some w =>
          cases w with
          | line w l sn hit d => dsimp only; split <;> simpa [look, hk] using ih
          | timeline => simpa [look, hk] using ih
          | batches => simpa [look, hk] using ih
  unfold State.agentWrite
  split
  · simpa [State.core, wake] using h
  · simpa [State.core, wake] using h
  · simpa using Memory.wf_writeBytes _ _ _ h

end Sys2Proof.Machine
end

