-- ==== Sys2Proof/Laws/PerInstr.lean ====
section
/-! SUPPORT. A property of every instruction as syntax, one lemma per constructor: the fields of its word stand apart, each
within 64 bits, so that no field of an encoding hides another (05 R107, R108). -/
namespace Sys2Proof.Laws.Places
open Sys2Proof

/-- Two places, lowest bit and width, share no bit. -/
def apart (a b : Nat × Nat) : Bool := a.1 + a.2 ≤ b.1 || b.1 + b.2 ≤ a.1

/-- The places of a list share no bit with each other and lie in 64 bits. -/
def allApart : List (Nat × Nat) → Bool
  | [] => true
  | p :: ps => p.1 + p.2 ≤ 64 && ps.all (apart p) && allApart ps

/-- The fields of an instruction's word stand apart. -/
def Statement (i : Instr) : Prop := allApart ((layoutOf i).map (·.2)) = true

theorem nop : Statement (.nop) := rfl
theorem sync : Statement (.sync) := rfl
theorem loop (count endw lb : Nat) : Statement (.loop count endw lb) := rfl
theorem loops (a endw lb : Nat) : Statement (.loops a endw lb) := rfl
theorem br (g n d : Nat) : Statement (.br g n d) := rfl
theorem join (x : Nat) : Statement (.join x) := rfl
theorem call (r d : Nat) : Statement (.call r d) := rfl
theorem ret (a : Nat) : Statement (.ret a) := rfl
theorem halt : Statement (.halt) := rfl
theorem trapInstr (code : Nat) : Statement (.trapInstr code) := rfl
theorem fmt (v : Nat) : Statement (.fmt v) := rfl
theorem segchk (seg : Nat) : Statement (.segchk seg) := rfl
theorem crgnOpen (d : Nat) : Statement (.crgnOpen d) := rfl
theorem crgnClose : Statement (.crgnClose) := rfl
theorem resync (a : Nat) : Statement (.resync a) := rfl
theorem phase (bank : Nat) : Statement (.phase bank) := rfl
theorem tlaunch (a : Nat) : Statement (.tlaunch a) := rfl
theorem dbgb (tag : Nat) : Statement (.dbgb tag) := rfl
theorem sysrd (d sreg : Nat) : Statement (.sysrd d sreg) := rfl
theorem syswr (a sreg : Nat) : Statement (.syswr a sreg) := rfl
theorem ringc (h base ls clr : Nat) : Statement (.ringc h base ls clr) := rfl
theorem add (d a b g n : Nat) : Statement (.add d a b g n) := rfl
theorem sub (d a b g n : Nat) : Statement (.sub d a b g n) := rfl
theorem mul (d a b g n : Nat) : Statement (.mul d a b g n) := rfl
theorem mulh (d a b g n : Nat) : Statement (.mulh d a b g n) := rfl
theorem mulhn (d a b g n : Nat) : Statement (.mulhn d a b g n) := rfl
theorem div (d a b g n : Nat) : Statement (.div d a b g n) := rfl
theorem divn (d a b g n : Nat) : Statement (.divn d a b g n) := rfl
theorem rem (d a b g n : Nat) : Statement (.rem d a b g n) := rfl
theorem remn (d a b g n : Nat) : Statement (.remn d a b g n) := rfl
theorem and (d a b g n : Nat) : Statement (.and d a b g n) := rfl
theorem or (d a b g n : Nat) : Statement (.or d a b g n) := rfl
theorem xor (d a b g n : Nat) : Statement (.xor d a b g n) := rfl
theorem andn (d a b g n : Nat) : Statement (.andn d a b g n) := rfl
theorem orn (d a b g n : Nat) : Statement (.orn d a b g n) := rfl
theorem shl (d a b g n : Nat) : Statement (.shl d a b g n) := rfl
theorem shr (d a b g n : Nat) : Statement (.shr d a b g n) := rfl
theorem sha (d a b g n : Nat) : Statement (.sha d a b g n) := rfl
theorem rotr (d a b g n : Nat) : Statement (.rotr d a b g n) := rfl
theorem clz (d a g n : Nat) : Statement (.clz d a g n) := rfl
theorem ctz (d a g n : Nat) : Statement (.ctz d a g n) := rfl
theorem popc (d a g n : Nat) : Statement (.popc d a g n) := rfl
theorem min (d a b g n : Nat) : Statement (.min d a b g n) := rfl
theorem max (d a b g n : Nat) : Statement (.max d a b g n) := rfl
theorem minn (d a b g n : Nat) : Statement (.minn d a b g n) := rfl
theorem maxn (d a b g n : Nat) : Statement (.maxn d a b g n) := rfl
theorem slt (d a b g n : Nat) : Statement (.slt d a b g n) := rfl
theorem sltn (d a b g n : Nat) : Statement (.sltn d a b g n) := rfl
theorem sel (d a b p n : Nat) : Statement (.sel d a b p n) := rfl
theorem pcmp (d a b g n f : Nat) : Statement (.pcmp d a b g n f) := rfl
theorem plog (d f a b g n : Nat) : Statement (.plog d f a b g n) := rfl
theorem addi (d a i : Nat) : Statement (.addi d a i) := rfl
theorem andi (d a i : Nat) : Statement (.andi d a i) := rfl
theorem ori (d a i : Nat) : Statement (.ori d a i) := rfl
theorem xori (d a i : Nat) : Statement (.xori d a i) := rfl
theorem shli (d a i : Nat) : Statement (.shli d a i) := rfl
theorem shri (d a i : Nat) : Statement (.shri d a i) := rfl
theorem shai (d a i : Nat) : Statement (.shai d a i) := rfl
theorem limm (d i : Nat) : Statement (.limm d i) := rfl
theorem limmh (d i : Nat) : Statement (.limmh d i) := rfl
theorem lds (d a z o : Nat) : Statement (.lds d a z o) := rfl
theorem sts (d a z o : Nat) : Statement (.sts d a z o) := rfl
theorem ldsAgent (d a z c o : Nat) : Statement (.ldsAgent d a z c o) := rfl
theorem stsAgent (d a z c o : Nat) : Statement (.stsAgent d a z c o) := rfl
theorem fadd (d a b g n f : Nat) : Statement (.fadd d a b g n f) := rfl
theorem fsub (d a b g n f : Nat) : Statement (.fsub d a b g n f) := rfl
theorem fmul (d a b g n f : Nat) : Statement (.fmul d a b g n f) := rfl
theorem ffma (d a b g n f : Nat) : Statement (.ffma d a b g n f) := rfl
theorem fmin (d a b g n : Nat) : Statement (.fmin d a b g n) := rfl
theorem fmax (d a b g n : Nat) : Statement (.fmax d a b g n) := rfl
theorem fcmp (d a b g n f : Nat) : Statement (.fcmp d a b g n f) := rfl
theorem fcvt (d a g n f : Nat) : Statement (.fcvt d a g n f) := rfl
theorem vadd (v : VOp) : Statement (.vadd v) := rfl
theorem vsub (v : VOp) : Statement (.vsub v) := rfl
theorem vmul (v : VOp) : Statement (.vmul v) := rfl
theorem vfma (v : VOp) : Statement (.vfma v) := rfl
theorem vfms (v : VOp) : Statement (.vfms v) := rfl
theorem vfnma (v : VOp) : Statement (.vfnma v) := rfl
theorem vmin (v : VOp) : Statement (.vmin v) := rfl
theorem vmax (v : VOp) : Statement (.vmax v) := rfl
theorem vabs (v : VOp) : Statement (.vabs v) := rfl
theorem vneg (v : VOp) : Statement (.vneg v) := rfl
theorem vmulh (v : VOp) : Statement (.vmulh v) := rfl
theorem vand (v : VOp) : Statement (.vand v) := rfl
theorem vor (v : VOp) : Statement (.vor v) := rfl
theorem vxor (v : VOp) : Statement (.vxor v) := rfl
theorem vandn (v : VOp) : Statement (.vandn v) := rfl
theorem vnot (v : VOp) : Statement (.vnot v) := rfl
theorem vshl (v : VOp) : Statement (.vshl v) := rfl
theorem vshr (v : VOp) : Statement (.vshr v) := rfl
theorem vsha (v : VOp) : Statement (.vsha v) := rfl
theorem vclz (v : VOp) : Statement (.vclz v) := rfl
theorem vpopc (v : VOp) : Statement (.vpopc v) := rfl
theorem vcmp (v : VOp) : Statement (.vcmp v) := rfl
theorem vsel (v : VOp) : Statement (.vsel v) := rfl
theorem vcvt (v : VOp) : Statement (.vcvt v) := rfl
theorem vqmx (v : VOp) : Statement (.vqmx v) := rfl
theorem vdqmx (v : VOp) : Statement (.vdqmx v) := rfl
theorem vscl (v : VOp) : Statement (.vscl v) := rfl
theorem vrsum (v : VOp) : Statement (.vrsum v) := rfl
theorem vrmax (v : VOp) : Statement (.vrmax v) := rfl
theorem vrmin (v : VOp) : Statement (.vrmin v) := rfl
theorem vrarg (v : VOp) : Statement (.vrarg v) := rfl
theorem vscan (v : VOp) : Statement (.vscan v) := rfl
theorem vtopk (v : VOp) : Statement (.vtopk v) := rfl
theorem vxpnd (v : VOp) : Statement (.vxpnd v) := rfl
theorem vcount (v : VOp) : Statement (.vcount v) := rfl
theorem viota (v : VOp) : Statement (.viota v) := rfl
theorem vbrd (v : VOp) : Statement (.vbrd v) := rfl
theorem vextr (v : VOp) : Statement (.vextr v) := rfl
theorem vexp2 (v : VOp) : Statement (.vexp2 v) := rfl
theorem vlog2 (v : VOp) : Statement (.vlog2 v) := rfl
theorem vrcp (v : VOp) : Statement (.vrcp v) := rfl
theorem vrsq (v : VOp) : Statement (.vrsq v) := rfl
theorem vsqrt (v : VOp) : Statement (.vsqrt v) := rfl
theorem vtanh (v : VOp) : Statement (.vtanh v) := rfl
theorem vsig (v : VOp) : Statement (.vsig v) := rfl
theorem vsin (v : VOp) : Statement (.vsin v) := rfl
theorem vcos (v : VOp) : Statement (.vcos v) := rfl
theorem vld (v : VOp) : Statement (.vld v) := rfl
theorem vst (v : VOp) : Statement (.vst v) := rfl
theorem vlds (v : VOp) : Statement (.vlds v) := rfl
theorem vsts (v : VOp) : Statement (.vsts v) := rfl
theorem vgath (v : VOp) : Statement (.vgath v) := rfl
theorem vscat (v : VOp) : Statement (.vscat v) := rfl
theorem vldb (v : VOp) : Statement (.vldb v) := rfl
theorem advr (v : VOp) : Statement (.advr v) := rfl
theorem vNop : Statement (.vNop) := rfl
theorem xNop : Statement (.xNop) := rfl
theorem xperm (hd hs n : Nat) : Statement (.xperm hd hs n) := rfl
theorem xrot (hd hs n : Nat) : Statement (.xrot hd hs n) := rfl
theorem xshuf (hd hs mode g : Nat) : Statement (.xshuf hd hs mode g) := rfl
theorem xtrn (hd hs p : Nat) : Statement (.xtrn hd hs p) := rfl
theorem xbrd (hd hs j : Nat) : Statement (.xbrd hd hs j) := rfl
theorem xpat (hs n : Nat) : Statement (.xpat hs n) := rfl
theorem mNop : Statement (.mNop) := rfl
theorem mnest (lv c src : Nat) : Statement (.mnest lv c src) := rfl
theorem mnestClr : Statement (.mnestClr) := rfl
theorem mgo : Statement (.mgo) := rfl
theorem mcfg (n a : Nat) : Statement (.mcfg n a) := rfl
theorem mzero (ag bank nb : Nat) : Statement (.mzero ag bank nb) := rfl
theorem mmul (a b c ag : Nat) : Statement (.mmul a b c ag) := rfl
theorem mmulg (a b c ag h : Nat) : Statement (.mmulg a b c ag h) := rfl
theorem mchk (a c ag : Nat) : Statement (.mchk a c ag) := rfl
theorem mldacc (a l ag bank : Nat) : Statement (.mldacc a l ag bank) := rfl
theorem mstacc (a l ag bank : Nat) : Statement (.mstacc a l ag bank) := rfl
theorem mpermAcc (ag x inv w : Nat) : Statement (.mpermAcc ag x inv w) := rfl
theorem mpermScratch (x inv w : Nat) : Statement (.mpermScratch x inv w) := rfl
theorem aballoc (ag count : Nat) : Statement (.aballoc ag count) := rfl
theorem abfree (ag : Nat) : Statement (.abfree ag) := rfl
theorem mflu (ag t : Nat) : Statement (.mflu ag t) := rfl
theorem mfch (ag t : Nat) : Statement (.mfch ag t) := rfl
theorem mfqr (ag t : Nat) : Statement (.mfqr ag t) := rfl
theorem mtrs (ag t x up tr u : Nat) : Statement (.mtrs ag t x up tr u) := rfl
theorem dNop : Statement (.dNop) := rfl
theorem xfer (buf d src dsp ssp nb : Nat) : Statement (.xfer buf d src dsp ssp nb) := rfl
theorem xferr (buf d src dsp ssp nb b arv : Nat) : Statement (.xferr buf d src dsp ssp nb b arv) := rfl
theorem rld (buf d a sp z o : Nat) : Statement (.rld buf d a sp z o) := rfl
theorem rst (buf d a sp z o : Nat) : Statement (.rst buf d a sp z o) := rfl
theorem chsend (buf a ch astep : Nat) : Statement (.chsend buf a ch astep) := rfl
theorem chrecv (buf a ch astep : Nat) : Statement (.chrecv buf a ch astep) := rfl
theorem chbind (buf n chs chr : Nat) : Statement (.chbind buf n chs chr) := rfl
theorem sacc (buf a hi hv it ioff voff istep vstep : Nat) : Statement (.sacc buf a hi hv it ioff voff istep vstep) := rfl
theorem shist (buf a hi it ioff istep : Nat) : Statement (.shist buf a hi it ioff istep) := rfl
theorem ctrsnap (buf a : Nat) : Statement (.ctrsnap buf a) := rfl
theorem atomAdd (buf d a b w : Nat) : Statement (.atomAdd buf d a b w) := rfl
theorem atomAnd (buf d a b w : Nat) : Statement (.atomAnd buf d a b w) := rfl
theorem atomOr (buf d a b w : Nat) : Statement (.atomOr buf d a b w) := rfl
theorem atomXor (buf d a b w : Nat) : Statement (.atomXor buf d a b w) := rfl
theorem atomMin (buf d a b w : Nat) : Statement (.atomMin buf d a b w) := rfl
theorem atomMax (buf d a b w : Nat) : Statement (.atomMax buf d a b w) := rfl
theorem atomMinn (buf d a b w : Nat) : Statement (.atomMinn buf d a b w) := rfl
theorem atomMaxn (buf d a b w : Nat) : Statement (.atomMaxn buf d a b w) := rfl
theorem atomSwap (buf d a b w : Nat) : Statement (.atomSwap buf d a b w) := rfl
theorem atomCas (buf d a b c w : Nat) : Statement (.atomCas buf d a b c w) := rfl
theorem atomFadd (buf d a b : Nat) : Statement (.atomFadd buf d a b) := rfl
theorem atomArv (buf d a b : Nat) : Statement (.atomArv buf d a b) := rfl
theorem atomBreg (buf d a b : Nat) : Statement (.atomBreg buf d a b) := rfl
theorem atomBcpl (buf d a b : Nat) : Statement (.atomBcpl buf d a b) := rfl
theorem snap (buf d dom : Nat) : Statement (.snap buf d dom) := rfl
theorem genq (buf d dom : Nat) : Statement (.genq buf d dom) := rfl
theorem tarm (buf handle src aix : Nat) : Statement (.tarm buf handle src aix) := rfl
theorem tpost (buf handle src a step : Nat) : Statement (.tpost buf handle src a step) := rfl
theorem trecv (buf handle src a step : Nat) : Statement (.trecv buf handle src a step) := rfl
theorem tstat (buf handle d clr : Nat) : Statement (.tstat buf handle d clr) := rfl
theorem waita (d a b g n : Nat) : Statement (.waita d a b g n) := rfl
theorem waitt (d a b g n : Nat) : Statement (.waitt d a b g n) := rfl
theorem batchClose (d a g n : Nat) : Statement (.batchClose d a g n) := rfl
theorem waitb (d a b g n : Nat) : Statement (.waitb d a b g n) := rfl
theorem lda (d a c src w : Nat) : Statement (.lda d a c src w) := rfl
theorem stl (a b c src w : Nat) : Statement (.stl a b c src w) := rfl
theorem fence (m src : Nat) : Statement (.fence m src) := rfl
theorem amoAdd (d a b c : Nat) : Statement (.amoAdd d a b c) := rfl
theorem amoOr (d a b c : Nat) : Statement (.amoOr d a b c) := rfl
theorem amoAnd (d a b c : Nat) : Statement (.amoAnd d a b c) := rfl
theorem amoSwap (d a b c : Nat) : Statement (.amoSwap d a b c) := rfl
theorem amoMaxn (d a b c : Nat) : Statement (.amoMaxn d a b c) := rfl
theorem amoCas (d a b c : Nat) : Statement (.amoCas d a b c) := rfl
theorem amoArv (d a b c : Nat) : Statement (.amoArv d a b c) := rfl
theorem amoBreg (d a b c : Nat) : Statement (.amoBreg d a b c) := rfl
theorem copy (d a b g n : Nat) : Statement (.copy d a b g n) := rfl
theorem taskq (d a g n : Nat) : Statement (.taskq d a g n) := rfl
theorem tkill (d a g n : Nat) : Statement (.tkill d a g n) := rfl
theorem tpreDrain (d a b g n : Nat) : Statement (.tpreDrain d a b g n) := rfl
theorem tpreCheckpoint (d a b g n : Nat) : Statement (.tpreCheckpoint d a b g n) := rfl
theorem tpreRequeue (d a b g n : Nat) : Statement (.tpreRequeue d a b g n) := rfl
theorem tstatus (d a g n : Nat) : Statement (.tstatus d a g n) := rfl
theorem cplpost (d a g n : Nat) : Statement (.cplpost d a g n) := rfl
theorem intr (a g n : Nat) : Statement (.intr a g n) := rfl
theorem scall (c : Nat) : Statement (.scall c) := rfl
theorem eret : Statement (.eret) := rfl
theorem csrr (d c : Nat) : Statement (.csrr d c) := rfl
theorem csrw (a c : Nat) : Statement (.csrw a c) := rfl
theorem scrub (d a g n : Nat) : Statement (.scrub d a g n) := rfl
theorem keyz (d a g n : Nat) : Statement (.keyz d a g n) := rfl
theorem keyld (d a b g n : Nat) : Statement (.keyld d a b g n) := rfl
theorem migr (d a g n : Nat) : Statement (.migr d a g n) := rfl
theorem imgchk (d a b g n : Nat) : Statement (.imgchk d a b g n) := rfl
theorem treeCreate (d a : Nat) : Statement (.treeCreate d a) := rfl
theorem treeEdit (d a : Nat) : Statement (.treeEdit d a) := rfl
theorem treeAlt (d a b : Nat) : Statement (.treeAlt d a b) := rfl
theorem treeFreeze (d a : Nat) : Statement (.treeFreeze d a) := rfl
theorem treeThaw (d a : Nat) : Statement (.treeThaw d a) := rfl
theorem treeDestroy (d a : Nat) : Statement (.treeDestroy d a) := rfl
theorem bundleIssue : Statement (.bundleIssue) := rfl
theorem stickyReissue : Statement (.stickyReissue) := rfl
theorem trap : Statement (.trap) := rfl
theorem quiescenceOverdue : Statement (.quiescenceOverdue) := rfl
theorem syncResolve : Statement (.syncResolve) := rfl
theorem phaseSwitch : Statement (.phaseSwitch) := rfl
theorem holdFreeze : Statement (.holdFreeze) := rfl
theorem holdResume : Statement (.holdResume) := rfl
theorem drainStop : Statement (.drainStop) := rfl
theorem drainLimitExpiry : Statement (.drainLimitExpiry) := rfl
theorem imageSaveComplete : Statement (.imageSaveComplete) := rfl
theorem drainRestore : Statement (.drainRestore) := rfl
theorem freezeRestore : Statement (.freezeRestore) := rfl
theorem taskLaunch : Statement (.taskLaunch) := rfl
theorem taskRetire : Statement (.taskRetire) := rfl
theorem completionRecordWrite : Statement (.completionRecordWrite) := rfl
theorem sliceBoundary : Statement (.sliceBoundary) := rfl
theorem schedulerDecision : Statement (.schedulerDecision) := rfl
theorem extensionRedecide : Statement (.extensionRedecide) := rfl
theorem scalarResultWrite : Statement (.scalarResultWrite) := rfl
theorem vectorResultWrite : Statement (.vectorResultWrite) := rfl
theorem fmtApply : Statement (.fmtApply) := rfl
theorem systemRegisterWrite : Statement (.systemRegisterWrite) := rfl
theorem xpatWrite : Statement (.xpatWrite) := rfl
theorem dAccessPerform : Statement (.dAccessPerform) := rfl
theorem beatRead : Statement (.beatRead) := rfl
theorem beatWrite : Statement (.beatWrite) := rfl
theorem barrierRegister : Statement (.barrierRegister) := rfl
theorem barrierCompleteBeats : Statement (.barrierCompleteBeats) := rfl
theorem barrierArrival : Statement (.barrierArrival) := rfl
theorem chsendPush : Statement (.chsendPush) := rfl
theorem channelDepart : Statement (.channelDepart) := rfl
theorem channelArrive : Statement (.channelArrive) := rfl
theorem saccUpdate : Statement (.saccUpdate) := rfl
theorem shistIncrement : Statement (.shistIncrement) := rfl
theorem ctrsnapWrite : Statement (.ctrsnapWrite) := rfl
theorem nestStart : Statement (.nestStart) := rfl
theorem nestStep : Statement (.nestStep) := rfl
theorem nestCWrite : Statement (.nestCWrite) := rfl
theorem accLineMove : Statement (.accLineMove) := rfl
theorem mchkWrite : Statement (.mchkWrite) := rfl
theorem factorisationStep : Statement (.factorisationStep) := rfl
theorem factorisationEnd : Statement (.factorisationEnd) := rfl
theorem mpermRowWrite : Statement (.mpermRowWrite) := rfl
theorem snapCycle : Statement (.snapCycle) := rfl
theorem snapResult : Statement (.snapResult) := rfl
theorem genqSample : Statement (.genqSample) := rfl
theorem genqResult : Statement (.genqResult) := rfl
theorem generationDrainComplete : Statement (.generationDrainComplete) := rfl
theorem treeFold : Statement (.treeFold) := rfl
theorem treeDelivery : Statement (.treeDelivery) := rfl
theorem handlerEntry : Statement (.handlerEntry) := rfl
theorem debugStep : Statement (.debugStep) := rfl
theorem dctlWrite : Statement (.dctlWrite) := rfl
theorem debugRegisterWrite : Statement (.debugRegisterWrite) := rfl
theorem debugRelease : Statement (.debugRelease) := rfl
theorem freezeImageEdit : Statement (.freezeImageEdit) := rfl
theorem waitaReturn : Statement (.waitaReturn) := rfl
theorem waitaTimeout : Statement (.waitaTimeout) := rfl
theorem waittReturn : Statement (.waittReturn) := rfl
theorem waitbReturn : Statement (.waitbReturn) := rfl
theorem copyComplete : Statement (.copyComplete) := rfl
theorem scrubUnitDone : Statement (.scrubUnitDone) := rfl
theorem migrationComplete : Statement (.migrationComplete) := rfl
theorem patrolScrub : Statement (.patrolScrub) := rfl
theorem powerOn : Statement (.powerOn) := rfl
theorem warmReset : Statement (.warmReset) := rfl
theorem functionReset : Statement (.functionReset) := rfl
theorem partitionRequest : Statement (.partitionRequest) := rfl
theorem frameGrant : Statement (.frameGrant) := rfl
theorem errorInjection : Statement (.errorInjection) := rfl
theorem logRead : Statement (.logRead) := rfl
theorem sensorRead : Statement (.sensorRead) := rfl
theorem warningTemperature : Statement (.warningTemperature) := rfl
theorem criticalTemperature : Statement (.criticalTemperature) := rfl
theorem firmwareUpdate : Statement (.firmwareUpdate) := rfl
theorem getVersion : Statement (.getVersion) := rfl
theorem getCapabilities : Statement (.getCapabilities) := rfl
theorem negotiateAlgorithms : Statement (.negotiateAlgorithms) := rfl
theorem getDigests : Statement (.getDigests) := rfl
theorem getCertificate : Statement (.getCertificate) := rfl
theorem challenge : Statement (.challenge) := rfl
theorem getMeasurements : Statement (.getMeasurements) := rfl
theorem keyExchange : Statement (.keyExchange) := rfl
theorem finish : Statement (.finish) := rfl
theorem linkTraining : Statement (.linkTraining) := rfl
theorem ptmSync : Statement (.ptmSync) := rfl
theorem flitReceive : Statement (.flitReceive) := rfl
theorem laneRetire : Statement (.laneRetire) := rfl
theorem lmapWrite : Statement (.lmapWrite) := rfl
theorem linkWidthChange : Statement (.linkWidthChange) := rfl
theorem hostPortTraining : Statement (.hostPortTraining) := rfl
theorem bar2Access : Statement (.bar2Access) := rfl
theorem cxlMemAccess : Statement (.cxlMemAccess) := rfl
theorem cqheadWrite : Statement (.cqheadWrite) := rfl
theorem ctxerrWrite : Statement (.ctxerrWrite) := rfl
theorem registerWrite : Statement (.registerWrite) := rfl
theorem debugHoldRelease : Statement (.debugHoldRelease) := rfl

end Sys2Proof.Laws.Places
end

