-- ==== Sys2Proof/Laws/Performs.lean ====
section
/-! SUPPORT. What the events of due effects do to a tile that has exactly one of them due. -/
namespace Sys2Proof.Machine

/-- The only due effect of a tile is the one that is taken. -/
theorem Gang.takeDue_sole (g : Gang) (gid : Nat) (pick : Job → Bool) (d : Due) (l r : List Due) (hg : g.dues = l ++ d :: r)
    (hd : d.due ≤ g.lcyc) (ho : d.o.gid = gid) (hp : pick d.job = true)
    (hr : ∀ e ∈ l ++ r, e.due ≤ g.lcyc → e.o.gid ≠ gid) :
    g.takeDue gid pick = ([d], { g with dues := l ++ r }) := by
  have ok : ∀ e ∈ l ++ r, (decide (e.due ≤ g.lcyc) && e.o.gid == gid && pick e.job) = false := by
    intro e he
    by_cases h1 : e.due ≤ g.lcyc
    · simp [hr e he h1]
    · simp [h1]
  have hl : l.filter (fun e => decide (e.due ≤ g.lcyc) && e.o.gid == gid && pick e.job) = [] :=
    List.filter_eq_nil_iff.mpr (fun e he => by simp [ok e (by simp [he])])
  have hrr : r.filter (fun e => decide (e.due ≤ g.lcyc) && e.o.gid == gid && pick e.job) = [] :=
    List.filter_eq_nil_iff.mpr (fun e he => by simp [ok e (by simp [he])])
  have kl : l.filter (fun e => !(decide (e.due ≤ g.lcyc) && e.o.gid == gid && pick e.job)) = l :=
    List.filter_eq_self.mpr (fun e he => by simp only [ok e (by simp [he]), Bool.not_false])
  have kr : r.filter (fun e => !(decide (e.due ≤ g.lcyc) && e.o.gid == gid && pick e.job)) = r :=
    List.filter_eq_self.mpr (fun e he => by simp only [ok e (by simp [he]), Bool.not_false])
  unfold Gang.takeDue
  simp only [hg, List.filter_append, List.filter_cons, hl, hrr, kl, kr, hd, ho, hp, decide_true, beq_self_eq_true, Bool.and_self,
    Bool.not_true, if_true, List.nil_append]
  rfl

/-- The gang with that effect taken runs it. -/
theorem State.perform_sole (s : State) (t gid : Nat) (g : Gang) (pick : Job → Bool) (run : State → Nat → Due → State) (d : Due)
    (l r : List Due) (hc : s.cur = .event t gid) (hs : s.gang t = some g) (hg : g.dues = l ++ d :: r) (hd : d.due ≤ g.lcyc)
    (ho : d.o.gid = gid) (hp : pick d.job = true) (hr : ∀ e ∈ l ++ r, e.due ≤ g.lcyc → e.o.gid ≠ gid) :
    s.perform pick run = run (s.onGang t (fun _ => { g with dues := l ++ r })) t d := by
  have ht : s.evTask = t := by simp [State.evTask, hc]
  have hi : s.evGid = gid := by simp [State.evGid, hc]
  unfold State.perform
  simp only [ht, hi, hs, g.takeDue_sole gid pick d l r hg hd ho hp hr, List.foldl_cons, List.foldl_nil]

/-- The same within the gang. -/
theorem State.performGang_sole (s : State) (t gid : Nat) (g : Gang) (pick : Job → Bool) (run : Gang → Due → Gang) (d : Due)
    (l r : List Due) (hc : s.cur = .event t gid) (hs : s.gang t = some g) (hg : g.dues = l ++ d :: r) (hd : d.due ≤ g.lcyc)
    (ho : d.o.gid = gid) (hp : pick d.job = true) (hr : ∀ e ∈ l ++ r, e.due ≤ g.lcyc → e.o.gid ≠ gid) :
    s.performGang pick run = s.onGang t (fun _ => run { g with dues := l ++ r } d) := by
  unfold State.performGang
  rw [s.perform_sole t gid g pick _ d l r hc hs hg hd ho hp hr, State.onGang_onGang]

end Sys2Proof.Machine
end

