-- ==== Sys2Proof/Tests/Slice0.lean ====
section
/-! SUPPORT. The model's own tests: ill-formed terms that the checks refuse, words written out from the spec's encodings with the
instructions that they stand for, single steps against values that the spec works out, and for each statement with hypotheses
states and operands that meet them. -/
namespace Sys2Proof.Tests
open Machine Sys2Proof.Claims

/-! ### Decoding: words written field by field from the tables of 05, 07, 11, 15, 17, 19, 21 and 23 -/

/-- C slot (07 R148). -/
theorem test_decode_control :
    decodeC 0b00000000000000000000000000000000 = .ok (.nop)
    ∧ decodeC 0b0000001_0000000000000000000000000 = .ok (.sync)
    ∧ decodeC 0b0000010_101101_10110011_10111001001 = .ok (.loop 45 179 1481)
    ∧ decodeC 0b0000011_001100_10110011_10111001001 = .ok (.loops 12 179 1481)
    ∧ decodeC 0b0000100_101_1_101011010010110100111 = .ok (.br 5 1 1418663)
    ∧ decodeC 0b0000101_00000_10100101110000111011 = .ok (.join 678971)
    ∧ decodeC 0b0000110_010011_1011010010110100111 = .ok (.call 19 370087)
    ∧ decodeC 0b0000111_001100_0000000000000000000 = .ok (.ret 12)
    ∧ decodeC 0b0001000_0000000000000000000000000 = .ok (.halt)
    ∧ decodeC 0b0001001_000000000_1011001111001001 = .ok (.trapInstr 46025)
    ∧ decodeC 0b0001010_000000000_1000101010010101 = .ok (.fmt 35477)
    ∧ decodeC 0b0001011_000000000_1011001111001001 = .ok (.segchk 46025)
    ∧ decodeC 0b0001100_0000_101011010010110100111 = .ok (.crgnOpen 1418663)
    ∧ decodeC 0b0001101_0000000000000000000000000 = .ok (.crgnClose)
    ∧ decodeC 0b0001110_001100_0000000000000000000 = .ok (.resync 12)
    ∧ decodeC 0b0001111_000000000000000000000000_1 = .ok (.phase 1)
    ∧ decodeC 0b0010000_001100_0000000000000000000 = .ok (.tlaunch 12)
    ∧ decodeC 0b0010001_00000000000000000_11000101 = .ok (.dbgb 197)
    ∧ decodeC 0b0010010_010011_000110100111_0000000 = .ok (.sysrd 19 423)
    ∧ decodeC 0b0010011_001100_000101000101_0000000 = .ok (.syswr 12 325)
    ∧ decodeC 0b0010100_1011_1010011_101_1_0000000000 = .ok (.ringc 11 83 5 1) :=
  ⟨rfl, rfl, rfl, rfl, rfl, rfl, rfl, rfl, rfl, rfl, rfl, rfl, rfl, rfl, rfl, rfl, rfl, rfl, rfl, rfl, rfl⟩

/-! S slot (05 R112, 07 R170 to R181). -/

theorem test_decode_scalar_1 :
    decodeS 0b0100000_010011_001100_010101_101_1_000 = .ok (.add 19 12 21 5 1)
    ∧ decodeS 0b0100001_010011_001100_010101_101_1_000 = .ok (.sub 19 12 21 5 1)
    ∧ decodeS 0b0100010_010011_001100_010101_101_1_000 = .ok (.mul 19 12 21 5 1)
    ∧ decodeS 0b0100011_010011_001100_010101_101_1_000 = .ok (.mulh 19 12 21 5 1)
    ∧ decodeS 0b0100100_010011_001100_010101_101_1_000 = .ok (.mulhn 19 12 21 5 1)
    ∧ decodeS 0b0100101_010011_001100_010101_101_1_000 = .ok (.div 19 12 21 5 1)
    ∧ decodeS 0b0100110_010011_001100_010101_101_1_000 = .ok (.divn 19 12 21 5 1)
    ∧ decodeS 0b0100111_010011_001100_010101_101_1_000 = .ok (.rem 19 12 21 5 1)
    ∧ decodeS 0b0101000_010011_001100_010101_101_1_000 = .ok (.remn 19 12 21 5 1)
    ∧ decodeS 0b0101001_010011_001100_010101_101_1_000 = .ok (.and 19 12 21 5 1)
    ∧ decodeS 0b0101010_010011_001100_010101_101_1_000 = .ok (.or 19 12 21 5 1)
    ∧ decodeS 0b0101011_010011_001100_010101_101_1_000 = .ok (.xor 19 12 21 5 1)
    ∧ decodeS 0b0101100_010011_001100_010101_101_1_000 = .ok (.andn 19 12 21 5 1)
    ∧ decodeS 0b0101101_010011_001100_010101_101_1_000 = .ok (.orn 19 12 21 5 1)
    ∧ decodeS 0b0101110_010011_001100_010101_101_1_000 = .ok (.shl 19 12 21 5 1)
    ∧ decodeS 0b0101111_010011_001100_010101_101_1_000 = .ok (.shr 19 12 21 5 1)
    ∧ decodeS 0b0110000_010011_001100_010101_101_1_000 = .ok (.sha 19 12 21 5 1)
    ∧ decodeS 0b0110001_010011_001100_010101_101_1_000 = .ok (.rotr 19 12 21 5 1)
    ∧ decodeS 0b0110101_010011_001100_010101_101_1_000 = .ok (.min 19 12 21 5 1)
    ∧ decodeS 0b0110110_010011_001100_010101_101_1_000 = .ok (.max 19 12 21 5 1)
    ∧ decodeS 0b0110111_010011_001100_010101_101_1_000 = .ok (.minn 19 12 21 5 1)
    ∧ decodeS 0b0111000_010011_001100_010101_101_1_000 = .ok (.maxn 19 12 21 5 1)
    ∧ decodeS 0b0111001_010011_001100_010101_101_1_000 = .ok (.slt 19 12 21 5 1)
    ∧ decodeS 0b0111010_010011_001100_010101_101_1_000 = .ok (.sltn 19 12 21 5 1)
    ∧ decodeS 0b0110010_010011_001100_000000_101_1_000 = .ok (.clz 19 12 5 1)
    ∧ decodeS 0b0110011_010011_001100_000000_101_1_000 = .ok (.ctz 19 12 5 1)
    ∧ decodeS 0b0110100_010011_001100_000000_101_1_000 = .ok (.popc 19 12 5 1)
    ∧ decodeS 0b0111011_010011_001100_010101_000_1_000 = .ok (.sel 19 12 21 0 1)
    ∧ decodeS 0b0111100_000_110_001100_010101_101_1_011 = .ok (.pcmp 6 12 21 5 1 3)
    ∧ decodeS 0b0111101_000_110_011_011_000_101_101_1_000 = .ok (.plog 6 3 3 5 5 1) :=
  ⟨rfl, rfl, rfl, rfl, rfl, rfl, rfl, rfl, rfl, rfl, rfl, rfl, rfl, rfl, rfl, rfl, rfl, rfl, rfl, rfl, rfl, rfl, rfl, rfl, rfl, rfl, rfl, rfl, rfl, rfl⟩

theorem test_decode_scalar_2 :
    decodeS 0b1000000_010011_001100_1101001011011 = .ok (.addi 19 12 6747)
    ∧ decodeS 0b1000001_010011_001100_1101001011011 = .ok (.andi 19 12 6747)
    ∧ decodeS 0b1000010_010011_001100_1101001011011 = .ok (.ori 19 12 6747)
    ∧ decodeS 0b1000011_010011_001100_1101001011011 = .ok (.xori 19 12 6747)
    ∧ decodeS 0b1000100_010011_001100_0000000_100101 = .ok (.shli 19 12 37)
    ∧ decodeS 0b1000101_010011_001100_0000000_100101 = .ok (.shri 19 12 37)
    ∧ decodeS 0b1000110_010011_001100_0000000_100101 = .ok (.shai 19 12 37)
    ∧ decodeS 0b1000111_010011_1011010010110100101 = .ok (.limm 19 370085)
    ∧ decodeS 0b1001000_010011_1011010010110100101 = .ok (.limmh 19 370085)
    ∧ decodeS 0b1001001_010011_001100_011_1010100111 = .ok (.lds 19 12 3 679)
    ∧ decodeS 0b1001010_010011_001100_011_1010100111 = .ok (.sts 19 12 3 679)
    ∧ decodeS 0b1010000_010011_001100_010101_101_1_011 = .ok (.fadd 19 12 21 5 1 3)
    ∧ decodeS 0b1010001_010011_001100_010101_101_1_011 = .ok (.fsub 19 12 21 5 1 3)
    ∧ decodeS 0b1010010_010011_001100_010101_101_1_011 = .ok (.fmul 19 12 21 5 1 3)
    ∧ decodeS 0b1010011_010011_001100_010101_101_1_011 = .ok (.ffma 19 12 21 5 1 3)
    ∧ decodeS 0b1010100_010011_001100_010101_101_1_000 = .ok (.fmin 19 12 21 5 1)
    ∧ decodeS 0b1010101_010011_001100_010101_101_1_000 = .ok (.fmax 19 12 21 5 1)
    ∧ decodeS 0b1010110_000_110_001100_010101_101_1_110 = .ok (.fcmp 6 12 21 5 1 6)
    ∧ decodeS 0b1010111_010011_001100_000000_101_1_011 = .ok (.fcvt 19 12 5 1 3) :=
  ⟨rfl, rfl, rfl, rfl, rfl, rfl, rfl, rfl, rfl, rfl, rfl, rfl, rfl, rfl, rfl, rfl, rfl, rfl, rfl⟩

/-- X slot (11 R226). -/
theorem test_decode_crossbar :
    decodeX 0b0000000000000000 = .ok (.xNop)
    ∧ decodeX 0b001_1001_0110_00_101 = .ok (.xperm 9 6 5)
    ∧ decodeX 0b010_1001_0110_11010 = .ok (.xrot 9 6 26)
    ∧ decodeX 0b011_1001_0110_10_101 = .ok (.xshuf 9 6 2 5)
    ∧ decodeX 0b100_1001_0110_000_10 = .ok (.xtrn 9 6 2)
    ∧ decodeX 0b101_1001_0110_11010 = .ok (.xbrd 9 6 26)
    ∧ decodeX 0b110_0000_0110_00_101 = .ok (.xpat 6 5) :=
  ⟨rfl, rfl, rfl, rfl, rfl, rfl, rfl⟩

/-- M slot (17 R303, 19 R322). -/
theorem test_decode_matrix :
    decodeM 0b00000000000000000000000000000000 = .ok (.mNop)
    ∧ decodeM 0b000001_101_001100_010101_00000000000 = .ok (.mnest 5 12 21)
    ∧ decodeM 0b000001_000000000000000_1_0000000000 = .ok (.mnestClr)
    ∧ decodeM 0b000010_00000000000000000000000000 = .ok (.mgo)
    ∧ decodeM 0b000011_10_001100_000000000000000000 = .ok (.mcfg 2 12)
    ∧ decodeM 0b000100_110_101010101_010110011_00000 = .ok (.mzero 6 341 179)
    ∧ decodeM 0b000101_001100_010101_010011_110_00000 = .ok (.mmul 12 21 19 6)
    ∧ decodeM 0b000110_001100_010101_010011_110_1011_0 = .ok (.mmulg 12 21 19 6 11)
    ∧ decodeM 0b000111_001100_010101_110_00000000000 = .ok (.mchk 12 21 6)
    ∧ decodeM 0b001000_001100_010101_110_101010101_00 = .ok (.mldacc 12 21 6 341)
    ∧ decodeM 0b001001_001100_010101_110_101010101_00 = .ok (.mstacc 12 21 6 341)
    ∧ decodeM 0b001010_0_110_001100_1_1011011_00000000 = .ok (.mpermAcc 6 12 1 91)
    ∧ decodeM 0b001010_1_000_001100_1_1011011_00000000 = .ok (.mpermScratch 12 1 91)
    ∧ decodeM 0b001011_110_0110100101_0000000000000 = .ok (.aballoc 6 421)
    ∧ decodeM 0b001100_110_00000000000000000000000 = .ok (.abfree 6)
    ∧ decodeM 0b001101_110_001100_00000000000000000 = .ok (.mflu 6 12)
    ∧ decodeM 0b001110_110_001100_00000000000000000 = .ok (.mfch 6 12)
    ∧ decodeM 0b001111_110_001100_00000000000000000 = .ok (.mfqr 6 12)
    ∧ decodeM 0b010000_110_001100_010101_1_0_1_00000000 = .ok (.mtrs 6 12 21 1 0 1) :=
  ⟨rfl, rfl, rfl, rfl, rfl, rfl, rfl, rfl, rfl, rfl, rfl, rfl, rfl, rfl, rfl, rfl, rfl, rfl, rfl⟩

/-! D slot (15, 21 R352). -/

theorem test_decode_data_1 :
    decodeD 0b0000000000000000000000000000000000000000000000000000000000000000 = .ok (.dNop)
    ∧ decodeD 0b00000001_101101_010011_001100_10_01_10101100110101_00000000000000000000 = .ok (.xfer 45 19 12 2 1 11061)
    ∧ decodeD 0b00000010_101101_010011_001100_10_01_10101100110101_010101_1_0000000000000 = .ok (.xferr 45 19 12 2 1 11061 21 1)
    ∧ decodeD 0b00000011_101101_010011_001100_10_110_10100101110000111011_0000000000000 = .ok (.rld 45 19 12 2 6 678971)
    ∧ decodeD 0b00000100_101101_010011_001100_10_011_10100101110000111011_0000000000000 = .ok (.rst 45 19 12 2 3 678971)
    ∧ decodeD 0b00001000_101101_001100_110011_10110101_000000000000000000000000000000 = .ok (.chsend 45 12 51 181)
    ∧ decodeD 0b00001001_101101_001100_110011_10110101_000000000000000000000000000000 = .ok (.chrecv 45 12 51 181)
    ∧ decodeD 0b00001010_101101_101_0111011_1111111_000000000000000000000000000000000 = .ok (.chbind 45 5 59 127)
    ∧ decodeD 0b00001100_101101_001100_1001_0110_10_1011011_0101101_1011_0110_000000000000 = .ok (.sacc 45 12 9 6 2 91 45 11 6)
    ∧ decodeD 0b00001101_101101_001100_1001_0000_10_1011011_0000000_1011_0000000000000000 = .ok (.shist 45 12 9 2 91 11)
    ∧ decodeD 0b00001110_101101_001100_00000000000000000000000000000000000000000000 = .ok (.ctrsnap 45 12)
    ∧ decodeD 0b00010000_101101_010011_001100_010101_000000_0000_1_000000000000000000000 = .ok (.atomAdd 45 19 12 21 1)
    ∧ decodeD 0b00010000_101101_010011_001100_010101_000000_0001_1_000000000000000000000 = .ok (.atomAnd 45 19 12 21 1)
    ∧ decodeD 0b00010000_101101_010011_001100_010101_000000_0010_1_000000000000000000000 = .ok (.atomOr 45 19 12 21 1)
    ∧ decodeD 0b00010000_101101_010011_001100_010101_000000_0011_1_000000000000000000000 = .ok (.atomXor 45 19 12 21 1)
    ∧ decodeD 0b00010000_101101_010011_001100_010101_000000_0100_1_000000000000000000000 = .ok (.atomMin 45 19 12 21 1)
    ∧ decodeD 0b00010000_101101_010011_001100_010101_000000_0101_1_000000000000000000000 = .ok (.atomMax 45 19 12 21 1)
    ∧ decodeD 0b00010000_101101_010011_001100_010101_000000_0110_1_000000000000000000000 = .ok (.atomMinn 45 19 12 21 1)
    ∧ decodeD 0b00010000_101101_010011_001100_010101_000000_0111_1_000000000000000000000 = .ok (.atomMaxn 45 19 12 21 1)
    ∧ decodeD 0b00010000_101101_010011_001100_010101_000000_1000_1_000000000000000000000 = .ok (.atomSwap 45 19 12 21 1) :=
  ⟨rfl, rfl, rfl, rfl, rfl, rfl, rfl, rfl, rfl, rfl, rfl, rfl, rfl, rfl, rfl, rfl, rfl, rfl, rfl, rfl⟩

theorem test_decode_data_2 :
    decodeD 0b00010000_101101_010011_001100_010101_011110_1001_1_000000000000000000000 = .ok (.atomCas 45 19 12 21 30 1)
    ∧ decodeD 0b00010000_101101_010011_001100_010101_000000_1010_0_000000000000000000000 = .ok (.atomFadd 45 19 12 21)
    ∧ decodeD 0b00010000_101101_010011_001100_010101_000000_1011_0_000000000000000000000 = .ok (.atomArv 45 19 12 21)
    ∧ decodeD 0b00010000_101101_010011_001100_010101_000000_1100_0_000000000000000000000 = .ok (.atomBreg 45 19 12 21)
    ∧ decodeD 0b00010000_101101_010011_001100_010101_000000_1101_0_000000000000000000000 = .ok (.atomBcpl 45 19 12 21)
    ∧ decodeD 0b00010100_101101_010011_101_00000000000000000000000000000000000000000 = .ok (.snap 45 19 5)
    ∧ decodeD 0b00010101_101101_010011_101_00000000000000000000000000000000000000000 = .ok (.genq 45 19 5)
    ∧ decodeD 0b00011000_101101_1011001111000101_001100_101001011011_0000000000000000 = .ok (.tarm 45 46021 12 2651)
    ∧ decodeD 0b00011001_101101_1011001111000101_001100_010101_1_000000000000000000000 = .ok (.tpost 45 46021 12 21 1)
    ∧ decodeD 0b00011010_101101_1011001111000101_001100_010101_1_000000000000000000000 = .ok (.trecv 45 46021 12 21 1)
    ∧ decodeD 0b00011011_101101_1011001111000101_010011_1_000000000000000000000000000 = .ok (.tstat 45 46021 19 1) :=
  ⟨rfl, rfl, rfl, rfl, rfl, rfl, rfl, rfl, rfl, rfl, rfl⟩

/-! Agent cores (23 R378, 21 R360). -/

theorem test_decode_agent_1 :
    decodeAgent 0b1100000_010011_001100_010101_101_1_000 = .ok (.waita 19 12 21 5 1)
    ∧ decodeAgent 0b1100001_010011_001100_010101_101_1_000 = .ok (.waitt 19 12 21 5 1)
    ∧ decodeAgent 0b1100010_010011_001100_000000_101_1_000 = .ok (.batchClose 19 12 5 1)
    ∧ decodeAgent 0b1100011_010011_001100_010101_101_1_000 = .ok (.waitb 19 12 21 5 1)
    ∧ decodeAgent 0b1101000_010011_001100_010101_101_1_000 = .ok (.copy 19 12 21 5 1)
    ∧ decodeAgent 0b1101001_010011_001100_000000_101_1_000 = .ok (.taskq 19 12 5 1)
    ∧ decodeAgent 0b1101010_010011_001100_000000_101_1_000 = .ok (.tkill 19 12 5 1)
    ∧ decodeAgent 0b1101011_010011_001100_010101_101_1_000 = .ok (.tpreDrain 19 12 21 5 1)
    ∧ decodeAgent 0b1101100_010011_001100_000000_101_1_000 = .ok (.tstatus 19 12 5 1)
    ∧ decodeAgent 0b1101101_010011_001100_000000_101_1_000 = .ok (.cplpost 19 12 5 1)
    ∧ decodeAgent 0b1101110_000000_001100_000000_101_1_000 = .ok (.intr 12 5 1)
    ∧ decodeAgent 0b1110011_010011_001100_000000_101_1_000 = .ok (.scrub 19 12 5 1)
    ∧ decodeAgent 0b1110100_010011_001100_000000_101_1_000 = .ok (.keyz 19 12 5 1)
    ∧ decodeAgent 0b1110101_010011_001100_010101_101_1_000 = .ok (.keyld 19 12 21 5 1)
    ∧ decodeAgent 0b1110110_010011_001100_000000_101_1_000 = .ok (.migr 19 12 5 1)
    ∧ decodeAgent 0b1110111_010011_001100_010101_101_1_000 = .ok (.imgchk 19 12 21 5 1)
    ∧ decodeAgent 0b1100100_010011_001100_000000_1011_10_1 = .ok (.lda 19 12 11 2 1)
    ∧ decodeAgent 0b1100101_000000_001100_010101_1011_10_1 = .ok (.stl 12 21 11 2 1)
    ∧ decodeAgent 0b1100110_00_1011001111000101_0000_10_0 = .ok (.fence 46021 2)
    ∧ decodeAgent 0b1100111_010011_001100_010101_1011_000 = .ok (.amoAdd 19 12 21 11)
    ∧ decodeAgent 0b1100111_010011_001100_010101_1011_001 = .ok (.amoOr 19 12 21 11)
    ∧ decodeAgent 0b1100111_010011_001100_010101_1011_010 = .ok (.amoAnd 19 12 21 11)
    ∧ decodeAgent 0b1100111_010011_001100_010101_1011_011 = .ok (.amoSwap 19 12 21 11)
    ∧ decodeAgent 0b1100111_010011_001100_010101_1011_100 = .ok (.amoMaxn 19 12 21 11)
    ∧ decodeAgent 0b1100111_010011_001100_010101_1011_101 = .ok (.amoCas 19 12 21 11) :=
  ⟨rfl, rfl, rfl, rfl, rfl, rfl, rfl, rfl, rfl, rfl, rfl, rfl, rfl, rfl, rfl, rfl, rfl, rfl, rfl, rfl, rfl, rfl, rfl, rfl, rfl⟩

theorem test_decode_agent_2 :
    decodeAgent 0b1100111_010011_001100_010101_1011_110 = .ok (.amoArv 19 12 21 11)
    ∧ decodeAgent 0b1100111_010011_001100_010101_1011_111 = .ok (.amoBreg 19 12 21 11)
    ∧ decodeAgent 0b1101111_000000000_1011001111001001 = .ok (.scall 46025)
    ∧ decodeAgent 0b1110000_0000000000000000000000000 = .ok (.eret)
    ∧ decodeAgent 0b1110001_010011_010110100011_0000000 = .ok (.csrr 19 1443)
    ∧ decodeAgent 0b1110010_001100_010110100011_0000000 = .ok (.csrw 12 1443)
    ∧ decodeAgent 0b1111000_010011_001100_0000000000000 = .ok (.treeCreate 19 12)
    ∧ decodeAgent 0b1111001_010011_001100_0000000000000 = .ok (.treeEdit 19 12)
    ∧ decodeAgent 0b1111011_010011_001100_0000000000000 = .ok (.treeFreeze 19 12)
    ∧ decodeAgent 0b1111100_010011_001100_0000000000000 = .ok (.treeThaw 19 12)
    ∧ decodeAgent 0b1111101_010011_001100_0000000000000 = .ok (.treeDestroy 19 12)
    ∧ decodeAgent 0b1111010_010011_001100_010101_0000000 = .ok (.treeAlt 19 12 21)
    ∧ decodeAgent 0b1001001_010011_001100_011_1011_101011 = .ok (.ldsAgent 19 12 3 11 43)
    ∧ decodeAgent 0b1001010_010011_001100_011_1011_101011 = .ok (.stsAgent 19 12 3 11 43)
    ∧ decodeAgent 0b0000100_101_1_101011010010110100111 = .ok (.br 5 1 1418663)
    ∧ decodeAgent 0b0000110_010011_1011010010110100111 = .ok (.call 19 370087)
    ∧ decodeAgent 0b0000111_001100_0000000000000000000 = .ok (.ret 12)
    ∧ decodeAgent 0b00000000000000000000000000000000 = .ok (.nop) :=
  ⟨rfl, rfl, rfl, rfl, rfl, rfl, rfl, rfl, rfl, rfl, rfl, rfl, rfl, rfl, rfl, rfl, rfl, rfl⟩

/-! Vector slots: control words packed from their fields by R123 and R124, most significant first. -/

/-- Fields with their widths, most significant first. -/
def packed (l : List (Nat × Nat)) : Nat := l.foldl (fun w e => w * 2 ^ e.2 + e.1) 0

def opdBits (o : Opd) : Nat := packed [(o.kind, 2), (o.reg, 6), (o.off, 7), (o.step, 4), (o.fill, 8), (0, 1)]

def wordBits (opc : Nat) (v : VOp) : Nat :=
  packed [(opc, 10), (v.td, 4), (v.ta, 4), (v.tb, 4), (v.wid, 2), (v.lgb, 2), (v.rm, 3), (v.sat, 1), (v.zm, 1), (v.pg, 3), (v.pn, 1),
    (v.msk, 3), (v.sf, 4), (opdBits v.od, 28), (opdBits v.oa, 28), (opdBits v.ob, 28), (opdBits v.oc, 28), (0, 38), (v.aux, 64)]

def hOd : Opd := { kind := 1, reg := 13, off := 101, step := 9, fill := 0 }
def hOa : Opd := { kind := 1, reg := 6, off := 37, step := 3, fill := 128 }
def hOb : Opd := { kind := 1, reg := 11, off := 127, step := 14, fill := 85 }
def sOb : Opd := { kind := 3, reg := 0x27, off := 0, step := 0, fill := 0 }
def mOd : Opd := { kind := 2, reg := 5, off := 0, step := 0, fill := 0 }

/-- An operation of three element types with guard !p5 and a mask. -/
def vop (td ta tb : Nat) (od oa ob oc : Opd) (aux : Nat) : VOp :=
  { td := td, ta := ta, tb := tb, wid := 2, lgb := 0, rm := 0, sat := 0, zm := 0, pg := 5, pn := 1, msk := 6, sf := 0, od := od,
    oa := oa, ob := ob, oc := oc, aux := aux, bias := 77 }

def none' : Opd := Opd.none
def two (t : Nat) : VOp := vop t t t hOd hOa sOb none' 0
def one (t : Nat) : VOp := vop t t 0 hOd hOa none' none' 0
def spec (n : Nat) : VOp := { one 2 with rm := 5, sat := 1, zm := 1, wid := 1, lgb := 2, sf := n }
def scratchAux : Nat := packed [(0x27, 6), (0x5A5, 11), (0, 5), (0, 21), (0x12345, 21)]

def reads (i : Instr) (opc : Nat) (v : VOp) : Bool :=
  match decodeControl (wordBits opc v) v.bias with
  | .ok j => j == i
  | .error _ => false

def refuses (opc : Nat) (v : VOp) : Bool :=
  match decodeControl (wordBits opc v) v.bias with
  | .ok _ => false
  | .error _ => true

theorem test_decode_vector_arithmetic :
    ([(Instr.vadd, 0x001), (.vsub, 0x002), (.vmul, 0x003), (.vmin, 0x007), (.vmax, 0x008), (.vmulh, 0x00B), (.vand, 0x010), (.vor, 0x011),
      (.vxor, 0x012), (.vandn, 0x013), (.vshl, 0x015), (.vshr, 0x016), (.vsha, 0x017)].all (fun e => reads (e.1 (two 10)) e.2 (two 10))
    && [(Instr.vabs, 0x009), (.vneg, 0x00A), (.vnot, 0x014), (.vclz, 0x018), (.vpopc, 0x019)].all
      (fun e => reads (e.1 (one 15)) e.2 (one 15))
    && [(Instr.vfma, 0x004), (.vfms, 0x005), (.vfnma, 0x006)].all
      (fun e => reads (e.1 (vop 0 1 1 hOd hOa hOb hOb 0)) e.2 (vop 0 1 1 hOd hOa hOb hOb 0))
    && reads (.vcmp (vop 0 0 0 mOd hOa hOb none' 6)) 0x01A (vop 0 0 0 mOd hOa hOb none' 6)
    && reads (.vsel (vop 0 0 0 hOd hOa hOb mOd 0)) 0x01B (vop 0 0 0 hOd hOa hOb mOd 0)) = true := by decide

theorem test_decode_vector_conversions_and_reductions :
    (reads (.vcvt (vop 10 0 0 hOd hOa none' none' 0)) 0x020 (vop 10 0 0 hOd hOa none' none' 0)
    && reads (.vqmx (vop 6 0 0 hOd hOa none' none' 0)) 0x021 (vop 6 0 0 hOd hOa none' none' 0)
    && reads (.vdqmx (vop 0 6 0 hOd hOa none' none' 0)) 0x022 (vop 0 6 0 hOd hOa none' none' 0)
    && reads (.vscl (vop 0 0 0 hOd hOa none' none' 0xFE00)) 0x023 (vop 0 0 0 hOd hOa none' none' 0xFE00)
    && reads (.vrsum (vop 11 10 0 sOb hOa none' none' 0)) 0x028 (vop 11 10 0 sOb hOa none' none' 0)
    && reads (.vrmax (one 1)) 0x029 (one 1) && reads (.vrmin (one 1)) 0x02A (one 1)
    && reads (.vrarg (vop 14 1 0 sOb hOa none' none' 1)) 0x02B (vop 14 1 0 sOb hOa none' none' 1)
    && reads (.vscan (vop 9 9 0 hOd hOa none' none' 2)) 0x02C (vop 9 9 0 hOd hOa none' none' 2)
    && reads (.vtopk (vop 1 1 0 hOd hOa none' none' 16)) 0x02D (vop 1 1 0 hOd hOa none' none' 16)
    && reads (.vxpnd (one 1)) 0x030 (one 1)
    && reads (.vcount (vop 13 1 0 sOb hOa none' none' 0)) 0x031 (vop 13 1 0 sOb hOa none' none' 0)
    && reads (.viota (vop 12 0 0 hOd none' none' none' 0xFFFFFFFF)) 0x032 (vop 12 0 0 hOd none' none' none' 0xFFFFFFFF)
    && reads (.vbrd (vop 8 8 0 hOd hOa none' none' 127)) 0x033 (vop 8 8 0 hOd hOa none' none' 127)
    && reads (.vextr { vop 8 8 0 sOb hOa none' none' 127 with msk := 0 }) 0x034 { vop 8 8 0 sOb hOa none' none' 127 with msk := 0 }
    && [(Instr.vexp2, 0), (.vlog2, 1), (.vrcp, 2), (.vrsq, 3), (.vsqrt, 4), (.vtanh, 5), (.vsig, 6), (.vsin, 7), (.vcos, 8)].all
      (fun e => reads (e.1 (spec e.2)) 0x040 (spec e.2))) = true := by decide

theorem test_decode_vector_memory :
    (reads (.vld (vop 0 0 0 hOd none' none' none' scratchAux)) 0x050 (vop 0 0 0 hOd none' none' none' scratchAux)
    && reads (.vst (vop 0 1 0 none' hOa none' none' scratchAux)) 0x051 (vop 0 1 0 none' hOa none' none' scratchAux)
    && reads (.vlds (vop 1 0 0 hOd none' none' none' (scratchAux + 7 * 2 ^ 21))) 0x052 (vop 1 0 0 hOd none' none' none' (scratchAux + 7 * 2 ^ 21))
    && reads (.vsts (vop 0 1 0 none' hOa none' none' scratchAux)) 0x053 (vop 0 1 0 none' hOa none' none' scratchAux)
    && reads (.vgath (vop 0 0 13 hOd none' hOb none' scratchAux)) 0x054 (vop 0 0 13 hOd none' hOb none' scratchAux)
    && reads (.vscat (vop 0 2 10 none' hOa hOb none' scratchAux)) 0x055 (vop 0 2 10 none' hOa hOb none' scratchAux)
    && reads (.vldb (vop 15 0 0 hOd none' none' none' scratchAux)) 0x056 (vop 15 0 0 hOd none' none' none' scratchAux)
    && reads (.advr { vop 0 0 0 { hOd with off := 0, step := 0 } none' none' none' 0xFFFE with wid := 0, msk := 0 }) 0x057
      { vop 0 0 0 { hOd with off := 0, step := 0 } none' none' none' 0xFFFE with wid := 0, msk := 0 }) = true := by decide

/-- The control word of `VADD.I32.W256 h2.0:1, h0.0:1, h1.0:1` and of a VLD, as 05 and 11 write them out, and the vector NOP. -/
theorem test_decode_vector_words_of_the_spec :
    decodeControl (0x006AA80000108008 * 2 ^ 192 + 0x0100008010400800 * 2 ^ 128) 0
      = .ok (.vadd { td := 10, ta := 10, tb := 10, wid := 0, lgb := 0, rm := 0, sat := 0, zm := 0, pg := 0, pn := 0, msk := 0, sf := 0
                     od := { kind := 1, reg := 2, off := 0, step := 1, fill := 0 }, oa := { kind := 1, reg := 0, off := 0, step := 1, fill := 0 }
                     ob := { kind := 1, reg := 1, off := 0, step := 1, fill := 0 }, oc := none', aux := 0, bias := 0 })
    ∧ decodeControl (0x140002000010C008 * 2 ^ 192 + 0x1002000000000100) 0
      = .ok (.vld { td := 0, ta := 0, tb := 0, wid := 2, lgb := 0, rm := 0, sat := 0, zm := 0, pg := 0, pn := 0, msk := 0, sf := 0
                    od := { kind := 1, reg := 3, off := 0, step := 1, fill := 0 }, oa := none', ob := none', oc := none'
                    aux := 0x1002000000000100, bias := 0 })
    ∧ decodeV (fun _ => 0) 0x01FF = .ok .vNop ∧ decodeV (fun _ => 0) 0x03FF = .error .field := ⟨rfl, rfl, rfl, rfl⟩

/-- Control words that R125 to R129 and the tables of 09 and 11 forbid are no instruction. -/
theorem test_refuses_control_words :
    (refuses 0x000 (two 10) && refuses 0x058 (two 10) && refuses 0x001 { two 10 with wid := 3 } && refuses 0x001 { two 10 with lgb := 2 }
    && refuses 0x001 { two 10 with rm := 6 } && refuses 0x001 { two 10 with rm := 1 } && refuses 0x001 { two 10 with pg := 0 }
    && refuses 0x001 { two 10 with sf := 1 } && refuses 0x040 { spec 0 with sf := 9 } && refuses 0x001 { two 10 with aux := 1 }
    && refuses 0x001 { two 10 with oc := hOb } && refuses 0x001 { two 10 with od := mOd } && refuses 0x001 { two 10 with od := { hOd with fill := 1 } }
    && refuses 0x001 { two 10 with oa := { hOa with fill := 129 } } && refuses 0x001 { two 10 with oa := { hOa with reg := 16 } }
    && refuses 0x001 { two 10 with ob := { sOb with reg := 0x28 } } && refuses 0x001 { two 10 with ob := { sOb with off := 1 } }
    && refuses 0x001 { two 10 with tb := 9 } && refuses 0x001 (two 5) && refuses 0x010 (two 0)
    && refuses 0x01A (vop 10 10 10 mOd hOa hOb none' 6) && refuses 0x02D (vop 1 1 0 hOd hOa none' none' 17)
    && refuses 0x033 (vop 8 8 0 hOd hOa none' none' 128) && refuses 0x050 (vop 0 0 0 hOd none' none' none' (0x28 * 2 ^ 58))
    && refuses 0x054 (vop 0 0 8 hOd none' hOb none' scratchAux)) = true := by decide

/-! Syllables that the spec writes out beside their source lines (05, 07, 11, 15 to 18, 21, 23). -/

theorem test_decode_examples_control_scalar :
    decodeC 0x04182806 = .ok (.loop 3 5 6) ∧ decodeC 0x08A00006 = .ok (.br 2 1 6) ∧ decodeC 0x0A000028 = .ok (.join 40)
    ∧ decodeC 0x24280400 = .ok (.sysrd 5 8) ∧ decodeC 0x10000000 = .ok .halt ∧ decodeC 0x14000A20 = .ok (.fmt 0x0A20)
    ∧ decodeC 0x06E0880B = .ok (.loops 28 17 11) ∧ decodeS 0x40186200 = .ok (.add 3 3 4 0 0) ∧ decodeS 0x80180005 = .ok (.addi 3 0 5)
    ∧ decodeS 0x78108284 = .ok (.pcmp 2 4 5 0 0 4) ∧ decodeS 0x92289804 = .ok (.lds 5 4 6 4)
    ∧ decodeS 0x8E380000 = .ok (.limm 7 0) ∧ decodeS 0x903C8D15 = .ok (.limmh 7 0x48D15)
    ∧ decodeS 0xAC0BA004 = .ok (.fcmp 1 29 0 0 0 4) ∧ decodeS 0x76CB0C98 = .ok (.sel 25 24 25 1 1) :=
  ⟨rfl, rfl, rfl, rfl, rfl, rfl, rfl, rfl, rfl, rfl, rfl, rfl, rfl, rfl, rfl⟩

theorem test_decode_examples_crossbar_matrix :
    decodeX 0x8A40 = .ok (.xtrn 5 2 0) ∧ decodeX 0x4A43 = .ok (.xrot 5 2 3) ∧ decodeX 0x6209 = .ok (.xshuf 1 0 1 1)
    ∧ decodeX 0xC023 = .ok (.xpat 1 3) ∧ decodeX 0x2CE3 = .ok (.xperm 6 7 3)
    ∧ decodeM 0x2C010000 = .ok (.aballoc 0 8) ∧ decodeM 0x0C140000 = .ok (.mcfg 0 5) ∧ decodeM 0x04000400 = .ok .mnestClr
    ∧ decodeM 0x040E0000 = .ok (.mnest 0 7 0) ∧ decodeM 0x14008000 = .ok (.mmul 0 2 0 0) ∧ decodeM 0x08000000 = .ok .mgo
    ∧ decodeM 0x25044038 = .ok (.mstacc 16 17 0 14) ∧ decodeM 0x21044038 = .ok (.mldacc 16 17 0 14)
    ∧ decodeM 0x1CD00000 = .ok (.mchk 13 0 0) ∧ decodeM 0x1800800E = .ok (.mmulg 0 2 0 0 7) :=
  ⟨rfl, rfl, rfl, rfl, rfl, rfl, rfl, rfl, rfl, rfl, rfl, rfl, rfl, rfl, rfl⟩

theorem test_decode_examples_data_agent :
    decodeD 0x020C51100031A000 = .ok (.xferr 3 5 4 1 0 3 6 1) ∧ decodeD 0x0D00010800010000 = .ok (.shist 0 0 1 2 0 1)
    ∧ decodeD 0x0E00400000000000 = .ok (.ctrsnap 0 4) ∧ decodeD 0x0800E00000000000 = .ok (.chsend 0 14 0 0)
    ∧ decodeD 0x1001020F02C00000 = .ok (.atomArv 0 16 8 15) ∧ decodeD 0x1808040840000000 = .ok (.tarm 2 0x102 4 0)
    ∧ decodeD 0x1908040841800000 = .ok (.tpost 2 0x102 4 6 0) ∧ decodeD 0x1A08040841800000 = .ok (.trecv 2 0x102 4 6 0)
    ∧ decodeAgent 0xF028C000 = .ok (.treeCreate 5 6) ∧ decodeAgent 0xF428C380 = .ok (.treeAlt 5 6 7)
    ∧ decodeAgent 0xDE000007 = .ok (.scall 7) ∧ decodeAgent 0xE0000000 = .ok .eret ∧ decodeAgent 0xC028C380 = .ok (.waita 5 6 7 0 0)
    ∧ decodeAgent 0xD228C000 = .ok (.taskq 5 6 0 0) ∧ decodeAgent 0xE2280980 = .ok (.csrr 5 0x013)
    ∧ decodeAgent 0xC828801F = .ok (.lda 5 4 3 3 1) ∧ decodeAgent 0xCC000302 = .ok (.fence 6 1) :=
  ⟨rfl, rfl, rfl, rfl, rfl, rfl, rfl, rfl, rfl, rfl, rfl, rfl, rfl, rfl, rfl, rfl, rfl⟩

/-- A reserved opcode is refused by name; so is an opcode in a slot that does not accept it, an agent-only opcode on a tile, a
reserved bit that is 1 and a reserved field value (R107, R108, R116). -/
theorem test_refuses_words :
    decodeC 0x2A000000 = .error .opcode ∧ decodeS 0x7C000000 = .error .opcode ∧ decodeX 0xE000 = .error .opcode
    ∧ decodeM 0x44000000 = .error .opcode ∧ decodeD 0x0500000000000000 = .error .opcode ∧ decodeAgent 0xFC000000 = .error .opcode
    ∧ decodeC 0x40186200 = .error .opcode ∧ decodeS 0x10000000 = .error .opcode ∧ decodeS 0xE0000000 = .error .opcode
    ∧ decodeAgent 0x10000000 = .error .opcode ∧ decodeC 0x10000001 = .error .field ∧ decodeX 0x0001 = .error .field
    ∧ decodeM 0x08000001 = .error .field ∧ decodeD 0x0000000000000001 = .error .field ∧ decodeAgent 0x40386200 = .ok (.add 7 3 4 0 0)
    ∧ decodeS 0x40186208 = .error .field ∧ decodeS 0x40186201 = .error .field ∧ decode [1, 2, 3] = .error .short :=
  ⟨rfl, rfl, rfl, rfl, rfl, rfl, rfl, rfl, rfl, rfl, rfl, rfl, rfl, rfl, rfl, rfl, rfl, rfl⟩

/-! ### Ill-formed terms, one for each check of `WellFormed` -/

/-- Widths, scalar codes, guards and the limits of single fields. -/
theorem test_ill_formed_is_refused :
    [Instr.add 3 3 4 8 0, .addi 3 3 8192, .join (2 ^ 20), .add 0x28 3 4 0 0, .add 3 0x3F 4 0 0, .add 3 3 4 0 1, .loop 3 0 6, .loop 3 5 0,
      .loops 3 0 6, .loops 3 5 0, .br 0 1 6, .call 32 0, .ret 32, .fmt 0x5000, .fmt 0x0500, .fmt 6, .fmt 7, .sysrd 5 0x012, .syswr 5 0x000,
      .ringc 0 127 1 0, .pcmp 2 4 5 0 0 6, .plog 1 2 3 4 0 1, .lds 5 4 7 0, .sts 5 4 4 0, .fadd 1 2 3 0 0 6, .fcmp 1 2 3 0 0 7,
      .fcvt 1 2 0 0 6, .xshuf 0 0 0 6, .xtrn 0 0 3, .mnest 6 1 2, .aballoc 0 0, .aballoc 0 513, .xfer 0 1 2 3 0 0, .xferr 0 1 2 0 3 0 1 0,
      .rld 0 1 2 0 0 0, .rld 0 1 2 3 0 0, .rld 0 1 2 1 7 0, .rst 0 1 2 1 4 0, .chbind 0 1 64 127, .chbind 0 1 127 126, .snap 0 1 0,
      .genq 0 1 0].all (fun i => !i.wf) = true := by decide

/-- The same on agent cores, whose scalar codes end at 0x1F (R109), and which take no other slot's instruction (R116). -/
theorem test_ill_formed_for_agents :
    [Instr.add 0x20 3 4 0 0, .ldsAgent 5 4 7 0 0, .stsAgent 5 4 4 0 0, .waita 1 2 3 0 1, .copy 1 2 3 0 1, .tkill 1 2 0 1, .intr 1 0 1,
      .imgchk 1 2 3 0 1, .lda 32 0 0 0 0, .fence 65536 0, .scall 65536, .halt, .lds 5 4 3 0, .mgo].all (fun i => !i.wfAgent) = true := by
  decide

/-- Vector operations: kinds, widths, lane groups, types, modes, selectors, AUX, and each form's own table (R123 to R129). -/
theorem test_ill_formed_vectors :
    [Instr.vadd { two 10 with td := 16 }, .vadd { two 10 with oa := { hOa with kind := 4 } }, .vadd { two 10 with bias := 128 },
      .vadd { two 10 with wid := 1, lgb := 1 }, .vadd (two 6), .vfma (vop 1 0 0 hOd hOa hOb hOb 0),
      .vshl (vop 10 10 10 hOd hOa none' none' 32), .vsel (vop 0 0 0 hOd hOa hOb none' 0), .vcvt (vop 5 0 0 hOd hOa none' none' 0),
      .vqmx (vop 5 1 0 hOd hOa none' none' 1), .vdqmx (vop 0 1 0 hOd hOa none' none' 0), .vscl (vop 5 5 0 hOd hOa none' none' 0),
      .vrsum (vop 9 10 0 hOd hOa none' none' 0), .vrmax (vop 1 0 0 hOd hOa none' none' 0), .vrarg (vop 13 1 0 hOd hOa none' none' 0),
      .vscan (vop 9 9 0 hOd hOa none' none' 3), .vxpnd (vop 1 0 0 hOd hOa none' none' 0), .vcount (vop 12 1 0 hOd hOa none' none' 0),
      .viota (vop 0 0 0 hOd none' none' none' 0), .vextr (vop 8 8 0 sOb hOa none' none' 0), .vexp2 (spec 1),
      .vlds (vop 5 0 0 hOd none' none' none' scratchAux), .vsts (vop 0 5 0 none' hOa none' none' scratchAux),
      .vscat (vop 0 2 12 none' hOa hOb none' scratchAux), .vldb (vop 5 0 0 hOd none' none' none' scratchAux),
      .vst (vop 1 1 0 none' hOa none' none' scratchAux), 
      .vsts { vop 0 1 0 none' hOa none' none' scratchAux with zm := 1 }, .advr (vop 0 0 0 hOd none' none' none' 0)].all (fun i => !i.wf) = true := by
  decide

/-! ### Small states -/

/-- A tile at its start, and a gang of one tile on package 0. -/
def tile0 : Tile := { Tile.start 0 16384 65536 with codeLen := 2 }

def gangOf (x : Tile) : Gang :=
  { p := 1, t := 1, pkgs := [0], placeIdx := 0, lcyc := 0, tiles := [(x.gid, x)], dues := [], staged := [], run := .running, holds := []
    hclass := none, heldSince := 0, resumeAt := none, drain := none, stopAt := none, bank := 0, phase := none, slots := [], quota := []
    design := [], mask := 0, smask := 0, places := [0], table := [], tableBad := false, gnum := [], snaps := [], genqs := [], dctl := 0
    dctlNext := none, launches := [], h := 64, anyFault := false, doom := none }

def desc0 : TaskDesc :=
  { image := 0, prio := 0, policy := 0, flags := 0, place := 0xFF, keysel := 0, estm := 0, fmap := 0, deps := [] }

def task0 : Task :=
  { id := 1, fn := 0xFF, desc := desc0, st := .running, deps := [], order := 0, core := 0, home := 0, op := 1, parent := none, waited := 0
    gang := none, image := none, frames := [], extended := false, redecide := none, park := false, fimg := false, restarted := false
    killAt := none, snap := none, dueBy := none }

/-- The machine with one task, whose gang is g, at somebody's turn. -/
def withGang (g : Gang) (who : Actor) : State := { State.reset with tasks := [(1, { task0 with gang := some g })], cur := who }

def withTask (x : Task) (who : Actor) : State := { State.reset with tasks := [(1, x)], cur := who }

/-- A slot of tile 0 at its turn; an event of tile 0; core 0 at its turn; an event of the outside world. -/
def atSlot (slot : Nat) (x : Tile) : State := withGang (gangOf x) (.tile 1 0 slot 0 0)
def atEvent (g : Gang) : State := withGang g (.event 1 0)
def atCore (y : AgentCore) : State := { State.reset with cores := [(0, y)], cur := .agent 0 }
def atOutside (as : List Nat) : State := { State.reset with cur := .outside as }

theorem atSlot_at (slot : Nat) (x : Tile) (h : x.gid = 0) : AtTile (atSlot slot x) 1 0 slot 0 0 (gangOf x) x := by
  refine ⟨rfl, rfl, ?_⟩
  simp [gangOf, Gang.tile, find?, h]

theorem atCore_at (y : AgentCore) : AtCore (atCore y) 0 ∧ (atCore y).core 0 = y := ⟨rfl, rfl⟩

/-- A register file of a tile, and of a core. -/
def regs (l : List (Nat × Nat)) : Tbl Scalar := l.map (fun e => (e.1, { val := BitVec.ofNat 64 e.2, poison := false }))
def words (l : List (Nat × Nat)) : Tbl Word := l.map (fun e => (e.1, BitVec.ofNat 64 e.2))

def core1 : AgentCore := { AgentCore.reset with s := words [(1, 0x1000), (2, 7), (4, 3)] }

/-- A bundle with a slot C at cycle 0. -/
def bundle0 : Active :=
  { t0 := 0, addr := 0, next := 4, rep := 0, i := 0, present := 1, k := 0, q := true, quiet := true, halt := false, branch := none
    loop := none, skipLoop := none, resync := none, sync := none, issued := 0 }

/-- A translation entry of a readable, writable page at address 0 in frame 1 of stack 0, with its parity (R237). -/
def page0 : Nat := let e := 2 ^ 67 + 7 * 2 ^ 64 + 2 ^ 54; e + xlPar e * 2 ^ 120

def paged : Tile := { tile0 with prim := [(0, page0)], shadow := [(0, page0)] }

/-! ### Witnesses: states and operands that meet the hypotheses of the statements, clause by clause -/

/-- A state with a store of core 0 on its turn, whose memories are canonical and not empty, and the state after its step. -/
def storing : State :=
  { State.reset with agenda := [.agentFetch 0], dev := [(5, 9)], sys := [(0, 1), (7, 255)]
                     cores := [(0, { core1 with sram := writeBytes [] 0 (leBytes 4 0x94108C00) })] }

theorem witness_StepKeepsMemoryCanonical : storing.memWf ∧ ∃ t, step storing = .next t := ⟨⟨rfl, rfl⟩, _, rfl⟩

theorem witness_StepRunsDecoded :
    (∃ i, ({ State.reset with agenda := [], cur := .agent 0 } : State).fetchAgent 0 = .ok i)
    ∧ (∃ e, ({ State.reset with agenda := [], cur := .agent 0, cores := [(0, { core1 with pc := 2 })] } : State).fetchAgent 0 = .error e)
    ∧ (∃ i, ({ atSlot 1 tile0 with agenda := [] } : State).issued 1 0 1 0x40186200 = .ok i)
    ∧ (∃ e, ({ atSlot 1 tile0 with agenda := [] } : State).issued 1 0 1 0x40186201 = .error e)
    ∧ ({ State.reset with agenda := [] } : State).agenda = [] := ⟨⟨_, rfl⟩, ⟨_, rfl⟩, ⟨_, rfl⟩, ⟨_, rfl⟩, rfl⟩

theorem witness_AgentWordsRoundTrip :
    [Instr.add 31 0 31 7 1, .call 31 0x7FFFF, .ldsAgent 31 31 6 15 63, .scall 65535, .eret, .treeAlt 31 31 31].all Instr.wfAgent = true := by
  decide

theorem witness_SyllablesRoundTrip :
    ([(Instr.loop 63 255 2047, Stream.c), (.add 0x27 0x27 0x27 7 1, .s), (.xperm 15 15 7, .x), (.mzero 7 511 511, .m),
      (.xfer 63 0x27 0x27 2 2 16383, .d)].all (fun e => e.1.wf && e.1.standsIn e.2)) = true := by decide

theorem witness_ControlWordsRoundTrip :
    (Instr.vadd (two 10)).wf = true ∧ vectorRow (.vadd (two 10)) = some (1, 0, two 10, true) := ⟨rfl, rfl⟩

theorem witness_DecodedWordsAreCanonical :
    (∃ i, decodeAgent 0xDE000007 = .ok i) ∧ (∃ i, decodeC 0x04182806 = .ok i) ∧ (∃ i, decodeS 0x40186200 = .ok i)
    ∧ (∃ i, decodeX 0x8A40 = .ok i) ∧ (∃ i, decodeM 0x08000000 = .ok i) ∧ (∃ i, decodeD 0x0E00400000000000 = .ok i)
    ∧ (∃ i, decodeControl (0x140002000010C008 * 2 ^ 192 + 0x1002000000000100) 0 = .ok i) :=
  ⟨⟨_, rfl⟩, ⟨_, rfl⟩, ⟨_, rfl⟩, ⟨_, rfl⟩, ⟨_, rfl⟩, ⟨_, rfl⟩, ⟨_, rfl⟩⟩

/-- BinaryOnCore, UnaryAndImmediate, SelectCompareLogic, ScalarFloat and ControlOnCore on a core: its turn, a guard that is true and
one that is false. -/
theorem witness_OnCore : AtCore (atCore core1) 0 ∧ ((atCore core1).core 0).guard 0 0 = true ∧ ((atCore core1).core 0).guard 1 1 = true
    ∧ ((atCore core1).core 0).guard 7 0 = false := ⟨rfl, rfl, rfl, rfl⟩

/-- BinaryOnTile, UnaryAndImmediate, SelectCompareLogic and ScalarFloat on a tile: an S slot, the same guards, and sources with
poison and without. -/
theorem witness_OnTile : AtTile (atSlot 1 tile0) 1 0 1 0 0 (gangOf tile0) tile0 ∧ tile0.guard 0 0 = true ∧ tile0.guard 7 1 = true
    ∧ tile0.guard 7 0 = false ∧ (tile0.readCodes 0 1 0 [1, 2]).poison = false
    ∧ (({ tile0 with s := [(2, { val := 5, poison := true })] } : Tile).readCodes 0 1 0 [1, 2]).poison = true :=
  ⟨atSlot_at 1 tile0 rfl, rfl, rfl, rfl, rfl, rfl⟩

/-- ScratchOnTile: an address at the top of the offset range, and below 0 before it wraps. -/
theorem witness_ScratchOnTile : AtTile (atSlot 1 tile0) 1 0 1 0 0 (gangOf tile0) tile0 ∧ accessSize 3 = 8
    ∧ (∃ at_, at_ = tile0.map (alignDown ((nthD 0 (tile0.readCodes 0 1 0 [1]).vals 0 + BitVec.ofInt 64 (sextInt 10 511 * 8)).toNat % 2 ^ 21) 8))
    ∧ (∃ at_, at_ = tile0.map (alignDown ((nthD 0 (tile0.readCodes 0 1 0 [1]).vals 0 + BitVec.ofInt 64 (sextInt 10 512 * 8)).toNat % 2 ^ 21) 8)) :=
  ⟨atSlot_at 1 tile0 rfl, rfl, ⟨_, rfl⟩, ⟨_, rfl⟩⟩

/-- A tile that issues a bundle. -/
def issuing (x : Tile) (a : Active) : Tile := { x with active := some a }

theorem issuing_at (x : Tile) (a : Active) (h : x.gid = 0) :
    AtBundle (atSlot 0 (issuing x a)) 1 0 0 0 (gangOf (issuing x a)) (issuing x a) a := ⟨atSlot_at 0 (issuing x a) h, rfl⟩

/-- `Taken` as a computation. -/
def takenHere (x : Tile) (addr : Nat) (target : Int) (loop : Bool) : Bool :=
  target % 4 == 0 && decide (0 ≤ target) && decide (target < (4 * x.codeLen : Nat))
    && (!loop || (x.loops.take 1).all (fun l => decide ((l.start : Int) ≤ target) && decide (target ≤ (l.stop : Int))))
    && x.loops.all (fun l => l.stop != addr)

theorem taken_iff (x : Tile) (addr : Nat) (target : Int) (loop : Bool) :
    Taken x addr target loop ↔ takenHere x addr target loop = true := by
  unfold Taken takenHere
  cases h : x.loops <;> cases loop <;> simp [and_assoc]

/-- BranchesOnTile: a target at the last word of the store, one past its end, one before its start and a register with a value that is no
multiple of 4, for each instruction; a BR target at and outside the body of a loop; a bundle that ends a loop; poison. -/
theorem witness_BranchesOnTile :
    let x := issuing { tile0 with s := regs [(5, 4), (6, 6)] } bundle0
    let l : LoopEntry := { count := 2, idx := 0, start := 4, stop := 4, lb := 4, ib := 0 }
    let y := issuing { tile0 with loops := [l], s := [(5, { val := 4, poison := true })] } bundle0
    AtBundle (atSlot 0 x) 1 0 0 0 (gangOf x) x bundle0 ∧ x.guard 7 0 = false ∧ x.guard 0 0 = true
    ∧ Taken x 0 (0 + 4 * sextInt 21 1) true ∧ ¬Taken x 0 (0 + 4 * sextInt 21 2) true
    ∧ Taken x 0 (0 + 4 * sextInt 19 1) false ∧ ¬Taken x 0 (0 + 4 * sextInt 19 0x7FFFF) false
    ∧ (x.readCodes 0 0 0 [5]).poison = false ∧ (x.readCodes 0 0 0 [6]).poison = false
    ∧ Taken (x.readCodes 0 0 0 [5]).x 0 ((nthD 0 (x.readCodes 0 0 0 [5]).vals 0).toNat : Int) false
    ∧ ¬Taken (x.readCodes 0 0 0 [6]).x 0 ((nthD 0 (x.readCodes 0 0 0 [6]).vals 0).toNat : Int) false
    ∧ AtBundle (atSlot 0 y) 1 0 0 0 (gangOf y) y bundle0 ∧ Taken y 0 (0 + 4 * sextInt 21 1) true ∧ ¬Taken y 0 (0 + 4 * sextInt 21 0) true
    ∧ ¬Taken y 4 (4 + 4 * sextInt 21 0) true ∧ (y.readCodes 0 0 0 [5]).poison = true
    ∧ Taken (y.readCodes 0 0 0 [5]).x 0 ((nthD 0 (y.readCodes 0 0 0 [5]).vals 0).toNat : Int) false := by
  simp only [taken_iff]
  exact ⟨issuing_at _ _ rfl, rfl, rfl, by decide, by decide, by decide, by decide, rfl, rfl, by decide, by decide, issuing_at _ _ rfl,
    by decide, by decide, by decide, rfl, by decide⟩

/-- LoopsOnTile: with five loops open and with six; counts 0, 1, 2^32 - 1 and 2^32 in registers. -/
theorem witness_LoopsOnTile :
    let l : LoopEntry := { count := 2, idx := 0, start := 0, stop := 8, lb := 4, ib := 0 }
    let x := issuing { tile0 with loops := [l, l, l, l, l], s := regs [(5, 1), (6, 2 ^ 32 - 1), (7, 2 ^ 32)] } bundle0
    let y := issuing { tile0 with loops := [l, l, l, l, l, l], s := regs [(6, 2 ^ 32 - 1), (7, 2 ^ 32)] } bundle0
    AtBundle (atSlot 0 x) 1 0 0 0 (gangOf x) x bundle0 ∧ x.loops.length < 6
    ∧ (nthD 0 (x.readCodes 0 0 0 [5]).vals 0).toNat = 1 ∧ (nthD 0 (x.readCodes 0 0 0 [6]).vals 0).toNat + 1 = 2 ^ 32
    ∧ (nthD 0 (x.readCodes 0 0 0 [7]).vals 0).toNat = 2 ^ 32 ∧ (nthD 0 (x.readCodes 0 0 0 [0]).vals 0).toNat = 0
    ∧ AtBundle (atSlot 0 y) 1 0 0 0 (gangOf y) y bundle0 ∧ 6 ≤ y.loops.length
    ∧ (nthD 0 (y.readCodes 0 0 0 [6]).vals 0).toNat + 1 = 2 ^ 32 ∧ (nthD 0 (y.readCodes 0 0 0 [7]).vals 0).toNat = 2 ^ 32 :=
  ⟨issuing_at _ _ rfl, by decide, by decide, by decide, by decide, by decide, issuing_at _ _ rfl, by decide, by decide, by decide⟩

/-- SequencerControl: a SYNC with K at level 4, and at level 5 on a gang that is the whole domain and on one that is not; K clear; JOIN in
time and not; RESYNC in a loop and outside; PHASE with no switch pending and with one. -/
theorem witness_SequencerControl :
    let a1 : Active := { bundle0 with k := 1, t0 := 7 }
    let x := issuing { tile0 with dmr := 4 } a1
    let z := issuing { tile0 with dmr := 5 } a1
    let w : Gang := { gangOf z with t := 32 }
    let l : LoopEntry := { count := 2, idx := 0, start := 0, stop := 8, lb := 4, ib := 0 }
    let y := issuing tile0 bundle0
    let v := issuing { tile0 with loops := [l] } bundle0
    let p : Gang := { gangOf y with phase := some (1, 256) }
    AtBundle (atSlot 0 x) 1 0 0 0 (gangOf x) x a1 ∧ a1.k = 1 ∧ x.dmr ≠ 5 ∧ (a1.t0 : Int) - x.jbase = 7 ∧ (a1.t0 : Int) - x.jbase ≠ 8
    ∧ AtBundle (withGang w (.tile 1 0 0 0 0)) 1 0 0 0 w z a1 ∧ z.dmr = 5 ∧ (w.p = State.reset.cfg.packages ∧ w.t = 32)
    ∧ AtBundle (atSlot 0 z) 1 0 0 0 (gangOf z) z a1 ∧ ¬((gangOf z).p = State.reset.cfg.packages ∧ (gangOf z).t = 32)
    ∧ AtBundle (atSlot 0 y) 1 0 0 0 (gangOf y) y bundle0 ∧ bundle0.k = 0 ∧ y.loops = [] ∧ (gangOf y).phase = none
    ∧ AtBundle (atSlot 0 v) 1 0 0 0 (gangOf v) v bundle0 ∧ v.loops ≠ []
    ∧ AtBundle (withGang p (.tile 1 0 0 0 0)) 1 0 0 0 p y bundle0 ∧ p.phase.isSome = true :=
  ⟨issuing_at _ _ rfl, rfl, by decide, rfl, by decide, ⟨⟨rfl, rfl, rfl⟩, rfl⟩, rfl, ⟨rfl, rfl⟩, issuing_at _ _ rfl, by decide,
    issuing_at _ _ rfl, rfl, rfl, rfl, issuing_at _ _ rfl, by decide, ⟨⟨rfl, rfl, rfl⟩, rfl⟩, rfl⟩

/-- PHASE and SNAP elsewhere than on gang identity 0. -/
theorem witness_OnAnotherTile :
    let x := issuing { tile0 with gid := 3 } bundle0
    AtBundle (withGang (gangOf x) (.tile 1 3 0 0 0)) 1 3 0 0 (gangOf x) x bundle0 := ⟨⟨rfl, rfl, rfl⟩, rfl⟩

theorem witness_FormatSegmentRing :
    let e : SegSig := { count := 0, crc := tile0.segCrc ^^^ 0xFFFFFFFF, nocrc := false }
    let x := issuing { tile0 with segs := [e, { e with count := 1 }, { e with crc := 5 }, { e with crc := 5, nocrc := true }] } bundle0
    let g : Gang := { gangOf x with dctl := 8 }
    let h : Gang := { gangOf x with dctl := 10 }
    AtBundle (atSlot 0 x) 1 0 0 0 (gangOf x) x bundle0 ∧ x.segs[0]? = some e ∧ (0 - x.segBase) % 2 ^ 32 = e.count
    ∧ e.crc = x.segCrc ^^^ 0xFFFFFFFF ∧ x.segs[1]? = some { e with count := 1 } ∧ (0 - x.segBase) % 2 ^ 32 ≠ 1
    ∧ x.segs[2]? = some { e with crc := 5 } ∧ e.nocrc = false ∧ (5 : Nat) ≠ x.segCrc ^^^ 0xFFFFFFFF
    ∧ x.segs[3]? = some { e with crc := 5, nocrc := true } ∧ x.segs[4]? = none
    ∧ bitAt (gangOf x).dctl 3 = false ∧ AtBundle (withGang g (.tile 1 0 0 0 0)) 1 0 0 0 g x bundle0 ∧ bitAt g.dctl 3 = true ∧ g.dctl % 8 = 0
    ∧ AtBundle (withGang h (.tile 1 0 0 0 0)) 1 0 0 0 h x bundle0 ∧ bitAt h.dctl 3 = true ∧ h.dctl % 8 = 2 :=
  ⟨issuing_at _ _ rfl, rfl, rfl, rfl, rfl, by decide, rfl, rfl, by decide, rfl, rfl, rfl, ⟨⟨rfl, rfl, rfl⟩, rfl⟩, rfl, rfl,
    ⟨⟨rfl, rfl, rfl⟩, rfl⟩, rfl, rfl⟩

def region0 : Region :=
  { v := true, failed := false, logged := false, pseen := false, point := 0, ldep := 0, mg := 1, haddr := 4, saved := [] }

/-- ContainmentRegions: at depths 3, 4, 2 (clean), 1 (a poisoned word read), 1 (failed) and 0; in a bundle without Q. -/
theorem witness_ContainmentRegions :
    let a : Active := { bundle0 with q := false }
    bundle0.q = true ∧ a.q = false ∧ AtBundle (atSlot 0 (issuing tile0 a)) 1 0 0 0 (gangOf (issuing tile0 a)) (issuing tile0 a) a
    ∧ (let x := issuing { tile0 with depth := 3 } bundle0; AtBundle (atSlot 0 x) 1 0 0 0 (gangOf x) x bundle0 ∧ x.depth < 4)
    ∧ (let x := issuing { tile0 with depth := 4 } bundle0; AtBundle (atSlot 0 x) 1 0 0 0 (gangOf x) x bundle0 ∧ 4 ≤ x.depth)
    ∧ (let x := issuing { tile0 with depth := 2, regions := [(0, region0), (1, region0)] } bundle0
       AtBundle (atSlot 0 x) 1 0 0 0 (gangOf x) x bundle0 ∧ x.depth = 1 + 1 ∧ (x.region 1).pseen = false ∧ (x.region 1).failed = false)
    ∧ (let x := issuing { tile0 with depth := 1, regions := [(0, { region0 with pseen := true })] } bundle0
       AtBundle (atSlot 0 x) 1 0 0 0 (gangOf x) x bundle0 ∧ x.depth = 0 + 1 ∧ (x.region 0).pseen = true ∧ (x.region 0).failed = false)
    ∧ (let x := issuing { tile0 with depth := 1, regions := [(0, { region0 with failed := true })] } bundle0
       AtBundle (atSlot 0 x) 1 0 0 0 (gangOf x) x bundle0 ∧ x.depth = 0 + 1 ∧ (x.region 0).failed = true)
    ∧ (issuing tile0 bundle0).depth = 0 :=
  ⟨rfl, rfl, issuing_at _ _ rfl, ⟨issuing_at _ _ rfl, by decide⟩, ⟨issuing_at _ _ rfl, by decide⟩, ⟨issuing_at _ _ rfl, rfl, rfl, rfl⟩,
    ⟨issuing_at _ _ rfl, rfl, rfl, rfl⟩, ⟨issuing_at _ _ rfl, rfl, rfl⟩, rfl⟩

/-- SystemRegistersOnTile: LCYC, DMR and DRNRPT, and WCYC and QBOUND, which are of device privilege; a legal DMR and one that is not. -/
theorem witness_SystemRegistersOnTile :
    let x := issuing { tile0 with s := regs [(5, 4), (6, 6)] } bundle0
    AtBundle (atSlot 0 x) 1 0 0 0 (gangOf x) x bundle0 ∧ sregPrivileged 0 = false ∧ sregPrivileged 3 = false ∧ sregPrivileged 1 = true
    ∧ sregPrivileged 0x00B = false ∧ sregPrivileged 0x00C = true ∧ sregPrivileged 0x011 = true ∧ sregPrivileged 0x012 = false
    ∧ sregValueOk 3 (nthD 0 (x.readCodes 0 0 0 [5]).vals 0) = true ∧ sregValueOk 3 (nthD 0 (x.readCodes 0 0 0 [6]).vals 0) = false :=
  ⟨issuing_at _ _ rfl, rfl, rfl, rfl, rfl, rfl, rfl, rfl, rfl, rfl⟩

/-- A tile with two entries that translate one page, so that an address of it does not resolve (R463). -/
def torn : Tile := { paged with prim := [(0, page0), (1, page0)], shadow := [(0, page0), (1, page0)] }

/-- TileLaunch: at an address of the page, running and in step mode, at a misaligned one, one outside any page, one that two entries
name; from a poisoned register. -/
theorem witness_TileLaunch :
    let rs := regs [(5, 0x1FFFC0), (6, 63), (7, 0x200000)] ++ [(8, { val := 64, poison := true })]
    let x := { paged with s := rs }
    let y := { torn with s := rs }
    let g : Gang := { gangOf x with dctl := 1 }
    AtTile (atSlot 0 x) 1 0 0 0 0 (gangOf x) x ∧ [5, 6, 7].all (fun r => (x.readCodes 0 0 0 [r]).poison == false) = true
    ∧ (x.readCodes 0 0 0 [8]).poison = true ∧ (nthD 0 (x.readCodes 0 0 0 [5]).vals 0).toNat % 64 = 0
    ∧ ((gangOf x).translate x 0x1FFFC0 0).place = .dev { addr := 0x3FFFC0, ke := false, key := 0, dom := 0 }
    ∧ ((gangOf x).translate x 0x1FFFC0 0).hold = false ∧ (gangOf x).dctl % 8 ≠ 1
    ∧ AtTile (withGang g (.tile 1 0 0 0 0)) 1 0 0 0 0 g x ∧ g.dctl % 8 = 1 ∧ (g.translate x 0x1FFFC0 0).hold = false
    ∧ (nthD 0 (x.readCodes 0 0 0 [6]).vals 0).toNat % 64 ≠ 0
    ∧ ((gangOf x).translate x 0x200000 0).place = .denied ∧ ((gangOf x).translate x 0x200000 0).hold = false
    ∧ AtTile (atSlot 0 y) 1 0 0 0 0 (gangOf y) y ∧ ((gangOf y).translate y 0x1FFFC0 0).place = .unresolved
    ∧ ((gangOf y).translate y 0x1FFFC0 0).hold = false :=
  ⟨atSlot_at 0 _ rfl, rfl, rfl, rfl, rfl, rfl, by decide, ⟨rfl, rfl, rfl⟩, rfl, rfl, by decide, rfl, rfl, atSlot_at 0 _ rfl, rfl, rfl⟩

/-- A tile with ring h13 of 16 entries, h6 of 128, full by its declared fill of 128, and h11, whose fill is 85. -/
def ringed : Tile :=
  { tile0 with rings := [(6, { base := 0, size := 128, head := 3, tail := 3 }), (11, { base := 0, size := 128, head := 0, tail := 85 }),
                         (13, { base := 0, size := 16, head := 0, tail := 0 })] }

/-- VectorElementwise, VectorMultiplyAddCompareSelect, VectorBlocksAndReductions and VectorMoves, in V0 and in V1, under a true guard
!p5, for an integer and a floating type, with a scalar count and with one in AUX. -/
theorem witness_AtVector :
    let v := two 10
    (∃ o y h, AtVector (atSlot 2 ringed) 1 0 2 0 0 (gangOf ringed) ringed v o y h)
    ∧ (∃ o y h, AtVector (atSlot 3 ringed) 1 0 3 0 0 (gangOf ringed) ringed v o y h)
    ∧ (∃ o y h, AtVector (atSlot 2 ringed) 1 0 2 0 0 (gangOf ringed) ringed (two 0) o y h)
    ∧ v.dt.isFloat = false ∧ (two 0).dt.isFloat = true ∧ v.ob.kind = 3 ∧ (one 10).ob.kind = 0 ∧ v.w / v.dt.width = 32 :=
  ⟨⟨_, _, _, atSlot_at 2 _ rfl, ⟨by decide, rfl⟩, rfl, rfl, rfl, rfl⟩, ⟨_, _, _, atSlot_at 3 _ rfl, ⟨by decide, rfl⟩, rfl, rfl, rfl, rfl⟩,
    ⟨_, _, _, atSlot_at 2 _ rfl, ⟨by decide, rfl⟩, rfl, rfl, rfl, rfl⟩, rfl, rfl, rfl, rfl, rfl⟩

/-- VectorBlocksAndReductions: elements all disabled; a first NaN at index 1; a block with an infinity and one without; scalings of a
floating type and of MX blocks. -/
theorem witness_VectorBlocks :
    let q : Lane := { val := 0x7FC00000, poison := false }
    [(none : Option Lane), none].all (·.isNone) = true ∧ [none, some q][1]? = some (some q) ∧ isNanBits .fp32 q.val = true
    ∧ (∃ a ∈ [0, 0x7F800000], finiteOf .fp32 a = none) ∧ (∀ a ∈ [0, 0x3F800000], finiteOf .fp32 a ≠ none)
    ∧ isMxElem (two 0).td = false ∧ (two 0).dt.isFloat = true ∧ isMxElem 6 = true :=
  ⟨rfl, rfl, by decide, by decide, by decide, rfl, rfl, rfl⟩

/-- VectorGates: V1 where V0 took lane group 3 in this cycle; a ring whose fill is one short of what the word expects, for an operation
that does not take the gather port, and for one that does with the port free and taken; false guards. -/
theorem witness_VectorGates :
    let x := { ringed with now := { Cycle.fresh 0 with lanes := [3] } }
    let y := { tile0 with rings := [(6, { base := 0, size := 128, head := 0, tail := 127 })] }
    let w := vop 0 2 10 none' hOa none' none' scratchAux
    let v := { two 10 with pn := 0 }
    AtTile (atSlot 3 x) 1 0 3 0 0 (gangOf x) x ∧ vectorRow (.vadd (two 10)) = some (1, 0, two 10, true) ∧ Instr.vadd (two 10) ≠ .advr (two 10)
    ∧ (two 10).groups.any (x.nowAt 0).lanes.contains = true ∧ AtTile (atSlot 2 y) 1 0 2 0 0 (gangOf y) y
    ∧ (vecTile (gangOf y) y 2 (two 10)).badFill (two 10) = some 128
    ∧ (vectorRow (.vscat w)).isSome = true ∧ (vecTile (gangOf y) y 2 w).badFill w = some 128 ∧ y.gatherPort = none
    ∧ ([2, 3].all (fun e => ({ y with gatherPort := some e } : Tile).gatherPort == some e) = true ∧ 2 < 0 + 3 ∧ 0 + 3 ≤ 3)
    ∧ VecMayRun (gangOf ringed) ringed 2 v ∧ (vecTile (gangOf ringed) ringed 2 v).guard v.pg v.pn = false
    ∧ (vecTile (gangOf ringed) ringed 2 v).gatherPort = none ∧ tile0.guard 5 1 = true ∧ tile0.guard 5 0 = false :=
  ⟨atSlot_at 3 _ rfl, rfl, by decide, rfl, atSlot_at 2 _ rfl, rfl, rfl, rfl, rfl, by decide, ⟨by decide, rfl⟩, rfl, rfl, rfl, rfl⟩

/-- VectorMemory: the gather port taken through t + 3, and free; V0, V1 where V0 uses no bank of the access and where it uses one; plain
and MX types; gathers within the four lines of a bank and beyond them. -/
theorem witness_VectorMemory :
    let aux := packed [(1, 6), (0x5A5, 11), (0, 5), (0, 21), (0, 21)]
    let v := vop 0 0 0 hOd none' none' none' aux
    let x := { ringed with gatherPort := some 3 }
    let ea := vmemAddr (vmemBase v 0 0) 32
    let y := { ringed with now := { Cycle.fresh 0 with reads := [bankOf (ringed.map ea)], writes := [bankOf (ringed.map ea)] } }
    (∃ o z h, AtVector (atSlot 2 x) 1 0 2 0 0 (gangOf x) x v o z h ∧ z.gatherPort = some 3 ∧ (gangOf x).lcyc + 3 ≤ 3)
    ∧ (∃ o z h, AtVector (atSlot 2 ringed) 1 0 2 0 0 (gangOf ringed) ringed v o z h ∧ z.gatherPort = none
      ∧ ((h.vmemRead z o v 0).1.tile 0).isSome = true)
    ∧ (∃ o z h, AtVector (atSlot 3 y) 1 0 3 0 0 (gangOf y) y v o z h)
    ∧ (((List.range (v.w / 8)).map (fun j => y.map (ea + j))).find? (fun a => (y.nowAt 0).reads.contains (bankOf a))).isSome = true
    ∧ ((List.range (v.w / 8)).map (fun j => ringed.map (ea + j))).all (fun a => !(ringed.nowAt 0).reads.contains (bankOf a)) = true
    ∧ isMxElem v.td = false ∧ isMxElem 6 = true
    ∧ (∃ e, ([0, 4096, 8192, 12288, 16384].zip (serveLines [] [0, 4096, 8192, 12288, 16384])).find? (fun e => !e.2) = some e)
    ∧ ([0, 4096, 8192, 12288].zip (serveLines [] [0, 4096, 8192, 12288])).find? (fun e => !e.2) = none :=
  ⟨⟨_, _, _, ⟨atSlot_at 2 _ rfl, ⟨by decide, rfl⟩, rfl, rfl, rfl, rfl⟩, rfl, by decide⟩,
    ⟨_, _, _, ⟨atSlot_at 2 _ rfl, ⟨by decide, rfl⟩, rfl, rfl, rfl, rfl⟩, rfl, rfl⟩,
    ⟨_, _, _, atSlot_at 3 _ rfl, ⟨by decide, rfl⟩, rfl, rfl, rfl, rfl⟩, by decide, by decide, rfl, rfl, ⟨_, rfl⟩, rfl⟩

/-- Crossbar: the identity pattern, one whose valid entries name port 5 twice, an entry without poison. -/
theorem witness_Crossbar :
    let x := { ringed with xp := [(1, List.replicate 64 (64 + 5))] }
    AtTile (atSlot 4 x) 1 0 4 0 0 (gangOf x) x
    ∧ (dedupNat ((patternTargets (x.pattern 0)).map (·.2))).length = (patternTargets (x.pattern 0)).length
    ∧ (dedupNat ((patternTargets (x.pattern 1)).map (·.2))).length ≠ (patternTargets (x.pattern 1)).length
    ∧ (x.entry ((x.ring 6).at (((x.ring 6).head : Int) + 0))).poison = 0 := ⟨atSlot_at 4 _ rfl, by decide, by decide, rfl⟩

/-- A nest of one step on a group of one bank, with the least and with the largest edges of FP32. -/
def nest0 (me ne : Nat) : NestSet := { NestSet.start with mxc0 := BitVec.ofNat 64 (me * 2 ^ 45 + ne * 2 ^ 36), kind := 1 }

def running : Nest := { set := nest0 1 1, t0 := 5, mgo := 0, addr := 0, steps := 1, dropped := false }

def banked : Tile := { tile0 with groups := [(0, [0])], accBound := 4, nestShadow := nest0 1 64 }

/-- MatrixShadowSetAndGo: counts 1 and 65,536 and values below 2^63 in registers, counts 0 and 65,537, a value of 2^63, a stride on level
0; a group with banks and one without; a valid set with no nest active and with one; a nest pending; an invalid set. -/
theorem witness_MatrixShadowSetAndGo :
    (let x := { banked with s := regs [(1, 1), (2, 65536), (3, 2 ^ 63 - 1), (4, 65537), (5, 2 ^ 63)] }
     AtTile (atSlot 5 x) 1 0 5 0 0 (gangOf x) x ∧ x.nestPending = none ∧ x.group 0 ≠ [] ∧ x.group 1 = []
     ∧ (nthD 0 (x.readCodes 0 5 0 [2, 3]).vals 0).toNat = 65536 ∧ (nthD 0 (x.readCodes 0 5 0 [2, 3]).vals 1).toNat < 2 ^ 63
     ∧ (nthD 0 (x.readCodes 0 5 0 [1, 0]).vals 0).toNat = 1 ∧ (nthD 0 (x.readCodes 0 5 0 [1, 0]).vals 1).toNat = 0
     ∧ (nthD 0 (x.readCodes 0 5 0 [0, 3]).vals 0).toNat = 0 ∧ (nthD 0 (x.readCodes 0 5 0 [4, 3]).vals 0).toNat = 65537
     ∧ (nthD 0 (x.readCodes 0 5 0 [1, 5]).vals 1).toNat = 2 ^ 63 ∧ (nthD 0 (x.readCodes 0 5 0 [1, 3]).vals 1).toNat ≠ 0)
    ∧ (AtTile (atSlot 5 banked) 1 0 5 0 0 (gangOf banked) banked ∧ banked.nestPending = none ∧ banked.nest = none
     ∧ banked.nestShadow.valid (banked.group 0).length = true)
    ∧ (let x := { banked with nest := some running }; AtTile (atSlot 5 x) 1 0 5 0 0 (gangOf x) x ∧ x.nest = some running)
    ∧ (let x := { banked with nestPending := some running }
       AtTile (atSlot 5 x) 1 0 5 0 0 (gangOf x) x ∧ x.nestPending.isSome = true ∧ x.group 0 ≠ [])
    ∧ (let x := { banked with nestShadow := nest0 65 1 }
       AtTile (atSlot 5 x) 1 0 5 0 0 (gangOf x) x ∧ x.nestPending = none ∧ x.nestShadow.valid (x.group x.nestShadow.ag).length = false) :=
  ⟨⟨atSlot_at 5 _ rfl, rfl, by decide, rfl, by decide, by decide, by decide, by decide, by decide, by decide, by decide, by decide⟩,
    ⟨atSlot_at 5 _ rfl, rfl, rfl, by decide⟩, ⟨atSlot_at 5 _ rfl, rfl⟩, ⟨atSlot_at 5 _ rfl, rfl, by decide⟩,
    ⟨atSlot_at 5 _ rfl, rfl, by decide⟩⟩

set_option maxRecDepth 4000 in
/-- AccumulatorGroups: three banks of the bound of four left, three more and four asked for, and more than there are; a group that is in
use through this cycle and one that is not; one that holds no bank. -/
theorem witness_AccumulatorGroups :
    let y := { banked with agUse := [(0, 0)] }
    AtTile (atSlot 5 banked) 1 0 5 0 0 (gangOf banked) banked ∧ banked.group 1 = [] ∧ (banked.groups.flatMap (·.2)).length + 3 ≤ banked.accBound
    ∧ banked.accBound < (banked.groups.flatMap (·.2)).length + 4
    ∧ ((List.range 512).filter (fun b => !(banked.groups.flatMap (·.2)).contains b)).length = 511
    ∧ banked.group 0 ≠ [] ∧ banked.groupInUse 0 0 = false
    ∧ AtTile (atSlot 5 y) 1 0 5 0 0 (gangOf y) y ∧ y.group 0 ≠ [] ∧ y.groupInUse 0 0 = true :=
  ⟨atSlot_at 5 _ rfl, rfl, by decide, by decide, by decide, by decide, rfl, atSlot_at 5 _ rfl, by decide, rfl⟩

/-- AccumulatorMoves: 0, 1, 16,384 and 16,385 lines; checks of edges 1 and 64, 0 and 385; the path free and taken; a group without banks. -/
theorem witness_AccumulatorMoves :
    let x := { banked with s := regs [(1, 1), (2, 16384), (3, 16385)] }
    let y := { banked with accPath := some 0 }
    let z := { banked with nestShadow := nest0 0 385 }
    AtTile (atSlot 5 x) 1 0 5 0 0 (gangOf x) x ∧ x.group 0 ≠ [] ∧ x.group 1 = [] ∧ x.pathBusy 0 = false
    ∧ (nthD 0 (x.readCodes 0 5 0 [0, 1]).vals 1).toNat = 1 ∧ (nthD 0 (x.readCodes 0 5 0 [0, 2]).vals 1).toNat = 16384
    ∧ (nthD 0 (x.readCodes 0 5 0 [0, 0]).vals 1).toNat = 0 ∧ (nthD 0 (x.readCodes 0 5 0 [0, 3]).vals 1).toNat = 16385
    ∧ x.nestShadow.me = 1 ∧ x.nestShadow.ne = 64 ∧ AtTile (atSlot 5 y) 1 0 5 0 0 (gangOf y) y ∧ y.group 0 ≠ [] ∧ y.pathBusy 0 = true
    ∧ AtTile (atSlot 5 z) 1 0 5 0 0 (gangOf z) z ∧ z.nestShadow.me = 0 ∧ z.nestShadow.ne = 385 ∧ z.pathBusy 0 = false :=
  ⟨atSlot_at 5 _ rfl, by decide, rfl, rfl, by decide, by decide, by decide, by decide, by decide, by decide, atSlot_at 5 _ rfl, by decide,
    rfl, atSlot_at 5 _ rfl, by decide, by decide, rfl⟩

/-- Factorisations: edges 1 and 64 with the default pitch, edges 0 and 65, a pitch too small for MFQR, a reserved bit; a usable threshold
and one that is a NaN; the unit and the path free and occupied through this cycle; a group without banks. -/
theorem witness_Factorisations :
    let x := { banked with s := regs [(1, 2 ^ 32), (2, 64 * 2 ^ 32), (3, 65 * 2 ^ 32), (4, 2 ^ 39), (5, 2 ^ 40 + 2 ^ 32)] }
    let y := { banked with unitTo := some 0 }
    let z := { x with mxc3 := 0x7FC00000#64, accPath := some 0 }
    AtTile (atSlot 5 x) 1 0 5 0 0 (gangOf x) x ∧ x.unitBusy 0 = false ∧ x.pathBusy 0 = false ∧ x.group 0 ≠ [] ∧ x.group 1 = []
    ∧ TileDesc.ofWord (nthD 0 (x.readCodes 0 5 0 [1]).vals 0).toNat = some { off := 0, edge := 1, pitch := 2 }
    ∧ TileDesc.ofWord (nthD 0 (x.readCodes 0 5 0 [2, 1]).vals 0).toNat = some { off := 0, edge := 64, pitch := 65 }
    ∧ TileDesc.ofWord (nthD 0 (x.readCodes 0 5 0 [2, 1]).vals 1).toNat = some { off := 0, edge := 1, pitch := 2 }
    ∧ TileDesc.ofWord (nthD 0 (x.readCodes 0 5 0 [0]).vals 0).toNat = some { off := 0, edge := 0, pitch := 1 }
    ∧ TileDesc.ofWord (nthD 0 (x.readCodes 0 5 0 [3]).vals 0).toNat = some { off := 0, edge := 65, pitch := 66 }
    ∧ TileDesc.ofWord (nthD 0 (x.readCodes 0 5 0 [4]).vals 0).toNat = none
    ∧ TileDesc.ofWord (nthD 0 (x.readCodes 0 5 0 [5]).vals 0).toNat = some { off := 0, edge := 1, pitch := 1 }
    ∧ ({ off := 0, edge := 64, pitch := 65 } : TileDesc).ok 1 = true ∧ ({ off := 0, edge := 1, pitch := 2 } : TileDesc).ok 0 = true
    ∧ ({ off := 0, edge := 65, pitch := 66 } : TileDesc).ok 0 = false ∧ ({ off := 0, edge := 1, pitch := 1 } : TileDesc).ok 1 = false
    ∧ ({ off := 0, edge := 0, pitch := 1 } : TileDesc).ok 0 = false
    ∧ x.pivotThreshold = some 0 ∧ AtTile (atSlot 5 y) 1 0 5 0 0 (gangOf y) y ∧ y.unitBusy 0 = true
    ∧ AtTile (atSlot 5 z) 1 0 5 0 0 (gangOf z) z ∧ z.pivotThreshold = none ∧ z.pathBusy 0 = true ∧ z.unitBusy 0 = false :=
  ⟨atSlot_at 5 _ rfl, rfl, rfl, by decide, rfl, by decide, by decide, by decide, by decide, by decide, by decide, by decide, rfl, rfl, rfl,
    rfl, rfl, by decide, atSlot_at 5 _ rfl, rfl, atSlot_at 5 _ rfl, by decide, rfl, rfl⟩

/-! The D slot. -/

theorem atD_at (x : Tile) (buf : Nat) (h : x.gid = 0) (hc : x.dCount 0 < 1024) :
    ∃ o y g, AtD (atSlot 6 x) 1 0 0 0 buf (gangOf x) x o y g :=
  ⟨_, _, _, atSlot_at 6 x h, h, by simpa [gangOf, atSlot, withGang, State.pendingDeliveries, State.reset, sumOf] using hc, rfl, rfl, rfl⟩

/-- Any reads of registers lead to a gang and a tile: those of a statement exist. -/
theorem read_at (x : Tile) (rd : Reads) (hx : x.gid = 0) (hr : rd.poison = false) (at_ : Nat) :
    ∃ q, Read (gangOf x) q rd.x { gid := 0, slot := 6, addr := 0, issue := 0, buf := 0 } rd at_ := by
  refine ⟨_, rfl, ?_⟩
  simp [reading, hr, gangOf, Gang.onTile, Gang.tile, find?, setKey, hx]

/-- DataSlotFull: 1,024 ends in this cycle, and 1,023 with one delivery pending. -/
theorem witness_DataSlotFull :
    let x := { tile0 with dEnds := List.replicate 1024 0 }
    AtTile (atSlot 6 x) 1 0 6 0 0 (gangOf x) x ∧ x.gid = 0 ∧ 1024 ≤ x.dCount 0 + (atSlot 6 x).pendingDeliveries 1 0 0 ∧ x.arms = [] := by
  have h : ∀ n, n ≤ ({ tile0 with dEnds := List.replicate n 0 } : Tile).dCount 0 := fun n => by simp [Tile.dCount]; omega
  exact ⟨atSlot_at 6 _ rfl, rfl, Nat.le_trans (h 1024) (Nat.le_add_right _ _), rfl⟩

/-- SingleAccesses: an address of the page, one outside any and one that two entries name, a scratch slice of the gang and a gang identity
that it lacks; data without poison and with it. -/
theorem witness_SingleAccesses :
    let x := { paged with s := regs [(1, 0x1FFFF8), (2, 0x200000)] ++ [(3, { val := 0, poison := true })] }
    let y := { torn with s := regs [(1, 0x1FFFF8)] }
    (∃ o y h, AtD (atSlot 6 x) 1 0 0 0 0 (gangOf x) x o y h) ∧ (∃ q, Read (gangOf x) q x { gid := 0, slot := 6, addr := 0, issue := 0, buf := 0 }
      (x.readCodes 0 6 0 [1]) 0x1FFFF8)
    ∧ (∃ o z h, AtD (atSlot 6 y) 1 0 0 0 0 (gangOf y) y o z h)
    ∧ (x.readCodes 0 6 0 [1]).poison = false ∧ (x.readCodes 0 6 0 [2]).poison = false ∧ (x.readCodes 0 6 0 [3]).poison = true
    ∧ alignDown (nthD 0 (x.readCodes 0 6 0 [1]).vals 0 + BitVec.ofInt 64 (sextInt 20 0)).toNat (accessSize 3) = 0x1FFFF8
    ∧ (∀ kind < 3, ((gangOf x).locate x 2 0x1FFFF8 kind).place = .dev { addr := 0x3FFFF8, ke := false, key := 0, dom := 0 })
    ∧ (∀ kind < 3, ((gangOf x).locate x 2 0x200000 kind).place = .denied)
    ∧ (∀ kind < 3, ((gangOf y).locate y 2 0x1FFFF8 kind).place = .unresolved)
    ∧ ((gangOf x).locate x 1 0 0).place = .scratch 0 (x.map 0)
    ∧ (let g : Gang := { gangOf x with tiles := [] }; (g.locate x 1 0 0).place = .denied) :=
  ⟨atD_at _ 0 rfl (by decide), read_at _ _ rfl rfl _, atD_at _ 0 rfl (by decide), rfl, rfl, rfl, by decide, by decide, by decide, by decide,
    rfl, rfl⟩

/-- Transfers: one beat, and the full 16,384 within the page, with each source and destination space; a denied side, an unresolved
destination; a record that is permitted, denied and unresolved. -/
theorem witness_Transfers :
    let x := { paged with s := regs [(1, 0x100000), (2, 0x200000)] }
    let y := { torn with s := regs [(1, 0x100000)] }
    (∃ o y h, AtD (atSlot 6 x) 1 0 0 0 0 (gangOf x) x o y h) ∧ (∃ o z h, AtD (atSlot 6 y) 1 0 0 0 0 (gangOf y) y o z h)
    ∧ (∃ q, Read (gangOf x) q x { gid := 0, slot := 6, addr := 0, issue := 0, buf := 0 } (x.readCodes 0 6 0 [1, 1]) 0x100000)
    ∧ (x.readCodes 0 6 0 [1, 2]).poison = false ∧ (x.readCodes 0 6 0 [1, 1, 1]).poison = false
    ∧ (∀ dsp < 3, ∀ ssp < 3, ([(gangOf x).beat Cfg.single x dsp ssp 0 0x100000 0].any (fun e : Beat => e.dst.place == .unresolved)) = false)
    ∧ (0x100000 + 64 * 16383) / 2 ^ 21 = 0 ∧ ((gangOf x).beat Cfg.single x 2 0 0x200000 0 0).dst.place = .denied
    ∧ (firstFault ((gangOf x).beat Cfg.single x 2 0 0x200000 0 0).faults).isSome = true
    ∧ ((gangOf y).beat Cfg.single y 2 0 0x100000 0 0).dst.place = .unresolved
    ∧ ((gangOf x).translate x 0x100000 2).place = .dev { addr := 0x300000, ke := false, key := 0, dom := 0 }
    ∧ ((gangOf x).translate x 0x200000 2).place = .denied ∧ ((gangOf y).translate y 0x100000 2).place = .unresolved :=
  ⟨atD_at _ 0 rfl (by decide), atD_at _ 0 rfl (by decide), read_at _ _ rfl rfl _, rfl, rfl, by decide, by decide, rfl, rfl, rfl, rfl, rfl,
    rfl⟩

theorem free_of_bound (x : Tile) (n ch : Nat) (h : (List.range 8).all (fun k => k == n || !((x.bound k).chs == ch || (x.bound k).chr == ch)) = true) :
    ¬BoundElsewhere x n ch := by
  rintro ⟨k, hk, hn, hb⟩
  have := List.all_eq_true.1 h k (List.mem_range.2 hk)
  rcases hb with hb | hb <;> simp [hn, hb] at this

/-- Channels: a send end and a receive end with one element, an empty one and an unused one; a free and a bound k register. -/
theorem witness_Channels :
    let c : Chan := { mode := 1, esz := 0, depth := 0, peer := 0, pch := 1, first := 0, per := 0, lat := 1 }
    let x := { tile0 with chans := [(0, c), (1, { c with mode := 2 }), (2, { c with mode := 2 })]
                          fifos := [(1, { elems := [{ data := [], pushed := 0 }], departed := none })] }
    let z := { x with kbind := [(7, { chs := 0, chr := 127 })] }
    (∃ o y h, AtD (atSlot 6 x) 1 0 0 0 0 (gangOf x) x o y h) ∧ ¬BoundElsewhere x 8 0 ∧ ¬BoundElsewhere x 8 1 ∧ ¬BoundElsewhere x 8 2
    ∧ ¬BadBind x 0 0 1 ∧ ¬BadBind x 0 127 2 ∧ ¬BadBind x 0 1 2 ∧ BadBind x 0 63 1
    ∧ (∃ q, Read (gangOf x) q x { gid := 0, slot := 6, addr := 0, issue := 0, buf := 0 } (x.readCodes 0 6 0 [1]) 0)
    ∧ (x.chan 0).mode = 1 ∧ (List.range c.beats).map (fun j => x.map (0 + 64 * j)) = [x.map 0] ∧ (x.chan 1).mode = 2
    ∧ (x.fifo 1).elems = [{ data := [], pushed := 0 }] ∧ (x.chan 2).mode = 2 ∧ (x.fifo 2).elems = [] ∧ (x.chan 3).mode ≠ 1
    ∧ (∃ o y h, AtD (atSlot 6 z) 1 0 0 0 0 (gangOf z) z o y h) ∧ BoundElsewhere z 8 0 ∧ BadBind z 0 0 1 :=
  ⟨atD_at _ 0 rfl (by decide), free_of_bound _ _ _ rfl, free_of_bound _ _ _ rfl, free_of_bound _ _ _ rfl,
    fun h => h.2.elim (· rfl) (fun h => h.elim (· rfl) (free_of_bound _ _ _ rfl)), fun h => absurd h.1 (by decide),
    fun h => h.2.elim (· rfl) (fun h => h.elim (· rfl) (free_of_bound _ _ _ rfl)), ⟨by decide, .inl (by decide)⟩,
    read_at _ _ rfl rfl _, rfl, rfl, rfl, rfl, rfl, rfl, by decide, atD_at _ 0 rfl (by decide), ⟨7, by decide, by decide, .inl rfl⟩,
    ⟨by decide, .inr (.inr ⟨7, by decide, by decide, .inl rfl⟩)⟩⟩

/-- StreamsAndCounters: no SACC before, and one four cycles before; value types that SACC takes and that it does not. -/
theorem witness_StreamsAndCounters :
    let x := { ringed with saccs := [0] }
    let z := { ringed with fmtr := 5 * 16 }
    let g := { gangOf x with lcyc := 4 }
    (∃ o y h, AtD (atSlot 6 ringed) 1 0 0 0 0 (gangOf ringed) ringed o y h) ∧ ringed.saccs = []
    ∧ (∃ q, Read (gangOf ringed) q ringed { gid := 0, slot := 6, addr := 0, issue := 0, buf := 0 } (ringed.readCodes 0 6 0 [1]) 0)
    ∧ (∃ o y h, AtD (withGang g (.tile 1 0 6 0 0)) 1 0 0 0 0 g x o y h ∧ (∃ c ∈ y.saccs, c + 4 ≤ g.lcyc ∧ g.lcyc ≤ c + 7))
    ∧ (ElemType.ofCode (bitsOf ringed.fmtr 7 4)).isMx = false ∧ ElemType.ofCode (bitsOf ringed.fmtr 7 4) ≠ .e4m3
    ∧ ElemType.ofCode (bitsOf ringed.fmtr 7 4) ≠ .e5m2
    ∧ (∃ o y h, AtD (atSlot 6 z) 1 0 0 0 0 (gangOf z) z o y h) ∧ (ElemType.ofCode (bitsOf z.fmtr 7 4)).isMx = true :=
  ⟨atD_at _ 0 rfl (by decide), rfl, read_at _ _ rfl rfl _,
    ⟨_, _, _, (by exact ⟨⟨rfl, rfl, rfl⟩, rfl, by decide, rfl, rfl, rfl⟩), by decide⟩, by decide, by decide, by decide,
    atD_at _ 0 rfl (by decide), by decide⟩

/-- Atomics: a 16-byte record at the end of the page, an address past it and one that two entries name; operands with poison and
without. -/
theorem witness_Atomics :
    let x := { paged with s := regs [(1, 0x1FFFFF), (2, 0x200000)] ++ [(3, { val := 0, poison := true })] }
    let y := { torn with s := regs [(1, 0x1FFFFF)] }
    (∃ o y h, AtD (atSlot 6 x) 1 0 0 0 0 (gangOf x) x o y h) ∧ (∃ o z h, AtD (atSlot 6 y) 1 0 0 0 0 (gangOf y) y o z h)
    ∧ (∃ q, Read (gangOf x) q x { gid := 0, slot := 6, addr := 0, issue := 0, buf := 0 } (x.readCodes 0 6 0 [1]) 0x1FFFF0)
    ∧ ((x.readCodes 0 6 0 [1]).x.readCodes 0 6 0 [2]).poison = false ∧ ((x.readCodes 0 6 0 [1]).x.readCodes 0 6 0 [3]).poison = true
    ∧ alignDown (nthD 0 (x.readCodes 0 6 0 [1]).vals 0).toNat 16 = 0x1FFFF0
    ∧ ((gangOf x).translate x 0x1FFFF0 2).place = .dev { addr := 0x3FFFF0, ke := false, key := 0, dom := 0 }
    ∧ ((gangOf x).translate x 0x200000 2).place = .denied ∧ ((gangOf y).translate y 0x1FFFF0 2).place = .unresolved :=
  ⟨atD_at _ 0 rfl (by decide), atD_at _ 0 rfl (by decide), read_at _ _ rfl rfl _, rfl, rfl, rfl, rfl, rfl, rfl⟩

/-- Generations: on gang identity 0, with a snapshot of the domain ahead and without, and on another identity. -/
theorem witness_Generations :
    let x := { tile0 with gid := 3 }
    let r : SnapReq := { dom := 1, t := 0, c := 64, code := 31, gid := 0, addr := 0, status := 0, g := 1 }
    let g : Gang := { gangOf tile0 with snaps := [r] }
    (∃ o y h, AtD (atSlot 6 tile0) 1 0 0 0 0 (gangOf tile0) tile0 o y h)
    ∧ (∃ o y h, AtD (withGang g (.tile 1 0 6 0 0)) 1 0 0 0 0 g tile0 o y h) ∧ g.snaps.any (fun e => e.dom == 1 && g.lcyc < e.c) = true
    ∧ (∃ o y h, AtD (withGang (gangOf x) (.tile 1 3 6 0 0)) 1 3 0 0 0 (gangOf x) x o y h) :=
  ⟨atD_at _ 0 rfl (by decide), ⟨_, _, _, ⟨rfl, rfl, rfl⟩, rfl, by decide, rfl, rfl, rfl⟩, rfl,
    ⟨_, _, _, ⟨rfl, rfl, rfl⟩, rfl, by decide, rfl, rfl, rfl⟩⟩

/-- A tree of one member, tile 0, its arm of two segments issued at cycle 0, and the list of arms that allows one more. -/
def tree0 : Tree :=
  { frozen := false, op := 0, fmt := 0, kind := 1, wide := false, segu := 3, root := 0, t := 1, fn := 255, save := 0, saveSize := 0
    members := [2 ^ 30], edits := [], ranges := [], out := [], users := [], next := 0 }

def arm0 : Arm :=
  { handle := 7, s0 := 0, n := 2, c := 100, issue := 0, addr := 0, buf := 0, cpl := false, irq := false, mi := 0, alt := false, live := true
    pinned := true, bad := false, range := none, posts := [], beats := [] }

def armed : Tile :=
  { tile0 with arms := [arm0], armList := [{ handle := 7, cpl := false, irq := false, count := 2, coff := 65 }], s := regs [(1, 1), (2, 2)]
               trees := [(7, { armed := true, sticky := 0, next := 0 })] }

/-- The gang of that tile in a cycle, with one tree slot at its mesh router. -/
def treeAt (c : Nat) : Gang := { gangOf armed with lcyc := c, quota := [(64, (0, 1))] }

/-- Its state, with slots of the router. -/
def treeState (g : Gang) (slots : Tbl TreeSlot) (r : Tree) : State :=
  { withGang g (.tile 1 0 6 0 0) with trees := [(7, r)], pkgs := [(0, { Pkg.reset with treeSlots := [(64, slots)] })] }

theorem treeState_at (g : Gang) (slots : Tbl TreeSlot) (r : Tree) (h : g.tile 0 = some armed) (hr : r.out = []) :
    ∃ o y q, AtD (treeState g slots r) 1 0 0 0 0 g armed o y q ∧ find? y.trees 7 = some { armed := true, sticky := 0, next := 0 } :=
  ⟨_, _, _, ⟨⟨rfl, rfl, h⟩, rfl,
    by simp [Tile.dCount, armed, arm0, tile0, Tile.start, State.pendingDeliveries, treeState, sumOf, hr], rfl, rfl, rfl⟩, rfl⟩

/-- TreeOperationsOnTile: a range that meets the live one and the next one, the slot of the path present and absent, a frozen tree, a
handle without a tree, an entry of another handle; a post at the horizon of the arm and one before it; a segment not covered; KIND 2 at
the root. -/
theorem witness_TreeOperationsOnTile :
    let g := treeAt 64
    let s := treeState g [(0, { handle := 7, used := 1, pins := [] })] tree0
    (∃ o y q, AtD s 1 0 0 0 0 g armed o y q ∧ find? y.trees 7 = some { armed := true, sticky := 0, next := 0 })
    ∧ (∃ q, Read g q armed { gid := 0, slot := 6, addr := 0, issue := 64, buf := 0 } (armed.readCodes 64 6 0 [1]) 0)
    ∧ (nthD 0 (armed.readCodes 64 6 0 [2]).vals 0).toNat = 2 ∧ (nthD 0 (armed.readCodes 64 6 0 [1]).vals 0).toNat = 1
    ∧ find? s.trees 7 = some tree0 ∧ find? s.trees 8 = none ∧ tree0.frozen = false ∧ tree0.roleOf 0 = some (0, false)
    ∧ armed.armList[0]? = some { handle := 7, cpl := false, irq := false, count := 2, coff := 65 } ∧ armed.armList[1]? = none
    ∧ (∀ b ∈ armed.arms, b.live = true → b.handle = 7 → b.s0 + b.n ≤ 2 ∨ 2 + 2 ≤ b.s0)
    ∧ (∃ b ∈ armed.arms, b.live = true ∧ b.handle = 7 ∧ 1 < b.s0 + b.n ∧ b.s0 < 1 + 2) ∧ (∀ b ∈ armed.arms, b.issue ≠ g.lcyc)
    ∧ (g.armEnds tree0 0 = [64] ∧ ∀ p ∈ g.armEnds tree0 0, (s.slotOf g p 7).isSome = true)
    ∧ (∃ p ∈ g.armEnds tree0 0, (treeState g [] tree0).slotOf g p 7 = none)
    ∧ armed.armOf 7 1 = some arm0 ∧ armed.armOf 7 2 = none ∧ arm0.issue + g.horizon ≤ g.lcyc ∧ (treeAt 63).lcyc < arm0.issue + (treeAt 63).horizon
    ∧ (∀ p ∈ arm0.posts, p.seg ≠ 1) ∧ armed.gid = tree0.gidOf tree0.root ∧ (∀ w ∈ armed.covers, w.handle = 7 → w.seg ≠ 1) :=
  ⟨treeState_at _ _ _ rfl rfl, ⟨_, rfl, rfl⟩, rfl, rfl, rfl, rfl, rfl, rfl, rfl, rfl, by decide, by decide, by decide, by decide, by decide, rfl,
    rfl, by decide, by decide, by decide, rfl, by decide⟩

/-! Agent cores. -/

/-- Core 0 at host level for function 3; memory with a poisoned word at 0x1000. -/
def hostCore : AgentCore := { core1 with lv := 0, afunc := 3 }
def poisonedAt : State := { atCore core1 with devPoison := [0x400] }

/-- Bytes of device memory from 0x1000 on, for core 0 at device level. -/
def withBlock (bs : List Nat) : State := { atCore core1 with dev := writeBytes [] 0x1000 (bs.map (BitVec.ofNat 8)) }

/-- AgentLoadsAndStores and AgentStoreFrame: in reach at device level, to the last byte of the SRAM; out of reach one byte further, and at
host level without a grant; poisoned; misaligned. -/
theorem witness_AgentLoadsAndStores :
    AtCore (atCore core1) 0 ∧ agentAddr (core1.reg 1) 3 0 = 0x1000 ∧ (atCore core1).spaceOk 1 255 0x1000 8 = true
    ∧ (atCore core1).spaceOk 1 255 0x80000000FFF8 8 = true ∧ (atCore core1).spaceOk 1 255 0x80000000FFF9 8 = false
    ∧ (atCore hostCore).spaceOk 0 3 0x1000 8 = false
    ∧ anyPoison ((((atCore core1).beforeLoad 0 2 0x1000 8).cacheLine 0x1000).agentRead 0 0x1000 8) = false
    ∧ anyPoison (((poisonedAt.beforeLoad 0 2 0x1000 8).cacheLine 0x1000).agentRead 0 0x1000 8) = true
    ∧ (core1.reg 1).toNat % 8 = 0 ∧ (core1.reg 2).toNat % 8 ≠ 0 ∧ ∃ u, exec (.stsAgent 2 1 3 2 0) (atCore core1) = .next u :=
  ⟨rfl, rfl, by decide, by decide, by decide, by decide, by decide, by decide, rfl, by decide, _, rfl⟩

/-- AgentAtomics: a word and a record in reach, poisoned, and out of reach at host level; records that an update settles, moves on and
refuses. -/
theorem witness_AgentAtomics :
    AtCore (atCore core1) 0 ∧ (core1.reg 1).toNat / 2 ^ 46 = 0 ∧ (core1.reg 1).toNat % 16 = 0 ∧ (core1.reg 2).toNat % 8 ≠ 0
    ∧ (atCore core1).spaceOk 1 255 0x1000 16 = true ∧ (atCore core1).spaceOk 1 255 0x1000 8 = true
    ∧ anyPoison (((atCore core1).beforeLoad 0 2 0x1000 8).devRead 0x1000 8) = false
    ∧ anyPoison ((poisonedAt.beforeLoad 0 2 0x1000 8).devRead 0x1000 8) = true
    ∧ anyPoison (((atCore core1).flush 0 (fun _ => true)).devRead 0x1000 16) = false
    ∧ anyPoison (((atCore core1).beforeLoad 0 2 0x1000 16).devRead 0x1000 16) = false
    ∧ anyPoison ((poisonedAt.flush 0 (fun _ => true)).devRead 0x1000 16) = true
    ∧ anyPoison ((poisonedAt.beforeLoad 0 2 0x1000 16).devRead 0x1000 16) = true
    ∧ (atCore hostCore).spaceOk 0 3 0x1000 8 = false ∧ (atCore hostCore).spaceOk 0 3 0x1000 16 = false
    ∧ (pval (((atCore core1).beforeLoad 0 2 0x1000 8).devRead 0x1000 8) = (core1.reg 0).toNat)
    ∧ (pval (((atCore core1).beforeLoad 0 2 0x1000 8).devRead 0x1000 8) ≠ (core1.reg 2).toNat)
    ∧ (let r := Barrier.ofNat 0; (r.update 0 7).isSome = true ∧ r.update 2 7 = none
       ∧ ({ r with expected := 7 }.update 2 7).isSome = true ∧ ({ r with expected := 7 }.update 2 6).isSome = true
       ∧ { r with expected := 7 }.update 2 8 = none ∧ { r with beats := 2 ^ 32 - 7 }.update 0 7 = none) :=
  ⟨rfl, rfl, rfl, by decide, by decide, by decide, by decide, by decide, by decide, by decide, by decide, by decide, by decide, by decide,
    by decide, by decide, by decide⟩

/-- AgentWaitsAndCopies: a line in reach and out of it; operations 0 (submitted) and 7 (not yet); contexts 13 and 14; a copy of one byte, a
descriptor that is not one and one out of reach; a record of 32 bytes, one with poison and one out of reach. -/
theorem witness_AgentWaitsAndCopies :
    Guarded (atCore core1) 0 0 0 core1 ∧ (atCore core1).spaceOk 1 255 0x1000 64 = true ∧ (atCore hostCore).spaceOk 0 3 0x1000 64 = false
    ∧ Guarded (atCore hostCore) 0 0 0 hostCore ∧ (core1.reg 0).toNat ≤ (atCore core1).ctxSub 0 0 ∧ (atCore core1).ctxSub 0 0 < (core1.reg 2).toNat
    ∧ (({ core1 with s := words [(5, 13), (6, 14)] } : AgentCore).reg 5).toNat % 16 < 14
    ∧ 14 ≤ (({ core1 with s := words [(5, 13), (6, 14)] } : AgentCore).reg 6).toNat % 16
    ∧ (let q := (withBlock (List.replicate 16 0 ++ [1])).flush 0 (fun _ => true)
       ∃ w op, q.agentBlock ((q.core 0).reg 1).toNat 1 32 = some w ∧ q.copyOf w 1 = some op)
    ∧ (let q := (withBlock (List.replicate 20 0 ++ [4])).flush 0 (fun _ => true)
       (q.agentBlock ((q.core 0).reg 1).toNat 1 32).bind (fun w => q.copyOf w 1) = none)
    ∧ (let q := (atCore core1).flush 0 (fun _ => true)
       q.spaceOk (q.core 0).lv (q.core 0).afunc 0x1000 32 = true ∧ anyPoison (q.agentRead 0 0x1000 32) = false)
    ∧ anyPoison ((poisonedAt.flush 0 (fun _ => true)).agentRead 0 0x1000 32) = true
    ∧ ((atCore hostCore).flush 0 (fun _ => true)).spaceOk 0 3 0x1000 32 = false :=
  ⟨⟨rfl, rfl, rfl⟩, by decide, by decide, ⟨rfl, rfl, rfl⟩, by decide, by decide, by decide, by decide, ⟨_, _, rfl, rfl⟩, rfl,
    ⟨by decide, by decide⟩, by decide, by decide⟩

/-- TaskControl: a sound descriptor, a bad one, an unverified record; task 3 of the core's function in each state that a clause names, task
7, which does not exist, and a task of another function; modes 0 and 3 in a register; a gang without drain and holds, running and held. -/
theorem witness_TaskControl :
    let t : Task := { task0 with id := 3 }
    let at_ := fun (x : Task) => ({ atCore core1 with tasks := [(3, x)] } : State)
    let g := gangOf tile0
    (let q := (withBlock [0, 0, 0, 0, 0, 0, 0, 0, 0, 1]).flush 0 (fun _ => true)
     q.cfg.verified = true ∧ ∃ d, (q.agentBlock ((q.core 0).reg 1).toNat 64 64).bind descOf = some d)
    ∧ (let q := (withBlock [0, 0, 0, 0, 0, 0, 0, 0, 0, 255]).flush 0 (fun _ => true)
       q.cfg.verified = true ∧ (q.agentBlock ((q.core 0).reg 1).toNat 64 64).bind descOf = none)
    ∧ (({ atCore core1 with cfg := { Cfg.single with verified := false } } : State).flush 0 (fun _ => true)).cfg.verified = false
    ∧ Guarded (at_ t) 0 0 0 core1 ∧ (core1.reg 4).toNat % 2 ^ 32 = 3 ∧ (core1.reg 2).toNat % 2 ^ 32 = 7 ∧ (at_ t).task 7 = none
    ∧ (at_ { t with fn := 1 }).task 3 = some { t with fn := 1 } ∧ (1 : Nat) ≠ core1.afunc ∧ (at_ t).task 3 = some t ∧ t.fn = core1.afunc
    ∧ t.endStatus = none ∧ ({ t with st := .ended 0 } : Task).endStatus ≠ none
    ∧ (∀ st ∈ [TaskState.queued, .waiting, .parked, .restoring, .held, .saving 0 0], (at_ { t with st := st }).task 3 = some { t with st := st })
    ∧ (core1.reg 2).toNat % 4 = 3 ∧ (core1.reg 0).toNat % 4 = 0
    ∧ (at_ { t with desc := { desc0 with policy := 6 } }).task 3 = some { t with desc := { desc0 with policy := 6 } }
    ∧ bitAt 6 2 = true ∧ bitAt 6 1 = true ∧ bitAt t.desc.policy 2 = false ∧ bitAt t.desc.policy 1 = false
    ∧ (at_ { t with gang := some g }).gang 3 = some g ∧ g.drain = none ∧ g.holds = []
    ∧ (at_ { t with gang := some g, st := .held }).gang 3 = some g :=
  ⟨⟨rfl, _, rfl⟩, ⟨rfl, rfl⟩, rfl, ⟨rfl, rfl, rfl⟩, rfl, rfl, rfl, rfl, by decide, rfl, rfl, rfl, by decide, by decide, rfl, rfl, rfl, rfl, rfl,
    rfl, rfl, rfl, rfl, rfl, rfl⟩

/-- SystemCallAndReturn and PrivilegeAndGuards: at both levels, under both guards; a reserved function number and the least and the
greatest legal one. -/
theorem witness_Levels :
    AtCore (atCore core1) 0 ∧ core1.lv = 1 ∧ AtCore (atCore hostCore) 0 ∧ hostCore.lv = 0 ∧ hostCore.lv ≠ 1 ∧ core1.guard 7 0 = false
    ∧ (.scrub 1 2 0 0 ∈ deviceRows 1 2 3 0 0) ∧ (.copy 1 2 3 0 0 ∉ deviceRows 1 2 3 0 0) ∧ IsCsr 0x042 true true
    ∧ (let y := { core1 with s := words [(5, 63), (6, 64), (7, 254), (8, 255)] }
       AtCore (atCore y) 0 ∧ y.lv = 1 ∧ (y.reg 5).toNat < 64 ∧ (64 ≤ (y.reg 6).toNat ∧ (y.reg 6).toNat ≠ 255)
       ∧ (64 ≤ (y.reg 7).toNat ∧ (y.reg 7).toNat ≠ 255) ∧ (y.reg 8).toNat = 255) :=
  ⟨rfl, rfl, rfl, rfl, by decide, rfl, by decide, by decide, .inl ⟨(0x042, 0x042, true, true), by decide, by decide, by decide, rfl, rfl⟩,
    rfl, rfl, by decide, by decide, by decide, by decide⟩

/-- A number that is no register's. -/
theorem no_csr_7 : ∀ p l, ¬IsCsr 7 p l := by
  rintro p l (⟨e, he, h1, h2, -, -⟩ | ⟨h, -⟩)
  · exact (show ∀ e ∈ csrTable, e.1 ≤ 7 → ¬7 ≤ e.2.1 by decide) e he h1 h2
  · exact absurd h (by decide)

/-- ControlRegisters: a register of each kind at both levels; a number of none; exponents 1, 2, 6 and 7; a tile of a task, an idle one;
system registers that a write of the window reaches, with legal values and with others; a scrub and none. -/
theorem witness_ControlRegisters :
    IsCsr 0 true false ∧ IsCsr 1 false true ∧ IsCsr 6 false false ∧ IsCsr 0x08F false false ∧ IsCsr 0x803 false true ∧ IsCsr 0x800 true true
    ∧ (∀ p l, ¬IsCsr 7 p l) ∧ AtCore (atCore core1) 0 ∧ core1.lv = 1 ∧ AtCore (atCore hostCore) 0 ∧ hostCore.lv = 0
    ∧ (let y := { core1 with s := words [(5, 1), (6, 2), (7, 6), (8, 7)] }
       AtCore (atCore y) 0 ∧ [5, 6, 7, 8].map (fun r => (y.reg r).toNat % 8) = [1, 2, 6, 7])
    ∧ sregDefined 3 = true ∧ sregWritable 3 = true ∧ sregDefined 0x010 = true ∧ sregWritable 0x010 = true ∧ sregDefined 0x23F = true
    ∧ (atCore core1).tileAt 0 core1.tsel = none
    ∧ (let s := withGang (gangOf tile0) (.agent 0); s.tileAt 0 (s.core 0).tsel = some (1, 0))
    ∧ sregValueOk 3 4 = true ∧ sregValueOk 3 6 = false
    ∧ (State.reset.pkg 0).scrub = none ∧ ({ Pkg.reset with scrub := some { tiles := 1, frames := [0], done := 0 } } : Pkg).scrub ≠ none :=
  ⟨.inl ⟨(0x000, 0x000, true, false), by decide, by decide, by decide, rfl, rfl⟩,
    .inl ⟨(0x001, 0x005, false, true), by decide, by decide, by decide, rfl, rfl⟩,
    .inl ⟨(0x006, 0x006, false, false), by decide, by decide, by decide, rfl, rfl⟩,
    .inl ⟨(0x080, 0x08F, false, false), by decide, by decide, by decide, rfl, rfl⟩,
    .inr ⟨by decide, by decide, rfl, rfl, rfl⟩, .inr ⟨by decide, by decide, rfl, rfl, rfl⟩, no_csr_7, rfl, rfl, rfl, rfl,
    ⟨rfl, by decide⟩, rfl, rfl, rfl, rfl, rfl, rfl, rfl, rfl, rfl, rfl, by decide⟩

/-- KeysScrubsAndImages: an empty slot and a full one; a scrub block of one frame and one of none, no scrub running and one running; an
image of 64 bytes and an address without one; digests in and out of reach. -/
theorem witness_KeysScrubsAndImages :
    Privileged (atCore core1) 0 0 0 core1 ∧ (look KeySlot.empty ((atCore core1).pkg 0).keys 3).alg = 0
    ∧ (look KeySlot.empty [(3, ({ alg := 1, k1 := 0, k2 := 0 } : KeySlot))] 3).alg ≠ 0
    ∧ (let q := (withBlock ([1, 0, 0, 0, 0, 0, 0, 0, 0, 0x20, 0, 0, 0, 0, 0, 0, 1])).flush 0 (fun _ => true)
       (q.pkg 0).scrubbing = false ∧ ∃ j, (q.agentBlock ((q.core 0).reg 1).toNat 1 32).bind q.scrubOf = some j)
    ∧ (let q := (withBlock ([0, 0, 0, 0, 0, 0, 0, 1])).flush 0 (fun _ => true)
       (q.pkg 0).scrubbing = false ∧ (q.agentBlock ((q.core 0).reg 1).toNat 1 32).bind q.scrubOf = none)
    ∧ ({ Pkg.reset with scrub := some { tiles := 1, frames := [0], done := 0 } } : Pkg).scrubbing = true
    ∧ (let q := (withBlock (List.replicate 0x28 0 ++ [64])).flush 0 (fun _ => true)
       (∃ b, q.agentImage ((q.core 0).reg 1).toNat = some b) ∧ q.spaceOk 1 255 0x2000 32 = true ∧ q.agentImage 0x2000 = none)
    ∧ (Guarded (atCore hostCore) 0 0 0 hostCore ∧ ((atCore hostCore).flush 0 (fun _ => true)).spaceOk 0 3 0x1000 32 = false) :=
  ⟨⟨⟨rfl, rfl, rfl⟩, rfl⟩, rfl, by decide, ⟨by decide, _, rfl⟩, ⟨by decide, rfl⟩, by decide, ⟨⟨_, rfl⟩, by decide, rfl⟩,
    ⟨rfl, rfl, rfl⟩, by decide⟩

/-- A block for MIGR that names page 0 of task 3 and frame 2 of its stack. -/
def moving (x : Task) : State := { withBlock ([3] ++ List.replicate 17 0 ++ [0x40]) with tasks := [(3, x)] }

/-- MIGR: a page of a parked task that may move, one that no entry has, a bad key number, a destination off its page, no task, another
function's, an ended one, one with a gang and one without an image. -/
theorem witness_Migration :
    let g := { gangOf paged with table := [(0, page0)] }
    let i : Image := { kind := 1, gang := g, records := [], intact := true, gen := 0 }
    let x : Task := { task0 with id := 3, st := .parked, image := some i }
    let q := (moving x).flush 0 (fun _ => true)
    (∃ w, q.agentBlock ((q.core 0).reg 1).toNat 1 32 = some w ∧ fieldOf w 0 4 = 3 ∧ fieldOf w 4 4 = 0 ∧ fieldOf w 0x18 1 = 0
      ∧ fieldOf w 0x19 7 = 0 ∧ fieldOf w 8 8 = 0 ∧ fieldOf w 0x10 8 = 0x400000)
    ∧ q.task 3 = some x ∧ x.fn = (q.core 0).afunc ∧ x.endStatus = none ∧ x.gang = none ∧ x.image = some i
    ∧ i.gang.entryFor 0 = some 0 ∧ i.gang.entryFor 0x200000 = none
    ∧ 0x400000 % (entryFrames (look 0 i.gang.table 0) * 2 ^ 21) = 0 ∧ 0x400040 % (entryFrames (look 0 i.gang.table 0) * 2 ^ 21) ≠ 0
    ∧ q.devExists 0x400000 = true ∧ i.gang.pkgs.contains (0x400000 / 2 ^ 39) = true ∧ (withBlock [3]).task 3 = none
    ∧ (∀ y ∈ [{ x with fn := 1 }, { x with st := .ended 0 }, { x with gang := some g }, { x with image := none }],
      ((moving y).flush 0 (fun _ => true)).task 3 = some y) :=
  ⟨⟨_, rfl, rfl, rfl, rfl, rfl, rfl, rfl⟩, rfl, rfl, rfl, rfl, rfl, rfl, rfl, by decide, by decide, by decide, by decide, rfl, by decide⟩

set_option maxRecDepth 4000 in
/-- TreeManagement: a tree that is live and not, frozen and not, without arms and users, and with an arm of a running gang and of a saved
one; blocks of edits, sound and bad; alternates; a creation block for a tree of one member, and bad ones. -/
theorem witness_TreeManagement :
    let s := ({ atCore core1 with trees := [(3, tree0)] } : State)
    let f := { tree0 with frozen := true }
    let u := ({ treeState (treeAt 64) [] tree0 with cur := .agent 0 } : State)
    AtCore s 0 ∧ core1.lv = 1 ∧ (core1.reg 4).toNat % 65536 = 3 ∧ (core1.reg 2).toNat % 65536 = 7 ∧ find? s.trees 3 = some tree0
    ∧ find? s.trees 7 = none ∧ tree0.frozen = false ∧ s.liveArms 3 = [] ∧ s.namesTree 3 = false ∧ s.treeUsers 3 = []
    ∧ (s.thawTree 3 f).isSome = true ∧ f.frozen = true
    ∧ (AtCore u 0 ∧ find? u.trees 7 = some tree0 ∧ (∃ e ∈ u.liveArms 7, e.1.run = .running) ∧ u.namesTree 7 = true ∧ u.treeUsers 7 = [1]
       ∧ (∀ t ∈ u.treeUsers 7, u.gang t ≠ none))
    ∧ (let v := ({ withTask { task0 with image := some { kind := 1, gang := treeAt 64, records := [], intact := true, gen := 0 } } (.agent 0)
                  with trees := [(7, f)] } : State)
       (∀ e ∈ v.liveArms 7, e.1.run = .running) ∧ v.treeUsers 7 = [1] ∧ v.gang 1 = none)
    ∧ (let q := (withBlock ([3, 0, 0, 0, 8, 0, 0, 0, 1, 0] ++ List.replicate 9 0 ++ [0x80])).flush 0 (fun _ => true)
       ∃ w, q.blockAt ((q.core 0).reg 1).toNat 64 64 = some w ∧ fieldOf w 0 2 = 3 ∧ editOfBlock tree0 w = some (8, [(0, true)])
         ∧ q.folded f 8 = false)
    ∧ (let q := (withBlock [3]).flush 0 (fun _ => true)
       ∃ w, q.blockAt ((q.core 0).reg 1).toNat 64 64 = some w ∧ fieldOf w 0 2 = 3 ∧ editOfBlock tree0 w = none)
    ∧ ((withBlock []).flush 0 (fun _ => true)).blockAt 8 64 64 = none
    ∧ memberGids tree0.members = [0] ∧ (1 ∉ memberGids tree0.members) ∧ tree0.members.length = 1
    ∧ (let q := (withBlock ([9, 0, 0, 0, 1, 0, 3, 0, 0, 0, 0, 0, 0, 0, 1, 255, 0x80, 0x10] ++ List.replicate 17 0 ++ [1]
         ++ List.replicate 95 0 ++ [0x40])).flush 0 (fun _ => true)
       ∃ w l r, q.blockAt ((q.core 0).reg 1).toNat 64 64 = some w ∧ fieldOf w 0 2 = 9 ∧ fieldOf w 8 4 ≤ 65535
         ∧ q.blockAt (fieldOf w 16 8) 64 (4 * (fieldOf w 8 4 + 1)) = some l
         ∧ treeOfBlock w ((List.range (fieldOf w 8 4 + 1)).map (fun i => fieldOf l (4 * i) 4)) = some r) :=
  ⟨rfl, rfl, rfl, rfl, rfl, rfl, rfl, rfl, rfl, rfl, rfl, rfl, ⟨rfl, rfl, ⟨_, .head _, rfl⟩, rfl, rfl, by decide⟩,
    ⟨by decide, rfl, rfl⟩, ⟨_, rfl, rfl, rfl, rfl⟩, ⟨_, rfl, rfl, rfl⟩, rfl, rfl, by decide, rfl, ⟨_, _, _, rfl, rfl, by decide, rfl, rfl⟩⟩

/-- KEYLD: a blob of 64 zero bytes that is sound under the wrapping key 0. -/
theorem witness_KeyBlob :
    (keyOfBlob 0 ([1] ++ List.replicate 79 0 ++ [147, 206, 144, 90, 166, 100, 71, 58, 252, 162, 191, 188, 48, 57, 21, 251])).isSome = true := by
  decide +kernel

set_option maxRecDepth 4000 in
theorem witness_KeyBlock :
    let q := (withBlock ([1] ++ List.replicate 79 0 ++ [147, 206, 144, 90, 166, 100, 71, 58, 252, 162, 191, 188, 48, 57, 21, 251])).flush 0 (fun _ => true)
    (q.pkg 0).wrapKey = 0 ∧ q.agentBlock ((q.core 0).reg 1).toNat 1 96
      = some ([1] ++ List.replicate 79 0 ++ [147, 206, 144, 90, 166, 100, 71, 58, 252, 162, 191, 188, 48, 57, 21, 251]) := by
  decide +kernel

/-! Effects that fall due, events of tiles and tasks. -/

/-- Tile 0 at an event with one effect due, another one due later, in a gang with a second tile's effect due too. -/
def dueGang (x : Tile) (j : Job) : Gang :=
  let o : Origin := { gid := 0, slot := 1, addr := 0, issue := 0, buf := 0 }
  { gangOf x with lcyc := 5, dues := [{ due := 6, o := o, job := .fmt 0 }, { due := 5, o := o, job := j },
                                      { due := 5, o := { o with gid := 1 }, job := .fmt 1 }] }

theorem soleDue_at (x : Tile) (j : Job) : ∃ h d, SoleDue (atEvent (dueGang x j)) 1 0 (dueGang x j) h d ∧ d.job = j := by
  refine ⟨_, _, ⟨rfl, rfl, Nat.le_refl 5, rfl, [_], [_], rfl, rfl, ?_⟩, rfl⟩
  intro e he hd
  simp only [List.cons_append, List.nil_append, List.mem_cons, List.not_mem_nil, or_false] at he
  rcases he with rfl | rfl
  · exact absurd hd (show ¬(6 ≤ 5) by decide)
  · decide

/-- The effect of an operation of tile 0 of a slot, due at once. -/
def dueNow (slot : Nat) (j : Job) : Due := { due := 0, o := { gid := 0, slot := slot, addr := 0, issue := 0, buf := 0 }, job := j }

/-- Two effects due, of a D slot and of an S slot, which goes before it. -/
def dueTwice (j k : Job) : Gang := { gangOf tile0 with dues := [dueNow 6 j, dueNow 1 k] }

theorem twoDue_at (j k : Job) : TwoDue (atEvent (dueTwice j k)) 1 0 (dueTwice j k) (dueNow 6 j) (dueNow 1 k) :=
  ⟨rfl, rfl, Nat.le_refl 0, Nat.le_refl 0, rfl, rfl,
    (by decide : ({ gid := 0, slot := 6, addr := 0, issue := 0, buf := 0 } : Origin).rank
      < ({ gid := 0, slot := 1, addr := 0, issue := 0, buf := 0 } : Origin).rank), .inl rfl⟩

/-- ResultsLand: a result of each kind due, in the last register, for a bound and an unbound k register; two results for one scalar
register, predicate, entry and mask. -/
theorem witness_ResultsLand :
    (∀ j : Job, ∃ h d, SoleDue (atEvent (dueGang tile0 j)) 1 0 (dueGang tile0 j) h d ∧ d.job = j) ∧ 31 < 32
    ∧ (let x := { tile0 with kbind := [(0, { chs := 63, chr := 127 })] }; (x.bound (0x20 - 32)).chs = 63 ∧ (x.bound (0x27 - 32)).chs = 127)
    ∧ (∀ j k : Job, TwoDue (atEvent (dueTwice j k)) 1 0 (dueTwice j k) (dueNow 6 j) (dueNow 1 k))
    ∧ (1 : BitVec 1024) &&& 3 ≠ 0 ∧ (1 : BitVec 128) &&& 3 ≠ 0 :=
  ⟨soleDue_at tile0, by decide, ⟨rfl, rfl⟩, twoDue_at, fun h => by simpa using congrArg (fun b => b.getLsbD 0) h,
    fun h => by simpa using congrArg (fun b => b.getLsbD 0) h⟩

/-- AccessesPerform: the same of a tile of the gang; a full and an empty FIFO; a held group and one that is not; an element that departs in
its slot cycle, one pushed in this cycle, one after the last one by less than its beats, one in no slot cycle; a way without stray
output and with one. -/
theorem witness_AccessesPerform :
    let c : Chan := { mode := 1, esz := 0, depth := 0, peer := 0, pch := 1, first := 5, per := 8, lat := 1 }
    let e : Elem := { data := [], pushed := 4 }
    let x : Tile := { banked with chans := [(0, c)], fifos := [(0, { elems := [e], departed := some 4 })] }
    let g := dueGang x (.fmt 0)
    (∀ j : Job, ∃ h d, SoleDue (atEvent (dueGang x j)) 1 0 (dueGang x j) h d ∧ d.job = j) ∧ g.tile 0 = some x ∧ x.gid = 0
    ∧ x.group 0 ≠ [] ∧ x.group 1 = [] ∧ (x.chan 0).depth < (x.fifo 0).elems.length ∧ (x.fifo 1).elems.length ≤ (x.chan 1).depth
    ∧ AtEvent (atEvent g) 1 0 ∧ c = x.chan 0 ∧ (x.fifo 0).elems = [e] ∧ (5 % 256 + 256 - c.first % 256) % 2 ^ c.per = 0
    ∧ (6 % 256 + 256 - c.first % 256) % 2 ^ c.per ≠ 0 ∧ e.pushed + 1 ≤ 5 ∧ 4 + c.beats ≤ 5 ∧ 4 < 4 + c.beats ∧ (x.fifo 1).elems = []
    ∧ Cfg.single.strayAt g 64 64 5 = none
    ∧ ({ Cfg.single with paths := [(0, 1, [{ router := 0, output := 0, input := 3, after := 2 }])] } : Cfg).strayAt g 0 1 5 = some 7
    ∧ (∀ f : Factor, ({ x with factor := some f } : Tile).factor = some f) :=
  ⟨soleDue_at _, rfl, rfl, by decide, rfl, by decide, by decide, rfl, rfl, rfl, by decide, by decide, by decide, by decide, by decide, rfl,
    rfl, rfl, fun _ => rfl⟩

/-- A stream of one bundle: its header at OFFSET 0 with a NOP in slot C. -/
def streaming : Tile := { tile0 with code := [(0, 1)] }

/-- A tile that waits for a SYNC of its level. -/
def waiting (quiet : Bool) : Tile :=
  { streaming with wait := some { level := 4, number := 1, issue := 0, quiet := quiet }, syncs := [(4, 1)] }

/-- SequencerEvents: a bundle due now, one due later, one past the end of the stream, one that is not after the last one; a HALT with an
open region and without; repeats left; a fault to take, and none; quiescence 16,385 cycles ago and 16,384; a SYNC of a gang of one tile,
and one whose other member has not arrived; a drain that it reaches and one that it does not; a bank that switches now and later; a
failed region. -/
theorem witness_SequencerEvents :
    (AtEvent (atEvent (gangOf streaming)) 1 0 ∧ (atEvent (gangOf streaming)).gang 1 = some (gangOf streaming)
    ∧ (gangOf streaming).tile 0 = some streaming ∧ streaming.gid = 0 ∧ streaming.halted = none ∧ streaming.trapped = none
    ∧ streaming.active = none ∧ streaming.wait = none ∧ streaming.firstCycle ≤ 0 ∧ streaming.pastEnd = false
    ∧ (0 : Nat) < ({ streaming with base := 1 } : Tile).firstCycle ∧ ({ streaming with pc := 8 } : Tile).pastEnd = true
    ∧ streaming.refusal (streaming.bundleAt 0) 0 0 = none ∧ ({ streaming with last := 0 } : Tile).refusal (streaming.bundleAt 0) 0 0 = some (2, 1)
    ∧ streaming.runsOut (streaming.bundleAt 0) = false ∧ (streaming.bundleAt 0).isHalt = false)
    ∧ (let x := { tile0 with code := [(0, 0x81), (1, 0x10000000)], depth := 1 }
       (x.bundleAt 0).isHalt = true ∧ x.refusal (x.bundleAt 0) 0 0 = none ∧ x.runsOut (x.bundleAt 0) = false ∧ x.depth ≠ 0 ∧ x.banksHeld = 0)
    ∧ (issuing streaming bundle0).active = some bundle0
    ∧ ({ streaming with fault := { FaultRec.empty with v := true } } : Tile).fault.v = true ∧ streaming.fault.v = false
    ∧ streaming.overdue = none ∧ streaming.quietAt + max 256 streaming.qbound < 16385 ∧ 16384 ≤ streaming.quietAt + max 256 streaming.qbound
    ∧ (let x := waiting true
       let g := { gangOf x with drain := some (0, 100) }
       let y := { waiting false with gid := 1, wait := none }
       let h := { gangOf x with tiles := [(0, x), (1, y)], t := 2 }
       x.wait = some { level := 4, number := 1, issue := 0, quiet := true }
       ∧ (∀ z ∈ syncMembers g x { level := 4, number := 1, issue := 0, quiet := true },
           z.halted ≠ none ∨ ∃ v, z.wait = some v ∧ v.level = 4 ∧ v.number = 1)
       ∧ (∀ z ∈ syncMembers g x { level := 4, number := 1, issue := 0, quiet := true }, ∀ v, z.wait = some v → v.quiet = true
           ∧ z.busyTo < (0 + 48 : Int) ∧ z.addrTo < (0 + 48 : Int) ∧ z.arms.any (·.live) = false)
       ∧ (∃ z ∈ syncMembers h x { level := 4, number := 1, issue := 0, quiet := true }, z.halted = none ∧ z.wait = none)
       ∧ g.drain = some (0, 100) ∧ (gangOf x).drain = none)
    ∧ (let g := { gangOf streaming with phase := some (1, 0) }
       (atEvent g).gang 1 = some g ∧ g.phase = some (1, 0) ∧ ({ g with phase := some (1, 256) } : Gang).phase = some (1, 256))
    ∧ (let x := { streaming with depth := 1, regions := [(0, { region0 with failed := true })] }; x.failedRegion = some 0)
    ∧ streaming.failedRegion = none := by
  refine ⟨⟨rfl, rfl, rfl, rfl, rfl, rfl, rfl, rfl, by decide, rfl, by decide, rfl, rfl, rfl, rfl, rfl⟩, by decide, rfl, rfl, rfl, rfl, by decide,
    by decide, ⟨rfl, ?_, ?_, ⟨_, .tail _ (.head _), rfl, rfl⟩, rfl, rfl⟩, ⟨rfl, rfl, rfl⟩, rfl, rfl⟩
  · intro z hz
    rw [show syncMembers _ _ _ = [waiting true] from rfl, List.mem_singleton] at hz
    subst hz
    exact .inr ⟨_, rfl, rfl, rfl⟩
  · intro z hz v hv
    rw [show syncMembers _ _ _ = [waiting true] from rfl, List.mem_singleton] at hz
    subst hz
    cases hv
    decide

/-- A hold of a cause whose target is this cycle. -/
def holding (cause : Nat) : Gang := { gangOf tile0 with holds := [{ cause := cause, ta := 0, th := 0, gid := 0, buf := 64 }] }

def frozenFor (cause : Nat) : Gang := { holding cause with run := .frozen 0 }

/-- Holds and drains of TaskLifeEvents: a hold of each cause due, with the tiles halted and not, with a bad table, with a mode to come; a
resumption that is due and one that is not resolved; a drain point, one with a fault; a limit that ends with this cycle; each outcome of
a save. -/
theorem witness_HoldsAndDrains :
    (∀ c ∈ [0, 1, 2, 3, 4, 5], (holding c).dueHolds ≠ [] ∧ (holding c).isHeld = false ∧ (holding c).allHalted = false
      ∧ (∀ k < 6, (holding c).holdsFor k = decide (c = k)) ∧ (holding c).dctlNext = none)
    ∧ ({ holding 3 with dctlNext := some 1 } : Gang).dctlNext = some 1 ∧ ({ holding 1 with tableBad := true } : Gang).tableBad = true
    ∧ ({ holding 3 with tiles := [(0, { tile0 with halted := some 0 })] } : Gang).allHalted = true ∧ (gangOf tile0).dueHolds = []
    ∧ AtEvent (atEvent (holding 3)) 1 0 ∧ (atEvent (holding 3)).gang 1 = some (holding 3)
    ∧ (atEvent (holding 3)).task 1 = some { task0 with gang := some (holding 3) }
    ∧ bitAt ({ holding 5 with dctl := 16 } : Gang).dctl 4 = true ∧ bitAt (holding 5).dctl 4 = false
    ∧ ({ desc0 with flags := 2 } : TaskDesc).fimg = true ∧ desc0.fimg = false
    ∧ (let g := { frozenFor 2 with resumeAt := some 0 }
       let s := { withTask { task0 with st := .held, gang := some g } (.event 1 0) with wall := 0 }
       s.gang 1 = some g ∧ g.resolved = true ∧ g.run = .frozen 0 ∧ g.resumeAt = some 0 ∧ (0 : Nat) ≤ s.wall ∧ s.trees = [])
    ∧ (frozenFor 5).resolved = false
    ∧ (let g := { gangOf tile0 with stopAt := some 0 }
       (atEvent g).gang 1 = some g ∧ g.isHeld = false ∧ g.tiles.any (fun e => e.2.fault.v) = false)
    ∧ (let g := { gangOf { tile0 with fault := { FaultRec.empty with v := true } } with stopAt := some 0 }
       (atEvent g).gang 1 = some g ∧ g.tiles.any (fun e => e.2.fault.v) = true)
    ∧ (let g := { gangOf tile0 with lcyc := 99, drain := some (0, 100) }
       (atEvent g).gang 1 = some g ∧ g.stopAt = none ∧ (0 : Nat) + 100 ≤ g.lcyc + 1)
    ∧ (∀ k n : Nat, let x := { task0 with st := .saving k n, gang := some (gangOf tile0) }
       (withTask x (.outside [1])).gang 1 = some (gangOf tile0) ∧ (withTask x (.outside [1])).task 1 = some x ∧ x.st = .saving k n) :=
  ⟨by decide, rfl, rfl, rfl, rfl, rfl, rfl, rfl, by decide, by decide, by decide, by decide, ⟨rfl, rfl, rfl, rfl, by decide, rfl⟩, rfl,
    ⟨rfl, rfl, rfl⟩, ⟨rfl, rfl⟩, ⟨rfl, rfl, by decide⟩, fun _ _ => ⟨rfl, rfl, rfl⟩⟩

/-- An image of one tile, its stream and its control table at offset 64 (R140 to R142). -/
def imageBytes : List Nat :=
  [0x4A, 0x53, 0x38, 0x49, 1, 0, 1, 0, 1, 1, 2, 0] ++ List.replicate 28 0 ++ [0x40, 0x40] ++ List.replicate 22 0
    ++ [1, 0, 0, 0, 255, 255, 0, 0, 64, 0, 0, 0, 4, 0, 0, 0] ++ [2, 0, 0, 0, 255, 255, 0, 0, 64, 0, 0, 0, 0, 64]

def queued : Task := { task0 with st := .queued }

def launching (x : Task) : State :=
  { withTask x (.outside [1]) with dev := writeBytes [] 0 (imageBytes.map (BitVec.ofNat 8)) }

set_option maxRecDepth 100000 in
/-- TASK_LAUNCH of TaskLifeEvents: an image that can be read and is sound, for any placement and for one that it does not list; none where
nothing lies; a placement that is free and its turn, and with another task on the tile none. -/
theorem witness_Launch :
    let b := ((launching queued).imageAt 0).getD []
    let v := imageView b
    ((launching queued).imageAt 0).isSome = true ∧ (withTask queued (.outside [1])).imageAt 0 = none
    ∧ (launching queued).launchable 255 0xFF b = true ∧ (launching queued).launchable 255 5 b = false
    ∧ ((launching queued).freePlaces queued v.shape none).filter ((launching queued).itsTurn queued v.t) = [([0], 0)]
    ∧ (let s := { launching queued with tasks := [(1, queued), (2, { task0 with id := 2, gang := some (gangOf tile0) })] }
       (s.freePlaces queued v.shape none).filter (s.itsTurn queued v.t) = [])
    ∧ v.entries = [] ∧ (launching queued).cfg.verified = true ∧ queued.desc.fmap = 0
    ∧ (launching queued).pickFrames queued [0] [] [] = some [] ∧ (launching queued).pickFrames queued [0] [] [2 ^ 54] = none := by decide +kernel

/-- The one placement is the one chosen, whatever the free value. -/
theorem witness_LaunchChoice (n : Nat) : [(([0], 0) : List Nat × Nat)][Config.choice n % 1]? = some ([0], 0) := by
  simp [Nat.mod_one]

/-- Restores, the retirement and the queue of TaskLifeEvents: a drain image and a freeze image of a gang without records, one that is not
intact; a gang that has halted and one that has not; a record for a queue of 16 slots with room, and none. -/
theorem witness_RestoreRetireRecord :
    (∀ k ∈ [1, 2], let i : Image := { kind := k, gang := gangOf tile0, records := [], intact := true, gen := 0 }
      let x := { queued with image := some i }
      let s := withTask x (.outside [1])
      s.task 1 = some x ∧ i.records.all FlightRec.ok = true ∧ (gangOf tile0).tiles.all (fun e => s.armsOk x.fn (gangOf tile0).t e.2.armList) = true
      ∧ s.restoreReady x = true ∧ s.restorePlace x (gangOf tile0) = some ([0], 0) ∧ s.trees = [] ∧ x.desc.snaprst = false)
    ∧ (let i : Image := { kind := 1, gang := gangOf tile0, records := [], intact := false, gen := 0 }; i.intact = false)
    ∧ ({ desc0 with flags := 1 } : TaskDesc).snaprst = true ∧ (gangOf tile0).genDomains = []
    ∧ (let g := gangOf { tile0 with halted := some 0 }; AtEvent (atEvent g) 1 0 ∧ (atEvent g).canRetire 1 g = true)
    ∧ (atEvent (gangOf tile0)).canRetire 1 (gangOf tile0) = false
    ∧ (let r : CplRec := { kind := 3, status := 0, id := 0, osig := 0, ltime := 0, wtime := 0, flags := 0, raw := none }
       let f := { Fn.reset with cqsize := 4, pending := [r], cqtail := 15 }
       f.pending = [r] ∧ f.room ≠ 0 ∧ ({ f with cqtail := 16 } : Fn).room = 0 ∧ r.irq = false ∧ ({ r with flags := 1 } : CplRec).irq = true)
    ∧ Fn.reset.pending = [] :=
  ⟨by decide +kernel, rfl, by decide, rfl, ⟨rfl, rfl⟩, rfl, ⟨rfl, by decide, by decide, rfl, rfl⟩, rfl⟩

/-- A gang whose task is to be decided on, with the task that wants its tiles. -/
def deciding (g : Gang) (prio : Nat) : State :=
  { launching queued with
    cur := .event 1 0
    tasks := [(1, { task0 with gang := some g, redecide := some 0 }), (2, { queued with id := 2, desc := { desc0 with prio := prio } })] }

/-- The scheduler of SchedulerAndDebugger: the whole partition of package 0 and none; a task to decide on again now; no candidate, one of
the same priority, one of a higher one that wants the tiles; a hot package; a claimed gang; an estimate of an eighth of a slice and one
cycle more; policies; priorities three and four levels apart. -/
theorem witness_Scheduler :
    find? State.reset.parts 0 = some (Partition.whole 0) ∧ find? State.reset.parts 1 = none
    ∧ (let s := deciding (gangOf tile0) 4
       AtEvent s 1 0 ∧ (s.task 1).isSome = true ∧ s.gang 1 = some (gangOf tile0) ∧ (0 : Nat) ≤ s.wall
       ∧ (s.parts.find? (fun e => (s.tasksOf e.2).any (fun y => y.id == 1))).isSome = true
       ∧ s.wants { queued with id := 2, desc := { desc0 with prio := 4 } } (gangOf tile0) = true)
    ∧ (∀ p ∈ (gangOf tile0).pkgs, (State.reset.pkg p).pewter.hotWarn = false)
    ∧ (∃ p ∈ (gangOf tile0).pkgs, ((pewtered State.reset 0 { Pewter.reset with hotWarn := true }).pkg p).pewter.hotWarn = true)
    ∧ bitAt (gangOf tile0).dctl 4 = false ∧ (gangOf tile0).dctl % 8 = 0 ∧ bitAt ({ gangOf tile0 with dctl := 16 } : Gang).dctl 4 = true
    ∧ ({ queued with desc := { desc0 with prio := 3 } } : Task).effective ≤ task0.desc.prio + 3
    ∧ task0.desc.prio + 3 < ({ queued with desc := { desc0 with prio := 4 } } : Task).effective
    ∧ bitAt 2 1 = true ∧ bitAt 2 2 = false ∧ bitAt 6 2 = true ∧ (gangOf tile0).drain = none ∧ (gangOf tile0).holds = [] := by
  refine ⟨rfl, rfl, ⟨rfl, rfl, rfl, by decide, by decide +kernel, by decide +kernel⟩, by decide, ⟨0, .head _, rfl⟩, by decide, by decide, by decide, by decide, by decide, by decide, by decide,
    by decide, rfl, rfl⟩

/-- The debugger of SchedulerAndDebugger: a debug hold in step mode, a fault hold, a running gang; a claim that is dropped; each register
of a physical tile, one without a task; a task with a snapshot and one with an image alone; edits at their limits. -/
theorem witness_Debugger :
    (∀ c ∈ [3, 5], let g : Gang := { frozenFor c with dctl := 1 }
       let x : Task := { task0 with st := .held, gang := some g }
       (withTask x (.outside [1])).gang 1 = some g ∧ (withTask x (.outside [1])).task 1 = some x ∧ g.dctl % 8 = 1 ∧ g.holdsFor 4 = false
       ∧ g.holdsFor 5 = decide (c = 5) ∧ g.holdsFor 3 = decide (c = 3) ∧ ((withTask x (.outside [1])).thawAll 1).isSome = true)
    ∧ (let s := atEvent (gangOf tile0); (s.task 1).isSome = true ∧ s.tileAt 0 0 = some (1, 0) ∧ s.tileAt 0 31 = none)
    ∧ bitAt 17 4 = true ∧ bitAt 1 4 = false ∧ 17 % 8 < 3 ∧ 3 ≤ 19 % 8
    ∧ (let i : Image := { kind := 2, gang := gangOf tile0, records := [], intact := true, gen := 0 }
       ({ task0 with st := .held, gang := some (gangOf tile0), snap := some i } : Task).snap ≠ none ∧ ({ task0 with image := some i } : Task).gang = none)
    ∧ (gangOf tile0).tile 0 = some tile0 ∧ 7 < 4 * tile0.codeLen ∧ 4 * tile0.codeLen = 8 ∧ 4 < 4 * tile0.codeLen ∧ 4 % 4 = 0 ∧ 6 % 4 ≠ 0
    ∧ 15 < ({ tile0 with size := 16 } : Tile).size :=
  ⟨by decide +kernel, by decide +kernel, by decide, by decide, by decide, by decide, ⟨by decide, rfl⟩, rfl, by decide, by decide, by decide,
    by decide, by decide, by decide⟩

/-- A generation of one page without bad words, with one part to drain. -/
def gen0 (left : List (Nat × Nat)) : Gen := { task := 1, dom := 1, number := 1, pages := [], old := [], bad := [], left := left, ops := [], blocks := [] }

/-- The units of UnitsTreesEngines: a nest that ends now, with and without one pending; a factorisation before and at its end, and one
that starts; a snapshot ahead, now and 600 cycles old, for each status; a question in each of its cycles. -/
theorem witness_Units :
    (let x := { banked with nest := some { running with t0 := 0 }, nestPending := some running }
     let g := { gangOf x with lcyc := 1 }
     AtEvent (atEvent g) 1 0 ∧ (atEvent g).gang 1 = some g ∧ g.tile 0 = some x ∧ x.nest = some { running with t0 := 0 }
     ∧ x.nestPending = some running ∧ ({ running with t0 := 0 } : Nest).t0 + running.steps ≤ g.lcyc ∧ 1 ≤ running.steps
     ∧ (∀ d ∈ g.dues, d.due ≤ g.lcyc → d.o.gid ≠ 0))
    ∧ (∃ w, ({ running with t0 := 9 } : Nest).groupAt 0 = some w) ∧ running.groupAt 0 = none
    ∧ (let f : Factor := Factor.new 1 0 { off := 0, edge := 1, pitch := 2 } TileDesc.none { gid := 0, slot := 5, addr := 0, issue := 0, buf := 0 }
       f.end_ = 11 ∧ (0 : Nat) < f.end_ ∧ f.kind ≠ 5 ∧ 1 ≤ f.stepCycles)
    ∧ (let q : SnapReq := { dom := 1, t := 0, c := 64, code := 31, gid := 0, addr := 0, status := 0, g := 1 }
       let g := { gangOf tile0 with snaps := [q], lcyc := 664 }
       g.snaps = [q] ∧ q.c + 600 ≤ g.lcyc ∧ q.code < 32 ∧ (∀ e ∈ g.snaps, e.c ≠ g.lcyc)
       ∧ ({ g with lcyc := 64 } : Gang).snaps = [q] ∧ q.c = 64 ∧ ((atEvent g).liveGens 1 1).length < 4 ∧ g.domainStacks 1 = [])
    ∧ (let q : GenqReq := { dom := 1, t := 0, code := 31, gid := 0, addr := 0, left := [(0, 66)], live := 0, blocks := 0, g := 1 }
       let g := { gangOf tile0 with genqs := [q], lcyc := 600 }; g.genqs = [q] ∧ q.t + 600 ≤ g.lcyc)
    ∧ (∃ e es, ({ atEvent (gangOf tile0) with gens := [gen0 [(0, 5)]] } : State).gens.filter
        (fun e => e.task == 1 && e.dom == 1 && e.left.any (fun p => p.1 == 0)) = e :: es ∧ e.left.find? (fun p => p.1 == 0) = some (0, 5))
    ∧ (atEvent (gangOf tile0)).trees = [] ∧ ({ tree0 with frozen := true } : Tree).frozen = true := by
  refine ⟨⟨rfl, rfl, rfl, rfl, rfl, by decide, by decide, by decide⟩, ⟨_, rfl⟩, rfl, ⟨rfl, by decide, by decide, by decide⟩,
    ⟨rfl, by decide, by decide, by decide, rfl, rfl, by decide, rfl⟩, ⟨rfl, by decide⟩, ⟨_, _, rfl, rfl⟩, rfl, rfl⟩

/-- The engines of UnitsTreesEngines: a generation whose last part drains, one with another part, none; each wait, before and at its
end; a copy before its start, with a beat to move and at its end; a scrub at its first and its last unit, and of a mapped frame. -/
theorem witness_Engines :
    (∀ l ∈ [[], [(0, 5)], [(0, 5), (1, 5)]], let s := { atOutside [1, 1, 0] with gens := [gen0 l] }
       AtOutside s [1, 1, 0] ∧ s.gens.find? (fun g => g.task == 1 && g.dom == 1 && (g.left.isEmpty || s.draining 0 == some g)) = some (gen0 l)
       ∧ s.gens.find? (fun g => g.task == 1 && g.dom == 2 && (g.left.isEmpty || s.draining 0 == some g)) = none)
    ∧ (∀ w : Wait, let y := { core1 with wait := some w }
       let s := { atCore y with cur := .outside [0] }; AtOutside s [0] ∧ y = s.core 0 ∧ y.wait = some w)
    ∧ 0 ≤ (atCore core1).ctxTime 0 3 ∧ (atCore core1).ctxTime 0 3 < 1 ∧ (core1.ctx 3).openBatches ≤ 0
    ∧ (∀ st a, let o : CopyOp := { n := 1, dst := 0, src := 64, len := 1, bar := none, arv := false, lv := 1, fn := 255, started := st, at_ := a, refused := false }
       let y := { core1 with ctxs := [(3, { Ctx.reset with sub := 1, ops := [o] })] }
       let s := { atCore y with cur := .outside [0, 3] }; AtOutside s [0, 3] ∧ ((s.core 0).ctx 3).ops = [o])
    ∧ (let j : ScrubJob := { tiles := 1, frames := [1], done := 0 }
       let s := { withGang { gangOf paged with table := [(0, page0)] } (.outside [0]) with pkgs := [(0, { Pkg.reset with scrub := some j })] }
       AtOutside s [0] ∧ (s.pkg 0).scrub = some j ∧ 1 < j.total ∧ ({ j with done := j.total - 1 } : ScrubJob).done + 1 = j.total
       ∧ j.frame.any s.frameMapped = false ∧ ({ j with done := 1 } : ScrubJob).frame.any s.frameMapped = true
       ∧ j.done < popCount 32 j.tiles ∧ ({ j with done := 1 } : ScrubJob).done = popCount 32 j.tiles + 0) := by
  refine ⟨?_, fun _ => ⟨rfl, rfl, rfl⟩, by decide, by decide, by decide, fun _ _ => ⟨rfl, rfl⟩,
    ⟨rfl, rfl, by decide, by decide, rfl, by decide +kernel, by decide, by decide⟩⟩
  intro l hl
  simp only [List.mem_cons, List.not_mem_nil, or_false] at hl
  rcases hl with rfl | rfl | rfl <;> exact ⟨rfl, rfl, rfl⟩

/-- The move of UnitsTreesEngines. -/
theorem witness_MoveCompletes :
    let m : Migration := { task := 1, va := 0, dst := 0x400000, key := 0, entry := 0 }
    let i : Image := { kind := 1, gang := { gangOf paged with table := [(0, page0)] }, records := [], intact := true, gen := 0 }
    let x := { task0 with image := some i, st := .parked }
    let s := { withTask x (.outside [0]) with migrations := [m] }
    AtOutside s [0] ∧ s.migrations[0]? = some m ∧ s.migrations[1]? = none ∧ s.task m.task = some x ∧ x.image = some i
    ∧ look 0 i.gang.table m.entry = page0 ∧ (withTask { x with image := none } (.outside [0])).task 1 = some { x with image := none } :=
  ⟨rfl, rfl, rfl, rfl, rfl, rfl, rfl⟩

/-- A flit of zeros as it comes over a link of 16 lanes. -/
def zeroFlit : List Nat := List.replicate 384 0

/-- OutsideEvents: parameters of each request at its limits. Whether a signature or a peer's finish holds is a free value of the
configuration: those clauses are met by whichever value it has. -/
theorem witness_OutsideEvents :
    (∀ as : List Nat, AtOutside (atOutside as) as)
    ∧ (∃ p, State.reset.partitionAs 1 0 62 0 = some p) ∧ State.reset.partitionAs 1 0 64 0 = none
    ∧ State.reset.tilesApart 0 0 0xFFFFFFFF = true ∧ State.reset.tilesApart 1 0 1 = false
    ∧ (0 : Nat) < State.reset.cfg.packages ∧ State.reset.cfg.packages ≤ 1 ∧ 24575 + 1 ≤ 24576
    ∧ State.reset.cfg.reserved.contains 5 = false ∧ (find? State.reset.grants 5).getD 3 = 3
    ∧ State.reset.devExists (stackLimit - 1) = true ∧ State.reset.devExists stackLimit = false
    ∧ (let l : LogEntry := { wtime := 0, sev := 0, unit := 0, place := 0, task := 0, addr := 0, code := 0 }
       ((pewtered (atOutside [0, 0]) 0 { Pewter.reset with log := [l] }).pkg 0).pewter.log[0]? = some l)
    ∧ ((atOutside [0, 0]).pkg 0).pewter.log[0]? = none
    ∧ (Config.sm2Valid 0 0 = true ∨ Config.sm2Valid 0 0 = false) ∧ (Config.spdmPeerValid 0 = true ∨ Config.spdmPeerValid 0 = false)
    ∧ ((State.reset.pkg 0).pewter.minVersion ≤ 0) ∧ (State.reset.pkg 0).pewter.spdm.version = false
    ∧ (let x := State.reset.link 0 0
       x.next = none ∧ x.drop = 0 ∧ bitAt x.drop 15 = false ∧ ({ x with next := some 255 } : Link).wanted ≠ 0
       ∧ ({ x with next := some 0 } : Link).wanted = 0 ∧ ({ x with drop := 1 } : Link).wanted ≠ 0)
    ∧ State.reset.widthReady 0 0 = true
    ∧ (let g := { holding 4 with holds := [{ cause := 4, ta := 0, th := 9, gid := linkId 0 0, buf := 64 }] }; (atEvent g).widthReady 0 0 = false)
    ∧ (let s := { atOutside [3, 1, 0, 64, 0, 0] with grants := [(5, 3)] }
       s.grantedFrame 3 0 = some 5 ∧ s.frameQuarantined 5 = false ∧ s.grantedFrame 3 1 = none)
    ∧ State.reset.hostMode = 1 ∧ ({ State.reset with hdm := hdmOf [2 ^ 40, 2 ^ 30, 0] } : State).hdmAddr (2 ^ 40) = some 0 ∧ State.reset.hdmAddr 0 = none ∧ State.reset.hostUncached 0 = false
    ∧ csrDefined 0x007 = false ∧ csrReadOnly 0x000 = true ∧ csrDefined 0x041 = true ∧ csrReadOnly 0x041 = false
    ∧ (let c : Spdm := { version := true, caps := true, algs := true, session := 1, authed := false }; c.caps = true ∧ c.algs = true ∧ c.session ≠ 0)
    ∧ bitAt 512 9 = true ∧ bitAt 64 6 = true ∧ bitAt 2 1 = true ∧ bitAt 8 1 = false ∧ bitAt 8 3 = true := by
  refine ⟨fun _ => rfl, ⟨_, rfl⟩, rfl, by decide, by decide, by decide, by decide, by decide, by decide, by decide, by decide, by decide, rfl, rfl,
    ?_, ?_, by decide, rfl, by decide, rfl, by decide, by decide, rfl, ?_, ?_, rfl, rfl, rfl, rfl, rfl, by decide, rfl, rfl, rfl, rfl, rfl⟩
  · cases Config.sm2Valid 0 0 <;> simp
  · cases Config.spdmPeerValid 0 <;> simp
  · decide
  · decide

set_option maxRecDepth 100000 in
/-- The flits of OutsideEvents: one as it was sent, one with an error that its code corrects, one that it does not; over 16 lanes. -/
theorem witness_Flits :
    (flitDecode (unstripe 16 (stripe 16 zeroFlit))).map (·.2) = some [] ∧ ((flitDecode (zeroFlit.set 5 1)).map (·.2.length)) = some 1
    ∧ flitDecode ((List.range 384).map (fun i => if i < 40 then 1 else 0)) = none := by decide +kernel

/-- IssueChangesNoResult: a slot of each kind, with an instruction that goes on. -/
theorem witness_IssueChangesNoResult :
    AtTile (atSlot 1 tile0) 1 0 1 0 0 (gangOf tile0) tile0 ∧ tile0.gid = 0 ∧ (Instr.add 1 2 3 0 0).standsIn .s = true
    ∧ (∀ a, Instr.add 1 2 3 0 0 ≠ .tlaunch a) ∧ (∀ b h r a, Instr.add 1 2 3 0 0 ≠ .tarm b h r a)
    ∧ (∃ u, exec (.add 1 2 3 0 0) (atSlot 1 tile0) = .next u) ∧ (Instr.halt).standsIn .c = true ∧ (Instr.xrot 1 2 3).standsIn .x = true
    ∧ (Instr.mgo).standsIn .m = true ∧ (Instr.genq 0 1 1).standsIn .d = true ∧ (Instr.vadd (two 10)).standsIn .v = true :=
  ⟨atSlot_at 1 tile0 rfl, rfl, rfl, by simp, by simp, ⟨_, rfl⟩, rfl, rfl, rfl, rfl, rfl⟩

/-! ### One step, against values that the spec works out -/

/-- What a core is after an outcome. -/
def coreAfter (o : Host.Outcome State Fault Refusal) : AgentCore :=
  match o with
  | .next t => t.core 0
  | _ => AgentCore.reset

/-- What the gang of task 1 has due after an outcome. -/
def duesAfter (o : Host.Outcome State Fault Refusal) : List Job :=
  match o with
  | .next t => (match t.gang 1 with
    | some g => g.dues.map (·.job)
    | none => [])
  | _ => []

def coreWith (l : List (Nat × Nat)) : State := atCore { AgentCore.reset with s := words l }

/-- The last LIMMH of the example of 08 builds 0x0123456789ABCDEF. -/
theorem test_limmh : (coreAfter (exec (.limmh 7 0x3CDEF) (coreWith [(7, 0x2468ACF135)]))).reg 7 = 0x0123456789ABCDEF := by decide

/-- R171: a quotient by zero is all ones, a remainder by zero the dividend, -2^63 by -1 wraps. -/
theorem test_div_corners :
    (coreAfter (exec (.div 3 1 0 0 0) (coreWith [(1, 5)]))).reg 3 = 0xFFFFFFFFFFFFFFFF
    ∧ (coreAfter (exec (.remn 3 1 0 0 0) (coreWith [(1, 5)]))).reg 3 = 5
    ∧ (coreAfter (exec (.div 3 1 2 0 0) (coreWith [(1, 2 ^ 63), (2, 2 ^ 64 - 1)]))).reg 3 = 0x8000000000000000
    ∧ (coreAfter (exec (.rem 3 1 2 0 0) (coreWith [(1, 2 ^ 63), (2, 2 ^ 64 - 1)]))).reg 3 = 0 := by decide

theorem test_signs :
    (coreAfter (exec (.mulh 3 1 2 0 0) (coreWith [(1, 2 ^ 64 - 1), (2, 2)]))).reg 3 = 0xFFFFFFFFFFFFFFFF
    ∧ (coreAfter (exec (.mulhn 3 1 2 0 0) (coreWith [(1, 2 ^ 64 - 1), (2, 2)]))).reg 3 = 1
    ∧ (coreAfter (exec (.slt 3 1 2 0 0) (coreWith [(1, 2 ^ 63), (2, 1)]))).reg 3 = 1
    ∧ (coreAfter (exec (.sltn 3 1 2 0 0) (coreWith [(1, 2 ^ 63), (2, 1)]))).reg 3 = 0
    ∧ (coreAfter (exec (.addi 3 1 0x1FFF) (coreWith [(1, 5)]))).reg 3 = 4
    ∧ (coreAfter (exec (.shl 3 1 2 0 0) (coreWith [(1, 1), (2, 65)]))).reg 3 = 2
    ∧ (coreAfter (exec (.sha 3 1 2 0 0) (coreWith [(1, 2 ^ 63), (2, 63)]))).reg 3 = 0xFFFFFFFFFFFFFFFF := by decide

/-- s0 discards a write (R109); a source that is the destination is read before it is written; BR counts words from its own address. -/
theorem test_core_moves :
    (coreAfter (exec (.add 0 1 1 0 0) (coreWith [(1, 5)]))).reg 0 = 0 ∧ (coreAfter (exec (.add 1 1 1 0 0) (coreWith [(1, 5)]))).reg 1 = 10
    ∧ (coreAfter (exec (.br 0 0 0x1FFFFE) (coreWith []))).pc = 0x7FFFFFFFFFF8 ∧ (coreAfter (exec (.call 5 3) (coreWith []))).reg 5 = 0x800000000004
    ∧ (coreAfter (exec (.call 5 3) (coreWith []))).pc = 0x80000000000C := by decide

/-- LDS.SH extends the sign; LDA misaligned raises cause 3 with its own address (R379, R380, R386). -/
theorem test_core_loads :
    (coreAfter (exec (.ldsAgent 3 1 5 0 1) ({ coreWith [(1, 0x100)] with dev := [(0x102, 0x01), (0x103, 0x80)] }))).reg 3 = 0xFFFFFFFFFFFF8001
    ∧ (coreAfter (exec (.lda 3 1 0 0 1) (coreWith [(1, 0x104)]))).ecause = 3
    ∧ (coreAfter (exec (.lda 3 1 0 0 1) (coreWith [(1, 0x104)]))).epc = 0x800000000000
    ∧ (coreAfter (exec (.lda 3 1 0 0 1) (coreWith [(1, 0x104)]))).eval = 0x104 := by decide

/-- SCALL 7 at reset (R381): the return address, cause 4, the code, level 1, the vector. -/
theorem test_scall :
    (coreAfter (step (State.reset.withFetchWord 32 0xDE000007))).epc = 0x800000000004
    ∧ (coreAfter (step (State.reset.withFetchWord 32 0xDE000007))).ecause = 4
    ∧ (coreAfter (step (State.reset.withFetchWord 32 0xDE000007))).eval = 7
    ∧ (coreAfter (step (State.reset.withFetchWord 32 0xDE000007))).pc = 0x800000000100 := by decide

/-- An opcode that a core does not accept raises cause 1 (R116, R379). -/
theorem test_undefined_on_core :
    (coreAfter (step (State.reset.withFetchWord 32 0x10000000))).ecause = 1
    ∧ (coreAfter (step (State.reset.withFetchWord 32 0x10000000))).epc = 0x800000000000 := by decide

/-- On a tile a result is due later (R144): ADD s3, s3, s4 writes s3; SYSRD of DMR reads 4 at reset of a tile. -/
theorem test_tile_results :
    duesAfter (exec (.add 3 3 4 0 0) (atSlot 1 { tile0 with s := regs [(3, 5), (4, 2 ^ 64 - 3)] })) = [.sreg 3 2 false]
    ∧ duesAfter (exec (.sysrd 5 3) (atSlot 0 (issuing tile0 bundle0))) = [.sreg 5 4 false] := by decide

/-- The conversions of 04: rounding once and twice, and pi to BF16 and E4M3 as 08 has it. -/
theorem test_conversions :
    (convert .fp32 .e4m3 .rne false 0 0x3F880001).bits = 0x39 ∧ (convert .fp32 .bf16 .rne false 0 0x3F880001).bits = 0x3F88
    ∧ (convert .bf16 .e4m3 .rne false 0 0x3F88).bits = 0x38 ∧ (convert .fp32 .bf16 .rne false 0 0x40490FDB).bits = 0x4049
    ∧ (convert .fp32 .e4m3 .rne false 0 0x40490FDB).bits = 0x45 := by decide

/-- The NaN table of 04. -/
theorem test_nans :
    (fmaFloat .fp32 .rne false 0 false false 0x3F800000 0 0x7F800000).bits = 0x7FD00000
    ∧ (fmaFloat .fp32 .rne false 0 false false 0x7FC01234 0 0x7F800000).bits = 0x7FC01234
    ∧ (fmaFloat .fp32 .rne false 0 false false 0x7FC01234 0 0x7F800000).flags = 0
    ∧ (fmaFloat .fp32 .rne false 0 false false 0x7F801234 0 0x7F800000).bits = 0x7FC01234
    ∧ (fmaFloat .fp32 .rne false 0 false false 0x40000000 0xFFC00005 0x7FC00009).bits = 0xFFC00005
    ∧ (addFloat .fp32 .rne false 0 0x7F800000 0xFF800000).bits = 0x7FCC0000
    ∧ (convert .fp32 .bf16 .rne false 0 0x7FCC0000).bits = 0x7FCC ∧ (convert .fp32 .fp16 .rne false 0 0x7FCC0000).bits = 0x7E60
    ∧ (convert .fp32 .e5m2 .rne false 0 0x7FCC0000).bits = 0x7E ∧ (convert .fp32 .e4m3 .rne false 0 0x7FCC0000).bits = 0x7F
    ∧ (convert .fp16 .fp32 .rne false 0 0x7E60).bits = 0x7FCC0000 ∧ (convert .e5m2 .fp32 .rne false 0 0x7E).bits = 0x7FC40000 := by decide

/-- A memory that takes the value of an unlisted byte does not list it (log 3). -/
theorem test_memory_canonical : writeByte [(1, 5), (3, 7)] 3 0 = [(1, 5)] ∧ writeByte [(1, 5), (3, 7)] 2 9 = [(1, 5), (2, 9), (3, 7)]
    ∧ Memory.wf [(1, 5), (1, 6)] = false ∧ Memory.wf [(1, 0)] = false := by decide

/-- R79: an exact zero sum is -0 under RDN unless every operand is -0, and +0 otherwise unless every operand is -0; a swamped sum of
R222: the correctly rounded sigmoid of -128 is 0. -/
theorem test_zero_sums :
    (addFloat .fp32 .rdn false 0 0 0).bits = 0x80000000 ∧ (addFloat .fp32 .rne false 0 0 0).bits = 0
    ∧ (addFloat .fp32 .rne false 0 0x80000000 0x80000000).bits = 0x80000000 ∧ (subFloat .fp32 .rdn false 0 0x3F800000 0x3F800000).bits = 0x80000000
    ∧ (Special.sig.apply .fp32 .rne false 0 0xC3000000).bits = 0 := by decide +kernel

end Sys2Proof.Tests
end

section
/-! SUPPORT. The turns of the machine and the control slot of a tile: what a step executes, what a C syllable does to the gang of
the bundle that issues it (01 R24 to R36, 07 R144 to R159). -/
namespace Sys2Proof.Execution
open Machine Claims

/-! ### The turn that a step takes -/

theorem step_of_agenda (s : State) (t : Turn) (rest : List Turn) (h : s.agenda = t :: rest) :
    step s = runTurn t { s with agenda := rest } := by
  rw [step, h]

/-- Settles O5: the head of the agenda decides, and `runTurn` dispatches on what is fetched or decoded. -/
theorem stepRunsDecoded : Obligations.StepRunsDecoded := by
  refine ⟨?_, ?_, ?_, ?_, ?_, ?_⟩
  · intro s c rest i ha hf
    rw [step_of_agenda s _ _ ha]
    simp only [runTurn, hf]
  · intro s c rest e ha hf
    rw [step_of_agenda s _ _ ha]
    simp only [runTurn, hf]
  · intro s t gid slot k addr syl rest i ha hi
    rw [step_of_agenda s _ _ ha]
    simp only [runTurn, hi]
  · intro s t gid slot k addr syl rest e ha hi
    rw [step_of_agenda s _ _ ha]
    simp only [runTurn, hi]
  · intro s i who rest ha
    rw [step_of_agenda s _ _ ha, runTurn]
  · intro s ha
    rw [step, ha]

/-! ### A C syllable in the bundle of its tile -/

section Bundle
variable {s : State} {t gid k addr : Nat} {g : Gang} {x : Tile} {a : Active}

theorem control_atBundle (h : AtBundle s t gid k addr g x a) (f : Gang → Tile → Active → Origin → Gang) :
    s.control f = s.onGang t (fun _ => f g x a (opOf g gid 0 addr)) := by
  obtain ⟨⟨hc, hg, hx⟩, ha⟩ := h
  rw [State.control, State.issueOn_tile s t gid 0 k addr g x hc hg hx, ha]
  rfl

/-- A C syllable whose meaning is a change of its gang makes the gang what the change gives for the bundle in turn. -/
theorem gangBecomes_of_control (h : AtBundle s t gid k addr g x a) {i : Instr} {f : Gang → Tile → Active → Origin → Gang} {q : Gang}
    (hi : exec i s = .next (s.control f)) (hq : f g x a (opOf g gid 0 addr) = q) : GangBecomes i s t q := by
  rw [GangBecomes, hi, control_atBundle h, hq]

theorem exec_nop_atBundle (h : AtBundle s t gid k addr g x a) : exec .nop s = .next s := by
  obtain ⟨⟨hc, -, -⟩, -⟩ := h
  show execNop s = _
  simp only [execNop, hc]

theorem exec_br_atBundle (h : AtBundle s t gid k addr g x a) (pg pn d : Nat) :
    exec (.br pg pn d) s = .next (s.control (fun g x _ o => g.br x o pg pn d)) := by
  obtain ⟨⟨hc, -, -⟩, -⟩ := h
  show execBr pg pn d s = _
  simp only [execBr, hc]

theorem exec_call_atBundle (h : AtBundle s t gid k addr g x a) (r d : Nat) :
    exec (.call r d) s = .next (s.control (fun g x a o => g.call x a o r d)) := by
  obtain ⟨⟨hc, -, -⟩, -⟩ := h
  show execCall r d s = _
  simp only [execCall, hc]

theorem exec_ret_atBundle (h : AtBundle s t gid k addr g x a) (ra : Nat) :
    exec (.ret ra) s = .next (s.control (fun g x _ o => g.ret x o ra)) := by
  obtain ⟨⟨hc, -, -⟩, -⟩ := h
  show execRet ra s = _
  simp only [execRet, hc]

end Bundle

/-! ### The register that a C syllable reads -/

@[simp] theorem reading_lcyc (g : Gang) (o : Origin) (r : Reads) (i : Word) : (reading g o r i).lcyc = g.lcyc := by
  unfold reading
  split <;> simp

/-- The consumption of a read of point 1 has the cycle of the gang as it was before the read. -/
theorem consume_read_eq (g : Gang) (o : Origin) (r : Reads) (i : Word) :
    (if r.poison = true then (g.onTile o.gid (fun _ => r.x)).consume o 1 (g.onTile o.gid (fun _ => r.x)).lcyc i
      else g.onTile o.gid (fun _ => r.x)) = reading g o r i := by
  rw [Gang.onTile_lcyc, reading]

theorem ret_eq (g : Gang) (x : Tile) (o : Origin) (ra : Nat) (v : Reads) (hv : v = x.readCodes g.lcyc o.slot o.addr [ra]) :
    g.ret x o ra = (reading g o v 0).branch v.x o ((nthD 0 v.vals 0).toNat : Int) false := by
  subst hv
  rw [← consume_read_eq]
  rfl

theorem loops_eq (g : Gang) (x : Tile) (o : Origin) (ra endw lb : Nat) (v : Reads)
    (hv : v = x.readCodes g.lcyc o.slot o.addr [ra]) :
    g.loops x o ra endw lb = if (nthD 0 v.vals 0).toNat < 2 ^ 32 then (reading g o v 0).loop v.x o (nthD 0 v.vals 0).toNat endw lb
      else ((reading g o v 0).record o 2 10 g.lcyc 0).loop v.x o 0 endw lb := by
  subst hv
  simp only [Gang.loops, consume_read_eq, Gang.cFault, reading_lcyc]

theorem resync_eq (g : Gang) (x : Tile) (a : Active) (o : Origin) (ra : Nat) (v : Reads)
    (hv : v = x.readCodes g.lcyc o.slot o.addr [ra]) (hl : x.loops = []) (hk : a.k = 0) :
    g.resync x a o ra = (reading g o v 0).onActive o (fun b => { b with resync := some (nthD 0 v.vals 0).toNat }) := by
  subst hv
  rw [← consume_read_eq, Gang.resync, if_neg (by simp [hl, hk])]

/-! ### Branches (R151 to R153) -/

/-- The model's test of a target says what R153 asks of it. -/
theorem branchOk_iff_taken (x : Tile) (addr : Nat) (target : Int) (inLoop : Bool) :
    x.branchOk addr target inLoop = true ↔ Taken x addr target inLoop := by
  unfold Tile.branchOk Taken
  cases inLoop <;> cases x.loops <;> simp [and_assoc]

theorem branch_of_taken (g : Gang) (x : Tile) (o : Origin) (target : Int) (inLoop : Bool) (h : Taken x o.addr target inLoop) :
    g.branch x o target inLoop = g.onActive o (fun b => { b with branch := some target.toNat }) :=
  if_pos ((branchOk_iff_taken ..).mpr h)

theorem branch_of_not_taken (g : Gang) (x : Tile) (o : Origin) (target : Int) (inLoop : Bool)
    (h : ¬Taken x o.addr target inLoop) : g.branch x o target inLoop = g.record o 2 0 g.lcyc 0 :=
  if_neg (fun e => h ((branchOk_iff_taken ..).mp e))

theorem call_of_taken (g : Gang) (x : Tile) (a : Active) (o : Origin) (rd d : Nat)
    (h : Taken x o.addr (o.addr + 4 * sextInt 19 d) false) :
    g.call x a o rd d = (g.onActive o (fun b => { b with branch := some ((o.addr : Int) + 4 * sextInt 19 d).toNat })).later o
      (g.lcyc + 1) (.sreg rd (BitVec.ofNat 64 a.next) false) := by
  simp only [Gang.call, displaced, (branchOk_iff_taken ..).mpr h, branch_of_taken g x o _ _ h, if_true, Gang.laterReg]

theorem call_of_not_taken (g : Gang) (x : Tile) (a : Active) (o : Origin) (rd d : Nat)
    (h : ¬Taken x o.addr (o.addr + 4 * sextInt 19 d) false) : g.call x a o rd d = g.record o 2 0 g.lcyc 0 := by
  have hb : x.branchOk o.addr (o.addr + 4 * sextInt 19 d) false = false := by
    rwa [← Bool.not_eq_true, branchOk_iff_taken]
  simp only [Gang.call, displaced, hb, branch_of_not_taken g x o _ _ h]
  rfl

/-- Settles O17: a target is taken when the model's test of R153 holds, and each branch is that test and its two outcomes. -/
theorem branchesOnTile : Obligations.BranchesOnTile := by
  intro s t gid k addr gd n d r ra g x a o v h hat ho hv hh
  subst ho hh
  have br := exec_br_atBundle hat gd n d
  have call := exec_call_atBundle hat r d
  have ret := exec_ret_atBundle hat ra
  refine ⟨?_, ?_, ?_, ?_, ?_, ?_, ?_⟩
  · intro hg
    exact gangBecomes_of_control hat br (by simp only [Gang.br, hg, opOf]; rfl)
  · intro hg ht
    exact gangBecomes_of_control hat br (by simp only [Gang.br, hg, if_true]; exact branch_of_taken _ x _ _ true ht)
  · intro hg ht
    refine gangBecomes_of_control hat br ?_
    simp only [Gang.br, hg, if_true]
    exact (branch_of_not_taken _ x _ _ true ht).trans (by rw [Gang.onTile_lcyc]; rfl)
  · exact fun ht => gangBecomes_of_control hat call (call_of_taken g x a (opOf g gid 0 addr) r d ht)
  · exact fun ht => gangBecomes_of_control hat call (call_of_not_taken g x a (opOf g gid 0 addr) r d ht)
  · exact fun ht => gangBecomes_of_control hat ret ((ret_eq g x _ ra v hv).trans (branch_of_taken _ v.x _ _ false ht))
  · intro ht
    refine gangBecomes_of_control hat ret ((ret_eq g x _ ra v hv).trans ?_)
    rw [branch_of_not_taken _ v.x _ _ false ht, reading_lcyc]

/-! ### Loops (R30, R149) -/

theorem loop_pushes (g : Gang) (x : Tile) (o : Origin) (count endw lb : Nat) (hl : x.loops.length < 6) (hc : 0 < count) :
    g.loop x o count endw lb = g.onActive o (fun b =>
      { b with loop := some { count := count, idx := 0, start := b.next, stop := o.addr + 4 * endw, lb := lb, ib := 0 } }) := by
  have hc : count ≠ 0 := by omega
  simp [Gang.loop, Nat.not_le.mpr hl, hc]

theorem loop_zero_skips (g : Gang) (x : Tile) (o : Origin) (endw lb : Nat) (hl : x.loops.length < 6) :
    g.loop x o 0 endw lb = g.onActive o (fun b => { b with skipLoop := some (o.addr + 4 * endw) }) := by
  simp [Gang.loop, Nat.not_le.mpr hl]

theorem loop_seventh_skips (g : Gang) (x : Tile) (o : Origin) (count endw lb : Nat) (hl : 6 ≤ x.loops.length) :
    g.loop x o count endw lb
      = (g.record o 2 9 g.lcyc 0).onActive o (fun b => { b with skipLoop := some (o.addr + 4 * endw) }) := by
  simp [Gang.loop, hl, Gang.cFault]

/-- Settles O18: LOOPS reads its count and is then LOOP, which pushes, or skips for a count of 0 or a full stack. -/
theorem loopsOnTile : Obligations.LoopsOnTile := by
  intro s t gid k addr count endw lb ra g q x a o v n hat ho hv hn hq
  subst ho hn hq
  have hvl : v.x.loops = x.loops := by rw [hv, Tile.readCodes_loops]
  have loop (c : Nat) : exec (.loop c endw lb) s = .next (s.control (fun g x _ o => g.loop x o c endw lb)) := rfl
  have loops : exec (.loops ra endw lb) s = .next (s.control (fun g x _ o => g.loops x o ra endw lb)) := rfl
  have small (h : (nthD 0 v.vals 0).toNat < 2 ^ 32) := (loops_eq g x (opOf g gid 0 addr) ra endw lb v hv).trans (if_pos h)
  have large (h : 2 ^ 32 ≤ (nthD 0 v.vals 0).toNat) :=
    (loops_eq g x (opOf g gid 0 addr) ra endw lb v hv).trans (if_neg (Nat.not_lt.mpr h))
  refine ⟨fun hl => ?_, fun hl => ?_⟩
  · have hl' : v.x.loops.length < 6 := by rwa [hvl]
    refine ⟨?_, ?_, ?_, ?_, ?_⟩
    · exact fun hc => gangBecomes_of_control hat (loop count) (loop_pushes g x _ count endw lb hl hc)
    · exact gangBecomes_of_control hat (loop 0) (loop_zero_skips g x _ endw lb hl)
    · exact fun h0 h => gangBecomes_of_control hat loops ((small h).trans (loop_pushes _ v.x _ _ endw lb hl' h0))
    · intro h0
      refine gangBecomes_of_control hat loops ((small (by omega)).trans ?_)
      rw [h0]
      exact loop_zero_skips _ v.x _ endw lb hl'
    · exact fun h => gangBecomes_of_control hat loops ((large h).trans (loop_zero_skips _ v.x _ endw lb hl'))
  · have hl' : 6 ≤ v.x.loops.length := by rwa [hvl]
    refine ⟨?_, ?_, ?_⟩
    · exact gangBecomes_of_control hat (loop count) (loop_seventh_skips g x _ count endw lb hl)
    · intro h
      refine gangBecomes_of_control hat loops ((small h).trans ?_)
      exact (loop_seventh_skips _ v.x _ _ endw lb hl').trans (by rw [reading_lcyc]; rfl)
    · intro h
      refine gangBecomes_of_control hat loops ((large h).trans ?_)
      exact (loop_seventh_skips _ v.x _ _ endw lb hl').trans (by rw [Gang.record_lcyc, reading_lcyc]; rfl)

/-! ### SYNC, JOIN, HALT, TRAP, RESYNC, PHASE (R33 to R36, R154 to R159) -/

theorem wholeDomain_iff (s : State) (g : Gang) : s.wholeDomain g = true ↔ g.p = s.cfg.packages ∧ g.t = 32 := by
  simp [State.wholeDomain]

/-- SYNC with K counts at the level that R33 gives it, with the fault of a level that was lowered. -/
theorem sync_counts (g : Gang) (x : Tile) (a : Active) (o : Origin) (whole : Bool) (hk : a.k = 1) :
    g.sync x a o whole = ((if syncLevel whole x.dmr = x.dmr then g else g.record o 2 3 g.lcyc 0).onTile o.gid (fun y =>
      { y with syncs := setKey y.syncs (syncLevel whole x.dmr) (look 0 y.syncs (syncLevel whole x.dmr) + 1) })).onActive o
        (fun b => { b with sync := some (syncLevel whole x.dmr) }) := by
  simp [Gang.sync, hk, Gang.cFault]

/-- Settles O19: each of these syllables is a change of its gang, split along the conditions of its rule. -/
theorem sequencerControl : Obligations.SequencerControl := by
  intro s t gid k addr e code ra bank lv g h x a o v hat ho hv
  subst ho
  have sync : exec .sync s = .next (s.control (fun g x a o => g.sync x a o (s.wholeDomain g))) := rfl
  refine ⟨exec_nop_atBundle hat, ?_, ?_, ?_, ?_, ?_, ?_, ?_, ?_, ?_, ?_⟩
  · intro hk whole part low
    have key : lv = syncLevel (s.wholeDomain g) x.dmr
        ∧ h = if syncLevel (s.wholeDomain g) x.dmr = x.dmr then g else g.record (opOf g gid 0 addr) 2 3 g.lcyc 0 := by
      by_cases h5 : x.dmr = 5
      · by_cases hw : g.p = s.cfg.packages ∧ g.t = 32
        · simpa [syncLevel, h5, (wholeDomain_iff s g).mpr hw] using whole h5 hw.1 hw.2
        · have hf : s.wholeDomain g = false := by rwa [← Bool.not_eq_true, wholeDomain_iff]
          simpa [syncLevel, h5, hf] using part h5 hw
      · simpa [syncLevel, h5] using low h5
    obtain ⟨rfl, rfl⟩ := key
    exact gangBecomes_of_control hat sync (sync_counts g x a _ _ hk)
  · exact fun hk => gangBecomes_of_control hat sync (if_pos hk)
  · exact fun hj => gangBecomes_of_control hat rfl (if_pos hj)
  · exact fun hj => gangBecomes_of_control hat rfl (if_neg hj)
  · exact gangBecomes_of_control hat rfl rfl
  · exact gangBecomes_of_control hat rfl rfl
  · exact fun hl hk => gangBecomes_of_control hat rfl (resync_eq g x a _ ra v hv hl hk)
  · exact fun hr => gangBecomes_of_control hat rfl (if_pos hr)
  · exact fun h0 hp => gangBecomes_of_control hat rfl (if_pos ⟨h0, by simp [hp]⟩)
  · intro hr
    refine gangBecomes_of_control hat rfl (if_neg ?_)
    rintro ⟨h0, hp⟩
    rcases hr with hr | hr
    · exact hr h0
    · rw [Option.isNone_iff_eq_none.mp hp] at hr
      exact absurd hr (by simp)

end Sys2Proof.Execution
end

section
/-! SUPPORT. The events of a tile's sequencer: bundles, re-issues, traps, overdue quiescence, SYNCs, phases and handlers (01 R24 to
R42, 25 R428). -/
namespace Sys2Proof.Execution
open Machine Claims

/-! ### The task and the tile of an event -/

theorem evTask_atEvent {s : State} {t gid : Nat} (h : AtEvent s t gid) : s.evTask = t := by
  rw [State.evTask, h]

theorem evGid_atEvent {s : State} {t gid : Nat} (h : AtEvent s t gid) : s.evGid = gid := by
  rw [State.evGid, h]

theorem withTile_atEvent {s : State} {t gid : Nat} {g : Gang} {x : Tile} (h : AtEvent s t gid) (hg : s.gang t = some g)
    (hx : g.tile gid = some x) (k : Nat → Nat → Gang → Tile → State) : s.withTile k = k t gid g x := by
  simp only [State.withTile, evTask_atEvent h, evGid_atEvent h, hg, hx]

/-! ### Traps and fault holds (R40, R41) -/

theorem record_gid (x : Tile) (cls detail slot addr cycle : Nat) (info : Word) :
    (x.record cls detail slot addr cycle info).gid = x.gid := by
  unfold Tile.record
  dsimp only
  split
  · rfl
  · split
    · rfl
    · split <;> rfl

theorem record_banksHeld (x : Tile) (cls detail slot addr cycle : Nat) (info : Word) :
    (x.record cls detail slot addr cycle info).banksHeld = x.banksHeld := by
  unfold Tile.record
  dsimp only
  split
  · rfl
  · split
    · rfl
    · split <;> rfl

theorem faultHold_eq_heldFor (g : Gang) (gid cls : Nat) : g.faultHold gid cls = heldFor g gid cls := rfl

theorem trap_eq_heldFor {g : Gang} {gid : Nat} {x : Tile} (hx : g.tile gid = some x) :
    g.trap gid = heldFor (g.onTile gid (fun y => { y with trapped := some g.lcyc })) gid x.fault.cls := by
  simp only [Gang.trap, hx, faultHold_eq_heldFor]

/-- A tile that is set to y and trapped at once. -/
theorem trap_onTile {g : Gang} {gid : Nat} {x : Tile} (hx : g.tile gid = some x) (f : Tile → Tile) :
    (g.onTile gid f).trap gid
      = heldFor (g.onTile gid (fun _ => { f x with trapped := some g.lcyc })) gid (f x).fault.cls := by
  have hy : (g.onTile gid f).tile gid = some (f x) := by simp [Gang.tile_onTile, hx]
  rw [trap_eq_heldFor hy, Gang.onTile_onTile, Gang.onTile_lcyc]
  exact congrArg (heldFor · gid _) (g.onTile_at gid x hx rfl)

/-! ### BUNDLE_ISSUE (R24 to R26) -/

section Issue
variable {s : State} {t gid : Nat} {g : Gang} {x : Tile}

/-- A tile that may issue: it runs, issues no bundle and waits for no SYNC. -/
theorem exec_bundleIssue_of_free (h : AtEvent s t gid) (hg : s.gang t = some g) (hx : g.tile gid = some x) (h1 : x.halted = none)
    (h2 : x.trapped = none) (h3 : x.active = none) (h4 : x.wait = none) :
    exec .bundleIssue s = .next (s.bundleIssue t gid g x) := by
  show execBundleIssue s = _
  rw [execBundleIssue, withTile_atEvent h hg hx, if_neg (by simp [h1, h2, h3, h4])]

theorem exec_bundleIssue_of_not_free (h : AtEvent s t gid) (hg : s.gang t = some g) (hx : g.tile gid = some x)
    (hn : x.halted ≠ none ∨ x.trapped ≠ none ∨ x.active ≠ none ∨ x.wait ≠ none) : exec .bundleIssue s = .next s := by
  show execBundleIssue s = _
  rw [execBundleIssue, withTile_atEvent h hg hx, if_pos (by simpa [Option.isSome_iff_ne_none] using hn)]

/-- Past the end of the stream, whether by PC or by the words of the bundle, the tile slips and is trapped. -/
theorem bundleIssue_runs_out (hc : x.firstCycle ≤ g.lcyc)
    (h : x.pastEnd = true ∨ x.refusal (x.bundleAt x.pc) x.firstCycle g.lcyc = none ∧ x.runsOut (x.bundleAt x.pc) = true) :
    s.bundleIssue t gid g x = s.onGang t (fun g => g.ranOut x) := by
  rw [State.bundleIssue, if_neg (Nat.not_lt.mpr hc)]
  by_cases hp : x.pastEnd = true
  · rw [if_pos hp]
  · obtain ⟨hr, ho⟩ := h.resolve_left hp
    simp only [if_neg hp, hr, ho, if_true]

theorem bundleIssue_refused (hc : x.firstCycle ≤ g.lcyc) (hp : x.pastEnd = false) {cls detail : Nat}
    (hr : x.refusal (x.bundleAt x.pc) x.firstCycle g.lcyc = some (cls, detail)) :
    s.bundleIssue t gid g x = (s.onTile t gid (fun y => (y.record cls detail 0 (x.bundleAt x.pc).addr x.firstCycle 0).skip
      (x.bundleAt x.pc) x.firstCycle x.firstCycle)).before [.tileTurn t gid] := by
  rw [State.bundleIssue, if_neg (Nat.not_lt.mpr hc), if_neg (by simp [hp])]
  simp only [hr]

/-- A bundle that can issue: a HALT with open regions or banks ends there, every other one starts. -/
theorem bundleIssue_accepted (hc : x.firstCycle ≤ g.lcyc) (hp : x.pastEnd = false)
    (hr : x.refusal (x.bundleAt x.pc) x.firstCycle g.lcyc = none) (ho : x.runsOut (x.bundleAt x.pc) = false) :
    s.bundleIssue t gid g x = if (x.bundleAt x.pc).isHalt = true ∧ (x.depth ≠ 0 ∨ x.banksHeld ≠ 0)
      then s.onGang t (fun g => g.badHalt x (x.bundleAt x.pc))
      else (s.onGang t (fun g => g.startBundle x (x.bundleAt x.pc))).before
        (issueTurns t gid (x.bundleAt x.pc).addr ((x.bundleAt x.pc).syl 0) (x.stickyAt (x.bundleAt x.pc))) := by
  rw [State.bundleIssue, if_neg (Nat.not_lt.mpr hc), if_neg (by simp [hp])]
  simp only [hr, ho, Bool.false_eq_true, if_false]

theorem refusal_of_not_after_last (b : Bundle) (t0 c : Nat) (h : (t0 : Int) ≤ x.last) : x.refusal b t0 c = some (2, 1) :=
  if_pos h

theorem ranOut_eq_heldFor (hx : g.tile gid = some x) (hi : x.gid = gid) :
    g.ranOut x = heldFor (g.onTile gid (fun _ => { x.record 1 1 0 x.pc g.lcyc 0 with trapped := some g.lcyc })) gid
      (x.record 1 1 0 x.pc g.lcyc 0).fault.cls := by
  subst hi
  exact trap_onTile hx _

theorem badHalt_eq_heldFor (hx : g.tile gid = some x) (hi : x.gid = gid) (b : Bundle) (y z : Tile)
    (hy : y = if x.depth = 0 then x else x.record 2 0 0 b.addr g.lcyc 0)
    (hz : z = if x.banksHeld = 0 then y else y.record 6 x.banksHeld 0 b.addr g.lcyc 0) :
    g.badHalt x b = heldFor (g.onTile gid (fun _ =>
      { z with quietAt := g.lcyc, halted := some g.lcyc, issuedAt := b.addr, trapped := some g.lcyc })) gid z.fault.cls := by
  have hyx : y.gid = gid := by rw [hy]; split <;> simp only [record_gid, hi]
  have hzx : z.gid = gid := by rw [hz]; split <;> simp only [record_gid, hyx]
  have hyb : y.banksHeld = x.banksHeld := by rw [hy]; split <;> simp only [record_banksHeld]
  simp only [Gang.badHalt, ← hy, hyb, ← hz, hzx]
  exact trap_onTile hx _

/-- The tile once a bundle has begun at cycle c: x as it stood, w with the faults of the header recorded (R24, R35, R106). -/
def begun (c : Nat) (x w : Tile) (b : Bundle) : Tile :=
  { w with
    active := some { t0 := c, addr := b.addr, next := b.next, rep := b.rep, i := 0, present := b.present, k := x.syncMark b
                     q := b.q, quiet := x.isQuiet b c, halt := false, branch := none, loop := none, skipLoop := none
                     resync := none, sync := none, issued := b.present % 2 + sumOf ((x.stickyAt b).map (fun e => 2 ^ e.1)) }
    issuedAt := b.addr
    sticky := x.stickyAt b
    quietAt := if x.isQuiet b c = true then c else w.quietAt
    quietWas := if x.isQuiet b c = true ∧ b.isHalt = false then some w.quietAt else none }

theorem startBundle_eq (b : Bundle) (v w y : Tile) (hv : v = if x.syncMark b = 2 then x.record 2 3 0 b.addr g.lcyc 0 else x)
    (hw : w = if b.padBad = true then v.record 3 65535 0 b.addr g.lcyc (BitVec.ofNat 64 b.header) else v)
    (hy : y = begun g.lcyc x w b) :
    g.startBundle x b = if y.breakAt b.addr = true then (g.onTile x.gid (fun _ => y)).announce 3 x.gid 0
      else g.onTile x.gid (fun _ => y) := by
  have hvx : v.gid = x.gid := by rw [hv]; split <;> simp only [record_gid]
  have hwx : w.gid = x.gid := by rw [hw]; split <;> simp only [record_gid, hvx]
  have hyx : y.gid = x.gid := by rw [hy]; exact hwx
  unfold begun at hy
  simp only [Gang.startBundle, Bool.not_eq_true', ← hv, ← hw, ← hy]
  rw [hwx]

end Issue

end Sys2Proof.Execution
end

section
/-! SUPPORT. SYNCs that resolve, and the statement about the sequencer's events (01 R24 to R42, 25 R428). -/
namespace Sys2Proof.Execution
open Machine Claims

/-! ### SYNC_RESOLVE (R34, R48) -/

theorem members_eq_syncMembers (g : Gang) (x : Tile) (w : SyncWait) : g.members w.level x.gid = syncMembers g x w := rfl

/-- A member has arrived at a SYNC when it has halted or waits at the same one. -/
theorem arrived_iff (y : Tile) (w : SyncWait) :
    y.arrived w = true ↔ y.halted ≠ none ∨ ∃ v, y.wait = some v ∧ v.level = w.level ∧ v.number = w.number := by
  unfold Tile.arrived
  cases y.wait <;> simp [Option.isSome_iff_ne_none]

section Resolve
variable {g : Gang} {gid : Nat} {x : Tile} {w : SyncWait} {ms : List Tile}

theorem resolveOne_of_missing (hx : g.tile gid = some x) (hw : x.wait = some w) (hms : ms = syncMembers g x w)
    (h : ∃ y ∈ ms, y.halted = none ∧ ∀ v, y.wait = some v → v.level ≠ w.level ∨ v.number ≠ w.number) : g.resolveOne gid = g := by
  obtain ⟨y, hy, hh, hv⟩ := h
  have hn : ¬(∀ y ∈ ms, y.arrived w = true) := by
    intro all
    rcases (arrived_iff y w).mp (all y hy) with e | ⟨v, ev, el, en⟩
    · exact e hh
    · exact (hv v ev).elim (· el) (· en)
  have hr : g.resolution x = none := by
    simp only [Gang.resolution, hw, members_eq_syncMembers, ← hms, List.all_eq_true, if_neg hn]
  simp only [Gang.resolveOne, hx, hw, hr]

/-- Whether a member lets a SYNC be the end of a drain at the new base b (R48). -/
def restsAt (b : Nat) (y : Tile) : Bool :=
  match y.wait with
  | some v => v.quiet && y.busyTo < (b : Int) && y.addrTo < (b : Int) && !y.arms.any (·.live)
  | none => true

/-- The gang whose waiting members take a new base. -/
def rebased (g : Gang) (ms : List Tile) (b : Nat) : Gang :=
  ms.foldl (fun h y => h.onTile y.gid (fun z => if z.wait.isSome = true then { z.newSegment b with wait := none } else z)) g

/-- Where a drain may stop after a SYNC that has resolved at a with the new base b (R48). -/
def drainPoint (g : Gang) (w : SyncWait) (ms : List Tile) (a b : Nat) : Option Nat :=
  match g.drain with
  | some (td, _) => if 4 ≤ w.level ∧ ms.all (restsAt b) = true ∧ td ≤ a ∧ ms.all (fun y => !y.fault.v) = true then some b else g.stopAt
  | none => g.stopAt

/-- A SYNC whose members have all arrived resolves. -/
theorem resolveOne_of_arrived (hx : g.tile gid = some x) (hw : x.wait = some w) (hms : ms = syncMembers g x w)
    (h : ∀ y ∈ ms, y.halted ≠ none ∨ ∃ v, y.wait = some v ∧ v.level = w.level ∧ v.number = w.number) {a b : Nat}
    (ha : a = maxOf (ms.map Tile.arrivedAt)) (hb : b = a + syncLatency g.p w.level) :
    g.resolveOne gid = { rebased g ms b with stopAt := drainPoint g w ms a b } := by
  have hr : g.resolution x = some (a, ms) := by
    simp only [Gang.resolution, hw, members_eq_syncMembers, ← hms, ← ha, List.all_eq_true]
    rw [if_pos (fun y hy => (arrived_iff y w).mpr (h y hy))]
  simp only [Gang.resolveOne, hx, hw, hr, ← hb]
  rfl

theorem all_restsAt {b : Nat} (h : ∀ y ∈ ms, ∀ v, y.wait = some v → v.quiet = true
    ∧ y.busyTo < (b : Int) ∧ y.addrTo < (b : Int) ∧ y.arms.any (·.live) = false) : ms.all (restsAt b) = true := by
  rw [List.all_eq_true]
  intro y hy
  unfold restsAt
  cases hv : y.wait with
  | none => rfl
  | some v => simp [h y hy v hv]

theorem not_all_restsAt {b : Nat} (h : ∃ y ∈ ms, ∃ v, y.wait = some v ∧ v.quiet = false) : ¬ms.all (restsAt b) = true := by
  obtain ⟨y, hy, v, hv, hq⟩ := h
  rw [List.all_eq_true]
  intro all
  simpa [restsAt, hv, hq] using all y hy

theorem drainPoint_of_rest {td l a b : Nat} (hd : g.drain = some (td, l)) (hl : 4 ≤ w.level) (ht : td ≤ a)
    (hf : ∀ y ∈ ms, y.fault.v = false) (hq : ms.all (restsAt b) = true) : drainPoint g w ms a b = some b := by
  simp only [drainPoint, hd]
  exact if_pos ⟨hl, hq, ht, by simpa using hf⟩

theorem drainPoint_of_no_rest {td l a b : Nat} (hd : g.drain = some (td, l))
    (h : w.level < 4 ∨ a < td ∨ (∃ y ∈ ms, y.fault.v = true) ∨ ∃ y ∈ ms, ∃ v, y.wait = some v ∧ v.quiet = false) :
    drainPoint g w ms a b = g.stopAt := by
  simp only [drainPoint, hd]
  refine if_neg ?_
  rintro ⟨hl, hq, ht, hf⟩
  rcases h with h | h | ⟨y, hy, h⟩ | h
  · omega
  · omega
  · simp only [List.all_eq_true] at hf
    simpa [h] using hf y hy
  · exact not_all_restsAt h hq

end Resolve

/-! ### The other events of a tile -/

theorem isOverdue_iff (x : Tile) (c : Nat) : x.isOverdue c = true ↔
    x.halted = none ∧ x.trapped = none ∧ x.overdue = none ∧ x.quietAt + max 256 x.qbound < c := by
  have hq : max 256 x.qbound = x.qbound_ := rfl
  simp [hq, Tile.isOverdue, and_assoc]

section Events
variable {s : State} {t gid : Nat} {g : Gang} {x : Tile} (hat : AtEvent s t gid) (hg : s.gang t = some g)
  (hx : g.tile gid = some x)
include hat hg

/-- The gang of the event's task, changed by what is known to happen to the gang that stands. -/
theorem onGang_evTask {f : Gang → Gang} {h : Gang} (e : f g = h) : s.onGang s.evTask f = s.onGang t (fun _ => h) := by
  rw [evTask_atEvent hat]
  exact State.onGang_at s t g hg e

theorem syncResolve_becomes : GangBecomes .syncResolve s t ((g.tiles.map (·.1)).foldl Gang.resolveOne g) :=
  congrArg Host.Outcome.next (onGang_evTask hat hg rfl)

theorem phaseSwitch_due {bank c : Nat} (hp : g.phase = some (bank, c)) (hc : c ≤ g.lcyc) :
    GangBecomes .phaseSwitch s t { g with bank := bank, phase := none } :=
  congrArg Host.Outcome.next (onGang_evTask hat hg (by simp only [hp, if_pos hc]))

theorem phaseSwitch_not_due (hn : ∀ bank c, g.phase = some (bank, c) → g.lcyc < c) : GangBecomes .phaseSwitch s t g := by
  refine congrArg Host.Outcome.next (onGang_evTask hat hg ?_)
  cases hp : g.phase with
  | none => rfl
  | some e => exact if_neg (Nat.not_le.mpr (hn e.1 e.2 hp))

include hx

theorem trap_becomes : GangBecomes .trap s t (if x.fault.v = true ∧ x.trapped.isNone = true then g.trap gid else g) :=
  congrArg Host.Outcome.next (onGang_evTask hat hg (by simp only [evGid_atEvent hat, hx]))

theorem trap_of_pending (hv : x.fault.v = true) (ht : x.trapped = none) :
    GangBecomes .trap s t (heldFor (g.onTile gid (fun y => { y with trapped := some g.lcyc })) gid x.fault.cls) := by
  rw [← trap_eq_heldFor hx]
  simpa only [hv, ht, Option.isNone_none, and_self, if_true] using trap_becomes hat hg hx

theorem trap_of_none_pending (hn : x.fault.v = false ∨ x.trapped ≠ none) : GangBecomes .trap s t g := by
  have hno : ¬(x.fault.v = true ∧ x.trapped.isNone = true) := by
    rintro ⟨hv, ht⟩
    exact hn.elim (by simp [hv]) (· (Option.isNone_iff_eq_none.mp ht))
  simpa only [if_neg hno] using trap_becomes hat hg hx

theorem stickyReissue_of_active {a : Active} (ha : x.active = some a) :
    exec .stickyReissue s = .next ((s.onTile t gid (fun y => { y with
      sticky := x.stickyNext, active := some { a with issued := sumOf (x.stickyNext.map (fun e => 2 ^ e.1)) } })).before
        (issueTurns t gid a.addr none x.stickyNext)) := by
  show execStickyReissue s = _
  rw [execStickyReissue, withTile_atEvent hat hg hx, ha]

theorem stickyReissue_of_idle (ha : x.active = none) : exec .stickyReissue s = .next s := by
  show execStickyReissue s = _
  rw [execStickyReissue, withTile_atEvent hat hg hx, ha]

theorem quiescenceOverdue_becomes (h : x.isOverdue g.lcyc = true) :
    GangBecomes .quiescenceOverdue s t (g.quiescenceOverdue x) := by
  show execQuiescenceOverdue s = _
  rw [execQuiescenceOverdue, withTile_atEvent hat hg hx, if_pos h]
  exact congrArg _ (State.onGang_at s t g hg rfl)

theorem quiescenceOverdue_of_not_overdue (h : ¬x.isOverdue g.lcyc = true) : exec .quiescenceOverdue s = .next s := by
  show execQuiescenceOverdue s = _
  rw [execQuiescenceOverdue, withTile_atEvent hat hg hx, if_neg h]

theorem handlerEntry_of_failed {d : Nat} (hd : x.failedRegion = some d) :
    exec .handlerEntry s = .next ((s.onGang t (fun _ => g.enterHandler x d)).before [.tileTurn t gid]) := by
  show execHandlerEntry s = _
  rw [execHandlerEntry, withTile_atEvent hat hg hx, hd]
  exact congrArg (fun q => Host.Outcome.next (State.before q _)) (State.onGang_at s t g hg rfl)

theorem handlerEntry_of_none_failed (hd : x.failedRegion = none) : exec .handlerEntry s = .next s := by
  show execHandlerEntry s = _
  rw [execHandlerEntry, withTile_atEvent hat hg hx, hd]

end Events

/-! ### The statement -/

/-- Settles O55: every event is split along the conditions of its rule; what each branch answers stands in the lemmas above. -/
theorem sequencerEvents : Obligations.SequencerEvents := by
  refine ⟨?_, fun p => ⟨rfl, rfl, rfl, rfl, rfl, rfl⟩⟩
  intro s t gid g x hat hg hx hi
  subst hi
  have onG {f h : Gang → Gang} (e : f g = h g) : s.onGang t f = s.onGang t h := State.onGang_at s t g hg e
  refine ⟨?issue, exec_bundleIssue_of_not_free hat hg hx, fun a => stickyReissue_of_active hat hg hx,
    stickyReissue_of_idle hat hg hx, trap_of_pending hat hg hx, trap_of_none_pending hat hg hx, ?overdue, ?notOverdue,
    syncResolve_becomes hat hg, ?sync, fun bank c => phaseSwitch_due hat hg, phaseSwitch_not_due hat hg, ?handler,
    handlerEntry_of_none_failed hat hg hx⟩
  case issue =>
    intro b t0 hb ht h1 h2 h3 h4
    subst hb ht
    have issue := exec_bundleIssue_of_free hat hg hx h1 h2 h3 h4
    refine ⟨fun hc => by rw [issue, State.bundleIssue, if_pos hc], fun hc => ⟨fun ho => ?slip, fun hp => ⟨?skip, ?_, ?accept⟩⟩⟩
    case slip =>
      rw [GangBecomes, issue, bundleIssue_runs_out hc ho]
      exact congrArg _ (onG (ranOut_eq_heldFor hx rfl))
    case skip =>
      intro cls detail hr
      rw [issue, bundleIssue_refused hc hp hr]
    · exact refusal_of_not_after_last _ _ _
    case accept =>
      intro hr ho
      rw [bundleIssue_accepted hc hp hr ho] at issue
      refine ⟨fun hh hd y z hy hz => ?_, fun hh v w y h hv hw hy hh' => ?_⟩
      · rw [GangBecomes, issue, if_pos ⟨hh, hd⟩]
        exact congrArg _ (onG (badHalt_eq_heldFor hx rfl _ y z hy hz))
      · have hno : ¬((x.bundleAt x.pc).isHalt = true ∧ (x.depth ≠ 0 ∨ x.banksHeld ≠ 0)) := by
          rintro ⟨e, hd⟩
          obtain ⟨h1, h2⟩ := hh e
          exact hd.elim (· h1) (· h2)
        subst hh'
        rw [issue, if_neg hno]
        exact congrArg (fun q => Host.Outcome.next (State.before q _)) (onG (startBundle_eq _ v w y hv hw hy))
  case overdue =>
    exact fun h1 h2 h3 h4 => quiescenceOverdue_becomes hat hg hx ((isOverdue_iff x _).mpr ⟨h1, h2, h3, h4⟩)
  case notOverdue =>
    intro hn
    refine quiescenceOverdue_of_not_overdue hat hg hx ?_
    rw [isOverdue_iff]
    rintro ⟨h1, h2, h3, h4⟩
    rcases hn with h | h | h | h
    · exact h h1
    · exact h h2
    · exact h h3
    · exact Nat.not_lt.mpr h h4
  case sync =>
    intro w ms hw hms
    refine ⟨resolveOne_of_missing hx hw hms, fun all a b h ha hb hh => ?_⟩
    rw [resolveOne_of_arrived hx hw hms all ha hb]
    subst hh
    refine ⟨fun hd => by rw [drainPoint, hd]; rfl, fun td l hd => ⟨fun hl ht hf hq => ?_, fun hn => ?_⟩⟩
    · rw [drainPoint_of_rest hd hl ht hf (all_restsAt hq)]
      rfl
    · rw [drainPoint_of_no_rest hd hn]
      rfl
  case handler =>
    intro d hd y o ho hy
    subst ho hy
    exact handlerEntry_of_failed hat hg hx hd

end Sys2Proof.Execution
end

section
/-! SUPPORT. Holds, resumptions, drains and saves of a gang (01 R41 to R52, 23 R405, 25 R436). -/
namespace Sys2Proof.Execution
open Machine Claims

/-! ### The task of an event, its gang -/

theorem arg_zero_atOutside {s : State} {t : Nat} {as : List Nat} (h : AtOutside s (t :: as)) : s.arg 0 = t := by
  rw [State.arg, h]
  rfl

theorem gang_of_task {s : State} {t : Nat} {x : Task} (h : s.task t = some x) : s.gang t = x.gang := by
  simp only [State.gang, h]

/-- A change of a task that keeps its gang leaves every gang as it is. -/
theorem gang_onTask (s : State) (t u : Nat) (f : Task → Task) (hf : ∀ x, (f x).gang = x.gang) :
    (s.onTask t f).gang u = s.gang u := by
  unfold State.gang
  rw [State.task_onTask]
  by_cases hu : u = t
  · subst hu
    cases s.task u <;> simp [hf]
  · simp [hu]

theorem onTask_eq_setTask {s : State} {t : Nat} {x : Task} (hx : s.task t = some x) (f : Task → Task) :
    s.onTask t f = s.setTask { f x with id := t } := by
  simp only [State.onTask, hx]

/-- Two changes of one task, one after the other. -/
theorem onTask_onTask {s : State} {t : Nat} {x : Task} (hx : s.task t = some x) (f h : Task → Task) :
    (s.onTask t f).onTask t h = s.onTask t (fun y => h { f y with id := t }) := by
  have hy : (s.onTask t f).task t = some { f x with id := t } := by rw [State.task_onTask, if_pos rfl, hx]; rfl
  rw [onTask_eq_setTask hy, onTask_eq_setTask hx, onTask_eq_setTask hx, State.setTask, State.setTask, State.setTask]
  simp only [setKey_setKey]

/-! ### Events at the serialiser leave the tasks alone -/

@[simp] theorem arrive_tasks (s : State) (e : Ev) : (s.arrive e).tasks = s.tasks := by
  unfold State.arrive
  dsimp only
  split <;> rfl

@[simp] theorem arrive_trees (s : State) (e : Ev) : (s.arrive e).trees = s.trees := by
  unfold State.arrive
  dsimp only
  split <;> rfl

@[simp] theorem post_tasks (s : State) (task : Option Nat) (lcyc gid place f : Nat) (r : CplRec) :
    (s.post task lcyc gid place f r).tasks = s.tasks := arrive_tasks ..

theorem gang_of_tasks {s q : State} (h : s.tasks = q.tasks) (t : Nat) : s.gang t = q.gang t := by
  simp only [State.gang, State.task, h]

theorem gang_onTask_of_none (s : State) (t : Nat) (f : Task → Task) (hf : ∀ x, (f x).gang = none) :
    (s.onTask t f).gang t = none := by
  unfold State.gang
  rw [State.task_onTask, if_pos rfl]
  cases s.task t <;> simp [hf]

/-- A task that has ended has no gang. -/
theorem gang_endTask (s : State) (t status : Nat) : (s.endTask t status).gang t = none := by
  unfold State.endTask
  cases hx : s.task t with
  | none => simp only [State.gang, hx]
  | some x =>
    simp only
    rw [gang_of_tasks (post_tasks ..)]
    split
    · rw [gang_of_tasks (State.logEvent_tasks ..)]
      exact gang_onTask_of_none _ _ _ (fun _ => rfl)
    · exact gang_onTask_of_none _ _ _ (fun _ => rfl)

theorem gang_killTask (s : State) (t status : Nat) : (s.killTask t status).gang t = none := gang_endTask ..

/-! ### HOLD_FREEZE (R41, R43, R46) -/

section Freeze
variable {s : State} {t : Nat} {g : Gang} (hg : s.gang t = some g)
include hg

theorem freezeGang_of_none_due (h : g.dueHolds = [] ∨ g.isHeld = true) : s.freezeGang t = s := by
  simp only [State.freezeGang, hg]
  exact if_pos (h.imp_left List.isEmpty_iff.mpr)

/-- With every tile halted, holds that none but the debugger or a fault would keep are cancelled (R53). -/
theorem freezeGang_of_all_halted (hd : g.dueHolds ≠ []) (hh : g.isHeld = false) (ha : g.allHalted = true)
    (hc : ∀ h ∈ g.dueHolds, h.cause ≠ 5 ∧ (g.dctl % 8 ≠ 1 ∨ h.cause ≠ 3)) :
    s.freezeGang t = s.onGang t (fun _ => { g with holds := g.holds.filter g.standsHalted }) := by
  have hs : g.dueHolds.any g.standsHalted = false := by
    rw [List.any_eq_false]
    intro h hm
    obtain ⟨h5, h3⟩ := hc h hm
    simp only [Gang.standsHalted, Bool.or_eq_true, Bool.and_eq_true, beq_iff_eq]
    omega
  simp only [State.freezeGang, hg]
  rw [if_neg (by simp [hd, hh]), if_pos (by simp [ha, hs])]
  exact State.onGang_at s t g hg rfl

/-- The state once a mode of DCTL that waited for a debug hold has taken effect (R435). -/
def moded (s : State) (t : Nat) (g : Gang) : State :=
  match g.dctlNext with
  | some m => if g.holdsFor 3 = true then s.applyMode t m else s
  | none => s

omit hg in
theorem moded_of_no_gang (h : s.gang t = none) : moded s t g = s := by
  unfold moded State.applyMode
  cases g.dctlNext <;> simp [h]

/-- The gang that freezes: what each due cause asks for, in order; a bad table image ends the task (R41, R43, R46, R240). -/
theorem freezeGang_of_due (hd : g.dueHolds ≠ []) (hh : g.isHeld = false)
    (hc : g.allHalted = false ∨ ∃ h ∈ g.dueHolds, h.cause = 5 ∨ g.dctl % 8 = 1 ∧ h.cause = 3) {p q r : State}
    (hp : p = if g.holdsFor 0 = true then (frozen s t g).refillArms t else frozen s t g)
    (hq : q = if g.holdsFor 1 = true then (if g.tableBad = true then p.killTask t 6 else p.onGang t Gang.reload) else p)
    (hr : r = moded q t g) :
    s.freezeGang t = if (r.gang t).isNone = true then r else
      if g.holdsFor 5 = true then (if g.holdsFor 3 = true then r.snapGang t else r).endFaultHold t
      else if g.holdsFor 2 = true then (if g.holdsFor 3 = true then r.snapGang t else r).startSave t 2
      else if g.holdsFor 3 = true then r.snapGang t else r := by
  have hn : ¬(g.allHalted = true ∧ (!g.dueHolds.any g.standsHalted) = true) := by
    rintro ⟨ha, hs⟩
    rcases hc with hc | ⟨h, hm, hc⟩
    · simp [ha] at hc
    · simp only [Bool.not_eq_true', List.any_eq_false] at hs
      refine hs h hm ?_
      simpa [Gang.standsHalted] using hc
  have hf : (s.onTask t (fun x => { x with st := .held })).onGang t
      (fun k => { k with run := .frozen k.lcyc, heldSince := (s.onTask t (fun x => { x with st := .held })).wall, resumeAt := none })
      = frozen s t g := by
    rw [State.onTask_wall]
    refine State.onGang_at _ t g ?_ rfl
    exact (gang_onTask s t t _ (by intros; rfl)).trans hg
  simp only [State.freezeGang, hg]
  rw [if_neg (by simp [hd, hh]), if_neg hn, hf]
  subst hp hq hr
  rfl

end Freeze

/-- A fault hold of a gang that stands (R41, R436). -/
theorem endFaultHold_eq {s : State} {t : Nat} {x : Task} {g : Gang} (hx : s.task t = some x) (hg : s.gang t = some g) :
    s.endFaultHold t = if bitAt g.dctl 4 = true then s.snapGang t
      else if x.desc.fimg = true then s.onTask t (fun y => { y with st := .saving 2 2 })
      else s.endTask t (256 + g.faultClass) := by
  simp only [State.endFaultHold, hx, hg]

theorem gang_snapGang (s : State) (t u : Nat) : (s.snapGang t).gang u = s.gang u := gang_onTask _ _ _ _ (by intros; rfl)

/-! ### HOLD_RESUME (R44, R45, R366) -/

theorem thawAll_of_no_trees (s : State) (t : Nat) (h : s.trees = []) : s.thawAll t = some s := by
  simp only [State.thawAll, h, List.filter_nil, List.foldl_nil]

theorem runOn_eq_ranOn (s : State) (t : Nat) : s.runOn t = ranOn s t := by
  unfold State.runOn ranOn
  rfl

theorem resting_iff (x : Task) : x.resting = true ↔ x.st = .held ∨ x.st = .restoring := by simp [Task.resting]

section Resume
variable {s : State} {t : Nat} {g : Gang} {x : Task} (hg : s.gang t = some g) (hx : s.task t = some x)
include hg hx

theorem resumeGang_of_ready {w : Nat} (hw : g.resumeAt = some w) (h1 : w ≤ s.wall) (h2 : x.st = .held ∨ x.st = .restoring)
    (h3 : g.resolved = true) : s.resumeGang t = match s.thawAll t with
      | some q => ranOn q t
      | none => s := by
  simp only [State.resumeGang, hx, hg, hw]
  rw [if_pos ⟨h1, (resting_iff x).mpr h2, h3⟩]
  cases s.thawAll t with
  | none => rfl
  | some q => exact runOn_eq_ranOn q t

theorem resumeGang_of_not_ready (h : ∀ w, g.resumeAt = some w → s.wall < w ∨ g.resolved = false ∨ x.st ≠ .held ∧ x.st ≠ .restoring) :
    s.resumeGang t = s := by
  simp only [State.resumeGang, hx, hg]
  cases hw : g.resumeAt with
  | none => rfl
  | some w =>
    refine if_neg ?_
    rintro ⟨h1, h2, h3⟩
    rcases h w hw with h | h | ⟨ha, hb⟩
    · omega
    · simp [h3] at h
    · exact ((resting_iff x).mp h2).elim ha hb

end Resume

/-! ### Drains (R48) -/

section Drain
variable {s : State} {t : Nat} {g : Gang} (hg : s.gang t = some g)
include hg

theorem drainStop_of_fault {b : Nat} (hb : g.stopAt = some b) (hf : g.tiles.any (fun e => e.2.fault.v) = true) :
    s.drainStop t = s.onGang t (fun _ => { g with stopAt := none }) := by
  simp only [State.drainStop, hg, hb, hf, if_true]
  exact State.onGang_at s t g hg rfl

theorem drainStop_of_reached {b : Nat} (hb : g.stopAt = some b) (hf : g.tiles.any (fun e => e.2.fault.v) = false) (hc : b ≤ g.lcyc)
    (hh : g.isHeld = false) : s.drainStop t
      = (s.onGang t (fun _ => { g with run := .drained b, stopAt := none, drain := none, heldSince := s.wall })).startSave t 1 := by
  simp only [State.drainStop, hg, hb, hf, hc, hh, Bool.not_false, and_self, if_true, Bool.false_eq_true, if_false]
  exact congrArg (State.startSave · t 1) (State.onGang_at s t g hg rfl)

theorem drainStop_of_not_reached (h : ∀ b, g.stopAt = some b →
    g.tiles.any (fun e => e.2.fault.v) = false ∧ (g.lcyc < b ∨ g.isHeld = true)) : s.drainStop t = s := by
  simp only [State.drainStop, hg]
  cases hb : g.stopAt with
  | none => rfl
  | some b =>
    obtain ⟨hf, hc⟩ := h b hb
    simp only [hf, Bool.false_eq_true, if_false]
    refine if_neg ?_
    rintro ⟨h1, h2⟩
    rcases hc with hc | hc
    · omega
    · simp [hc] at h2

end Drain

theorem drainLate_iff (g : Gang) :
    g.drainLate = true ↔ ∃ td l, g.drain = some (td, l) ∧ l ≠ 0 ∧ g.stopAt = none ∧ td + l ≤ g.lcyc + 1 := by
  unfold Gang.drainLate
  cases hd : g.drain with
  | none => simp
  | some e =>
    obtain ⟨td, l⟩ := e
    simp [and_assoc]

/-! ### IMAGE_SAVE_COMPLETE (R48, R50, R405) -/

/-- What no step of a fold changes, the fold does not change. -/
theorem foldl_keeps {α β γ : Type} (p : β → γ) (f : β → α → β) (h : ∀ b a, p (f b a) = p b) (l : List α) (b : β) :
    p (l.foldl f b) = p b := by
  induction l generalizing b with
  | nil => rfl
  | cons a l ih => rw [List.foldl_cons, ih, h]

@[simp] theorem keepLimits_imageGens (s : State) (g : Gang) : (s.keepLimits g).imageGens = s.imageGens := by
  unfold State.keepLimits
  exact foldl_keeps State.imageGens _ (by intros; rfl) _ _

@[simp] theorem leaveTiles_imageGens (s : State) (g : Gang) : (s.leaveTiles g).imageGens = s.imageGens := by
  unfold State.leaveTiles
  exact foldl_keeps State.imageGens _ (by intros; rfl) _ _

theorem saveDone_of_not_saving {s : State} {t : Nat} {x : Task} {g : Gang} (hx : s.task t = some x) (hg : s.gang t = some g)
    (h : ∀ k n, x.st ≠ .saving k n) : s.saveDone t = s := by
  simp only [State.saveDone, hx, hg]

/-- A saved task: its image kept in a generation, its tiles free (R405). -/
def shelved (s : State) (t kind : Nat) (g : Gang) (st : TaskState) : State :=
  ((({ s with imageGens := s.imageGens + 1 } : State).keepLimits g).leaveTiles g).onTask t (fun y => { y with
    st := st, gang := none, image := some (g.image kind (s.imageGens + 1)), park := false, redecide := none, extended := false
    killAt := none, snap := none, dueBy := none })

theorem saveDone_of_saving {s : State} {t kind next : Nat} {x : Task} {g : Gang} (hx : s.task t = some x) (hg : s.gang t = some g)
    (hs : x.st = .saving kind next) : s.saveDone t =
      if next = 1 then shelved s t kind g .parked
      else if next = 2 then (s.onTask t (fun y => { y with snap := some (g.image 2 0), fimg := true })).endTask t (256 + g.faultClass)
      else if next = 4 then (s.onTask t (fun y => { y with snap := some (g.image 2 0), fimg := true })).endTask t 10
      else (shelved s t kind g .queued).toFront t := by
  have hk : (s.snapGang t).onTask t (fun x => { x with fimg := true })
      = s.onTask t (fun y => { y with snap := some (g.image 2 0), fimg := true }) := by
    rw [gang_of_task hx] at hg
    rw [State.snapGang, onTask_onTask hx, onTask_eq_setTask hx, onTask_eq_setTask hx, hg]
    rfl
  simp only [State.saveDone, hx, hg, hs, hk, keepLimits_imageGens, leaveTiles_imageGens]
  split
  · rfl
  · rfl
  · rfl
  · rename_i h1 h2 h4
    rw [if_neg h1, if_neg h2, if_neg h4]
    rfl

end Sys2Proof.Execution
end

section
/-! SUPPORT. The launch, the restore and the retirement of a task, its completion record (01 R49 to R54, 13 R242, 23 R399 to R411,
R466, R467). -/
namespace Sys2Proof.Execution
open Machine Claims

/-! ### TASK_LAUNCH (R242, R257, R400, R467) -/

theorem exec_taskLaunch_of_task {s : State} {t : Nat} {x : Task} (h : AtOutside s [t]) (hx : s.task t = some x) :
    exec .taskLaunch s = .next (if x.st = .queued ∧ x.image.isNone = true ∧ s.cfg.verified = true then s.launchTask x else s) := by
  show execTaskLaunch s = _
  simp only [execTaskLaunch, arg_zero_atOutside h, hx]

theorem chooseFrom_of_getElem? {α : Type} {s : State} {xs : List α} {n : Nat} {a : α} (hn : n = Config.choice s.tape % xs.length)
    (ha : xs[n]? = some a) : s.chooseFrom xs = (some a, { s with tape := s.tape + 1 }) := by
  have hl : xs.length ≠ 0 := by
    intro h
    simp [List.length_eq_zero_iff.mp h] at ha
  simp only [State.chooseFrom, State.choose, if_neg hl, ← hn, ha]

section Launch
variable {s : State} {x : Task} {b : List Nat}

theorem launchTask_of_no_image (hb : s.imageAt x.desc.image = none) : s.launchTask x = s.endTask x.id 7 := by
  simp only [State.launchTask, hb]
  rfl

theorem launchTask_of_refused (hb : s.imageAt x.desc.image = some b) (hl : s.launchable x.fn x.desc.place b = false) :
    s.launchTask x = s.endTask x.id 7 := by
  simp only [State.launchTask, hb, hl, if_true]
  rfl

section Sound
variable {v : ImageView} {map : Option (List (Nat × Nat))} {fixed : Option (List Nat)}
  (hb : s.imageAt x.desc.image = some b) (hv : v = imageView b) (hl : s.launchable x.fn x.desc.place b = true)
  (hm : map = if x.desc.fmap = 0 then none else s.mapFrames x v.entries) (hf : fixed = map.bind (s.mapPackages v.p v.entries))
include hb hv hl hm hf

theorem launchTask_of_bad_map (h0 : x.desc.fmap ≠ 0) (hn : fixed = none) : s.launchTask x = s.endTask x.id 9 := by
  simp only [State.launchTask, hb, hl, Bool.true_eq_false, if_false, ← hv, ← hm, ← hf]
  rw [if_pos ⟨h0, Option.isNone_iff_eq_none.mpr hn⟩]
  rfl

variable (hok : x.desc.fmap = 0 ∨ fixed ≠ none) {pl : List (List Nat × Nat)}
  (hpl : pl = (s.freePlaces x v.shape fixed).filter (s.itsTurn x v.t))
include hok hpl

theorem launchTask_of_no_place (hn : pl = []) : s.launchTask x = s := by
  simp only [State.launchTask, hb, hl, Bool.true_eq_false, if_false, ← hv, ← hm, ← hf]
  rw [if_neg (fun h => hok.elim h.1 (· (Option.isNone_iff_eq_none.mp h.2))), ← hpl, hn]
  rfl

/-- On a placement that is free the frames are those of the frame map, else the lowest that are open (R467). -/
theorem launchTask_of_place {pkgs : List Nat} {place n : Nat} {q : State} (hn : n = Config.choice s.tape % pl.length)
    (hc : pl[n]? = some (pkgs, place)) (hq : q = { s with tape := s.tape + 1 }) :
    s.launchTask x = match map.or (s.pickFrames x pkgs [] v.entries) with
      | none => q.endTask x.id 5
      | some f => q.startTask x b pkgs place f := by
  simp only [State.launchTask, hb, hl, Bool.true_eq_false, if_false, ← hv, ← hm, ← hf]
  rw [if_neg (fun h => hok.elim h.1 (· (Option.isNone_iff_eq_none.mp h.2))), ← hpl, chooseFrom_of_getElem? hn hc, ← hq]
  cases map <;> rfl

end Sound
end Launch

/-! ### A task that starts (R20, R21) -/

@[simp] theorem clearIdle_tasks (s : State) (g : Gang) : (s.clearIdle g).tasks = s.tasks := by
  unfold State.clearIdle
  exact foldl_keeps State.tasks _ (by intros; rfl) _ _

@[simp] theorem clearIdle_trees (s : State) (g : Gang) : (s.clearIdle g).trees = s.trees := by
  unfold State.clearIdle
  exact foldl_keeps State.trees _ (by intros; rfl) _ _

@[simp] theorem uncacheHost_tasks (s : State) (g : Gang) : (s.uncacheHost g).tasks = s.tasks := rfl

@[simp] theorem uncacheHost_trees (s : State) (g : Gang) : (s.uncacheHost g).trees = s.trees := rfl

/-- The gang with which a task starts. -/
def startGang (s : State) (x : Task) (b : List Nat) (pkgs : List Nat) (place : Nat) (frames : List (Nat × Nat)) : Gang :=
  s.withDebug ((imageView b).gang pkgs place (if x.desc.estm = 0 then fieldOf b 0x10 8 else x.desc.estm)
    (((imageView b).entries.zip frames).map (fun e => placedEntry x.desc.keysel e.1 e.2.1)) (s.limitsAt pkgs place (imageView b).t))

theorem startTask_task {s : State} {x : Task} (hx : s.task x.id = some x) (b : List Nat) (pkgs : List Nat) (place : Nat)
    (frames : List (Nat × Nat)) : (s.startTask x b pkgs place frames).task x.id
      = some { x with st := .running, gang := some (startGang s x b pkgs place frames), frames := frames, waited := 0
                      killAt := none, dueBy := none } := by
  unfold State.startTask
  dsimp only
  rw [State.task_onTask, if_pos rfl]
  refine (congrArg (Option.map _) ((?_ : _ = s.task x.id).trans hx)).trans rfl
  unfold State.task
  rw [clearIdle_tasks, uncacheHost_tasks]
  split <;> rfl

/-! ### DRAIN_RESTORE, FREEZE_RESTORE (R49, R52, R366, R411, R466) -/

theorem restoreTask_of_image {s : State} {t : Nat} {x : Task} {i : Image} (hx : s.task t = some x) (hs : x.st = .queued)
    (hi : x.image = some i) (kind : Nat) : s.restoreTask t kind = if i.kind = kind then s.restore x i else s := by
  simp only [State.restoreTask, hx, hs, hi]

theorem restoreTask_of_not_queued {s : State} {t : Nat} {x : Task} (hx : s.task t = some x) (hs : x.st ≠ .queued)
    (kind : Nat) : s.restoreTask t kind = s := by
  simp only [State.restoreTask, hx]
  split
  · exact absurd ‹_› hs
  · rfl

theorem restoreTask_of_no_image {s : State} {t : Nat} {x : Task} (hx : s.task t = some x) (hi : x.image = none)
    (kind : Nat) : s.restoreTask t kind = s := by
  simp only [State.restoreTask, hx, hi]
  split
  · exact absurd ‹_› (Option.some_ne_none _).symm
  · rfl

section Restore
variable {s : State} {x : Task} {i : Image}

theorem restore_of_bad_image (h : i.intact = false ∨ i.records.all FlightRec.ok = false
    ∨ i.gang.tiles.all (fun e => s.armsOk x.fn i.gang.t e.2.armList) = false) : s.restore x i = s.restoreFails x i.gang := by
  simp only [State.restore]
  exact if_pos (by simpa only [Bool.not_eq_true'] using h)

/-- A sound image: its gang is placed when the task may be restored now and a placement is free for it (R466). -/
theorem restore_of_sound_image (h1 : i.intact = true) (h2 : i.records.all FlightRec.ok = true)
    (h3 : i.gang.tiles.all (fun e => s.armsOk x.fn i.gang.t e.2.armList) = true) :
    s.restore x i = if s.restoreReady x = false then s else match s.restorePlace x i.gang with
      | none => s
      | some e => (s.place x (s.withDebug (i.gang.placed e.1 e.2 (s.limitsAt e.1 e.2 i.gang.t)))).getD s := by
  simp only [State.restore]
  rw [if_neg (by simp only [h1, h2, h3, Bool.not_true, Bool.false_eq_true, or_self, not_false_eq_true])]
  split
  · rfl
  · cases s.restorePlace x i.gang <;> rfl

theorem restoreFails_of_no_generation {g : Gang} (h : x.desc.snaprst = false ∨ ∃ d ∈ g.genDomains, s.liveGens x.id d = []) :
    s.restoreFails x g = s.endTask x.id 4 := by
  refine if_neg ?_
  rintro ⟨hs, ha⟩
  rcases h with h | ⟨d, hd, h⟩
  · simp [h] at hs
  · simpa [h] using List.all_eq_true.mp ha d hd

/-- With SNAPRST and a live generation of each domain the domains revert and the descriptor is submitted again (R411). -/
theorem restoreFails_of_generations {g : Gang} {q : State} (hs : x.desc.snaprst = true)
    (hl : ∀ d ∈ g.genDomains, s.liveGens x.id d ≠ [])
    (hq : q = g.genDomains.foldl (fun q d => q.revertDomain x.id d)
      ((s.onTask x.id (fun y => { y with restarted := true })).endTask x.id 4)) :
    s.restoreFails x g = (q.submit x.fn x.desc 0 x.home 0 none).onTask (q.nextTaskId x.fn) (fun y => { y with deps := [] }) := by
  subst hq
  exact if_pos ⟨hs, by simpa [List.all_eq_true] using hl⟩

end Restore

@[simp] theorem requestLaunch_trees (s : State) (t : Nat) (g : Gang) (gid lcyc : Nat) (loc : DevLoc) :
    (s.requestLaunch t g gid lcyc loc).trees = s.trees := arrive_trees ..

@[simp] theorem releaseLaunches_trees (s : State) (t : Nat) : (s.releaseLaunches t).trees = s.trees := by
  unfold State.releaseLaunches
  split
  · rfl
  · exact (foldl_keeps State.trees _ (by intros; exact requestLaunch_trees ..) _ _).trans (State.onGang_trees ..)

theorem repin_of_no_trees (s : State) (t : Nat) (h : s.trees = []) : s.repin t = some s := by
  simp only [State.repin, h, List.filter_nil, List.foldl_nil]

theorem place_of_no_trees {s : State} (x : Task) (h : Gang) (ht : s.trees = []) :
    s.place x h = some ((((s.uncacheHost h).clearIdle h).onTask x.id (fun y =>
      { y with st := .restoring, gang := some h, image := none, waited := 0, dueBy := none })).releaseLaunches x.id) :=
  repin_of_no_trees _ _ (by simp [ht])

/-! ### TASK_RETIRE (R54) -/

theorem retire_eq {s : State} {t : Nat} {x : Task} {g : Gang} (hx : s.task t = some x) (hg : s.gang t = some g) :
    s.retire t = if x.st = .running ∧ s.canRetire t g = true then (s.releaseLaunches t).endTask t 0 else s := by
  simp only [State.retire, hx, hg]
  rfl

/-! ### COMPLETION_RECORD_WRITE (R399) -/

theorem writeRecord_of_none {s : State} {f : Nat} (h : (s.fn f).pending = [] ∨ (s.fn f).room = 0) : s.writeRecord f = s := by
  unfold State.writeRecord
  dsimp only
  split
  · rfl
  · rename_i r rest hp
    exact if_pos (h.resolve_left (by simp [hp]))

/-- The state once the oldest record stands in its slot and CQTAIL has advanced. -/
def recordWritten (s : State) (f : Nat) (x : Fn) (r : CplRec) (rest : List CplRec) : State :=
  (s.sysWrite ((x.cqbase + 32 * (x.cqtail % x.slots)) % 2 ^ 46) (clean (r.bytes x.cqtail))).setFn f
    { x with pending := rest, cqtail := (x.cqtail + 1) % 2 ^ 32 }

theorem writeRecord_of_pending {s : State} {f : Nat} {x : Fn} {r : CplRec} {rest : List CplRec} (hf : x = s.fn f)
    (hp : x.pending = r :: rest) (hr : x.room ≠ 0) :
    s.writeRecord f =
      if rest.isEmpty = true then (if r.irq = true then (recordWritten s f x r rest).emit 1 f [x.cqvec] else recordWritten s f x r rest)
      else (if r.irq = true then (recordWritten s f x r rest).emit 1 f [x.cqvec] else recordWritten s f x r rest).before
        [.act .completionRecordWrite (.outside [f])] := by
  simp only [State.writeRecord, ← hf, hp, if_neg hr]
  rfl

end Sys2Proof.Execution
end

section
/-! SUPPORT. The statement about the life of a task, one theorem for each of its events (01 R41 to R54, 23 R398 to R411). -/
namespace Sys2Proof.Execution
open Machine Claims

section Events
variable {s : State} {t gid : Nat} {g : Gang} {x : Task}

theorem holdFreeze_eq (hat : AtEvent s t gid) : exec .holdFreeze s = .next (s.freezeGang t) :=
  congrArg (fun u => Host.Outcome.next (s.freezeGang u)) (evTask_atEvent hat)

theorem holdResume_eq (hat : AtEvent s t gid) : exec .holdResume s = .next (s.resumeGang t) :=
  congrArg (fun u => Host.Outcome.next (s.resumeGang u)) (evTask_atEvent hat)

theorem drainStop_eq (hat : AtEvent s t gid) : exec .drainStop s = .next (s.drainStop t) :=
  congrArg (fun u => Host.Outcome.next (s.drainStop u)) (evTask_atEvent hat)

theorem taskRetire_eq (hat : AtEvent s t gid) : exec .taskRetire s = .next (s.retire t) :=
  congrArg (fun u => Host.Outcome.next (s.retire u)) (evTask_atEvent hat)

theorem drainLimitExpiry_of_late (hat : AtEvent s t gid) (hg : s.gang t = some g) (h : g.drainLate = true) :
    GangBecomes .drainLimitExpiry s t { g.announce 2 0 64 with drain := none } :=
  congrArg Host.Outcome.next (onGang_evTask hat hg (if_pos h))

theorem drainLimitExpiry_of_not_late (hat : AtEvent s t gid) (hg : s.gang t = some g) (h : ¬g.drainLate = true) :
    GangBecomes .drainLimitExpiry s t g :=
  congrArg Host.Outcome.next (onGang_evTask hat hg (if_neg h))

theorem imageSaveComplete_eq (hat : AtOutside s [t]) : exec .imageSaveComplete s = .next (s.saveDone t) :=
  congrArg (fun u => Host.Outcome.next (s.saveDone u)) (arg_zero_atOutside hat)

theorem drainRestore_eq (hat : AtOutside s [t]) : exec .drainRestore s = .next (s.restoreTask t 1) :=
  congrArg (fun u => Host.Outcome.next (s.restoreTask u 1)) (arg_zero_atOutside hat)

theorem freezeRestore_eq (hat : AtOutside s [t]) : exec .freezeRestore s = .next (s.restoreTask t 2) :=
  congrArg (fun u => Host.Outcome.next (s.restoreTask u 2)) (arg_zero_atOutside hat)

theorem completionRecordWrite_eq (hat : AtOutside s [t]) : exec .completionRecordWrite s = .next (s.writeRecord t) :=
  congrArg (fun u => Host.Outcome.next (s.writeRecord u)) (arg_zero_atOutside hat)

/-- The causes that are due when the gang has frozen and its table image is good: a fault hold, then a checkpoint's save (R41, R405). -/
theorem freezeGang_of_good_table (hg : s.gang t = some g) (hd : g.dueHolds ≠ []) (hh : g.isHeld = false)
    (hc : g.allHalted = false ∨ ∃ h ∈ g.dueHolds, h.cause = 5 ∨ g.dctl % 8 = 1 ∧ h.cause = 3)
    (hb : g.holdsFor 1 = false ∨ g.tableBad = false) {p q r u : State}
    (hp : p = if g.holdsFor 0 = true then (frozen s t g).refillArms t else frozen s t g)
    (hq : q = if g.holdsFor 1 = true then p.onGang t Gang.reload else p) (hr : r = moded q t g)
    (hu : u = if g.holdsFor 3 = true then r.snapGang t else r) {k : Gang} (hk : u.gang t = some k) :
    s.freezeGang t = if g.holdsFor 5 = true then u.endFaultHold t else if g.holdsFor 2 = true then u.startSave t 2 else u := by
  have hq' : q = if g.holdsFor 1 = true then (if g.tableBad = true then p.killTask t 6 else p.onGang t Gang.reload) else p := by
    rw [hq]
    rcases hb with hb | hb <;> simp [hb]
  have hrk : r.gang t = some k := by
    rw [← hk, hu]
    split
    · exact (gang_snapGang r t t).symm
    · rfl
  rw [freezeGang_of_due hg hd hh hc hp hq' hr, ← hu, if_neg (by simp [hrk])]

/-- A bad table image ends the task at the freeze (R240). -/
theorem freezeGang_of_bad_table (hg : s.gang t = some g) (hd : g.dueHolds ≠ []) (hh : g.isHeld = false)
    (hc : g.allHalted = false ∨ ∃ h ∈ g.dueHolds, h.cause = 5 ∨ g.dctl % 8 = 1 ∧ h.cause = 3)
    (h1 : g.holdsFor 1 = true) (hb : g.tableBad = true) {p : State}
    (hp : p = if g.holdsFor 0 = true then (frozen s t g).refillArms t else frozen s t g) :
    s.freezeGang t = p.killTask t 6 := by
  have hk := gang_killTask p t 6
  rw [freezeGang_of_due hg hd hh hc hp (by rw [if_pos h1, if_pos hb]) (moded_of_no_gang hk).symm, if_pos (by rw [hk]; rfl)]

end Events

/-- Settles O56: each event is split along the conditions of its rule; what each branch answers stands in the lemmas above. -/
theorem taskLifeEvents : Obligations.TaskLifeEvents := by
  refine ⟨⟨?holds, ?notSaving, ?saving⟩, ?queued, ?started, ?retired, ?noRecord, ?record⟩
  case holds =>
    intro s t gid g x hat hg hx _
    refine ⟨fun h => by rw [holdFreeze_eq hat, freezeGang_of_none_due hg h], ?freeze, ?resume, ?noResume, thawAll_of_no_trees s t,
      ?stop, ?noStop, ?late, ?notLate⟩
    case freeze =>
      refine fun hd hh => ⟨fun ha hc => ?_, fun hc p hp => ⟨fun h1 hb => ?_, fun hb q r u hq hr hu k y hk hy => ?_⟩⟩
      · rw [GangBecomes, holdFreeze_eq hat, freezeGang_of_all_halted hg hd hh ha hc]
        rfl
      · rw [holdFreeze_eq hat, freezeGang_of_bad_table hg hd hh hc h1 hb hp]
      · rw [holdFreeze_eq hat, freezeGang_of_good_table hg hd hh hc hb hp hq hr hu hk, endFaultHold_eq hy hk]
        refine ⟨fun h5 => ⟨fun h4 => ?_, fun h4 hf => ?_, fun h4 hf => ?_⟩, fun h5 h2 => ?_, fun h5 h2 => ?_⟩
        · rw [if_pos h5, if_pos h4]
          rfl
        · rw [if_pos h5, if_neg (by simp [h4]), if_pos hf]
        · rw [if_pos h5, if_neg (by simp [h4]), if_neg (by simp [hf])]
        · rw [if_neg (by simp [h5]), if_pos h2]
          rfl
        · rw [if_neg (by simp [h5]), if_neg (by simp [h2])]
    case resume =>
      refine fun w hw => ⟨fun h1 h2 h3 => ?_, fun hn => ?_⟩
      · rw [holdResume_eq hat, resumeGang_of_ready hg hx hw h1 h2 h3]
        exact ⟨fun hq => by rw [hq], fun q hq => by rw [hq]⟩
      · rw [holdResume_eq hat, resumeGang_of_not_ready hg hx]
        intro v hv
        obtain rfl : w = v := Option.some.inj (hw.symm.trans hv)
        exact hn
    case noResume =>
      intro hw
      rw [holdResume_eq hat, resumeGang_of_not_ready hg hx (by simp [hw])]
    case stop =>
      refine fun b hb => ⟨fun hf => ?_, fun hf => ⟨fun hc hh => ?_, fun hn => ?_⟩⟩
      · rw [GangBecomes, drainStop_eq hat, drainStop_of_fault hg hb hf]
      · rw [drainStop_eq hat, drainStop_of_reached hg hb hf hc hh]
        rfl
      · rw [drainStop_eq hat, drainStop_of_not_reached hg]
        intro v hv
        obtain rfl : b = v := Option.some.inj (hb.symm.trans hv)
        exact ⟨hf, hn⟩
    case noStop =>
      intro hb
      rw [drainStop_eq hat, drainStop_of_not_reached hg (by simp [hb])]
    case late =>
      exact fun td l hd hl hs hc => drainLimitExpiry_of_late hat hg ((drainLate_iff g).mpr ⟨td, l, hd, hl, hs, hc⟩)
    case notLate =>
      intro hn
      refine drainLimitExpiry_of_not_late hat hg ?_
      rw [drainLate_iff]
      rintro ⟨td, l, hd, hl, hs, hc⟩
      rcases hn td l hd with h | h | h
      · exact hl h
      · exact h hs
      · exact Nat.not_le.mpr h hc
  case notSaving =>
    intro s t g x hat hg hx hn
    rw [imageSaveComplete_eq hat, saveDone_of_not_saving hx hg hn]
  case saving =>
    intro s q r t kind next g x hat hg hx hs hq hr
    subst hq hr
    rw [imageSaveComplete_eq hat, saveDone_of_saving hx hg hs]
    refine ⟨fun h => ?_, fun h => ?_, fun h => ?_, fun h1 h2 h4 => ?_⟩
    · rw [if_pos h]; rfl
    · subst h; rfl
    · subst h; rfl
    · rw [if_neg h1, if_neg h2, if_neg h4]; rfl
  case queued =>
    intro s t x hat hx hid
    subst hid
    have launch := exec_taskLaunch_of_task hat hx
    refine ⟨?notQueued, ?fresh, ?saved⟩
    case notQueued =>
      refine fun hs => ⟨?_, ?_, ?_⟩
      · rw [launch, if_neg (fun h => hs h.1)]
      · rw [drainRestore_eq hat, restoreTask_of_not_queued hx hs]
      · rw [freezeRestore_eq hat, restoreTask_of_not_queued hx hs]
    case fresh =>
      refine fun hs hi => ⟨?_, ?_, fun hv => ?_, fun hv => ?_⟩
      · rw [drainRestore_eq hat, restoreTask_of_no_image hx hi]
      · rw [freezeRestore_eq hat, restoreTask_of_no_image hx hi]
      · rw [launch, if_neg (by simp [hv])]
      rw [launch, if_pos ⟨hs, by simp [hi], hv⟩]
      refine ⟨fun hb => by rw [launchTask_of_no_image hb], fun b hb => ⟨fun hl => by rw [launchTask_of_refused hb hl], ?_⟩⟩
      intro v map fixed hv hl hm hf
      refine ⟨fun h0 hn => by rw [launchTask_of_bad_map hb hv hl hm hf h0 hn], fun hok pl hpl => ⟨fun hn => ?_, ?_⟩⟩
      · rw [launchTask_of_no_place hb hv hl hm hf hok hpl hn]
      · intro pkgs place n q hn hc hq
        rw [launchTask_of_place hb hv hl hm hf hok hpl hn hc hq]
        refine ⟨fun f h => ?_, fun h f hp => ?_, fun h hp => ?_⟩
        · rw [h]
          rfl
        · rw [h, Option.none_or, hp]
        · rw [h, Option.none_or, hp]
    case saved =>
      refine fun i hs hi => ⟨?_, fun hk => ?_, fun hk => ?_, ?_⟩
      · rw [launch, if_neg (by simp [hi])]
      · rw [drainRestore_eq hat, restoreTask_of_image hx hs hi, if_neg hk]
      · rw [freezeRestore_eq hat, restoreTask_of_image hx hs hi, if_neg hk]
      intro e he hk g hg
      subst hg
      have restore : exec e.1 s = .next (s.restore x i) := by
        simp only [List.mem_cons, List.not_mem_nil, or_false] at he
        rcases he with rfl | rfl
        · rw [drainRestore_eq hat, restoreTask_of_image hx hs hi, if_pos hk]
        · rw [freezeRestore_eq hat, restoreTask_of_image hx hs hi, if_pos hk]
      rw [restore]
      refine ⟨fun hbad => ?_, fun h1 h2 h3 => ?_⟩
      · rw [restore_of_bad_image hbad]
        exact ⟨fun h => by rw [restoreFails_of_no_generation h], fun hsn hl q hq => by rw [restoreFails_of_generations hsn hl hq]⟩
      · rw [restore_of_sound_image h1 h2 h3]
        refine ⟨fun hr => by rw [if_pos hr], fun hr hp => by rw [if_neg (by simp [hr]), hp], fun pkgs place h hr hp hh => ?_⟩
        rw [if_neg (by simp [hr]), hp]
        subst hh
        exact ⟨fun q hq => congrArg (fun o => Host.Outcome.next (Option.getD o s)) hq,
          fun hq => congrArg (fun o => Host.Outcome.next (Option.getD o s)) hq, place_of_no_trees x _⟩
  case started =>
    exact fun s x b pkgs place f hx => ⟨_, startTask_task hx b pkgs place f, rfl, rfl, rfl, rfl, rfl, rfl, rfl⟩
  case retired =>
    intro s t gid g x hat hg hx
    rw [taskRetire_eq hat, retire_eq hx hg]
    refine ⟨fun hs hc => by rw [if_pos ⟨hs, hc⟩], fun hn => ?_⟩
    rw [if_neg (by rintro ⟨hs, hc⟩; exact hn.elim (· hs) (by simp [hc]))]
  case noRecord =>
    intro s f x hat hf hn
    subst hf
    rw [completionRecordWrite_eq hat, writeRecord_of_none hn]
  case record =>
    intro s q f x r rest hat hf hp hr hq
    have hq' : recordWritten s f x r rest = q := hq.symm
    rw [completionRecordWrite_eq hat, writeRecord_of_pending hf hp hr, hq']
    refine ⟨fun hi hn => ?_, fun hi hn => ?_, fun hi hn => ?_, fun hi hn => ?_⟩ <;>
      simp only [hi, hn, List.isEmpty_iff, if_true, if_false, Bool.false_eq_true]

end Sys2Proof.Execution
end

section
/-! SUPPORT. Words packed from fields that stand apart: each field is read back from its place, and the word of every instruction
spells its layout (05 R107, R112). -/
namespace Sys2Proof.Encoding
open Laws.Places (apart)

/-! ### Fields of a word -/

/-- Every field of a layout fits its width. -/
def fieldsFit (fs : List (Nat × Nat × Nat)) : Bool := fs.all (fun f => f.1 < 2 ^ f.2.2)

/-- Every field of a layout stands below a bit. -/
def fieldsBelow (n : Nat) (fs : List (Nat × Nat × Nat)) : Bool := fs.all (fun f => f.2.1 + f.2.2 ≤ n)

/-- No two fields of a layout share a bit. -/
def fieldsApart : List (Nat × Nat × Nat) → Bool
  | [] => true
  | f :: fs => fs.all (fun g => apart g.2 f.2) && fieldsApart fs

/-- The word reads, at the place of each field, that field's value. -/
def Reads (w : Nat) : List (Nat × Nat × Nat) → Prop
  | [] => True
  | (v, lo, n) :: fs => w / 2 ^ lo % 2 ^ n = v ∧ Reads w fs

theorem apart_comm {a b : Nat × Nat} (h : apart a b = true) : apart b a = true := by
  rwa [apart, Bool.or_comm] at h

section AddField
variable {v l k x : Nat} (hv : v < 2 ^ k) (hx : x / 2 ^ l % 2 ^ k = 0)
include hv hx

/-- A field added where x has none carries nothing into the bits above it. -/
theorem add_field_div {n : Nat} (h : l + k ≤ n) : (v * 2 ^ l + x) / 2 ^ n = x / 2 ^ n := by
  obtain ⟨d, rfl⟩ := Nat.exists_eq_add_of_le h
  obtain ⟨q, hq⟩ := Nat.dvd_of_mod_eq_zero hx
  rw [Nat.pow_add, Nat.pow_add, ← Nat.div_div_eq_div_mul, ← Nat.div_div_eq_div_mul, ← Nat.div_div_eq_div_mul,
    ← Nat.div_div_eq_div_mul, Nat.mul_comm v, Nat.mul_add_div (Nat.two_pow_pos l), hq, Nat.add_comm,
    Nat.mul_add_div (Nat.two_pow_pos k), Nat.div_eq_of_lt hv, Nat.mul_div_cancel_left _ (Nat.two_pow_pos k), Nat.add_zero]

theorem add_field_of_apart {lo n : Nat} (ha : apart (l, k) (lo, n) = true) :
    (v * 2 ^ l + x) / 2 ^ lo % 2 ^ n = x / 2 ^ lo % 2 ^ n := by
  simp only [apart, Bool.or_eq_true, decide_eq_true_eq] at ha
  rcases ha with h | h
  · rw [add_field_div hv hx h]
  · obtain ⟨d, rfl⟩ := Nat.exists_eq_add_of_le h
    have : v * 2 ^ (lo + n + d) = 2 ^ lo * (2 ^ n * (2 ^ d * v)) := by
      rw [Nat.pow_add, Nat.pow_add, Nat.mul_comm v, Nat.mul_assoc, Nat.mul_assoc]
    rw [this, Nat.mul_add_div (Nat.two_pow_pos lo), Nat.mul_add_mod]

theorem add_field_self : (v * 2 ^ l + x) / 2 ^ l % 2 ^ k = v := by
  rw [Nat.mul_comm, Nat.mul_add_div (Nat.two_pow_pos l), Nat.add_mod, hx, Nat.add_zero, Nat.mod_mod, Nat.mod_eq_of_lt hv]

end AddField

/-- A place that is apart from every field of a layout reads 0. -/
theorem packFields_gap {fs : List (Nat × Nat × Nat)} {p : Nat × Nat} (hf : fieldsFit fs = true) (hd : fieldsApart fs = true)
    (hp : fs.all (fun f => apart f.2 p) = true) : packFields fs / 2 ^ p.1 % 2 ^ p.2 = 0 := by
  induction fs generalizing p with
  | nil => simp [packFields]
  | cons f fs ih =>
    simp only [fieldsFit, fieldsApart, List.all_cons, Bool.and_eq_true, decide_eq_true_eq] at hf hd hp
    rw [packFields, add_field_of_apart hf.1 (ih hf.2 hd.2 hd.1) hp.1, ih hf.2 hd.2 hp.2]

/-- A field added where x has none, apart from every field of a layout that x reads, leaves what is read. -/
theorem reads_add_field {v l k x : Nat} {fs : List (Nat × Nat × Nat)} (hv : v < 2 ^ k) (hx : x / 2 ^ l % 2 ^ k = 0)
    (ha : fs.all (fun g => apart g.2 (l, k)) = true) (h : Reads x fs) : Reads (v * 2 ^ l + x) fs := by
  induction fs with
  | nil => trivial
  | cons f fs ih =>
    simp only [List.all_cons, Bool.and_eq_true] at ha
    exact ⟨(add_field_of_apart hv hx (apart_comm ha.1)).trans h.1, ih ha.2 h.2⟩

/-- Each field of a layout is read back from its word (R107). -/
theorem reads_packFields {fs : List (Nat × Nat × Nat)} (hf : fieldsFit fs = true) (hd : fieldsApart fs = true) :
    Reads (packFields fs) fs := by
  induction fs with
  | nil => trivial
  | cons f fs ih =>
    simp only [fieldsFit, fieldsApart, List.all_cons, Bool.and_eq_true, decide_eq_true_eq] at hf hd
    have gap := packFields_gap hf.2 hd.2 hd.1
    exact ⟨add_field_self hf.1 gap, reads_add_field hf.1 gap hd.1 (ih hf.2 hd.2)⟩

theorem packFields_lt {n : Nat} {fs : List (Nat × Nat × Nat)} (hf : fieldsFit fs = true) (hd : fieldsApart fs = true)
    (hb : fieldsBelow n fs = true) : packFields fs < 2 ^ n := by
  induction fs with
  | nil => exact Nat.two_pow_pos n
  | cons f fs ih =>
    simp only [fieldsFit, fieldsApart, fieldsBelow, List.all_cons, Bool.and_eq_true, decide_eq_true_eq] at hf hd hb
    have gap := packFields_gap hf.2 hd.2 hd.1
    have tail := (Nat.div_eq_zero_iff_lt (Nat.two_pow_pos n)).mpr (ih hf.2 hd.2 hb.2)
    exact (Nat.div_eq_zero_iff_lt (Nat.two_pow_pos n)).mp ((add_field_div hf.1 gap hb.1).trans tail)

/-- What stands from the lowest bit of the topmost field up is that field (R107). -/
theorem packFields_div_top {v lo n : Nat} {fs : List (Nat × Nat × Nat)} (hf : fieldsFit fs = true) (hd : fieldsApart fs = true)
    (hb : fieldsBelow lo fs = true) : packFields ((v, lo, n) :: fs) / 2 ^ lo = v := by
  rw [packFields, Nat.mul_comm, Nat.mul_add_div (Nat.two_pow_pos lo), Nat.div_eq_of_lt (packFields_lt hf hd hb), Nat.add_zero]

/-! ### The word of an instruction -/

/-- The word reads, from its topmost field up, that field's value, and at the place of each further field that field's value. -/
def Spells (w : Nat) : List (Nat × Nat × Nat) → Prop
  | [] => True
  | (v, lo, _) :: fs => w / 2 ^ lo = v ∧ Reads w fs

/-- The first field of a layout, which is the opcode, stands above all others. -/
def topped : List (Nat × Nat × Nat) → Bool
  | [] => true
  | f :: fs => fieldsBelow f.2.1 fs

theorem fieldsApart_layoutOf (i : Instr) : fieldsApart (layoutOf i) = true := by cases i <;> rfl

theorem topped_layoutOf (i : Instr) : topped (layoutOf i) = true := by cases i <;> rfl

theorem spells_packFields {fs : List (Nat × Nat × Nat)} (hf : fieldsFit fs = true) (hd : fieldsApart fs = true)
    (ht : topped fs = true) : Spells (packFields fs) fs := by
  cases fs with
  | nil => trivial
  | cons f fs =>
    have reads := reads_packFields hf hd
    simp only [fieldsFit, fieldsApart, List.all_cons, Bool.and_eq_true] at hf hd
    exact ⟨packFields_div_top hf.2 hd.2 ht, reads.2⟩

/-- The opcode and the fields of an instruction stand in its word as its layout says (R107, R112). -/
theorem spells_encode {i : Instr} (h : fieldsFit (layoutOf i) = true) : Spells (encode i) (layoutOf i) :=
  spells_packFields h (fieldsApart_layoutOf i) (topped_layoutOf i)

end Sys2Proof.Encoding
end

section
/-! SUPPORT. What the reader of each place makes of a word that spells the layout of an instruction (05 R116 to R119, 07 R148,
23 R378). -/
namespace Sys2Proof.Encoding
open Claims
open Laws.Places (apart)

/-- A word that spells a control instruction reads as it (R148). -/
theorem readC_of_spells {w : Nat} {i : Instr} (hi : i.standsIn .c = true) (hs : Spells w (layoutOf i)) : readC w = .ok i := by
  unfold layoutOf at hs
  cases i
  all_goals cases hi
  all_goals
    simp only [Spells, Reads] at hs
    simp only [readC, bitsOf, hs, Nat.reduceAdd, Nat.reduceSub]

/-- A word that spells an instruction of the S class reads as it (R116). -/
theorem readSClass_of_spells {w : Nat} {i : Instr} (hi : i.inSClass = true) (hs : Spells w (layoutOf i)) :
    readSClass w = .ok i := by
  unfold layoutOf at hs
  cases i
  all_goals cases hi
  all_goals
    simp only [Spells, Reads] at hs
    simp only [readSClass, bitsOf, hs, Nat.reduceAdd, Nat.reduceSub]

/-- The opcodes that only an S slot has are none of the S class (R116). -/
theorem readS_of_readSClass {w : Nat} {i : Instr} (h : readSClass w = .ok i) : readS w = .ok i := by
  unfold readS
  split
  case h_4 => exact h
  all_goals simp only [readSClass, *, reduceCtorEq] at h

/-- The opcodes that an agent stream has beside the S class are none of the S class (R116, R378). -/
theorem readAgent_of_readSClass {w : Nat} {i : Instr} (h : readSClass w = .ok i) : readAgent w = .ok i := by
  unfold readAgent
  split
  case h_37 => exact h
  all_goals simp only [readSClass, *, reduceCtorEq] at h

/-- A word that spells an instruction of an S slot reads as it (R116). -/
theorem readS_of_spells {w : Nat} {i : Instr} (hi : i.standsIn .s = true) (hs : Spells w (layoutOf i)) : readS w = .ok i := by
  cases hc : i.inSClass with
  | true => exact readS_of_readSClass (readSClass_of_spells hc hs)
  | false =>
    unfold layoutOf at hs
    cases i
    all_goals cases hi
    all_goals cases hc
    all_goals
      simp only [Spells, Reads] at hs
      simp only [readS, bitsOf, hs, Nat.reduceAdd, Nat.reduceSub]

theorem wordRow_of_inSClass {i : Instr} (h : i.inSClass = true) : wordRow i = i := by
  unfold wordRow
  split
  · cases h
  · cases h
  · rfl

/-- A word that spells an agent instruction reads as the row of that word (R378, R398). -/
theorem readAgent_of_spells {w : Nat} {i : Instr} (hi : i.standsIn .agent = true) (hs : Spells w (layoutOf i)) :
    readAgent w = .ok (wordRow i) := by
  cases hc : i.inSClass with
  | true => exact (readAgent_of_readSClass (readSClass_of_spells hc hs)).trans (by rw [wordRow_of_inSClass hc])
  | false =>
    unfold layoutOf at hs
    cases i
    all_goals cases hi
    all_goals cases hc
    all_goals
      simp only [Spells, Reads, Nat.reducePow, Nat.div_one] at hs
      simp only [readAgent, bitsOf, hs, Nat.reduceAdd, Nat.reduceSub, Nat.reducePow, Nat.div_one, wordRow]

/-- A bit that no field of the layout covers is 0 in the word (R107). -/
theorem bitAt_encode_of_gap {i : Instr} {p : Nat} (hf : fieldsFit (layoutOf i) = true)
    (hp : (layoutOf i).all (fun f => apart f.2 (p, 1)) = true) : bitAt (encode i) p = false := by
  have gap : encode i / 2 ^ p % 2 ^ 1 = 0 := packFields_gap (p := (p, 1)) hf (fieldsApart_layoutOf i) hp
  simp only [bitAt, Nat.pow_one] at gap ⊢
  rw [gap]
  rfl

/-- The word of a matrix or factorisation instruction reads as it. MNEST and MNEST.CLR share an opcode and so do the two forms of
MPERM: a bit tells them apart that is no field of MNEST and of MPERM on the accumulators (R303, R322). -/
theorem readM_encode {i : Instr} (hi : i.standsIn .m = true) (hf : fieldsFit (layoutOf i) = true) : readM (encode i) = .ok i := by
  have hs := spells_encode hf
  have gap {p : Nat} := bitAt_encode_of_gap (p := p) hf
  unfold layoutOf at hs
  cases i
  all_goals cases hi
  case mnest =>
    simp only [Spells, Reads] at hs
    simp only [readM, bitsOf, hs, gap (p := 10) rfl, Nat.reduceAdd, Nat.reduceSub, Bool.false_eq_true, if_false]
  case mpermAcc =>
    simp only [Spells, Reads] at hs
    simp only [readM, bitsOf, hs, gap (p := 25) rfl, Nat.reduceAdd, Nat.reduceSub, Bool.false_eq_true, if_false]
  all_goals
    simp only [Spells, Reads, Nat.pow_one] at hs
    simp only [readM, bitsOf, bitAt, hs, Nat.reduceAdd, Nat.reduceSub, Nat.pow_one, BEq.rfl, if_true]

/-- A word that spells a crossbar instruction reads as it (R118, R226). -/
theorem readX_of_spells {w : Nat} {i : Instr} (hi : i.standsIn .x = true) (hs : Spells w (layoutOf i)) : readX w = .ok i := by
  unfold layoutOf at hs
  cases i
  all_goals cases hi
  all_goals
    simp only [Spells, Reads] at hs
    simp only [readX, bitsOf, hs, Nat.reduceAdd, Nat.reduceSub]

/-- A word that spells a D instruction reads as it (R119). -/
theorem readD_of_spells {w : Nat} {i : Instr} (hi : i.standsIn .d = true) (hs : Spells w (layoutOf i)) : readD w = .ok i := by
  unfold layoutOf at hs
  cases i
  all_goals cases hi
  all_goals
    simp only [Spells, Reads] at hs
    simp only [readD, bitsOf, hs, Nat.reduceAdd, Nat.reduceSub]

end Sys2Proof.Encoding
end

section
/-! SUPPORT. Round trips of syllables and agent words, and the canonical form of what decodes (05 R107 to R120, 23 R378). -/
namespace Sys2Proof.Encoding
open Claims

/-! ### What decodes -/

theorem ite_eq_ok_iff {p : Prop} [Decidable p] {i j : Instr} {e : DecodeReject} :
    (if p then .ok j else .error e : Dec) = .ok i ↔ j = i ∧ p := by
  split <;> simp [*]

theorem settle_eq_ok_iff {lim w : Nat} {c : Dec} {i : Instr} :
    settle lim w c = .ok i ↔ c = .ok i ∧ limitsOk lim i = true ∧ encode i = w := by
  cases c with
  | error e => simp [settle]
  | ok j =>
    simp only [settle, ite_eq_ok_iff, Except.ok.injEq, Bool.and_eq_true, beq_iff_eq]
    exact and_congr_right fun h => by rw [h]

theorem fieldsFit_of_limitsOk {lim : Nat} {i : Instr} (h : limitsOk lim i = true) : fieldsFit (layoutOf i) = true := by
  simp only [limitsOk, Bool.and_eq_true] at h
  exact h.1.1

/-- A vector instruction has no fields in a slot's word: they stand in its control word (R120). -/
theorem layoutOf_of_vectorRow {i : Instr} (h : (vectorRow i).isSome = true) : layoutOf i = [] := by
  cases i
  all_goals cases h
  all_goals rfl

theorem limitsOk_of_vectorRow {i : Instr} (lim : Nat) (h : (vectorRow i).isSome = true) : limitsOk lim i = true := by
  cases i
  all_goals cases h
  all_goals rfl

theorem wf_of_no_vectorRow {i : Instr} (h : vectorRow i = none) : i.wf = limitsOk 0x28 i := by
  rw [Instr.wf, h]

theorem wf_of_vectorRow {i : Instr} (h : (vectorRow i).isSome = true) : i.wf = vectorOk i := by
  obtain ⟨r, hr⟩ := Option.isSome_iff_exists.mp h
  rw [Instr.wf, hr]

theorem limitsOk_of_wf {i : Instr} (h : i.wf = true) : limitsOk 0x28 i = true := by
  cases hv : vectorRow i with
  | none => rwa [wf_of_no_vectorRow hv] at h
  | some r => exact limitsOk_of_vectorRow _ (by rw [hv]; rfl)

/-! ### Words of the slots and of an agent core -/

theorem settle_encode {lim : Nat} {i : Instr} {c : Dec} (h : limitsOk lim i = true) (hc : c = .ok i) :
    settle lim (encode i) c = .ok i :=
  settle_eq_ok_iff.mpr ⟨hc, h, rfl⟩

/-- Settles O7: the syllable spells the layout of its instruction, and the reader of its slot reads the instruction off it. -/
theorem syllablesRoundTrip : Obligations.SyllablesRoundTrip := by
  intro i hw
  have limits := limitsOk_of_wf hw
  have fits := fieldsFit_of_limitsOk limits
  have spells := spells_encode fits
  exact ⟨fun h => settle_encode limits (readC_of_spells h spells), fun h => settle_encode limits (readS_of_spells h spells),
    fun h => settle_encode limits (readX_of_spells h spells), fun h => settle_encode limits (readM_encode h fits),
    fun h => settle_encode limits (readD_of_spells h spells)⟩

/-! ### Agent words -/

theorem encode_wordRow (i : Instr) : encode (wordRow i) = encode i := by
  unfold wordRow
  split <;> rfl

theorem limitsOk_wordRow (lim : Nat) (i : Instr) : limitsOk lim (wordRow i) = limitsOk lim i := by
  unfold wordRow
  split <;> rfl

theorem fieldsBelow_of_standsIn_agent {i : Instr} (h : i.standsIn .agent = true) : fieldsBelow 32 (layoutOf i) = true := by
  cases i
  all_goals cases h
  all_goals rfl

theorem decodeAgent_encode {i : Instr} (h : i.wfAgent = true) : decodeAgent (encode i) = .ok (wordRow i) := by
  simp only [Instr.wfAgent, Bool.and_eq_true] at h
  obtain ⟨limits, stands⟩ := h
  refine settle_eq_ok_iff.mpr ⟨readAgent_of_spells stands (spells_encode (fieldsFit_of_limitsOk limits)), ?_, encode_wordRow i⟩
  rwa [limitsOk_wordRow]

theorem encode_lt_of_wfAgent {i : Instr} (h : i.wfAgent = true) : encode i < 2 ^ 32 := by
  simp only [Instr.wfAgent, Bool.and_eq_true] at h
  exact packFields_lt (fieldsFit_of_limitsOk h.1) (fieldsApart_layoutOf i) (fieldsBelow_of_standsIn_agent h.2)

theorem leNat_leBytes (n x : Nat) : leNat (leBytes n x) = x % 256 ^ n := by
  induction n generalizing x with
  | zero => simp [leNat, leBytes, Nat.mod_one]
  | succ n ih =>
    rw [leBytes, leNat, ih, Nat.pow_succ', Nat.mod_mul, BitVec.toNat_ofNat]
    exact congrArg (· + 256 * (x / 256 % 256 ^ n)) (Nat.mod_mod x 256)

/-- Four bytes at the head of a stream are decoded as their little-endian word (R12, R112). -/
theorem decode_leBytes_append {w : Nat} {i : Instr} {rest : List Byte} (hw : w < 2 ^ 32) (h : decodeAgent w = .ok i) :
    decode (leBytes 4 w ++ rest) = .ok (i, rest) := by
  have word : leNat (leBytes 4 w) = w := (leNat_leBytes 4 w).trans (Nat.mod_eq_of_lt hw)
  simp only [leBytes] at word
  simp only [leBytes, List.cons_append, List.nil_append, decode, word, h]

/-- Settles O6: the word spells the layout and reads as its row; a word of 32 bits survives its four bytes. -/
theorem agentWordsRoundTrip : Obligations.AgentWordsRoundTrip := fun _ _ h =>
  have word := decodeAgent_encode h
  ⟨word, decode_leBytes_append (encode_lt_of_wfAgent h) word⟩

/-! ### Words that decode -/

/-- Only the zero word would be the slot word of a vector instruction, so that a slot whose reader reads another instruction from the
zero word accepts none. -/
theorem wf_of_settle {w : Nat} {i j : Instr} {read : Nat → Dec} (h0 : read 0 = .ok j) (hj : vectorRow j = none)
    (h : settle 0x28 w (read w) = .ok i) : encode i = w ∧ i.wf = true := by
  obtain ⟨hr, limits, rfl⟩ := settle_eq_ok_iff.mp h
  refine ⟨rfl, ?_⟩
  cases hv : vectorRow i with
  | none => rwa [wf_of_no_vectorRow hv]
  | some r =>
    have zero : encode i = 0 := by rw [encode, layoutOf_of_vectorRow (by rw [hv]; rfl)]; rfl
    rw [zero, h0] at hr
    cases hr
    rw [hv] at hj
    cases hj

theorem isSome_of_vectorOk {i : Instr} (h : vectorOk i = true) : (vectorRow i).isSome = true := by
  cases hv : vectorRow i with
  | none => simp [vectorOk, hv] at h
  | some r => rfl

theorem decodeControl_eq_ok_iff {w b : Nat} {i : Instr} :
    decodeControl w b = .ok i ↔ readVector (w / 2 ^ 246) (readVOp w b) = .ok i ∧ vectorOk i = true ∧ encodeControl i = w := by
  unfold decodeControl
  cases readVector (w / 2 ^ 246) (readVOp w b) with
  | error e => simp
  | ok j =>
    simp only [ite_eq_ok_iff, Except.ok.injEq, Bool.and_eq_true, beq_iff_eq]
    exact and_congr_right fun h => by rw [h]

/-- Settles O9: each decoder accepts a candidate only within its limits and when its own word is the word read. -/
theorem decodedWordsAreCanonical : Obligations.DecodedWordsAreCanonical := by
  intro w i
  refine ⟨fun h => ?_, wf_of_settle (read := readC) rfl rfl, wf_of_settle (read := readS) rfl rfl,
    wf_of_settle (read := readX) rfl rfl, wf_of_settle (read := readM) rfl rfl, wf_of_settle (read := readD) rfl rfl, fun b h => ?_⟩
  · obtain ⟨-, limits, word⟩ := settle_eq_ok_iff.mp h
    exact ⟨word, limits⟩
  · obtain ⟨-, valid, word⟩ := decodeControl_eq_ok_iff.mp h
    exact ⟨word, (wf_of_vectorRow (isSome_of_vectorOk valid)).trans valid⟩

/-- Settles O4: the decoders run on the words. -/
theorem wordsDecode : Obligations.WordsDecode := ⟨rfl, rfl, rfl, rfl, rfl, rfl, rfl, rfl⟩

end Sys2Proof.Encoding
end

section
/-! SUPPORT. Round trip of vector control words and their operand descriptors (05 R121 to R129). -/
namespace Sys2Proof.Encoding
open Claims

/-- The fields of an operand descriptor; bit 0 is reserved (R124). -/
def opdFields (o : Opd) : List (Nat × Nat × Nat) :=
  [(o.kind, 26, 2), (o.reg, 20, 6), (o.off, 13, 7), (o.step, 9, 4), (o.fill, 1, 8)]

/-- The fields of a control word; bits [101:64] are reserved (R123). -/
def controlFields (opc : Nat) (v : VOp) : List (Nat × Nat × Nat) :=
  [(opc, 246, 10), (v.td, 242, 4), (v.ta, 238, 4), (v.tb, 234, 4), (v.wid, 232, 2), (v.lgb, 230, 2), (v.rm, 227, 3),
    (v.sat, 226, 1), (v.zm, 225, 1), (v.pg, 222, 3), (v.pn, 221, 1), (v.msk, 218, 3), (v.sf, 214, 4), (packOpd v.od, 186, 28),
    (packOpd v.oa, 158, 28), (packOpd v.ob, 130, 28), (packOpd v.oc, 102, 28), (v.aux, 0, 64)]

theorem packOpd_eq_packFields (o : Opd) : packOpd o = packFields (opdFields o) := by
  simp only [packOpd, packFields, opdFields, Nat.pow_one, Nat.add_zero, Nat.add_assoc]

theorem packVOp_eq_packFields (opc : Nat) (v : VOp) : packVOp opc v = packFields (controlFields opc v) := by
  simp only [packVOp, packFields, controlFields, Nat.pow_zero, Nat.mul_one, Nat.add_zero, Nat.add_assoc]

theorem fieldsFit_opdFields {dest : Bool} {o : Opd} (h : o.ok dest = true) : fieldsFit (opdFields o) = true := by
  simp only [fieldsFit, opdFields, List.all_cons, List.all_nil, Bool.and_true, Bool.and_eq_true, decide_eq_true_eq]
  unfold Opd.ok at h
  split at h
  case h_5 => cases h
  all_goals
    simp only [Bool.and_eq_true, beq_iff_eq, decide_eq_true_eq] at h
    omega

theorem readOpd_packOpd {o : Opd} (h : fieldsFit (opdFields o) = true) : readOpd (packOpd o) = o := by
  have hs := reads_packFields h rfl
  rw [← packOpd_eq_packFields] at hs
  simp only [Reads, opdFields] at hs
  simp only [readOpd, bitsOf, hs, Nat.reduceAdd, Nat.reduceSub]

theorem packOpd_lt {o : Opd} (h : fieldsFit (opdFields o) = true) : packOpd o < 2 ^ 28 := by
  rw [packOpd_eq_packFields]
  exact packFields_lt h rfl rfl

theorem fieldsFit_controlFields {opc : Nat} {v : VOp} (ho : opc < 2 ^ 10) (h : v.generalOk = true) :
    fieldsFit (controlFields opc v) = true := by
  simp only [VOp.generalOk, Bool.and_eq_true, decide_eq_true_eq] at h
  obtain ⟨⟨⟨⟨h, hod⟩, hoa⟩, hob⟩, hoc⟩ := h
  have od := packOpd_lt (fieldsFit_opdFields hod)
  have oa := packOpd_lt (fieldsFit_opdFields hoa)
  have ob := packOpd_lt (fieldsFit_opdFields hob)
  have oc := packOpd_lt (fieldsFit_opdFields hoc)
  simp only [fieldsFit, controlFields, List.all_cons, List.all_nil, Bool.and_true, Bool.and_eq_true, decide_eq_true_eq]
  omega

theorem packVOp_lt {opc : Nat} {v : VOp} (ho : opc < 2 ^ 10) (h : v.generalOk = true) : packVOp opc v < 2 ^ 256 := by
  rw [packVOp_eq_packFields]
  exact packFields_lt (fieldsFit_controlFields ho h) rfl rfl

theorem packVOp_div {opc : Nat} {v : VOp} (ho : opc < 2 ^ 10) (h : v.generalOk = true) : packVOp opc v / 2 ^ 246 = opc := by
  rw [packVOp_eq_packFields]
  exact (spells_packFields (fieldsFit_controlFields ho h) rfl rfl).1

theorem readVOp_packVOp {opc : Nat} {v : VOp} (ho : opc < 2 ^ 10) (h : v.generalOk = true) :
    readVOp (packVOp opc v) v.bias = v := by
  have hs := reads_packFields (fieldsFit_controlFields ho h) rfl
  rw [← packVOp_eq_packFields] at hs
  simp only [Reads, controlFields] at hs
  simp only [VOp.generalOk, Bool.and_eq_true, decide_eq_true_eq] at h
  obtain ⟨⟨⟨⟨-, hod⟩, hoa⟩, hob⟩, hoc⟩ := h
  simp only [readVOp, bitsOf, hs, Nat.reduceAdd, Nat.reduceSub, readOpd_packOpd (fieldsFit_opdFields hod),
    readOpd_packOpd (fieldsFit_opdFields hoa), readOpd_packOpd (fieldsFit_opdFields hob), readOpd_packOpd (fieldsFit_opdFields hoc)]

theorem vectorRow_opcode_lt {i : Instr} {opc sf : Nat} {v : VOp} {ok : Bool} (h : vectorRow i = some (opc, sf, v, ok)) :
    opc < 2 ^ 10 := by
  cases i
  all_goals cases h
  all_goals decide

/-- The opcode and the selector of a vector instruction name it (R128, R129). -/
theorem readVector_of_vectorRow {i : Instr} {opc sf : Nat} {v : VOp} {ok : Bool} (h : vectorRow i = some (opc, sf, v, ok))
    (hv : v.sf = sf) : readVector opc v = .ok i := by
  cases i
  all_goals cases h
  all_goals simp only [readVector, hv]

/-- Settles O8: the fields of the control word and of its four descriptors are read back, and opcode and selector name the
operation. -/
theorem controlWordsRoundTrip : Obligations.ControlWordsRoundTrip := by
  intro i opc sf v ok hw hr
  have valid : vectorOk i = true := by rwa [wf_of_vectorRow (by rw [hr]; rfl)] at hw
  have word : encodeControl i = packVOp opc v := by rw [encodeControl, hr]
  have parts := valid
  simp only [vectorOk, hr, Bool.and_eq_true, beq_iff_eq] at parts
  obtain ⟨⟨general, selector⟩, -⟩ := parts
  have opcode := vectorRow_opcode_lt hr
  refine ⟨decodeControl_eq_ok_iff.mpr ⟨?_, valid, rfl⟩, word ▸ packVOp_lt opcode general⟩
  rw [word, packVOp_div opcode general, readVOp_packVOp opcode general, readVector_of_vectorRow hr selector]

end Sys2Proof.Encoding
end

section
/-! SUPPORT. A vector operation past its gates, the movers of elements, the vector NOP and ADVR (05 R121, 09 R181 to R188 and R209,
11 R221). -/
namespace Sys2Proof.Execution
open Machine Claims

section Vector
variable {s : State} {t gid slot k addr : Nat} {g h : Gang} {x y : Tile} {v : VOp} {o : Origin}

/-- With its lane groups free and its source rings filled as its word says, an operation does its own work on the tile as it then
finds it (R181, R187). -/
theorem vectorWith_of_mayRun (ho : o = opOf g gid slot addr) (hm : VecMayRun g x slot v) (slip : Gang → Gang)
    (run : Gang → Tile → Bool → Gang) :
    g.vectorWith x o v slip run = run (g.onTile gid (fun _ => vecTile g x slot v)) (vecTile g x slot v)
      ((vecTile g x slot v).guard v.pg v.pn) := by
  subst ho
  obtain ⟨lanes, fill⟩ := hm
  refine (if_neg lanes).trans ?_
  split
  · next f wrong => exact absurd (wrong.symm.trans fill) nofun
  · rfl

/-- A vector operation that its gates let run, under a true guard, does its own work on the gang with its tile counted (R181,
R188). -/
theorem vector_atVector (hat : AtVector s t gid slot k addr g x v o y h) (run : Gang → Tile → Nat → Origin → Gang) :
    s.vector v run = .next (s.onGang t (fun _ => run h y k o)) := by
  obtain ⟨⟨hc, hg, hx⟩, mayRun, guard, rfl, rfl, rfl⟩ := hat
  rw [State.vector, State.issueOn_tile s t gid slot k addr g x hc hg hx, Gang.vector, Gang.vectorAny,
    vectorWith_of_mayRun (o := originOf g gid slot addr 0) rfl mayRun, guard]
  rfl

theorem lcyc_atVector (hat : AtVector s t gid slot k addr g x v o y h) : h.lcyc = g.lcyc := by
  obtain ⟨-, -, -, -, -, rfl⟩ := hat
  exact Gang.onTile_lcyc ..

/-- A vector operation whose meaning is its own work past the gates makes the gang what that work gives. -/
theorem gangBecomes_of_vector (hat : AtVector s t gid slot k addr g x v o y h) {i : Instr}
    {run : Gang → Tile → Nat → Origin → Gang} {q : Gang} (hi : exec i s = s.vector v run) (hq : run h y k o = q) : GangBecomes i s t q := by
  rw [GangBecomes, hi, vector_atVector hat, hq]

/-- ADVR is counted and, under a true guard, its pointers move at t + 1, with no check of a fill (R221). -/
theorem gangBecomes_advr (hat : AtTile s t gid slot k addr g x) {b : Bool} {q : Gang} (hb : x.guard v.pg v.pn = b)
    (hq : q = g.onTile gid (fun y => y.count 0x05 1)) :
    GangBecomes (.advr v) s t (if b = true then q.later (opOf g gid slot addr) (g.lcyc + 1)
      (.advr v.od.reg (sextInt 8 (v.aux % 256)) (sextInt 8 (bitsOf v.aux 15 8))) else q) := by
  subst hb hq
  obtain ⟨hc, hg, hx⟩ := hat
  refine congrArg Host.Outcome.next ((State.issueOn_tile s t gid slot k addr g x hc hg hx _).trans ?_)
  simp only [Gang.onTile_lcyc]
  rfl

end Vector

/-- Settles O28: past its gates each mover's own work is what the statement says of it; ADVR has no gate but its guard. -/
theorem vectorMoves : Obligations.VectorMoves := by
  refine ⟨?movers, fun _ => rfl, ?advr⟩
  case movers =>
    intro s t gid slot k addr n g x v o y h l z hat hn hz
    have lcyc := lcyc_atVector hat
    have gid_eq : o.gid = gid := by
      obtain ⟨-, -, -, rfl, -⟩ := hat
      rfl
    subst hn
    have source : y.readOperand h.lcyc o v k v.oa v.dt.width (v.w / v.dt.width) = (z, l) := by rw [lcyc, hz]
    refine ⟨gangBecomes_of_vector hat rfl ?_, gangBecomes_of_vector hat rfl rfl, gangBecomes_of_vector hat rfl rfl,
      gangBecomes_of_vector hat rfl ?_, gangBecomes_of_vector hat rfl ?_⟩
    · simp only [source]
    · simp only [source, gid_eq]
    · simp only [source]
  case advr =>
    intro s t gid slot k addr g x v o hat ho
    subst ho
    exact ⟨fun h => gangBecomes_advr hat h rfl, fun h => gangBecomes_advr hat h rfl⟩

end Sys2Proof.Execution
end

section
/-! SUPPORT. The gates of the vector slots: the lane groups that V0 took, the fill of a source ring, the guard, the gather port (09 R181,
R187, R188, 11 R215). -/
namespace Sys2Proof.Execution
open Machine Claims

/-- The operations that take the gather port (R215). -/
abbrev gatherOps (v : VOp) : List Instr := [.vlds v, .vsts v, .vgath v, .vscat v]

/-- An instruction that meets the gates of the vector slots: `slip` is what it does beside the fault of a wrong fill, `run` what it does
past them when told its guard. -/
def Gated (i : Instr) (v : VOp) (slip : Tile → Origin → Gang → Gang) (run : Gang → Tile → Nat → Origin → Bool → Gang) : Prop :=
  ∀ s, exec i s = .next (s.issueOn (fun g x k o => g.vectorWith x o v (slip x o) (fun h y ok => run h y k o ok)))

/-- What an operation does past its gates when it does nothing under a false guard (R188). -/
def whenOn (r : Gang → Tile → Nat → Origin → Gang) (g : Gang) (x : Tile) (k : Nat) (o : Origin) (ok : Bool) : Gang :=
  if ok then r g x k o else g

/-- An operation that finds the gather port taken records that it overlaps (R215). -/
def overlapSlip (x : Tile) (o : Origin) (g : Gang) : Gang := if x.gatherTaken g.lcyc then g.record o 2 8 g.lcyc 0 else g

/-- What an operation of the gather port does past its gates (R215). -/
def throughPort (r : Gang → Tile → Nat → Origin → Gang) (g : Gang) (x : Tile) (k : Nat) (o : Origin) (ok : Bool) : Gang :=
  g.gatherPort x o ok (fun g x => r g x k o)

theorem gated_of_vector {i : Instr} {v : VOp} {r : Gang → Tile → Nat → Origin → Gang} (h : ∀ s, exec i s = s.vector v r) :
    Gated i v (fun _ _ => id) (whenOn r) := h

theorem gated_of_gatherOp {i : Instr} {v : VOp} {r : Gang → Tile → Nat → Origin → Gang} (h : ∀ s, exec i s = s.gatherOp v r) :
    Gated i v overlapSlip (throughPort r) := h

/-- A shift meets the gates in one way, whether its count stands in AUX or in OB (R198). -/
theorem gated_of_vshift {i : Instr} {v : VOp} {f : ElemType → Nat → Nat → Nat} (h : ∀ s, exec i s = s.vshift v f) :
    ∃ r, Gated i v (fun _ _ => id) (whenOn r) := by
  by_cases hk : v.ob.kind = 0
  · exact ⟨_, gated_of_vector fun s => (h s).trans (if_pos hk)⟩
  · exact ⟨_, gated_of_vector fun s => (h s).trans (if_neg hk)⟩

/-! The shifts as a function of the type, the element and the count (R198). -/

theorem exec_vshl (v : VOp) (s : State) : exec (.vshl v) s = s.vshift v (fun t a n => a * 2 ^ n % 2 ^ t.width) := rfl

theorem exec_vshr (v : VOp) (s : State) : exec (.vshr v) s = s.vshift v (fun _ a n => a / 2 ^ n) := rfl

theorem exec_vsha (v : VOp) (s : State) :
    exec (.vsha v) s = s.vshift v (fun t a n => wrapInt t.width (sextInt t.width a / (2 ^ n : Nat))) := rfl

/-- Every vector operation but ADVR that does not take the gather port does nothing under a false guard, and nothing beside the fault
of a wrong fill (R181, R188). -/
theorem gated_of_not_mem_gatherOps {i : Instr} {opc sf : Nat} {v : VOp} {ok : Bool} (hr : vectorRow i = some (opc, sf, v, ok))
    (advr : i ≠ .advr v) (port : i ∉ gatherOps v) : ∃ r, Gated i v (fun _ _ => id) (whenOn r) := by
  cases i
  all_goals cases hr
  case advr => exact absurd rfl advr
  case vlds | vsts | vgath | vscat => exact absurd (by simp) port
  case vshl => exact gated_of_vshift (exec_vshl v)
  case vshr => exact gated_of_vshift (exec_vshr v)
  case vsha => exact gated_of_vshift (exec_vsha v)
  all_goals exact ⟨_, gated_of_vector fun _ => rfl⟩

/-- The operations of the gather port take it whatever the guard, and overlap beside a wrong fill too (R215). -/
theorem gated_of_mem_gatherOps {i : Instr} {v : VOp} (port : i ∈ gatherOps v) : ∃ r, Gated i v overlapSlip (throughPort r) := by
  simp only [List.mem_cons, List.not_mem_nil, or_false] at port
  obtain rfl | rfl | rfl | rfl := port
  all_goals exact ⟨_, gated_of_gatherOp fun _ => rfl⟩

section Gates
variable {s : State} {t gid slot k addr : Nat} {g : Gang} {x : Tile} {v : VOp} {o : Origin} {i : Instr}
  {slip : Tile → Origin → Gang → Gang} {run : Gang → Tile → Nat → Origin → Bool → Gang}

theorem gangBecomes_of_gated (hi : Gated i v slip run) (hat : AtTile s t gid slot k addr g x) {q : Gang}
    (hq : g.vectorWith x (opOf g gid slot addr) v (slip x (opOf g gid slot addr))
      (fun h y ok => run h y k (opOf g gid slot addr) ok) = q) : GangBecomes i s t q := by
  obtain ⟨hc, hg, hx⟩ := hat
  rw [GangBecomes, hi, State.issueOn_tile s t gid slot k addr g x hc hg hx, ← hq]
  rfl

/-- In V1 a lane group of V0 is a fault, and nothing else happens (R187). -/
theorem gated_lanesTaken (hi : Gated i v slip run) (hat : AtTile s t gid slot k addr g x)
    (hl : slot = 3 ∧ v.groups.any (x.nowAt g.lcyc).lanes.contains = true) :
    GangBecomes i s t (g.onTile gid (fun _ => (x.count 0x05 1).record 2 4 slot addr g.lcyc 0)) :=
  gangBecomes_of_gated hi hat (if_pos hl)

/-- A wrong fill is a fault, whatever the guard (R181). -/
theorem gated_badFill (hi : Gated i v slip run) (hat : AtTile s t gid slot k addr g x)
    (hl : ¬(slot = 3 ∧ v.groups.any (x.nowAt g.lcyc).lanes.contains = true)) {f : Nat} (hf : (vecTile g x slot v).badFill v = some f) :
    GangBecomes i s t (slip x (opOf g gid slot addr)
      (g.onTile gid (fun _ => (vecTile g x slot v).record 1 2 slot addr g.lcyc (BitVec.ofNat 64 f)))) := by
  refine gangBecomes_of_gated hi hat ((if_neg hl).trans ?_)
  split
  · next f' wrong =>
    cases wrong.symm.trans hf
    rfl
  · next fill => exact absurd (fill.symm.trans hf) nofun

theorem gated_mayRun (hi : Gated i v slip run) (hat : AtTile s t gid slot k addr g x) (hm : VecMayRun g x slot v) :
    GangBecomes i s t (run (g.onTile gid (fun _ => vecTile g x slot v)) (vecTile g x slot v) k (opOf g gid slot addr)
      ((vecTile g x slot v).guard v.pg v.pn)) :=
  gangBecomes_of_gated hi hat (vectorWith_of_mayRun rfl hm _ _)

end Gates

/-! ### The fill of the source rings (R181) -/

theorem exists_operand_of_badFill {y : Tile} {v : VOp} {f : Nat} (h : y.badFill v = some f) :
    ∃ d ∈ [v.oa, v.ob, v.oc], d.kind = 1 ∧ f = d.fill ∧ d.fill % (y.ring d.reg).size ≠ (y.ring d.reg).fill := by
  obtain ⟨d, found, rfl⟩ := Option.map_eq_some_iff.mp h
  obtain ⟨hd, kind⟩ := List.mem_filter.mp (List.mem_of_find?_eq_some found)
  exact ⟨d, hd, beq_iff_eq.mp kind, rfl, by simpa using List.find?_some found⟩

theorem fill_of_badFill_none {y : Tile} {v : VOp} (h : y.badFill v = none) {d : Opd} (hd : d ∈ [v.oa, v.ob, v.oc]) (kind : d.kind = 1) :
    d.fill % (y.ring d.reg).size = (y.ring d.reg).fill := by
  have none_bad := List.find?_eq_none.mp (Option.map_eq_none_iff.mp h) d (List.mem_filter.mpr ⟨hd, beq_iff_eq.mpr kind⟩)
  simpa using none_bad

/-! ### The gather port (R215) -/

theorem gatherTaken_eq_false {x : Tile} {c : Nat} (h : ∀ e, x.gatherPort = some e → e < c + 3) : x.gatherTaken c = false := by
  unfold Tile.gatherTaken
  cases hp : x.gatherPort with
  | none => rfl
  | some e => exact decide_eq_false (Nat.not_le.mpr (h e hp))

theorem gatherTaken_eq_true {x : Tile} {c e : Nat} (hp : x.gatherPort = some e) (he : c + 3 ≤ e) : x.gatherTaken c = true := by
  rw [Tile.gatherTaken, hp]
  exact decide_eq_true he

theorem overlapSlip_of_free {x : Tile} {o : Origin} {g : Gang} (free : ∀ e, x.gatherPort = some e → e < g.lcyc + 3) :
    overlapSlip x o g = g := by
  rw [overlapSlip, gatherTaken_eq_false free]
  rfl

theorem overlapSlip_of_taken {x : Tile} {o : Origin} {g : Gang} {e : Nat} (hp : x.gatherPort = some e) (he : g.lcyc + 3 ≤ e) :
    overlapSlip x o g = g.record o 2 8 g.lcyc 0 := if_pos (gatherTaken_eq_true hp he)

/-- With the port free it is taken, whatever the guard, and nothing else happens under a false one. -/
theorem throughPort_false_of_free {x : Tile} {o : Origin} {g : Gang} {k : Nat} (r : Gang → Tile → Nat → Origin → Gang)
    (free : ∀ e, x.gatherPort = some e → e < g.lcyc + 3) :
    throughPort r g x k o false = (g.onTile o.gid (fun _ => { x with gatherPort := some (g.lcyc + 6) })).busy o (g.lcyc + 6) := by
  rw [throughPort, Gang.gatherPort, gatherTaken_eq_false free]
  rfl

/-- Settles O24: every vector operation but ADVR meets the same gates; one of the gather port differs in what it does beside a wrong
fill and under a false guard. -/
theorem vectorGates : Obligations.VectorGates := by
  intro s t gid slot k addr opc sf g x y i v ok o h hat hr advr ho hy hh
  subst ho hy hh
  by_cases port : i ∈ gatherOps v
  · obtain ⟨r, gated⟩ := gated_of_mem_gatherOps port
    refine ⟨fun h3 hl => gated_lanesTaken gated hat ⟨h3, hl⟩, fun hl f hf q hq => ?_, fun f => exists_operand_of_badFill,
      fun fills d => fill_of_badFill_none fills, fun hm off => ⟨fun no => absurd port no, fun _ free => ?_⟩⟩
    · have slips := gated_badFill gated hat hl hf
      rw [← hq] at slips
      have lcyc : q.lcyc = g.lcyc := hq ▸ Gang.onTile_lcyc ..
      rw [← lcyc]
      exact ⟨fun free => overlapSlip_of_free (free.resolve_left (not_not_intro port)) ▸ slips,
        fun _ e hp he => overlapSlip_of_taken hp he ▸ slips⟩
    · have runs := gated_mayRun gated hat hm
      rw [off, throughPort_false_of_free r (by simpa using free), Gang.onTile_lcyc] at runs
      exact runs
  · obtain ⟨r, gated⟩ := gated_of_not_mem_gatherOps hr advr port
    refine ⟨fun h3 hl => gated_lanesTaken gated hat ⟨h3, hl⟩, fun hl f hf q hq => ?_, fun f => exists_operand_of_badFill,
      fun fills d => fill_of_badFill_none fills, fun hm off => ⟨fun _ => ?_, fun yes => absurd yes port⟩⟩
    · exact ⟨fun _ => hq ▸ gated_badFill gated hat hl hf, fun yes => absurd yes port⟩
    · have runs := gated_mayRun gated hat hm
      rw [off] at runs
      exact runs

end Sys2Proof.Execution
end

section
/-! SUPPORT. The elementwise vector operations: those of the tables, the multiply-adds, compare and select (09 R188 to R201, 11 R222). -/
namespace Sys2Proof.Execution
open Machine Claims

/-! ### The tables of elementwise operations (R194 to R198, R201, R222) -/

theorem exec_of_mem_vec2Rows {e : (VOp → Instr) × (VOp → Nat) × (VOp → Nat → Nat → Nat → Rounded)} (he : e ∈ vec2Rows) (v : VOp)
    (s : State) : exec (e.1 v) s = s.vec2 v (e.2.1 v) (fun _ => e.2.2 v) := by
  simp only [vec2Rows, List.mem_cons, List.not_mem_nil, or_false] at he
  obtain rfl | rfl | rfl | rfl | rfl | rfl | rfl | rfl | rfl | rfl := he
  all_goals rfl

theorem exec_of_mem_vec1Rows {e : (VOp → Instr) × (VOp → Nat) × (VOp → Nat → Nat → Rounded)} (he : e ∈ vec1Rows) (v : VOp)
    (s : State) : exec (e.1 v) s = s.vec1 v (e.2.1 v) (fun _ => e.2.2 v) := by
  simp only [vec1Rows, List.mem_cons, List.not_mem_nil, or_false] at he
  obtain rfl | rfl | rfl | rfl | rfl | rfl := he
  all_goals rfl

theorem exec_of_mem_vecShiftRows {e : (VOp → Instr) × (VOp → Nat → Nat → Nat)} (he : e ∈ vecShiftRows) (v : VOp) (s : State) :
    exec (e.1 v) s = if v.ob.kind = 0 then s.vec1 v 2 (fun _ _ a => plain (e.2 v a (v.aux % 64)))
      else s.vec2 v 2 (fun _ _ a b => plain (e.2 v a (b % v.dt.width))) := by
  simp only [vecShiftRows, List.mem_cons, List.not_mem_nil, or_false] at he
  obtain rfl | rfl | rfl := he
  all_goals rfl

theorem exec_of_mem_specialRows {e : (VOp → Instr) × Special} (he : e ∈ specialRows) (v : VOp) (s : State) :
    exec (e.1 v) s = s.special v e.2 := by
  simp only [specialRows, List.mem_cons, List.not_mem_nil, or_false] at he
  obtain rfl | rfl | rfl | rfl | rfl | rfl | rfl | rfl | rfl := he
  all_goals rfl

/-- Settles O25: each table names the operations of one shape, and past its gates an operation is that shape's work. -/
theorem vectorElementwise : Obligations.VectorElementwise := by
  intro s t gid slot k addr g x v o y h hat
  refine ⟨fun e he => gangBecomes_of_vector hat (exec_of_mem_vec2Rows he v s) rfl,
    fun e he => gangBecomes_of_vector hat (exec_of_mem_vec1Rows he v s) rfl, fun e he => ⟨fun inAux => ?_, fun inOb => ?_⟩,
    fun e he => gangBecomes_of_vector hat (exec_of_mem_specialRows he v s) rfl⟩
  · exact gangBecomes_of_vector hat ((exec_of_mem_vecShiftRows he v s).trans (if_pos inAux)) rfl
  · exact gangBecomes_of_vector hat ((exec_of_mem_vecShiftRows he v s).trans (if_neg inOb)) rfl

/-! ### Multiply-add (R194, R195) -/

theorem latFZ_of_float {t : ElemType} (ht : t.isFloat = true) : latFZ t = 4 := by rw [latFZ, ht]; rfl

theorem latFZ_of_int {t : ElemType} (ht : t.isFloat = false) : latFZ t = 2 := by rw [latFZ, ht]; rfl

theorem fmaElem_of_float {v : VOp} (hf : v.dt.isFloat = true) (nd np : Bool) (r a b c : Nat) :
    fmaElem v nd np r a b c =
      { fmaFloat v.dt v.mode v.sats r nd np c (widen v.at_ v.dt a).bits (widen v.bt v.dt b).bits with
        flags := (fmaFloat v.dt v.mode v.sats r nd np c (widen v.at_ v.dt a).bits (widen v.bt v.dt b).bits).flags
          ||| (widen v.at_ v.dt a).flags ||| (widen v.bt v.dt b).flags } := if_pos hf

theorem fmaElem_of_int {v : VOp} (hf : v.dt.isFloat = false) (nd np : Bool) (r a b c : Nat) :
    fmaElem v nd np r a b c = fitInt v.dt v.sats ((if nd then -intValue v.dt c else intValue v.dt c)
      + (if np then -(intValue v.dt a * intValue v.dt b) else intValue v.dt a * intValue v.dt b)) := by
  rw [fmaElem, if_neg (by simp [hf])]

section AtIssue
variable {s : State} {t gid slot k addr : Nat} {g h : Gang} {x y : Tile} {v : VOp} {o : Origin}

theorem origin_atVector (hat : AtVector s t gid slot k addr g x v o y h) : o = opOf g gid slot addr := by
  obtain ⟨-, -, -, origin, -⟩ := hat
  exact origin

theorem gangBecomes_of_vfma (hat : AtVector s t gid slot k addr g x v o y h) {i : Instr} (nd np : Bool) (hi : exec i s = s.vfma v nd np)
    {lat : Nat} (hlat : latFZ v.dt = lat) {f : Nat → List Nat → Rounded}
    (hf : ∀ r l, fmaElem v nd np r (argAt l 0) (argAt l 1) (argAt l 2) = f r l) :
    GangBecomes i s t (h.vmap y o v k lat [srcA v, srcB v, ⟨v.oc, v.dt.width⟩] v.dt f) := by
  refine gangBecomes_of_vector hat hi ?_
  simp only [hlat, hf]

end AtIssue

/-! ### Compare and select (R199, R200) -/

@[simp] theorem sawPoison_lcyc (g : Gang) (o : Origin) (p : Bool) : (g.sawPoison o p).lcyc = g.lcyc := by
  unfold Gang.sawPoison
  split
  · exact Gang.onTile_lcyc ..
  · rfl

/-- A consumption by an operation that read poison, once the read is marked (R423, R426). -/
theorem consume_of_sawPoison (g : Gang) (o : Origin) (p : Bool) :
    (if p then (g.sawPoison o p).consume o 1 (g.sawPoison o p).lcyc 0 else g.sawPoison o p)
      = if p then (g.onTile o.gid Tile.sawPoison).consume o 1 g.lcyc 0 else g := by
  cases p
  · rfl
  · simp [Gang.sawPoison]

/-- A relation of the integer values of two elements that f names (R199). -/
theorem vcmpElem_of_int {t : ElemType} (ht : t.isFloat = false) (a b : Nat) :
    vcmpElem t 0 a b = plain (if intValue t a = intValue t b then 1 else 0)
    ∧ vcmpElem t 1 a b = plain (if intValue t a = intValue t b then 0 else 1)
    ∧ vcmpElem t 2 a b = plain (if intValue t a < intValue t b then 1 else 0)
    ∧ vcmpElem t 3 a b = plain (if intValue t a < intValue t b then 0 else 1)
    ∧ vcmpElem t 4 a b = plain (if intValue t a ≤ intValue t b then 1 else 0)
    ∧ vcmpElem t 5 a b = plain (if intValue t a ≤ intValue t b then 0 else 1) := by
  have not_lt : (if intValue t b ≤ intValue t a then 1 else 0) = if intValue t a < intValue t b then 0 else 1 := by
    simp only [← Int.not_lt, ite_not]
  have not_le : (if intValue t b < intValue t a then 1 else 0) = if intValue t a ≤ intValue t b then 0 else 1 := by
    simp only [← Int.not_le, ite_not]
  simp [vcmpElem, ht, not_lt, not_le]

/-- Settles O26: the multiply-adds share one work, which the type of the destination decides; VCMP and VSEL are the work that their
definitions say. -/
theorem vectorMultiplyAddCompareSelect : Obligations.VectorMultiplyAddCompareSelect := by
  intro s t gid slot k addr g x v o y h a b c hat ha hb hc
  have lcyc := lcyc_atVector hat
  have gid_eq : o.gid = gid := congrArg Origin.gid (origin_atVector hat)
  subst ha hb hc
  refine ⟨?float, ?int, ?vcmp, fun e u => vcmpElem_of_int (a := e) (b := u), ?vsel⟩
  case float =>
    intro hf wa wb hwa hwb f hfma
    obtain rfl := funext hwa
    obtain rfl := funext hwb
    have lat := latFZ_of_float hf
    exact ⟨gangBecomes_of_vfma hat false false rfl lat fun r l => (fmaElem_of_float hf ..).trans (hfma false false r l).symm,
      gangBecomes_of_vfma hat true false rfl lat fun r l => (fmaElem_of_float hf ..).trans (hfma true false r l).symm,
      gangBecomes_of_vfma hat false true rfl lat fun r l => (fmaElem_of_float hf ..).trans (hfma false true r l).symm⟩
  case int =>
    intro hf p d hp hd
    obtain rfl := funext hp
    obtain rfl := funext hd
    have lat := latFZ_of_int hf
    exact ⟨gangBecomes_of_vfma hat false false rfl lat fun r l => fmaElem_of_int hf ..,
      gangBecomes_of_vfma hat true false rfl lat fun r l => fmaElem_of_int hf ..,
      gangBecomes_of_vfma hat false true rfl lat fun r l => fmaElem_of_int hf ..⟩
  case vcmp =>
    intro n due rd rs m q hn hdue hrd hrs hm hq
    subst hn hdue hrs hm hq
    refine gangBecomes_of_vector hat rfl ?_
    subst hrd
    simp only [Gang.vcmp, consume_of_sawPoison, Gang.onTile_lcyc, lcyc, gid_eq]
    rfl
  case vsel =>
    intro n rd rs hn hrd hrs
    subst hn hrd hrs
    refine gangBecomes_of_vector hat rfl ?_
    simp only [Gang.vsel, lcyc, gid_eq]
    rfl

end Sys2Proof.Execution
end

section
/-! SUPPORT. MX blocks, scalings, reductions, scans and the k largest (09 R96, R97, R201 to R208). -/
namespace Sys2Proof.Execution
open Machine Claims

/-! ### Reductions of nothing (R96) -/

theorem treeLevel_none {α : Type} (op : Nat → α → α → α) (base m n : Nat) :
    treeLevel op base (List.replicate m none) (List.replicate n none) = List.replicate m none := by
  induction m generalizing base n with
  | zero => cases n <;> rfl
  | succ m ih =>
    cases n with
    | zero => rfl
    | succ n => exact congrArg (none :: ·) (ih (base + 1) n)

/-- The tree over absent elements has no value (R96). -/
theorem treeReduce_none {α : Type} (op : Nat → α → α → α) (fuel n : Nat) : treeReduce op fuel (List.replicate n none) = none := by
  have head (n : Nat) : (List.replicate n (none : Option α)).head?.join = none := by cases n <;> rfl
  induction fuel generalizing n with
  | zero => exact head n
  | succ fuel ih =>
    rw [treeReduce]
    split
    · exact head n
    · rw [List.take_replicate, List.drop_replicate, treeLevel_none, ih]

theorem eq_replicate_none {α : Type} {ls : List (Option α)} (h : ls.all (·.isNone) = true) : ls = List.replicate ls.length none :=
  List.eq_replicate_iff.mpr ⟨rfl, fun q hq => Option.isNone_iff_eq_none.mp (List.all_eq_true.mp h q hq)⟩

theorem sumReduce_of_int {v : VOp} (hv : v.dt.isFloat = false) (draw : Nat → Nat) (ls : List (Option Lane)) :
    sumReduce v draw ls
      = fitInt v.dt v.sats ((ls.filterMap (fun q => q.map (fun a => intValue v.at_ a.val))).foldl (· + ·) 0) := by
  rw [sumReduce, if_neg (by simp [hv])]

theorem sumReduce_none {v : VOp} (hv : v.dt.isFloat = true) (draw : Nat → Nat) (n : Nat) :
    sumReduce v draw (List.replicate n none) = plain 0 := by
  simp only [sumReduce, hv, if_true, List.map_replicate, Option.map_none, treeReduce_none]

theorem extremeReduce_none (v : VOp) (w : Bool) (n : Nat) :
    extremeReduce v w (List.replicate n none) = plain (identityOf v.at_ (if w then 1 else 2)) := by
  simp only [extremeReduce, List.map_replicate, Option.map_none, treeReduce_none]

/-! ### The index of the extreme (R206) -/

/-- The enabled elements from an index on, each with its index. -/
def indexed (from_ : Nat) (ls : List (Option Lane)) : List (Nat × Nat) :=
  ((List.range' from_ ls.length).zip ls).filterMap (fun e => e.2.map (fun l => (e.1, l.val)))

theorem indexed_none_cons (m : Nat) (ls : List (Option Lane)) : indexed m (none :: ls) = indexed (m + 1) ls := rfl

theorem indexed_some_cons (m : Nat) (l : Lane) (ls : List (Option Lane)) :
    indexed m (some l :: ls) = (m, l.val) :: indexed (m + 1) ls := rfl

theorem indexed_replicate_none (m n : Nat) : indexed m (List.replicate n none) = [] := by
  induction n generalizing m with
  | zero => rfl
  | succ n ih => exact ih (m + 1)

/-- Of the indexed elements, the first that satisfies p is the one below which no element does. -/
theorem find_indexed {p : Nat → Bool} {ls : List (Option Lane)} {i : Nat} {q : Lane} (hi : ls[i]? = some (some q)) (hq : p q.val = true)
    (first : ∀ j a, j < i → ls[j]? = some (some a) → p a.val = false) (m : Nat) :
    (indexed m ls).find? (fun e => p e.2) = some (m + i, q.val) := by
  induction ls generalizing i m with
  | nil => cases hi
  | cons l ls ih =>
    cases i with
    | zero =>
      cases hi
      exact List.find?_cons_of_pos hq
    | succ i =>
      have rest := ih (i := i) hi (fun j a hj ha => first (j + 1) a (Nat.succ_lt_succ hj) ha) (m + 1)
      rw [Nat.add_assoc, Nat.add_comm 1] at rest
      cases l with
      | none => exact rest
      | some a =>
        rw [indexed_some_cons, List.find?_cons_of_neg (by simp [first 0 a (Nat.succ_pos i) rfl]), rest]

theorem indexed_zero (ls : List (Option Lane)) :
    ((List.range ls.length).zip ls).filterMap (fun e => e.2.map (fun l => (e.1, l.val))) = indexed 0 ls := by
  rw [List.range_eq_range', indexed]

theorem argReduce_of_nan {v : VOp} {ls : List (Option Lane)} {i : Nat} {q : Lane} (hi : ls[i]? = some (some q))
    (nan : isNanBits v.at_ q.val = true) (first : ∀ j a, j < i → ls[j]? = some (some a) → isNanBits v.at_ a.val = false) :
    (argReduce v ls).bits = i := by
  simp only [argReduce, indexed_zero, find_indexed hi nan first, Nat.zero_add]

theorem argReduce_none (v : VOp) (n : Nat) : argReduce v (List.replicate n none) = plain (2 ^ v.dt.width - 1) := by
  simp only [argReduce, indexed_zero, indexed_replicate_none]
  rfl

/-! ### The scale of a block (R93, R202) -/

theorem blockScale_of_not_finite {src dst : ElemType} {xs : List Nat} (h : ∃ a ∈ xs, finiteOf src a = none) :
    (blockScale src dst xs).1 = 255 := by
  obtain ⟨a, ha, inf⟩ := h
  rw [blockScale, if_neg]
  intro all
  have := List.all_eq_true.mp all a ha
  simp [inf] at this

theorem blockScale_of_finite {src dst : ElemType} {xs : List Nat} (h : ∀ a ∈ xs, finiteOf src a ≠ none) :
    blockScale src dst xs = (mxScale dst (absMax (xs.filterMap (finiteOf src))), 0) :=
  if_pos (List.all_eq_true.mpr fun a ha => Option.isSome_iff_ne_none.mpr (h a ha))

/-- Settles O27: past its gates each operation is the work that its definition says; a reduction of nothing and the index of a NaN go by
the tree and the search over the elements, a block's scale by whether all of it is finite. -/
theorem vectorBlocksAndReductions : Obligations.VectorBlocksAndReductions := by
  refine ⟨?operations, ?values⟩
  case operations =>
    intro s t gid slot k addr g x v o y h ls sl hat hls hsl
    have lcyc := lcyc_atVector hat
    have origin := origin_atVector hat
    subst hls hsl
    refine ⟨?vqmx, ?vdqmx, ?vscl, gangBecomes_of_vector hat rfl rfl, gangBecomes_of_vector hat rfl rfl,
      gangBecomes_of_vector hat rfl rfl, gangBecomes_of_vector hat rfl rfl, ?vscan, ?vtopk⟩
    case vqmx =>
      intro n b z l lanes sc bad codes r hn hb hz hlanes hsc hbad hcodes hr
      obtain rfl := funext hlanes
      obtain rfl := funext hsc
      obtain rfl := funext hbad
      obtain rfl := funext hcodes
      subst hn hb hr
      refine gangBecomes_of_vector hat rfl ?_
      simp only [Gang.vqmx, lcyc, ← hz]
      subst origin
      rfl
    case vdqmx =>
      intro rs hrs
      subst hrs
      refine gangBecomes_of_vector hat rfl ?_
      rw [← lcyc]
      rfl
    case vscl =>
      intro z d q hreg haux hq
      subst hq
      have factor : (if v.ob.kind = 3 then y.readCode v.ob.reg g.lcyc o.slot o.addr
          else (y, ⟨BitVec.ofInt 64 (sextInt 8 (bitsOf v.aux 15 8)), false⟩)) = (z, d) := by
        split
        · next scalar => rw [hreg scalar, origin]; rfl
        · next imm =>
          obtain ⟨rfl, rfl⟩ := haux imm
          rfl
      refine ⟨fun float notMx rs hrs => ?_, fun mx r marks hr hmarks => ?_⟩
      · subst hrs
        refine gangBecomes_of_vector hat rfl ?_
        simp only [Gang.vscl, lcyc, factor, Gang.onTile_lcyc]
        rw [if_pos ⟨float, by simp [notMx]⟩, origin]
        rfl
      · subst hr hmarks
        refine gangBecomes_of_vector hat rfl ?_
        simp only [Gang.vscl, lcyc, factor, Gang.onTile_lcyc]
        rw [if_neg (by obtain int | mx := mx <;> simp [*]), origin]
        rfl
    case vscan =>
      intro rs hrs
      subst hrs
      refine gangBecomes_of_vector hat rfl ?_
      rw [← lcyc]
    case vtopk =>
      intro lanes r hlanes hr
      obtain rfl := funext hlanes
      subst hr
      refine gangBecomes_of_vector hat rfl ?_
      rw [← lcyc]
      rfl
  case values =>
    intro v draw ls src dst xs m r e b y w p l
    refine ⟨fun int => sumReduce_of_int int draw ls, fun absent float => ?_, fun i q => argReduce_of_nan, fun absent => ?_,
      blockScale_of_not_finite, blockScale_of_finite, rfl, rfl, rfl, rfl, rfl⟩
    · rw [eq_replicate_none absent, sumReduce_none float]
    · rw [eq_replicate_none absent]
      exact ⟨argReduce_none v _, extremeReduce_none v w _⟩

end Sys2Proof.Execution
end

section
/-! SUPPORT. Vector loads and stores: the direct path, which two V slots share in a cycle, and the gather port (11 R210 to R220). -/
namespace Sys2Proof.Execution
open Machine Claims

section Path
variable {q : Gang} {u : Tile} {o : Origin} {offs : List Nat} {write : Bool}

/-- The banks that V0 uses in a cycle, for loads and for stores apart (R214). -/
def banksUsed (write : Bool) (c : Cycle) : List Nat := if write then c.writes else c.reads

/-- A cycle in which the access of a slot takes its banks; those of V0 alone are kept (R214). -/
def withBanks (write : Bool) (slot : Nat) (offs : List Nat) (c : Cycle) : Cycle :=
  if slot = 2 then if write then { c with writes := dedupNat (offs.map bankOf) } else { c with reads := dedupNat (offs.map bankOf) } else c

/-- An access of V1 that meets a bank of V0 only records the first offset that does (R214). -/
theorem direct_of_meets (hu : q.tile o.gid = some u) (v1 : o.slot = 3) {a : Nat}
    (meets : offs.find? (fun a => (banksUsed write (u.nowAt q.lcyc)).contains (bankOf a)) = some a) (run : Gang → Gang) :
    q.direct o write offs run = q.later o (q.lcyc + 3) (.trapFault 2 7 (BitVec.ofNat 64 a)) := by
  unfold banksUsed at meets
  simp only [Gang.direct, hu, if_pos v1, meets, Gang.laterDrop]

/-- An access of V0, or one of V1 that meets no bank of V0, goes through (R214). -/
theorem direct_of_apart (hu : q.tile o.gid = some u)
    (apart : o.slot = 3 → ∀ a ∈ offs, (banksUsed write (u.nowAt q.lcyc)).contains (bankOf a) = false) (run : Gang → Gang) :
    q.direct o write offs run = run (q.onTile o.gid (fun p => { p with now := withBanks write o.slot offs (u.nowAt q.lcyc) })) := by
  have none_met : (if o.slot = 3 then offs.find? (fun a => (banksUsed write (u.nowAt q.lcyc)).contains (bankOf a)) else none) = none := by
    split
    · next v1 => exact List.find?_eq_none.mpr fun a ha => ne_true_of_eq_false (apart v1 a ha)
    · rfl
  unfold banksUsed at none_met
  simp only [Gang.direct, hu, none_met, withBanks]

end Path

section AtIssue
variable {s : State} {t gid slot k addr : Nat} {g h q : Gang} {x y z u : Tile} {v : VOp} {o : Origin} {ra : Word} {i : Instr}

/-- Reading the base register takes no time (R211). -/
theorem lcyc_vmemRead (read : (q, z, ra) = h.vmemRead y o v k) : q.lcyc = h.lcyc := by
  obtain ⟨rfl, -, -⟩ : q = _ ∧ z = _ ∧ ra = _ := by simpa only [Gang.vmemRead, Prod.mk.injEq] using read
  split
  all_goals simp

/-! ### The direct path at issue (R214) -/

/-- The two ways of an operation whose work is an access of the direct path. -/
theorem gangBecomes_of_direct (hat : AtVector s t gid slot k addr g x v o y h) {write : Bool} {offs : List Nat} {run : Gang → Gang}
    (work : GangBecomes i s t (q.direct o write offs run)) (lcyc : q.lcyc = g.lcyc) (hu : q.tile gid = some u) :
    ((slot = 3 → ∀ a ∈ offs, (banksUsed write (u.nowAt g.lcyc)).contains (bankOf a) = false) →
      GangBecomes i s t (run (q.onTile gid (fun p => { p with now := withBanks write slot offs (u.nowAt g.lcyc) }))))
    ∧ (slot = 3 → ∀ a, offs.find? (fun a => (banksUsed write (u.nowAt g.lcyc)).contains (bankOf a)) = some a →
      GangBecomes i s t (q.later o (g.lcyc + 3) (.trapFault 2 7 (BitVec.ofNat 64 a)))) := by
  obtain rfl := origin_atVector hat
  rw [← lcyc]
  exact ⟨fun apart => direct_of_apart (o := opOf g gid slot addr) hu apart run ▸ work,
    fun v1 a meets => direct_of_meets (o := opOf g gid slot addr) hu v1 meets run ▸ work⟩

/-! ### The gather port at issue (R215) -/

/-- An operation of the gather port that its gates let run does its own work through the port. -/
theorem gangBecomes_of_throughPort (hat : AtVector s t gid slot k addr g x v o y h) {run : Gang → Tile → Nat → Origin → Gang}
    (gated : Gated i v overlapSlip (throughPort run)) : GangBecomes i s t (throughPort run h y k o true) := by
  obtain ⟨tile, mayRun, guard, rfl, rfl, rfl⟩ := hat
  exact guard ▸ gated_mayRun gated tile mayRun

/-- An operation that overlaps an earlier one in the port is a fault and does nothing (R215). -/
theorem gangBecomes_of_portTaken (hat : AtVector s t gid slot k addr g x v o y h) {run : Gang → Tile → Nat → Origin → Gang}
    (gated : Gated i v overlapSlip (throughPort run)) {e : Nat} (hp : y.gatherPort = some e) (he : g.lcyc + 3 ≤ e) :
    GangBecomes i s t (h.record o 2 8 g.lcyc 0) := by
  have taken : throughPort run h y k o true = h.record o 2 8 h.lcyc 0 := if_pos (gatherTaken_eq_true hp (lcyc_atVector hat ▸ he))
  exact lcyc_atVector hat ▸ taken ▸ gangBecomes_of_throughPort hat gated

/-- An operation that finds the port free takes it from t + 3 to t + 6 and does its own work (R215). -/
theorem gangBecomes_of_portFree (hat : AtVector s t gid slot k addr g x v o y h) {run : Gang → Tile → Nat → Origin → Gang}
    (hi : ∀ s, exec i s = s.gatherOp v run) (free : ∀ e, y.gatherPort = some e → e < g.lcyc + 3) {y' : Tile} {h' : Gang}
    (hy : y' = { y with gatherPort := some (g.lcyc + 6) }) (hh : h' = (h.onTile gid (fun _ => y')).busy o (g.lcyc + 6))
    (hq : run h' y' k o = q) : GangBecomes i s t q := by
  have lcyc := lcyc_atVector hat
  obtain rfl := origin_atVector hat
  have through : throughPort run h y k (opOf g gid slot addr) true = run h' y' k (opOf g gid slot addr) := by
    rw [throughPort, Gang.gatherPort, lcyc, gatherTaken_eq_false free, hh, hy]
    rfl
  exact hq ▸ through ▸ gangBecomes_of_throughPort hat (gated_of_gatherOp hi)

end AtIssue

/-! ### The elements that their banks serve (R216) -/

section Served
variable {q : Gang} {z : Tile} {o : Origin} {due : Nat} {addrs : List Nat} {served : List Bool}

theorem dropFirst_of_none (all : (addrs.zip served).find? (fun e => !e.2) = none) : q.dropFirst z o due addrs served = q := by
  simp only [Gang.dropFirst, all]

theorem dropFirst_of_some {a : Nat} {b : Bool} (first : (addrs.zip served).find? (fun e => !e.2) = some (a, b)) :
    q.dropFirst z o due addrs served = q.later o due (.trapFault 2 7 (BitVec.ofNat 64 (z.map a))) := by
  simp only [Gang.dropFirst, first, Gang.laterDrop]

end Served

/-- Settles O29: on the direct path each of the loads is one read of mapped offsets and a store one write of its bytes, so that one lemma
says how they meet V0's banks; an operation of the gather port finds it taken, or takes it and then drops what its banks do not serve. -/
theorem vectorMemory : Obligations.VectorMemory := by
  intro s t gid slot k addr g x v o y h hat
  refine ⟨?direct, ?taken, ?free, ?served⟩
  case direct =>
    intro q z u ra ea w now ens sl read hu hnow hea hw hens hsl
    subst hnow hea hw hens hsl
    have read_lcyc := (lcyc_vmemRead read).trans (lcyc_atVector hat)
    refine ⟨?load, ?store⟩
    case load =>
      intro i reads pieces en hi
      have work : GangBecomes i s t (q.direct o false reads fun g' =>
          g'.loadPieces o (z.dstEntry k v.od) reads pieces en (g'.lcyc + 6)) := by
        obtain ⟨rfl, plain, rfl, rfl, rfl⟩ | ⟨rfl, mx, rfl, rfl, rfl⟩ | ⟨rfl, rfl, rfl, rfl⟩ := hi
        · refine gangBecomes_of_vector hat rfl ?_
          simp only [Gang.vld, ← read, if_neg (ne_true_of_eq_false plain)]
        · refine gangBecomes_of_vector hat rfl ?_
          simp only [Gang.vld, ← read, if_pos mx]
        · refine gangBecomes_of_vector hat rfl ?_
          simp only [Gang.vldb, ← read]
      have ways := gangBecomes_of_direct hat work read_lcyc hu
      simp only [Gang.loadPieces, Gang.onTile_lcyc, read_lcyc] at ways
      exact ways
    case store =>
      intro bytes p r used plain mx hp hr hused
      subst hp hused
      have work : GangBecomes (.vst v) s t ((q.sawPoison o (bytes.any (·.2.p))).direct o true (bytes.map (·.1)) fun g' =>
          g'.later o (g'.lcyc + 3) (.put (lastBytes bytes))) := by
        refine gangBecomes_of_vector hat rfl ?_
        simp only [Gang.vst, ← read]
        split
        · next isMx => rw [mx isMx]
        · next notMx => rw [plain (eq_false_of_ne_true notMx)]
      have ways := gangBecomes_of_direct hat work ((sawPoison_lcyc ..).trans read_lcyc) hr
      simp only [Gang.onTile_lcyc, sawPoison_lcyc, read_lcyc, List.forall_mem_map] at ways
      exact ways
  case taken =>
    intro i hi e hp he
    obtain ⟨r, gated⟩ := gated_of_mem_gatherOps hi
    exact gangBecomes_of_portTaken hat gated hp he
  case free =>
    intro free y' z h' q ra hy hh read
    have port {i run q} (hi : ∀ s, exec i s = s.gatherOp v run) (hq : run h' y' k o = q) : GangBecomes i s t q :=
      gangBecomes_of_portFree hat hi free hy hh hq
    refine ⟨port (fun _ => rfl) ?_, port (fun _ => rfl) ?_, fun m n idx addrs hm hn hidx haddrs => port (fun _ => rfl) ?_,
      fun m n idx addrs hm hn hidx haddrs => port (fun _ => rfl) ?_⟩
    · simp only [← read]
    · simp only [← read]
    · subst hm hn hidx haddrs
      simp only [← read]
    · subst hm hn hidx haddrs
      simp only [← read]
  case served =>
    intro q z w addrs ens lanes live keep served hlive hkeep
    subst hlive hkeep
    refine ⟨fun ps f hs hps hf => ?load, fun bs f hs hbs hf => ?store⟩
    case load =>
      subst hs hps hf
      refine ⟨fun all => ?_, fun a b first => ?_⟩
      · rw [Gang.gatherLoad, dropFirst_of_none all, Gang.loadPieces]
      · rw [Gang.gatherLoad, dropFirst_of_some first, Gang.loadPieces, Gang.later_lcyc]
    case store =>
      subst hs hbs hf
      refine ⟨fun all => ?_, fun a b first => ?_⟩
      · rw [Gang.gatherStore, dropFirst_of_none all]
      · rw [Gang.gatherStore, dropFirst_of_some first, Gang.later_lcyc]

end Sys2Proof.Execution
end

section
/-! SUPPORT. The crossbar: routes of ports from the head of a source ring to the tail of a destination ring, and the pattern registers
(11 R224 to R229). -/
namespace Sys2Proof.Execution
open Machine Claims

section AtIssue
variable {s : State} {t gid slot k addr : Nat} {g q : Gang} {x : Tile} {i : Instr}

/-- An instruction of a tile's slot whose meaning is its issue on the gang makes the gang what that issue gives. -/
theorem gangBecomes_of_issueOn (hat : AtTile s t gid slot k addr g x) {run : Gang → Tile → Nat → Origin → Gang}
    (hi : exec i s = .next (s.issueOn run)) (hq : run g x k (opOf g gid slot addr) = q) : GangBecomes i s t q := by
  obtain ⟨hc, hg, hx⟩ := hat
  rw [GangBecomes, hi, State.issueOn_tile s t gid slot k addr g x hc hg hx, ← hq]
  rfl

/-- XPERM of a pattern whose valid entries name each destination once moves the ports as it says (R227). -/
theorem gangBecomes_of_pattern (hat : AtTile s t gid slot k addr g x) {hd hs n : Nat}
    (once : (dedupNat ((patternTargets (x.pattern n)).map (·.2))).length = (patternTargets (x.pattern n)).length) :
    GangBecomes (.xperm hd hs n) s t (g.cross x (opOf g gid slot addr) hd hs k (patternTargets (x.pattern n))) :=
  gangBecomes_of_issueOn hat rfl (if_pos once)

/-- A pattern with two valid entries of one destination is a fault and moves nothing (R227). -/
theorem gangBecomes_of_bad_pattern (hat : AtTile s t gid slot k addr g x) {hd hs n : Nat}
    (twice : (dedupNat ((patternTargets (x.pattern n)).map (·.2))).length ≠ (patternTargets (x.pattern n)).length) :
    GangBecomes (.xperm hd hs n) s t (g.record (opOf g gid slot addr) 2 5 g.lcyc 0) :=
  gangBecomes_of_issueOn hat rfl (if_neg twice)

end AtIssue

/-- Settles O30: an X operation is one move of an entry along its routes, which each operation names; XPERM moves nothing along a bad
pattern, and XPAT sets a pattern. -/
theorem crossbar : Obligations.Crossbar := by
  refine ⟨fun _ => rfl, ?operations⟩
  intro s t gid slot k addr hd hs n mode p j g x o e moved hat ho he hmoved
  subst ho he
  have cross {i rs} (hi : exec i s = s.cross hd hs rs) : GangBecomes i s t (moved rs) :=
    gangBecomes_of_issueOn hat hi (hmoved rs).symm
  refine ⟨cross rfl, cross rfl, cross rfl, cross rfl, fun once => ?perm, gangBecomes_of_bad_pattern hat, fun q hq => ?xpat⟩
  case perm => exact hmoved _ ▸ gangBecomes_of_pattern hat once
  case xpat =>
    have lcyc : q.lcyc = g.lcyc := by
      rw [hq]
      split
      · rfl
      · rw [Gang.consume_lcyc, Gang.onTile_lcyc]
    refine gangBecomes_of_issueOn hat rfl ?_
    rw [← lcyc, hq]
    rfl

end Sys2Proof.Execution
end

section
/-! SUPPORT. An instruction of the D slot at issue: the limit of operations in flight, the registers that it reads; what the instructions
do when the limit is reached (15 R273 to R275). -/
namespace Sys2Proof.Execution
open Machine Claims

section DataSlot
variable {s : State} {t gid k addr buf : Nat} {g h q : Gang} {x y v : Tile} {o : Origin} {i : Instr}
  {run : Gang → Tile → Nat → Origin → Gang}

/-- At 1,024 operations in flight an instruction of the D slot is a fault, whatever its own work (R274). -/
theorem dslot_of_full (hat : AtTile s t gid 6 k addr g x) (hgid : x.gid = gid)
    (full : 1024 ≤ x.dCount g.lcyc + s.pendingDeliveries t gid g.lcyc) (run : Gang → Tile → Nat → Origin → Gang) :
    s.dslot buf run = .next (s.onGang t (fun _ => g.record { opOf g gid 6 addr with buf := buf } 2 9 g.lcyc 0)) := by
  obtain ⟨cur, gang, tile⟩ := hat
  have task : s.evTask = t := by rw [State.evTask, cur]
  rw [State.dslot, State.issueOn_tile s t gid 6 k addr g x cur gang tile, task, hgid, if_pos full]
  rfl

theorem gangBecomes_of_full (hat : AtTile s t gid 6 k addr g x) (hgid : x.gid = gid)
    (full : 1024 ≤ x.dCount g.lcyc + s.pendingDeliveries t gid g.lcyc) (hi : exec i s = s.dslot buf run) :
    GangBecomes i s t (g.record { opOf g gid 6 addr with buf := buf } 2 9 g.lcyc 0) :=
  hi.trans (dslot_of_full hat hgid full run)

/-- Below the limit an instruction of the D slot makes the gang what its own work gives. -/
theorem gangBecomes_of_dslot (hat : AtD s t gid k addr buf g x o y h) (hi : exec i s = s.dslot buf run) (hq : run h y k o = q) :
    GangBecomes i s t q := by
  obtain ⟨⟨cur, gang, tile⟩, rfl, free, rfl, rfl, rfl⟩ := hat
  have task : s.evTask = t := by rw [State.evTask, cur]
  rw [GangBecomes, hi, State.dslot, State.issueOn_tile s t x.gid 6 k addr g x cur gang tile, task, if_neg (Nat.not_le.mpr free), ← hq]
  rfl

theorem origin_atD (hat : AtD s t gid k addr buf g x o y h) : o = { opOf g gid 6 addr with buf := buf } := by
  obtain ⟨-, -, -, ho, -, -⟩ := hat
  exact ho

theorem place_atD (hat : AtD s t gid k addr buf g x o y h) : o.gid = gid ∧ o.slot = 6 ∧ o.addr = addr := by
  rw [origin_atD hat]
  exact ⟨rfl, rfl, rfl⟩

theorem lcyc_atD (hat : AtD s t gid k addr buf g x o y h) : h.lcyc = g.lcyc := by
  obtain ⟨-, -, -, -, -, rfl⟩ := hat
  exact Gang.onTile_lcyc ..

/-! ### The registers that it reads (R416, R423) -/

theorem lcyc_of_read {rd : Reads} {n : Nat} (read : Read h q v o rd n) : q.lcyc = h.lcyc := by
  rw [read.1, reading_lcyc]

/-- Registers read for an operation, with the consumption of a poisoned one. -/
theorem dRead_eq (h : Gang) (y : Tile) (o : Origin) (point : Nat) (cs : List Nat) (at_ : List Word → Nat) {rd : Reads}
    (hrd : rd = y.readCodes h.lcyc o.slot o.addr cs)
    (hq : q = if rd.poison = true then (h.onTile o.gid (fun _ => rd.x)).consume o point h.lcyc (BitVec.ofNat 64 (at_ rd.vals))
      else h.onTile o.gid (fun _ => rd.x))
    (hv : q.tile o.gid = some v) : h.dRead y o point cs at_ = (q, v, rd.vals, rd.poison) := by
  subst hrd
  rw [Gang.dRead, Gang.onTile_lcyc, ← hq, hv]
  rfl

theorem dRead_atD (hat : AtD s t gid k addr buf g x o y h) {rd : Reads} {cs : List Nat} {at_ : List Word → Nat} {n : Nat}
    (hrd : rd = y.readCodes g.lcyc 6 addr cs) (read : Read h q v o rd n) (hn : at_ rd.vals = n) :
    h.dRead y o 1 cs at_ = (q, v, rd.vals, rd.poison) := by
  obtain ⟨hq, hv⟩ := read
  refine dRead_eq h y o 1 cs at_ ?_ (hn ▸ hq) hv
  obtain ⟨-, slot, addr_eq⟩ := place_atD hat
  rw [hrd, lcyc_atD hat, slot, addr_eq]

end DataSlot

/-! ### Each instruction of the D slot is a D-slot operation (R274) -/

section Exec
variable (buf d r a b c n hi hv it w : Nat) (s : State)

theorem exec_xfer (dsp ssp nb : Nat) :
    exec (.xfer buf d r dsp ssp nb) s = s.dslot buf (fun g x _ o => g.xfer s.cfg x o d r dsp ssp nb none) := rfl

theorem exec_xferr (dsp ssp nb arv : Nat) :
    exec (.xferr buf d r dsp ssp nb b arv) s = s.dslot buf (fun g x _ o => g.xfer s.cfg x o d r dsp ssp nb (some (b, arv))) := rfl

theorem exec_rld (sp z off : Nat) : exec (.rld buf d a sp z off) s = s.dslot buf (fun g x _ o => g.rld s.cfg x o d a sp z off) := rfl

theorem exec_rst (sp z off : Nat) : exec (.rst buf d a sp z off) s = s.dslot buf (fun g x _ o => g.rst s.cfg x o d a sp z off) := rfl

theorem exec_chsend (ch astep : Nat) :
    exec (.chsend buf a ch astep) s = s.dslot buf (fun g x k o => g.chsend x o k a ch astep) := rfl

theorem exec_chrecv (ch astep : Nat) :
    exec (.chrecv buf a ch astep) s = s.dslot buf (fun g x k o => g.chrecv x o k a ch astep) := rfl

theorem exec_chbind (chs chr : Nat) : exec (.chbind buf n chs chr) s = s.dslot buf (fun g x _ o =>
    if x.badBind n chs 1 ∨ x.badBind n chr 2 then g.record o 2 0 g.lcyc 0
    else (g.later o (g.lcyc + 1) (.chbind n chs chr)).inFlight o (g.lcyc + 1)) := rfl

theorem exec_sacc (ioff voff istep vstep : Nat) : exec (.sacc buf a hi hv it ioff voff istep vstep) s
    = s.dslot buf (fun g x k o => g.sacc x o k a hi hv it ioff voff istep vstep) := rfl

theorem exec_shist (ioff istep : Nat) :
    exec (.shist buf a hi it ioff istep) s = s.dslot buf (fun g x k o => g.shist x o k a hi it ioff istep) := rfl

theorem exec_ctrsnap : exec (.ctrsnap buf a) s = s.dslot buf (fun g x _ o => g.ctrsnap x o a) := rfl

theorem exec_atomCas : exec (.atomCas buf d a b c w) s = s.atom buf 9 d a b (some c) w := rfl

theorem exec_snap (dom : Nat) : exec (.snap buf d dom) s = s.dslot buf (fun g _ _ o => g.snap o d dom) := rfl

theorem exec_genq (dom : Nat) : exec (.genq buf d dom) s = s.dslot buf (fun g x _ o => g.genq s.cfg x o d dom) := rfl

theorem exec_tpost (handle src step : Nat) : exec (.tpost buf handle src a step) s
    = s.dslot buf (fun g x k o => g.tpost x o k (find? s.trees handle) handle src a step) := rfl

theorem exec_trecv (handle src step : Nat) : exec (.trecv buf handle src a step) s
    = s.dslot buf (fun g x k o => g.trecv s.cfg x o k (find? s.trees handle) handle src a step) := rfl

/-- TSTAT is one D-slot operation whatever it reads (R360). -/
theorem exec_tstat (handle clr : Nat) : ∃ run, exec (.tstat buf handle d clr) s = s.dslot buf run :=
  ⟨_, show _ = execTstat buf handle d clr s from rfl⟩

end Exec

theorem atom_eq_dslot (s : State) (buf op d a b : Nat) (cas : Option Nat) (w : Nat) : s.atom buf op d a b cas w
    = s.dslot buf (fun g x _ o => g.atomOp s.cfg x o op d a b cas (if w = 1 then 8 else 4)) := rfl

theorem exec_of_mem_atomRows {e : (Nat → Nat → Nat → Nat → Nat → Instr) × Nat} (he : e ∈ atomRows) (buf d a b w : Nat) (s : State) :
    exec (e.1 buf d a b w) s = s.atom buf e.2 d a b none w := by
  simp only [atomRows, List.mem_cons, List.not_mem_nil, or_false] at he
  obtain rfl | rfl | rfl | rfl | rfl | rfl | rfl | rfl | rfl := he
  all_goals rfl

theorem exec_of_mem_atomFixedRows {e : (Nat → Nat → Nat → Nat → Instr) × Nat} (he : e ∈ atomFixedRows) (buf d a b : Nat) (s : State) :
    exec (e.1 buf d a b) s = s.atom buf e.2 d a b none 0 := by
  simp only [atomFixedRows, List.mem_cons, List.not_mem_nil, or_false] at he
  obtain rfl | rfl | rfl | rfl := he
  all_goals rfl

/-! ### TARM of a tile without an arm of this cycle (R354) -/

theorem record_arms (x : Tile) (cls detail slot addr cycle : Nat) (info : Word) :
    (x.record cls detail slot addr cycle info).arms = x.arms := by
  unfold Tile.record
  dsimp only
  repeat' split
  all_goals rfl

/-- Without an arm of this cycle there are no slots to pin. -/
theorem armSlots_of_no_arm {s : State} {t gid : Nat} {g : Gang} {x : Tile} (hg : s.gang t = some g) (hx : g.tile gid = some x)
    (old : ∀ q ∈ x.arms, q.issue ≠ g.lcyc) (buf h : Nat) : s.armSlots t gid buf h = s := by
  unfold State.armSlots
  rw [hg]
  cases find? s.trees h with
  | none => rfl
  | some r =>
    simp only [hx, Option.bind_some]
    cases last : x.arms.getLast? with
    | none => rfl
    | some a => exact if_pos (.inr (.inl (old a (List.mem_of_getLast? last))))

/-- Settles O35: every instruction of the list is a D-slot operation, and a TARM that only records its fault has no arm to pin. -/
theorem dataSlotFull : Obligations.DataSlotFull := by
  intro s t gid k addr buf d r a b c n m hi hv it e w g x hat hgid full
  refine ⟨?operations, fun old => ?tarm⟩
  case operations =>
    have becomes {i run} (hi : exec i s = s.dslot buf run) := gangBecomes_of_full hat hgid full hi
    refine List.forall_mem_append.mpr ⟨List.forall_mem_append.mpr ⟨?plain, ?atoms⟩, ?fixed⟩
    case plain =>
      obtain ⟨run, tstat⟩ := exec_tstat buf d s hi n
      simp only [List.forall_mem_cons, List.not_mem_nil, false_implies, implies_true, and_true]
      exact ⟨becomes (exec_xfer ..), becomes (exec_xferr ..), becomes (exec_rld ..), becomes (exec_rst ..), becomes (exec_chsend ..),
        becomes (exec_chrecv ..), becomes (exec_chbind ..), becomes (exec_sacc ..), becomes (exec_shist ..), becomes (exec_ctrsnap ..),
        becomes (exec_atomCas ..), becomes (exec_snap ..), becomes (exec_genq ..), becomes (exec_tpost ..), becomes (exec_trecv ..),
        becomes tstat⟩
    case atoms => exact List.forall_mem_map.mpr fun row hrow => becomes (exec_of_mem_atomRows hrow ..)
    case fixed => exact List.forall_mem_map.mpr fun row hrow => becomes (exec_of_mem_atomFixedRows hrow ..)
  case tarm =>
    obtain ⟨cur, gang, tile⟩ := id hat
    have task : s.evTask = t := by rw [State.evTask, cur]
    have id_gid : s.evGid = gid := by rw [State.evGid, cur]
    show execTarm buf hi a n s = _
    rw [execTarm, dslot_of_full hat hgid full]
    refine congrArg Host.Outcome.next ?_
    rw [task, id_gid]
    refine armSlots_of_no_arm (g := g.record { opOf g gid 6 addr with buf := buf } 2 9 g.lcyc 0)
      (x := x.record 2 9 6 addr g.lcyc 0) ?_ ?_ ?_ buf hi
    · rw [State.gang_onGang, if_pos rfl, gang]
      rfl
    · show (g.onTile gid _).tile gid = _
      rw [Gang.tile_onTile, if_pos rfl, tile]
      rfl
    · simpa only [record_arms, Gang.record_lcyc] using old

end Sys2Proof.Execution
end

section
/-! SUPPORT. Single accesses, atomics, snapshots and generation queries of a tile: what each does at issue, for each outcome of its
translation (13 R239 to R241, 15 R270, R279, R288 to R294). -/
namespace Sys2Proof.Execution
open Machine Claims

/-! ### Updates that leave the logical time alone -/

@[simp] theorem refetch_lcyc (g : Gang) (o : Origin) (r : Xlat) : (g.refetch o r).lcyc = g.lcyc := by
  unfold Gang.refetch
  split <;> rfl

@[simp] theorem flit_lcyc (g : Gang) (o : Origin) (p : Option Nat) : (g.flit o p).lcyc = g.lcyc := by
  unfold Gang.flit
  split
  · exact Gang.onTile_lcyc ..
  · rfl

@[simp] theorem inFlight_lcyc (g : Gang) (o : Origin) (e : Nat) : (g.inFlight o e).lcyc = g.lcyc := by
  simp [Gang.inFlight]

@[simp] theorem charge_lcyc (g : Gang) (o : Origin) (rd wr : Nat) : (g.charge o rd wr).lcyc = g.lcyc := by
  unfold Gang.charge
  split
  · rfl
  · exact Gang.later_lcyc ..

@[simp] theorem reaches_lcyc (g : Gang) (o : Origin) (p : Place) (due : Nat) : (g.reaches o p due).lcyc = g.lcyc := by
  unfold Gang.reaches Gang.addresses
  repeat' split
  all_goals simp

/-! ### RLD and RST (R270, R279) -/

theorem denied_iff (w : Xlat) : w.denied = true ↔ w.place = .denied := beq_iff_eq

/-- Settles O36: the address register is read once, and each outcome of the lookup is one branch of RLD and of RST. -/
theorem singleAccesses : Obligations.SingleAccesses := by
  refine ⟨fun _ => rfl, ?accesses⟩
  intro s t gid k addr buf d a sp z off va n l p due g h q q2 u x y v o rd rv w hat hrd hn hva read hp
  subst hn hva hp
  have regs := dRead_atD hat (at_ := fun vs => alignDown (nthD 0 vs 0 + BitVec.ofInt 64 (sextInt 20 off)).toNat (accessSize z))
    hrd read rfl
  have lcyc : q.lcyc = g.lcyc := (lcyc_of_read read).trans (lcyc_atD hat)
  refine ⟨?load, ?store⟩
  case load =>
    intro hw hl hdue hu
    have work := gangBecomes_of_dslot hat (exec_rld buf d a s sp z off) rfl
    simp only [Gang.rld, rldAddr, regs, lcyc, ← hw, ← hl, ← hdue, ← hu, denied_iff, Gang.laterReg] at work
    have lcyc_u : u.lcyc = g.lcyc := by rw [hu, inFlight_lcyc, flit_lcyc, refetch_lcyc, lcyc]
    rw [lcyc_u] at work
    exact ⟨fun permitted => by simpa only [if_neg permitted] using work, fun denied => by simpa only [if_pos denied] using work⟩
  case store =>
    intro hrv hq2 hw hl hu
    obtain ⟨gid_eq, slot, addr_eq⟩ := place_atD hat
    have lcyc2 : q2.lcyc = g.lcyc := by rw [hq2, Gang.onTile_lcyc, lcyc]
    have lcyc_u : u.lcyc = g.lcyc := by rw [hu, inFlight_lcyc, flit_lcyc, refetch_lcyc, lcyc2]
    have work := gangBecomes_of_dslot hat (exec_rst buf d a s sp z off) rfl
    simp only [Gang.rst, rldAddr, regs, lcyc, gid_eq, slot, addr_eq, ← hrv, ← hq2, lcyc2, ← hw, ← hl, ← hu, denied_iff, charge_lcyc,
      lcyc_u] at work
    refine ⟨fun permitted resolved clean => ?_, fun permitted consumed => ?_, fun denied => ?_⟩
    · have kept : ¬(w.place = .unresolved ∨ rv.poison = true ∧ sp = 2) := by
        rintro (lost | ⟨poison, device⟩)
        · exact resolved lost
        · exact clean.elim (by simp [poison]) (· device)
      simpa only [if_neg permitted, if_neg kept] using work
    · simpa only [if_neg permitted, if_pos consumed] using work
    · simpa only [if_pos denied] using work

/-! ### ATOM (R288, R289) -/

theorem lt_of_mem_atomRows : ∀ e ∈ atomRows, e.2 < 11 := by simp [atomRows]

/-- Of the operations of a fixed width all but FADD are those of the barrier records. -/
theorem width_of_mem_atomFixedRows : ∀ e ∈ atomFixedRows, (if e.2 = 10 then 4 else 16) = if 11 ≤ e.2 then 16 else 4 := by
  simp [atomFixedRows]

/-- Settles O40: each row is one ATOM with its operation number and width; the address and then the operands are read, and each outcome of
the lookup is one branch. -/
theorem atomics : Obligations.Atomics := by
  intro s t gid k addr buf d a b c wd n wn op l due at_ i cs g h q q2 u x y v v2 o ra rb w hat row hra hat_ read hrb hq2 hv2 hw hl hdue hu
  obtain ⟨cas, wd', hi, rfl, hwn, hn⟩ : ∃ cas wd', exec i s = s.atom buf op d a b cas wd' ∧ cs = [b] ++ cas.toList
      ∧ wn = (if wd' = 1 then 8 else 4) ∧ n = if 11 ≤ op then 16 else wn := by
    obtain ⟨e, he, rfl, rfl, rfl, rfl, rfl⟩ | ⟨e, he, rfl, rfl, rfl, rfl, rfl⟩ | ⟨rfl, rfl, rfl, rfl, rfl⟩ := row
    · exact ⟨none, wd, exec_of_mem_atomRows he .., rfl, rfl, (if_neg (Nat.not_le.mpr (lt_of_mem_atomRows e he))).symm⟩
    · exact ⟨none, 0, exec_of_mem_atomFixedRows he .., rfl, rfl, width_of_mem_atomFixedRows e he⟩
    · exact ⟨some c, wd, exec_atomCas .., rfl, rfl, rfl⟩
  obtain ⟨gid_eq, slot, addr_eq⟩ := place_atD hat
  have lcyc : q.lcyc = g.lcyc := (lcyc_of_read read).trans (lcyc_atD hat)
  have address := dRead_atD hat (at_ := fun vs => alignDown (nthD 0 vs 0).toNat n) hra read hat_.symm
  have operands : q.dRead v o 2 ([b] ++ cas.toList) (fun _ => at_) = (q2, v2, rb.vals, rb.poison) :=
    dRead_eq q v o 2 _ _ (by rw [hrb, lcyc, slot, addr_eq]) (by rw [hq2, gid_eq, lcyc]) (gid_eq ▸ hv2)
  have lcyc2 : q2.lcyc = g.lcyc := by
    rw [hq2]
    split
    · rw [Gang.consume_lcyc, Gang.onTile_lcyc, lcyc]
    · rw [Gang.onTile_lcyc, lcyc]
  have lcyc_u : u.lcyc = g.lcyc := by rw [hu, inFlight_lcyc, flit_lcyc, refetch_lcyc, lcyc2]
  have work := gangBecomes_of_dslot hat (hi.trans (atom_eq_dslot ..)) rfl
  simp only [Gang.atomOp, ← hwn, ← hn, firstAddr, address, ← hat_, operands, ← hw, ← hl, lcyc2, ← hdue, ← hu, lcyc_u, Gang.laterReg] at work
  refine ⟨fun loc permitted => ?_, fun denied => ?_, fun lost => ?_⟩
  · simpa only [permitted] using work
  · simpa only [denied] using work
  · simpa only [lost] using work

/-! ### SNAP and GENQ (R290 to R294) -/

/-- Settles O41: the requests are made of the gang as it was, since finding the tile changes none of its requests and pages. -/
theorem generations : Obligations.Generations := by
  intro s t gid k addr buf d dom g h x y o r q hat hr hq
  obtain ⟨gid_eq, -, addr_eq⟩ := place_atD hat
  obtain ⟨lcyc, ahead, snaps, genqs, table, pkgs⟩ :
      h.lcyc = g.lcyc ∧ h.h = g.h ∧ h.snaps = g.snaps ∧ h.genqs = g.genqs ∧ h.table = g.table ∧ h.pkgs = g.pkgs := by
    obtain ⟨-, -, -, -, -, rfl⟩ := hat
    simp
  have hgid : y.gid = gid := by
    obtain ⟨-, hgid, -, -, rfl, -⟩ := hat
    exact hgid
  have snap := gangBecomes_of_dslot hat (exec_snap buf d s dom) rfl
  have genq := gangBecomes_of_dslot hat (exec_genq buf d s dom) rfl
  refine ⟨fun here => ?_, fun there => ?_, ?_, ?_⟩
  · subst hr here
    simpa only [Gang.snap, gid_eq, ne_eq, not_true, if_false, addr_eq, lcyc, ahead, snaps] using snap
  · simpa only [Gang.snap, gid_eq, if_pos there, lcyc] using snap
  · subst hq
    simpa only [Gang.genq, hgid, gid_eq, addr_eq, lcyc, genqs] using genq
  · simp only [Gang.domainStacks, Gang.domainPages, Gang.package, List.map_map, table, pkgs]
    rfl

end Sys2Proof.Execution
end

section
/-! SUPPORT. Transfers of a tile: the beats of an XFER, the record of an XFERR (15 R271 to R278). -/
namespace Sys2Proof.Execution
open Machine Claims

/-! ### The record of an XFERR (R278) -/

section Record
variable {g : Gang} {c : Cfg} {x : Tile} {o : Origin} {va nb arv w wl : Nat} {dst : Option Nat} {e : Xlat} {u : Gang}
  (he : e = g.translate x (alignDown va 16) 2) (hu : u = g.refetch o e)
include he hu

/-- A permitted record takes its updates in order: start, completion, arrival. -/
theorem xferRecord_of_dev {loc : DevLoc} (permitted : e.place = .dev loc) {pr pc : Nat}
    (hpr : pr = u.lcyc + c.lambdaOpt u (some (u.endOf x.gid)) e.port + 66) (hpc : pc = max (wl + c.lambdaOpt u dst e.port + 66) (pr + 1)) :
    g.xferRecord c x o va nb arv w wl dst
      = (u.later o pr (.barrier { kind := 0, n := nb, loc := loc } ((pc, { kind := 1, n := nb, loc := loc })
          :: (if arv = 1 then [(pc + 1, { kind := 2, n := 1, loc := loc })] else [])) none 0)).inFlight o (pc + arv) := by
  subst hpc hpr hu
  simp only [Gang.xferRecord, ← he, permitted]
  rfl

theorem xferRecord_of_unresolved (lost : e.place = .unresolved) :
    g.xferRecord c x o va nb arv w wl dst = (u.consume o 2 u.lcyc (BitVec.ofNat 64 (alignDown va 16))).inFlight o w := by
  simp only [Gang.xferRecord, ← he, lost, ← hu]

theorem xferRecord_of_denied (denied : e.place = .denied) :
    g.xferRecord c x o va nb arv w wl dst = (u.record o 4 e.detail u.lcyc (BitVec.ofNat 64 va)).inFlight o w := by
  simp only [Gang.xferRecord, ← he, denied, ← hu]

end Record

/-! ### The beats of a transfer (R271) -/

theorem nthD_eq_getElem? {α : Type} (e : α) (l : List α) (i : Nat) : nthD e l i = l[i]?.getD e := by
  induction l generalizing i with
  | nil => rfl
  | cons a l ih =>
    cases i with
    | zero => rfl
    | succ i => exact (ih i).trans (congrArg (Option.getD · e) List.getElem?_cons_succ.symm)

theorem nthD_map_range {α : Type} (f : Nat → α) (e : α) {n j : Nat} (h : j < n) : nthD e ((List.range n).map f) j = f j := by
  rw [nthD_eq_getElem?, List.getElem?_map, List.getElem?_range h, Option.map_some, Option.getD_some]

theorem sendBeat_lcyc (o : Origin) (own : Nat) (g : Gang) (b : Beat) : (g.sendBeat o own b).lcyc = g.lcyc := by
  simp [Gang.sendBeat]

/-- Settles O37: a transfer reads its registers and sends its beats; XFERR goes on with its record, for each outcome of its lookup. -/
theorem transfers : Obligations.Transfers := by
  intro s t gid k addr buf d r dsp ssp nb b arv d0 s0 g h q q1 q2 q3 q4 x y v o rd bs hat hd0 hs0 read hbs hq1 hq2 hq3 hq4
  have lcyc2 : q2.lcyc = g.lcyc := by
    have lcyc1 : q1.lcyc = g.lcyc := by
      rw [hq1, ← lcyc_atD hat, ← lcyc_of_read read]
      exact foldl_keeps Gang.lcyc _ (sendBeat_lcyc o _) bs q
    rw [hq2, ← lcyc1]
    split
    · exact Gang.later_lcyc ..
    · rfl
  rw [← lcyc2] at hq3
  refine ⟨fun hrd => ?xfer, fun last va l pr pc w u hrd hlast hva hw hu hl hpr hpc => ?xferr, fun e j l m hj he hl hm => ?beat⟩
  case xfer =>
    have regs := dRead_atD hat (at_ := fun vs => alignDown (firstAddr vs) 64) hrd read hd0.symm
    have work := gangBecomes_of_dslot hat (exec_xfer buf d r s dsp ssp nb) rfl
    simp only [Gang.xfer, List.append_nil, regs, ← hd0, ← hs0, ← hbs] at work
    subst hq4 hq3 hq2 hq1
    exact work
  case xferr =>
    have regs := dRead_atD hat (at_ := fun vs => alignDown (firstAddr vs) 64) hrd read hd0.symm
    have work : GangBecomes (.xferr buf d r dsp ssp nb b arv) s t ((q4.busy o (maxOf (bs.map Beat.w))).xferRecord s.cfg v o
        (nthD 0 rd.vals 2).toNat (nb + 1) arv (maxOf (bs.map Beat.w)) last.w last.dst.port) := by
      have work := gangBecomes_of_dslot hat (exec_xferr buf d r b s dsp ssp nb arv) rfl
      simp only [Gang.xfer, List.cons_append, List.nil_append, regs, ← hd0, ← hs0, ← hbs, hlast] at work
      subst hq4 hq3 hq2 hq1
      exact work
    subst hva hl
    refine ⟨fun loc permitted => ?_, fun lost => ?_, fun denied => ?_⟩
    · exact xferRecord_of_dev hw hu permitted hpr hpc ▸ work
    · exact xferRecord_of_unresolved hw hu lost ▸ work
    · have becomes := xferRecord_of_denied hw hu denied ▸ work
      rwa [BitVec.ofNat_toNat, BitVec.setWidth_eq] at becomes
  case beat =>
    have beat : e = q.beat s.cfg v dsp ssp d0 s0 j := by
      rw [he, hbs, nthD_map_range _ _ (Nat.lt_succ_of_le hj)]
    subst beat hl hm
    exact ⟨rfl, rfl, rfl, rfl, rfl, rfl⟩

end Sys2Proof.Execution
end

section
/-! SUPPORT. Channels of a tile: what CHSEND, CHRECV and CHBIND do at issue (15 R280 to R283). -/
namespace Sys2Proof.Execution
open Machine Claims

/-! ### Channels bound to k registers (R282) -/

theorem boundElsewhere_iff (x : Tile) (n ch : Nat) : x.boundElsewhere n ch = true ↔ BoundElsewhere x n ch := by
  simp [Tile.boundElsewhere, BoundElsewhere]

theorem badBind_iff (x : Tile) (n ch mode : Nat) : x.badBind n ch mode = true ↔ BadBind x n ch mode := by
  simp [Tile.badBind, BadBind, ← boundElsewhere_iff, or_assoc]

/-! ### The writes of a received element (R283) -/

/-- Beat by beat, from beat j on, each line takes its bytes. -/
theorem recvBeats_eq_foldl (o : Origin) (f : Nat → Nat) (n j : Nat) (bs : List (List PByte)) (g : Gang) :
    g.recvBeats o j ((List.range' j n).map f) bs = ((List.range' j n).zip bs).foldl (fun u e =>
      u.later o (u.lcyc + 1 + e.1) (.write 5 (.scratch o.gid (f e.1)) e.2)) g := by
  induction n generalizing j bs g with
  | zero => rfl
  | succ n ih =>
    cases bs with
    | nil => rfl
    | cons b bs => exact ih (j + 1) bs _

/-- Settles O38: a channel of the right direction, bound to no k register, has its address read once; the head of its lines or of its
elements decides. -/
theorem channels : Obligations.Channels := by
  intro s t gid k addr buf a ch astep n chs chr at_ g h q x y v o rd c hat hrd hc hat_ read
  obtain ⟨gid_eq, -, -⟩ := place_atD hat
  have lcyc : q.lcyc = g.lcyc := (lcyc_of_read read).trans (lcyc_atD hat)
  have regs := dRead_atD hat (at_ := fun vs => chanAddr c (nthD 0 vs 0) astep k) hrd read hat_.symm
  have address : chanAddr c (nthD 0 rd.vals 0) astep k = at_ := hat_.symm
  have send := gangBecomes_of_dslot hat (exec_chsend buf a s ch astep) rfl
  have recv := gangBecomes_of_dslot hat (exec_chrecv buf a s ch astep) rfl
  have bind := gangBecomes_of_dslot hat (exec_chbind buf n s chs chr) rfl
  simp only [Gang.chsend, ← hc, ne_eq, lcyc_atD hat, regs, address, gid_eq, lcyc, Tile.elementLines] at send
  simp only [Gang.chrecv, ← hc, ne_eq, lcyc_atD hat, regs, address, gid_eq, lcyc, Gang.onTile_lcyc, Tile.elementLines] at recv
  simp only [lcyc_atD hat] at bind
  simp only [← boundElsewhere_iff, ← badBind_iff]
  have usable {m : Nat} (mode : c.mode = m) (free : ¬y.boundElsewhere 8 ch = true) : ¬(¬c.mode = m ∨ y.boundElsewhere 8 ch = true) :=
    not_or.mpr ⟨not_not_intro mode, free⟩
  refine ⟨fun l ls out free lines => ?_, fun e es inward free elems => ?_, fun inward free empty => ?_, fun wrong => ?_, fun wrong => ?_,
    fun hs hr => ?_, fun bad => ?_⟩
  · simpa only [if_neg (usable out free), lines] using send
  · simpa only [if_neg (usable inward free), elems, List.range_eq_range', recvBeats_eq_foldl, Gang.onTile_lcyc, gid_eq] using recv
  · simpa only [if_neg (usable inward free), empty] using recv
  · simpa only [if_pos wrong] using send
  · simpa only [if_pos wrong] using recv
  · simpa only [if_neg (not_or.mpr ⟨hs, hr⟩)] using bind
  · simpa only [if_pos bad] using bind

end Sys2Proof.Execution
end

section
/-! SUPPORT. Streams and counters of a tile: what SACC, SHIST and CTRSNAP do at issue (15 R284 to R287). -/
namespace Sys2Proof.Execution
open Machine Claims

/-! ### An earlier SACC (R285) -/

theorem saccBusy_iff (x : Tile) (c : Nat) : x.saccBusy c = true ↔ ∃ u ∈ x.saccs, u + 4 ≤ c ∧ c ≤ u + 7 := by
  simp [Tile.saccBusy]

theorem not_saccBusy_of_apart {x : Tile} {c : Nat} (h : ∀ u ∈ x.saccs, c < u + 4 ∨ u + 7 < c) : ¬x.saccBusy c = true := by
  rw [saccBusy_iff]
  rintro ⟨u, hu, from_, to_⟩
  have := h u hu
  omega

/-! ### The merged value of one index (R284) -/

/-- One more element of an index merged into its value: bits, flags, poison. -/
def mergeElement (t : ElemType) (mode : Nat) (sat : Bool) (draw : Nat → Nat) (c : Nat × Nat × Bool) (e : Nat × Nat × Lane) :
    Nat × Nat × Bool :=
  ((saccAdd t mode sat (draw e.1) c.1 e.2.2.val).bits, c.2.1 ||| (saccAdd t mode sat (draw e.1) c.1 e.2.2.val).flags,
    c.2.2 || e.2.2.poison)

theorem saccMerge_eq_foldl (t : ElemType) (mode : Nat) (sat : Bool) (draw : Nat → Nat) (es : List (Nat × Nat × Lane))
    (c : Nat × Nat × Bool) : saccMerge t mode sat draw es c = es.foldl (mergeElement t mode sat draw) c := by
  induction es generalizing c with
  | nil => rfl
  | cons e es ih => exact ih _

theorem laterFlags_lcyc (g : Gang) (o : Origin) (due f : Nat) : (g.laterFlags o due f).lcyc = g.lcyc := by
  unfold Gang.laterFlags
  split
  · rfl
  · exact Gang.later_lcyc ..

/-- Settles O39: each operation is gated, reads its register and then does its own work, all at the cycle of its issue. -/
theorem streamsAndCounters : Obligations.StreamsAndCounters := by
  intro s t gid k addr buf a hi hv it ioff voff istep vstep g h q x y v o rd hat hrd
  obtain ⟨gid_eq, -, addr_eq⟩ := place_atD hat
  have lcyc_h := lcyc_atD hat
  refine ⟨?sacc, ?shist, ?ctrsnap, ?taken⟩
  case sacc =>
    intro T b m n w sat ix vx es us ok q1 q2 q3 q4 hT
    have work := gangBecomes_of_dslot hat (exec_sacc buf a hi hv it s ioff voff istep vstep) rfl
    have type_eq : y.saccType = T := hT.symm
    simp only [Gang.sacc, type_eq, lcyc_h, gid_eq, addr_eq] at work
    refine ⟨fun unfit => ?_, fun notMx notE4 notE5 busy => ?_, fun notMx notE4 notE5 apart => ?_⟩
    · simpa only [if_pos unfit] using work
    · have fit : ¬(T.isMx = true ∨ T = .e4m3 ∨ T = .e5m2) := by simp [notMx, notE4, notE5]
      simpa only [if_neg fit, if_pos ((saccBusy_iff ..).mpr busy)] using work
    · intro read hTv hm hsat hw hb hn hix hvx hes hus hok hq1 hq2 hq3 hq4
      have fit : ¬(T.isMx = true ∨ T = .e4m3 ∨ T = .e5m2) := by simp [notMx, notE4, notE5]
      have regs := dRead_atD hat (at_ := firstAddr) hrd read rfl
      have lcyc : q.lcyc = g.lcyc := (lcyc_of_read read).trans lcyc_h
      have updates : v.saccUpdates o (nthD 0 rd.vals 0) it T m sat es = us := by
        subst hus hb hw
        refine congrArg (List.filterMap · _) (funext fun j => ?_)
        generalize es.filter (fun e => e.2.1 == j) = l
        cases l with
        | nil => rfl
        | cons e rest =>
          simp only [saccMerge_eq_foldl]
          rfl
      have elems : saccElems ix vx it T.width n = es := by
        rw [hes, hw]
        rfl
      have lcyc2 : q2.lcyc = g.lcyc := by
        rw [hq2, hq1]
        repeat' split
        all_goals simp [lcyc]
      have lcyc3 : q3.lcyc = g.lcyc := by
        rw [hq3, laterFlags_lcyc, foldl_keeps Gang.lcyc _ (fun _ _ => Gang.later_lcyc ..), lcyc2]
      have lcyc4 : q4.lcyc = g.lcyc := by
        rw [hq4, ← lcyc3]
        split
        · exact Gang.later_lcyc ..
        · rfl
      simp only [if_neg fit, if_neg (not_saccBusy_of_apart apart), regs, ← hm, ← hsat, ← hw, ← hix, ← hvx, ← hn, elems, updates, ← hok,
        Gang.sawPoison, if_true, gid_eq, lcyc, ← hq1, ← hq2, ← hb] at work
      rw [foldl_keeps Gang.lcyc _ (fun _ _ => Gang.later_lcyc ..), lcyc2, ← hq3, lcyc3] at work
      rw [← lcyc4, hq4]
      exact work
  case shist =>
    intro w ls u read hw hls hu
    have regs := dRead_atD hat (at_ := fun _ => 0) hrd read rfl
    have lcyc : q.lcyc = g.lcyc := (lcyc_of_read read).trans lcyc_h
    have lcyc_u : u.lcyc = g.lcyc := by
      rw [hu]
      split
      · rw [Gang.consume_lcyc, Gang.onTile_lcyc, lcyc]
      · exact lcyc
    have work := gangBecomes_of_dslot hat (exec_shist buf a hi it s ioff istep) rfl
    simpa only [Gang.shist, regs, ← hw, ← hls, lcyc, Gang.sawPoison, if_true, Gang.onTile_lcyc, gid_eq, ← hu, lcyc_u] using work
  case ctrsnap =>
    intro at_ hat_ read apart
    have regs := dRead_atD hat (at_ := fun vs => alignDown (firstAddr vs) 64) hrd read hat_.symm
    have lcyc : q.lcyc = g.lcyc := (lcyc_of_read read).trans lcyc_h
    have work := gangBecomes_of_dslot hat (exec_ctrsnap buf a s) rfl
    simp only [Gang.ctrsnap, lcyc_h, if_neg (not_saccBusy_of_apart apart), regs, ← hat_, gid_eq] at work
    rwa [foldl_keeps Gang.lcyc _ (fun _ _ => Gang.later_lcyc ..), lcyc] at work
  case taken =>
    intro busy
    have work := gangBecomes_of_dslot hat (exec_ctrsnap buf a s) rfl
    simpa only [Gang.ctrsnap, lcyc_h, if_pos ((saccBusy_iff ..).mpr busy)] using work

end Sys2Proof.Execution
end

section
/-! SUPPORT. The control words of the matrix array at issue: the shadow set and MGO (17 R297, R299, R305 to R309). -/
namespace Sys2Proof.Execution
open Machine Claims

/-! ### Registers read by an instruction of the M slot (R423) -/

/-- The values that an instruction reads, and the gang after it: a poisoned register is consumed with the address given. Unlike
`dRead_eq` it asks for no tile of that gang, since no later part of these instructions looks at it. -/
theorem dRead_reading (g : Gang) (x : Tile) (o : Origin) (cs : List Nat) (at_ : List Word → Nat) {r : Reads}
    (hr : r = x.readCodes g.lcyc o.slot o.addr cs) :
    (g.dRead x o 1 cs at_).1 = reading g o r (BitVec.ofNat 64 (at_ r.vals)) ∧ (g.dRead x o 1 cs at_).2.2.1 = r.vals := by
  subst hr
  rw [← consume_read_eq]
  exact ⟨rfl, rfl⟩

theorem dRead_reading_zero (g : Gang) (x : Tile) (o : Origin) (cs : List Nat) {r : Reads}
    (hr : r = x.readCodes g.lcyc o.slot o.addr cs) :
    (g.dRead x o 1 cs (fun _ => 0)).1 = reading g o r 0 ∧ (g.dRead x o 1 cs (fun _ => 0)).2.2.1 = r.vals :=
  dRead_reading g x o cs (fun _ => 0) hr

/-! ### The shadow set (R305 to R308) -/

theorem shadow_of_pending {g : Gang} {x : Tile} {o : Origin} (w : Gang → Gang × Option ShadowWrite) (h : x.nestPending.isSome = true) :
    g.shadow x o w = g.record o 2 8 g.lcyc 0 :=
  if_pos h

/-- With no nest pending a write lands a cycle after its issue. -/
theorem shadow_of_written {g q : Gang} {x : Tile} {o : Origin} {w : Gang → Gang × Option ShadowWrite} {j : ShadowWrite}
    (h : x.nestPending = none) (hw : w g = (q, some j)) (hq : q.lcyc = g.lcyc) :
    g.shadow x o w = q.later o (g.lcyc + 1) (.shadow j) := by
  simp only [Gang.shadow, h, Option.isSome_none, Bool.false_eq_true, if_false, hw, hq]

theorem shadow_of_refused {g q : Gang} {x : Tile} {o : Origin} {w : Gang → Gang × Option ShadowWrite}
    (h : x.nestPending = none) (hw : w g = (q, none)) : g.shadow x o w = q := by
  simp only [Gang.shadow, h, Option.isSome_none, Bool.false_eq_true, if_false, hw]

theorem bitAt_63_iff {v : Nat} (h : v < 2 ^ 64) : bitAt v 63 = true ↔ 2 ^ 63 ≤ v := by
  simp only [bitAt, beq_iff_eq]
  omega

theorem mcfg_of_pending {g : Gang} {x : Tile} {o : Origin} {n a : Nat} (hn : n ≠ 3) (h : x.nestPending.isSome = true) :
    g.mcfg x o n a = g.record o 2 8 g.lcyc 0 :=
  (if_neg hn).trans (shadow_of_pending _ h)

theorem mcfg_eq (g : Gang) (x : Tile) (o : Origin) (n a : Nat) {r : Reads} (hr : r = x.readCodes g.lcyc o.slot o.addr [a])
    (h : n = 3 ∨ x.nestPending = none) :
    g.mcfg x o n a = (reading g o r 0).later o (g.lcyc + 1) (.shadow (.mxc n (nthD 0 r.vals 0))) := by
  obtain ⟨after, vals⟩ := dRead_reading_zero g x o [a] hr
  by_cases h3 : n = 3
  · simp only [Gang.mcfg, h3, if_true, after, vals]
  · rw [Gang.mcfg, if_neg h3]
    exact shadow_of_written (h.resolve_left h3) (Prod.ext after (by simp only [vals])) (reading_lcyc ..)

/-- The level that MNEST describes by its second register (R307). -/
def nestLevel (count v : Nat) : NestLevel :=
  { count := count, sa := sextInt 21 (bitsOf v 62 42), sb := sextInt 21 (bitsOf v 41 21), sc := sextInt 21 (bitsOf v 20 0) }

section Nest
variable {g : Gang} {x : Tile} {o : Origin} {lv a b cnt v : Nat} {r : Reads} (hr : r = x.readCodes g.lcyc o.slot o.addr [a, b])
  (hc : cnt = (nthD 0 r.vals 0).toNat) (hv : v = (nthD 0 r.vals 1).toNat) (hp : x.nestPending = none)
include hr hc hv hp

theorem mnest_of_level (h1 : 1 ≤ cnt) (h2 : cnt ≤ 65536) (h3 : v < 2 ^ 63) (h0 : lv = 0 → v = 0) :
    g.mnest x o lv a b = (reading g o r 0).later o (g.lcyc + 1) (.shadow (.level lv (nestLevel cnt v))) := by
  obtain ⟨after, vals⟩ := dRead_reading_zero g x o [a, b] hr
  have fits : ¬(cnt < 1 ∨ 65536 < cnt ∨ bitAt v 63 = true ∨ lv = 0 ∧ v ≠ 0) := by
    rw [bitAt_63_iff (hv ▸ BitVec.isLt _)]
    omega
  refine shadow_of_written hp ?_ (reading_lcyc g o r 0)
  simp only [vals, ← hc, ← hv, if_neg fits, after]
  rfl

theorem mnest_of_bad_level (h : cnt = 0 ∨ 65536 < cnt ∨ 2 ^ 63 ≤ v ∨ lv = 0 ∧ v ≠ 0) :
    g.mnest x o lv a b = (reading g o r 0).record o 2 10 g.lcyc 0 := by
  obtain ⟨after, vals⟩ := dRead_reading_zero g x o [a, b] hr
  have unfit : cnt < 1 ∨ 65536 < cnt ∨ bitAt v 63 = true ∨ lv = 0 ∧ v ≠ 0 := by
    rw [bitAt_63_iff (hv ▸ BitVec.isLt _)]
    omega
  refine shadow_of_refused hp ?_
  simp only [vals, ← hc, ← hv, if_pos unfit, after]

end Nest

theorem mmul_of_no_banks {g : Gang} {x : Tile} {o : Origin} {a b c ag : Nat} {ring : Option Nat} (h : x.group ag = []) :
    g.mmul x o a b c ag ring = g.record o 2 0 g.lcyc 0 :=
  if_pos h

theorem mmul_of_pending {g : Gang} {x : Tile} {o : Origin} {a b c ag : Nat} {ring : Option Nat} (hb : x.group ag ≠ [])
    (h : x.nestPending.isSome = true) : g.mmul x o a b c ag ring = g.record o 2 8 g.lcyc 0 :=
  (if_neg hb).trans (shadow_of_pending _ h)

section Multiply
variable {g q : Gang} {x : Tile} {o : Origin} {a b c ag hd : Nat} {r : Reads} {es : List VEntry}
  (hr : r = x.readCodes g.lcyc o.slot o.addr [a, b, c]) (hb : x.group ag ≠ []) (hp : x.nestPending = none)
include hr hb hp

theorem mmul_of_bases : g.mmul x o a b c ag none = (reading g o r 0).later o (g.lcyc + 1) (.shadow (.op 1
    ((nthD 0 r.vals 0).toNat % 2 ^ 21) ((nthD 0 r.vals 1).toNat % 2 ^ 21) (nthD 0 r.vals 2).toNat ag [])) := by
  obtain ⟨after, vals⟩ := dRead_reading_zero g x o [a, b, c] hr
  refine (if_neg hb).trans (shadow_of_written hp ?_ (reading_lcyc g o r 0))
  simp only [after, vals]
  rfl

theorem mmulg_of_rows
    (hes : es = (List.range 6).map (fun (q : Nat) => x.entry ((x.ring hd).at (((x.ring hd).head : Int) + (q : Int)))))
    (hq : q = if es.any (fun e => e.poison != 0) then ((reading g o r 0).onTile o.gid Tile.sawPoison).consume o 1 g.lcyc 0
      else reading g o r 0) :
    g.mmul x o a b c ag (some hd) = q.later o (g.lcyc + 1) (.shadow (.op 2 ((nthD 0 r.vals 0).toNat % 2 ^ 21)
      ((nthD 0 r.vals 1).toNat % 2 ^ 21) (nthD 0 r.vals 2).toNat ag
      (es.flatMap (fun e => (List.range 64).map (fun i => e.bits.toNat / 2 ^ (16 * i) % 65536))))) := by
  obtain ⟨after, vals⟩ := dRead_reading_zero g x o [a, b, c] hr
  have lcyc : q.lcyc = g.lcyc := by
    rw [hq]
    split
    · simp only [Gang.consume_lcyc, Gang.onTile_lcyc, reading_lcyc]
    · exact reading_lcyc ..
  refine (if_neg hb).trans (shadow_of_written hp ?_ lcyc)
  simp only [after, vals, ← hes, hq, Gang.sawPoison, if_true]
  rfl

end Multiply

/-! ### MGO (R297, R309) -/

theorem ne_or_iff_imp (n k : Nat) (p : Prop) : n ≠ k ∨ p ↔ (n = k → p) :=
  Decidable.imp_iff_not_or.symm

theorem eq_false_or_iff_imp (b : Bool) (p : Prop) : b = false ∨ p ↔ (b = true → p) := by
  cases b
  · simp only [Bool.false_eq_true, true_or, false_implies]
  · simp only [Bool.true_eq_false, false_or, true_implies]

/-- The bits of a word from bit n on are 0. -/
theorem div_two_pow_eq_zero_iff (w n : Nat) : w / 2 ^ n = 0 ↔ w < 2 ^ n :=
  Nat.div_eq_zero_iff_lt (Nat.two_pow_pos n)

theorem valid_iff (n : NestSet) (banks : Nat) : n.valid banks = true ↔ ∃ m k sc, mulPair n.ta n.tb = some (m, k, sc)
    ∧ n.kind ≠ 0 ∧ banks ≠ 0 ∧ (sc = 0 → n.sca = false ∧ n.scb = false) ∧ (sc = 1 → n.sca = true ∧ n.scb = true)
    ∧ 1 ≤ n.me ∧ n.me ≤ m ∧ 1 ≤ n.ne ∧ n.ne ≤ k ∧ n.mxc0.toNat % 2 ^ 36 = 0 ∧ n.mxc1.toNat < 2 ^ 42 ∧ n.mxc2.toNat < 2 ^ 42
    ∧ (n.sca = true ∨ n.scb = true → n.k0 % 32 = 0) := by
  unfold NestSet.valid
  cases mulPair n.ta n.tb with
  | none => exact ⟨fun h => absurd h Bool.false_ne_true, fun ⟨_, _, _, h, _⟩ => absurd h.symm (Option.some_ne_none _)⟩
  | some e =>
    obtain ⟨m, k, sc⟩ := e
    simp only [Bool.and_eq_true, Bool.or_eq_true, Bool.not_eq_true', bne_iff_ne, beq_iff_eq, decide_eq_true_eq,
      div_two_pow_eq_zero_iff, and_assoc]
    simp only [ne_or_iff_imp, eq_false_or_iff_imp, Bool.or_eq_true]
    constructor
    · exact fun h => ⟨m, k, sc, rfl, h⟩
    · rintro ⟨_, _, _, ⟨⟩, h⟩
      exact h

/-- The nest that MGO starts at a cycle from the shadow set. -/
def startedNest (g : Gang) (x : Tile) (o : Origin) (t0 : Nat) : Nest :=
  { set := x.nestShadow, t0 := t0, mgo := g.lcyc, addr := o.addr, steps := x.nestShadow.passes * x.nestShadow.k0, dropped := false }

section Go
variable {g : Gang} {x : Tile} {o : Origin}

theorem mgo_of_pending (h : x.nestPending.isSome = true) : g.mgo x o = g.record o 2 8 g.lcyc 0 :=
  if_pos h

variable (hp : x.nestPending = none)
include hp

theorem mgo_of_invalid (h : x.nestShadow.valid (x.group x.nestShadow.ag).length = false) :
    g.mgo x o = g.record o 2 10 g.lcyc 0 := by
  simp only [Gang.mgo, hp, h, Option.isSome_none, Bool.not_false, Bool.false_eq_true, if_false, if_true]

variable (hv : x.nestShadow.valid (x.group x.nestShadow.ag).length = true)
include hv

theorem mgo_of_idle {w : Nest} (ha : x.nest = none) (hw : w = startedNest g x o (g.lcyc + 12)) :
    g.mgo x o = (((g.onTile o.gid (fun y => y.useGroup x.nestShadow.ag (w.last + 3))).later o (g.lcyc + 1) (.copyNest w)).busy o
      (w.last + 3)) := by
  subst hw
  simp only [Gang.mgo, hp, hv, ha, Option.isSome_none, Bool.not_true, Bool.false_eq_true, if_false, Gang.onTile_lcyc]
  rfl

theorem mgo_of_active {a w : Nest} (ha : x.nest = some a) (hw : w = startedNest g x o (max (g.lcyc + 12) (a.last + 1))) :
    g.mgo x o = (g.onTile o.gid (fun y => { y.useGroup x.nestShadow.ag (w.last + 3) with nestPending := some w })).busy o
      (w.last + 3) := by
  subst hw
  simp only [Gang.mgo, hp, hv, ha, Option.isSome_none, Bool.not_true, Bool.false_eq_true, if_false]
  rfl

end Go

/-- Settles O31: a control word is a write of the shadow set, split by whether a nest is pending; MGO is split by the nests of its tile. -/
theorem matrixShadowSetAndGo : Obligations.MatrixShadowSetAndGo := by
  refine ⟨fun _ => rfl, ?words, ?go, valid_iff⟩
  case words =>
    intro s t gid k addr n lv a b c ag hd cnt v g q x o r r2 r3 es hat ho hr hr2 hr3 hes hc hv
    subst ho
    have becomes {i run u} := gangBecomes_of_issueOn (i := i) (run := run) (q := u) hat
    refine ⟨fun free => ⟨?_, ?_, ?_, ?_, ?_, ?_⟩, ?_, ?_, fun pending => ⟨?_, ?_⟩⟩
    · exact fun _ => becomes rfl (mcfg_eq g x _ n a hr (.inr free))
    · exact fun h1 h2 h3 h0 => becomes rfl (mnest_of_level hr2 hc hv free h1 h2 h3 h0)
    · exact fun bad => becomes rfl (mnest_of_bad_level hr2 hc hv free bad)
    · exact becomes rfl (shadow_of_written free rfl rfl)
    · exact fun banks => becomes rfl (mmul_of_bases hr3 banks free)
    · exact fun banks hq => becomes rfl (mmulg_of_rows hr3 banks free hes hq)
    · exact becomes rfl (mcfg_eq g x _ 3 a hr (.inl rfl))
    · intro bare
      simp only [List.forall_mem_cons, List.not_mem_nil, false_implies, implies_true, and_true]
      exact ⟨becomes rfl (mmul_of_no_banks bare), becomes rfl (mmul_of_no_banks bare)⟩
    · simp only [List.forall_mem_cons, List.not_mem_nil, false_implies, implies_true, and_true]
      have config {m} (hm : m ≠ 3) := becomes (i := .mcfg m a) rfl (mcfg_of_pending hm pending)
      exact ⟨becomes rfl (shadow_of_pending _ pending), becomes rfl (shadow_of_pending _ pending), config (by decide),
        config (by decide), config (by decide)⟩
    · intro banks
      simp only [List.forall_mem_cons, List.not_mem_nil, false_implies, implies_true, and_true]
      exact ⟨becomes rfl (mmul_of_pending banks pending), becomes rfl (mmul_of_pending banks pending)⟩
  case go =>
    intro s t gid k addr g x o n w hat ho hn
    subst ho hn
    have becomes {u} := gangBecomes_of_issueOn (i := .mgo) (run := fun g x _ o => g.mgo x o) (q := u) hat rfl
    refine ⟨?_, ?_, ?_, ?_⟩
    · intro free valid idle hw
      exact becomes (mgo_of_idle free valid idle hw)
    · intro a free valid active hw
      exact becomes (mgo_of_active free valid active hw)
    · exact fun pending => becomes (mgo_of_pending pending)
    · exact fun free invalid => becomes (mgo_of_invalid free invalid)

end Sys2Proof.Execution
end

section
/-! SUPPORT. The accumulators of the matrix array at issue: groups, moves and checksums (17 R299 to R301, R314 to R317). -/
namespace Sys2Proof.Execution
open Machine Claims

/-! ### Accumulator groups (R299 to R301, R314) -/

section Banks
variable {g : Gang} {x : Tile} {o : Origin} {ag count : Nat} {held free : List Nat} (hh : held = x.groups.flatMap (·.2))
  (hf : free = (List.range 512).filter (fun b => !held.contains b))
include hh hf

theorem aballoc_of_free (hn : x.group ag = []) (h1 : count ≤ free.length) (h2 : held.length + count ≤ x.accBound) :
    g.aballoc x o ag count = g.later o (g.lcyc + 1) (.banks ag (free.take count)) := by
  have granted : ¬(x.group ag ≠ [] ∨ free.length < count ∨ x.accBound < held.length + count) := by
    rintro (h | h | h)
    · exact h hn
    · exact Nat.not_lt.mpr h1 h
    · exact Nat.not_lt.mpr h2 h
  simp only [Gang.aballoc, ← hh, ← hf, if_neg granted]

theorem aballoc_refused (h : x.group ag ≠ [] ∨ free.length < count ∨ x.accBound < held.length + count) :
    g.aballoc x o ag count = g.record o 2 9 g.lcyc 0 := by
  simp only [Gang.aballoc, ← hh, ← hf, if_pos h]

end Banks

/-- Settles O32: each instruction is split by whether the group has banks, ABALLOC by the bound too, ABFREE by the use of the group. -/
theorem accumulatorGroups : Obligations.AccumulatorGroups := by
  intro s t gid k addr ag count bank nb g x o held free hat ho hh hf
  subst ho
  have becomes {i run u} := gangBecomes_of_issueOn (i := i) (run := run) (q := u) hat
  refine ⟨fun bare h1 h2 => ?_, fun refused => ?_, fun banks unused => ?_, fun banks used => ?_, fun banks => ?_,
    fun bare => ⟨?_, ?_⟩⟩
  · exact becomes rfl (aballoc_of_free hh hf bare h1 h2)
  · exact becomes rfl (aballoc_refused hh hf refused)
  · exact becomes rfl ((if_neg banks).trans (if_neg (Bool.not_eq_true _ ▸ unused)))
  · exact becomes rfl ((if_neg banks).trans (if_pos used))
  · exact becomes rfl (if_neg banks)
  · exact becomes rfl (if_pos bare)
  · exact becomes rfl (if_pos bare)

/-! ### MLDACC, MSTACC, MCHK (R315 to R317) -/

section Move
variable {g : Gang} {x : Tile} {o : Origin} {load : Bool} {a l ag bank : Nat}

theorem moveAcc_of_no_banks (h : x.group ag = []) : g.moveAcc x o load a l ag bank = g.record o 2 0 g.lcyc 0 :=
  if_pos h

theorem moveAcc_of_busy (hb : x.group ag ≠ []) (h : x.pathBusy g.lcyc = true) :
    g.moveAcc x o load a l ag bank = g.record o 2 8 g.lcyc 0 :=
  (if_neg hb).trans (if_pos h)

/-- Line q of a move: its read and, for MLDACC, the place in the group that takes it; for MSTACC the other way round. -/
def moveLine (x : Tile) (o : Origin) (load : Bool) (ag bank base : Nat) (g : Gang) (q : Nat) : Gang :=
  if load then
    g.later o (g.lcyc + 1 + q) (.read 4 (.scratch o.gid (x.map (base + 64 * q))) 64 (.toAcc ag (2048 * bank + 64 * q) (g.lcyc + 3 + q)))
  else g.later o (g.lcyc + 1 + q) (.accGet ag (2048 * bank + 64 * q) (x.map (base + 64 * q)) (g.lcyc + 3 + q))

theorem moveLine_lcyc (x : Tile) (o : Origin) (load : Bool) (ag bank base : Nat) (g : Gang) (q : Nat) :
    (moveLine x o load ag bank base g q).lcyc = g.lcyc := by
  unfold moveLine
  split <;> exact Gang.later_lcyc ..

variable {h : Gang} {r : Reads} {n base : Nat} (hr : r = x.readCodes g.lcyc o.slot o.addr [a, l])
  (hn : n = (nthD 0 r.vals 1).toNat) (hbase : base = alignDown (nthD 0 r.vals 0).toNat 64)
  (hh : h = reading g o r (BitVec.ofNat 64 base)) (hb : x.group ag ≠ []) (hp : x.pathBusy g.lcyc = false)
include hr hn hbase hh hb hp

theorem moveAcc_of_lines (h1 : 1 ≤ n) (h2 : n ≤ 16384) :
    g.moveAcc x o load a l ag bank
      = ((List.range n).foldl (moveLine x o load ag bank base) h).takePath o ag (g.lcyc + 2 + n) := by
  obtain ⟨after, vals⟩ := dRead_reading g x o [a, l] (fun vs => alignDown (firstAddr vs) 64) hr
  have fits : ¬(n < 1 ∨ 16384 < n) := by omega
  have lcyc : ((List.range n).foldl (moveLine x o load ag bank base) h).lcyc = g.lcyc := by
    rw [foldl_keeps Gang.lcyc _ (moveLine_lcyc x o load ag bank base), hh, reading_lcyc]
  simp only [Gang.moveAcc, if_neg hb, hp, Bool.false_eq_true, if_false, vals, ← hn, if_neg fits, ← hbase, after]
  rw [firstAddr, ← hbase, ← hh, ← lcyc]
  rfl

theorem moveAcc_of_bad_count (bad : n = 0 ∨ 16384 < n) : g.moveAcc x o load a l ag bank = h.record o 2 10 g.lcyc 0 := by
  obtain ⟨after, vals⟩ := dRead_reading g x o [a, l] (fun vs => alignDown (firstAddr vs) 64) hr
  have unfit : n < 1 ∨ 16384 < n := by omega
  simp only [Gang.moveAcc, if_neg hb, hp, Bool.false_eq_true, if_false, vals, ← hn, if_pos unfit, after]
  rw [firstAddr, ← hbase, ← hh]

end Move

section Check
variable {g : Gang} {x : Tile} {o : Origin} {a c ag : Nat}

theorem mchk_of_no_banks (h : x.group ag = []) : g.mchk x o a c ag = g.record o 2 0 g.lcyc 0 :=
  if_pos h

theorem mchk_of_busy (hb : x.group ag ≠ []) (h : x.pathBusy g.lcyc = true) : g.mchk x o a c ag = g.record o 2 8 g.lcyc 0 :=
  (if_neg hb).trans (if_pos h)

variable {h : Gang} {r : Reads} {me ne base due : Nat} (hme : me = x.nestShadow.me) (hne : ne = x.nestShadow.ne)
  (hb : x.group ag ≠ []) (hp : x.pathBusy g.lcyc = false)
include hme hne hb hp

theorem mchk_of_bad_edges (bad : me = 0 ∨ 384 < me ∨ ne = 0 ∨ 384 < ne) : g.mchk x o a c ag = g.record o 2 10 g.lcyc 0 := by
  have unfit : me < 1 ∨ 384 < me ∨ ne < 1 ∨ 384 < ne := by omega
  simp only [Gang.mchk, if_neg hb, hp, Bool.false_eq_true, if_false, ← hme, ← hne, if_pos unfit]

theorem mchk_of_edges (hr : r = x.readCodes g.lcyc o.slot o.addr [a, c]) (hbase : base = alignDown (nthD 0 r.vals 0).toNat 64)
    (hh : h = reading g o r (BitVec.ofNat 64 base)) (m1 : 1 ≤ me) (m2 : me ≤ 384) (n1 : 1 ≤ ne) (n2 : ne ≤ 384)
    (hdue : due = g.lcyc + 12 + max me ne) :
    g.mchk x o a c ag = (h.later o (g.lcyc + 2) (.mchk ag (nthD 0 r.vals 1).toNat me ne base due)).takePath o ag
      (due + (ceilDiv (4 * (me + ne)) 64 - 1) / 32) := by
  obtain ⟨after, vals⟩ := dRead_reading g x o [a, c] (fun vs => alignDown (firstAddr vs) 64) hr
  have fits : ¬(me < 1 ∨ 384 < me ∨ ne < 1 ∨ 384 < ne) := by omega
  simp only [Gang.mchk, if_neg hb, hp, Bool.false_eq_true, if_false, ← hme, ← hne, if_neg fits, vals, ← hbase, ← hdue, after]
  rw [firstAddr, ← hbase, ← hh]

end Check

/-- Settles O33: with banks and a free path a move is split by its number of lines, MCHK by its edges. -/
theorem accumulatorMoves : Obligations.AccumulatorMoves := by
  intro s t gid k addr a l c ag bank g h x o r rc base n me ne due hat ho hr hrc hme hne hn
  subst ho
  have becomes {i run u} := gangBecomes_of_issueOn (i := i) (run := run) (q := u) hat
  refine ⟨fun banks path => ⟨fun hbase hh => ⟨fun h1 h2 => ⟨?_, ?_⟩, fun bad => ?_⟩, fun hbase hh m1 m2 n1 n2 hdue => ?_,
    fun bad => ?_⟩, fun banks busy => ?_, fun bare => ?_⟩
  · exact becomes rfl (moveAcc_of_lines hr hn hbase hh banks path h1 h2)
  · exact becomes rfl (moveAcc_of_lines hr hn hbase hh banks path h1 h2)
  · simp only [List.forall_mem_cons, List.not_mem_nil, false_implies, implies_true, and_true]
    exact ⟨becomes rfl (moveAcc_of_bad_count hr hn hbase hh banks path bad),
      becomes rfl (moveAcc_of_bad_count hr hn hbase hh banks path bad)⟩
  · exact becomes rfl (mchk_of_edges hme hne banks path hrc hbase hh m1 m2 n1 n2 hdue)
  · exact becomes rfl (mchk_of_bad_edges hme hne banks path bad)
  · simp only [List.forall_mem_cons, List.not_mem_nil, false_implies, implies_true, and_true]
    exact ⟨becomes rfl (moveAcc_of_busy banks busy), becomes rfl (moveAcc_of_busy banks busy), becomes rfl (mchk_of_busy banks busy)⟩
  · simp only [List.forall_mem_cons, List.not_mem_nil, false_implies, implies_true, and_true]
    exact ⟨becomes rfl (moveAcc_of_no_banks bare), becomes rfl (moveAcc_of_no_banks bare), becomes rfl (mchk_of_no_banks bare)⟩

end Sys2Proof.Execution
end

section
/-! SUPPORT. The units of a tile go on: nests, factorisations (17 R309 to R311, 19 R323 to R337). -/
namespace Sys2Proof.Execution
open Machine Claims

/-! ### The effects that are due on a tile -/

/-- An effect of a tile that is due in a cycle and that a test picks. -/
def pickedAt (c gid : Nat) (pick : Job → Bool) (d : Due) : Bool := d.due ≤ c && d.o.gid == gid && pick d.job

theorem takeDue_eq (g : Gang) (gid : Nat) (pick : Job → Bool) : g.takeDue gid pick
    = (sortBy (fun d => d.o.rank) (g.dues.filter (pickedAt g.lcyc gid pick)),
      { g with dues := g.dues.filter (fun d => !pickedAt g.lcyc gid pick d) }) := rfl

section Apart
variable {c gid : Nat} {ds : List Due} (h : ∀ d ∈ ds, d.due ≤ c → d.o.gid ≠ gid) (pick : Job → Bool)
include h

theorem not_pickedAt {d : Due} (hd : d ∈ ds) : pickedAt c gid pick d = false := by
  by_cases hc : d.due ≤ c
  · simp only [pickedAt, beq_eq_false_iff_ne.mpr (h d hd hc), Bool.and_false, Bool.false_and]
  · simp only [pickedAt, decide_eq_false hc, Bool.false_and]

theorem filter_pickedAt : ds.filter (pickedAt c gid pick) = [] :=
  List.filter_eq_nil_iff.mpr fun _ hd => Bool.not_eq_true _ ▸ not_pickedAt h pick hd

theorem filter_not_pickedAt : ds.filter (fun d => !pickedAt c gid pick d) = ds :=
  List.filter_eq_self.mpr fun _ hd => by rw [not_pickedAt h pick hd]; rfl

end Apart

/-- Nothing of a tile is due: no effect is taken. -/
theorem takeDue_of_none {g : Gang} {gid : Nat} (h : ∀ d ∈ g.dues, d.due ≤ g.lcyc → d.o.gid ≠ gid) (pick : Job → Bool) :
    g.takeDue gid pick = ([], g) := by
  rw [takeDue_eq, filter_pickedAt h, filter_not_pickedAt h]
  rfl

/-- The one effect of a tile that is due is taken when it is picked. -/
theorem takeDue_of_sole {s : State} {t gid : Nat} {g h : Gang} {d : Due} (sole : SoleDue s t gid g h d) {pick : Job → Bool}
    (hp : pick d.job = true) : g.takeDue gid pick = ([d], h) := by
  obtain ⟨-, -, due, own, l, r, hd, rfl, others⟩ := sole
  have mine : pickedAt g.lcyc gid pick d = true := by
    simp only [pickedAt, decide_eq_true due, own, hp, beq_self_eq_true, Bool.and_true]
  have before : ∀ e ∈ l, e.due ≤ g.lcyc → e.o.gid ≠ gid := fun e he => others e (List.mem_append_left r he)
  have behind : ∀ e ∈ r, e.due ≤ g.lcyc → e.o.gid ≠ gid := fun e he => others e (List.mem_append_right l he)
  simp only [takeDue_eq, hd, List.filter_append, List.filter_cons, mine, filter_pickedAt before, filter_pickedAt behind,
    filter_not_pickedAt before, filter_not_pickedAt behind]
  rfl

theorem performGang_of_sole {s : State} {t gid : Nat} {g h : Gang} {d : Due} (sole : SoleDue s t gid g h d) {pick : Job → Bool}
    (hp : pick d.job = true) (run : Gang → Due → Gang) : s.performGang pick run = s.onGang t (fun _ => run h d) := by
  obtain ⟨event, gang, -⟩ := id sole
  simp only [State.performGang, State.perform, evTask_atEvent event, evGid_atEvent event, gang, takeDue_of_sole sole hp,
    List.foldl_cons, List.foldl_nil, State.onGang_onGang]

theorem performGang_of_none {s : State} {t gid : Nat} {g : Gang} (event : AtEvent s t gid) (gang : s.gang t = some g)
    (h : ∀ d ∈ g.dues, d.due ≤ g.lcyc → d.o.gid ≠ gid) (pick : Job → Bool) (run : Gang → Due → Gang) :
    s.performGang pick run = s.onGang t (fun _ => g) := by
  simp only [State.performGang, State.perform, evTask_atEvent event, evGid_atEvent event, gang, takeDue_of_none h, List.foldl_nil]

/-! ### NEST_START (R309) -/

section Units
variable {s : State} {t gid : Nat} {g : Gang} {x : Tile}

theorem nestStart_of_copy {h : Gang} {d : Due} {n : Nest} (sole : SoleDue s t gid g h d) (hj : d.job = .copyNest n) :
    GangBecomes .nestStart s t (h.onTile gid (fun y => ({ y with nest := some n } : Tile).turnNest g.lcyc)) := by
  obtain ⟨event, -, -, own, l, r, -, hh, -⟩ := id sole
  have lcyc : h.lcyc = g.lcyc := by rw [hh]
  show execNestStart s = _
  rw [execNestStart, performGang_of_sole sole (by rw [hj]), evTask_atEvent event, evGid_atEvent event, State.onGang_onGang]
  simp only [hj, own, Gang.onTile_onTile, Gang.onTile_lcyc, lcyc]

theorem nestStart_of_none (event : AtEvent s t gid) (gang : s.gang t = some g)
    (apart : ∀ d ∈ g.dues, d.due ≤ g.lcyc → d.o.gid ≠ gid) :
    GangBecomes .nestStart s t (g.onTile gid (fun y => y.turnNest g.lcyc)) := by
  show execNestStart s = _
  rw [execNestStart, performGang_of_none event gang apart, evTask_atEvent event, evGid_atEvent event, State.onGang_onGang]

theorem turnNest_of_pending {a w : Nest} {c : Nat} (ha : x.nest = some a) (hw : x.nestPending = some w)
    (hc : a.t0 + a.steps ≤ c + 1) : x.turnNest c = { x with nest := some w, nestPending := none } := by
  simp only [Tile.turnNest, ha, hw]
  exact if_pos (Nat.sub_le_of_le_add hc)

theorem turnNest_of_over {a : Nest} {c : Nat} (ha : x.nest = some a) (hw : x.nestPending = none) (hc : a.t0 + a.steps ≤ c)
    (h1 : 1 ≤ a.steps) : x.turnNest c = { x with nest := none } := by
  have ended : a.last < c := by
    unfold Nest.last
    omega
  simp only [Tile.turnNest, ha, hw, if_pos ended]

/-! ### NEST_STEP (R310, R311) -/

/-- An event of a tile that changes its gang makes the gang what the change gives. -/
theorem gangBecomes_of_withTile (event : AtEvent s t gid) (gang : s.gang t = some g) (tile : g.tile gid = some x) {i : Instr}
    {f : Gang → Tile → Gang} {q : Gang} (hi : exec i s = .next (s.withTile (fun t _ _ x => s.onGang t (fun g => f g x))))
    (hq : f g x = q) : GangBecomes i s t q := by
  rw [GangBecomes, hi, withTile_atEvent event gang tile]
  exact congrArg _ (State.onGang_at s t g gang hq)

@[simp] theorem announce_lcyc (g : Gang) (cause gid buf : Nat) : (g.announce cause gid buf).lcyc = g.lcyc := rfl

theorem ite_lcyc {c : Prop} [Decidable c] {a b : Gang} (h : a.lcyc = b.lcyc) : (if c then a else b).lcyc = b.lcyc := by
  split
  · exact h
  · rfl

theorem readGroup_lcyc (n : Nest) (p q len : Nat) : (g.readGroup x n p q len).1.lcyc = g.lcyc := by
  refine (Gang.later_lcyc ..).trans ((ite_lcyc (announce_lcyc ..)).trans ((sawPoison_lcyc ..).trans ((Gang.onTile_lcyc ..).trans ?_)))
  split
  · split
    · rfl
    · exact Gang.record_lcyc ..
  · rfl

theorem stepNest_lcyc (n : Nest) (mark : Tile → Tile) : (g.stepNest x n mark).lcyc = g.lcyc := by
  unfold Gang.stepNest
  split
  · dsimp only
    split
    · exact (Gang.onTile_lcyc ..).trans (readGroup_lcyc ..)
    · exact readGroup_lcyc ..
  · rfl

theorem stepNests_of_none (ha : x.nest = none) (hp : x.nestPending = none) : g.stepNests x = g := by
  simp only [Gang.stepNests, ha, hp]

/-- The active nest reads its group, if it has one in the cycle, and counts the cycle among its steps. -/
theorem stepNests_of_active {n : Nest} {h : Gang} (ha : x.nest = some n) (hp : x.nestPending = none) (h1 : 1 ≤ n.steps)
    (hh : h = g.stepNest x n (fun y => { y with nest := y.nest.map (fun m => { m with dropped := true }) })) :
    g.stepNests x = if n.t0 ≤ g.lcyc ∧ g.lcyc < n.t0 + n.steps then h.onTile x.gid (fun y => y.count 6 1) else h := by
  have lcyc : h.lcyc = g.lcyc := by rw [hh, stepNest_lcyc]
  have last (c : Nat) : c ≤ n.last ↔ c < n.t0 + n.steps := by
    unfold Nest.last
    omega
  simp only [Gang.stepNests, ha, hp, ← hh, lcyc, last]

theorem stepNest_of_idle {n : Nest} (hg : n.groupAt g.lcyc = none) (mark : Tile → Tile) : g.stepNest x n mark = g := by
  simp only [Gang.stepNest, hg]

theorem stepNest_of_group {n : Nest} {p q len : Nat} (hg : n.groupAt g.lcyc = some (p, q, len)) (mark : Tile → Tile) {r : Gang × Bool}
    (hr : r = g.readGroup x n p q len) : g.stepNest x n mark = if r.2 = true then r.1.onTile x.gid mark else r.1 := by
  simp only [Gang.stepNest, hg, ← hr]

end Units

/-! ### FACTORISATION_STEP, FACTORISATION_END (R323 to R337) -/

section Factorisation
variable {s : State} {t gid : Nat} {g : Gang} {x : Tile} {f : Factor} {o : Origin}

theorem factorStep_of_free (hf : x.factor = none) : g.factorStep x = g := by
  simp only [Gang.factorStep, hf]

section End
variable (event : AtEvent s t gid) (gang : s.gang t = some g) (tile : g.tile gid = some x)
include event gang tile

theorem factorisationEnd_of_free (hf : x.factor = none) : exec .factorisationEnd s = .next s := by
  show execFactorisationEnd s = _
  simp only [execFactorisationEnd, withTile_atEvent event gang tile, hf]

theorem factorisationEnd_of_over (hf : x.factor = some f) (he : f.end_ ≤ g.lcyc) :
    GangBecomes .factorisationEnd s t (g.endFactor x f) := by
  show execFactorisationEnd s = _
  simp only [execFactorisationEnd, withTile_atEvent event gang tile, hf, if_pos he]
  exact congrArg _ (State.onGang_at s t g gang rfl)

theorem factorisationEnd_of_going (hf : x.factor = some f) (he : g.lcyc < f.end_) : exec .factorisationEnd s = .next s := by
  show execFactorisationEnd s = _
  simp only [execFactorisationEnd, withTile_atEvent event gang tile, hf, if_neg (Nat.not_le.mpr he)]

end End

theorem endFactor_of_mperm (h5 : f.kind = 5) : g.endFactor x f = g.onTile x.gid (fun y => { y with factor := none }) :=
  if_pos h5

variable (hf : x.factor = some f)
include hf

section Exchange
variable (h5 : f.kind = 5)
include h5

/-- MPERM makes its exchanges once every row is read, and puts its row writes off (R337). -/
theorem factorStep_of_exchange {r : Factor × Bool} {h : Gang}
    (ho : o = { gid := x.gid, slot := 5, addr := f.addr, issue := f.issue, buf := 0 })
    (hc : g.lcyc = f.issue + 2 + f.d1.edge) (hr : r = f.exchange)
    (hh : h = g.onTile x.gid (fun y => { y with factor := some r.1 })) :
    g.factorStep x = (if r.2 = true then h.record o 2 10 h.lcyc 0 else h).writeRows x o r.1 := by
  subst hr hh ho
  simp only [Gang.factorStep, hf, h5, if_true, if_pos hc]

theorem factorStep_of_no_exchange (hc : g.lcyc ≠ f.issue + 2 + f.d1.edge) : g.factorStep x = g := by
  simp only [Gang.factorStep, hf, h5, if_true, if_neg hc]

end Exchange

variable (h5 : f.kind ≠ 5)
include h5

theorem factorStep_of_load (hc : g.lcyc = f.issue + 2) : g.factorStep x = g.loadFactor x f := by
  simp only [Gang.factorStep, hf, if_neg h5, if_pos hc]

/-- At a step's cycle the step before it ends and the step itself is tested (R323, R331, R333). -/
theorem factorStep_of_step {k : Nat} {h : Factor} (hc : g.lcyc = f.issue + 3 + k * f.stepCycles) (h1 : 1 ≤ f.stepCycles)
    (he : g.lcyc ≤ f.end_) (hh : h = if k = 0 then f else f.runStep (k - 1)) :
    g.factorStep x = if h.stopsAt k = true then
        (g.onTile x.gid (fun y => { y with factor := some { h with stop := some k } })).record
          { gid := x.gid, slot := 5, addr := f.addr, issue := f.issue, buf := 0 } (if f.kind = 1 then 7 else 8) k g.lcyc
          (BitVec.ofNat 64 ({ h with stop := some k } : Factor).status)
      else g.onTile x.gid (fun y => { y with factor := some h }) := by
  have since : g.lcyc - (f.issue + 3) = k * f.stepCycles := by omega
  have at_step : f.issue + 3 ≤ g.lcyc ∧ (g.lcyc - (f.issue + 3)) % f.stepCycles = 0 ∧ g.lcyc ≤ f.end_ :=
    ⟨by omega, by rw [since, Nat.mul_mod_left], he⟩
  have number : (g.lcyc - (f.issue + 3)) / f.stepCycles = k := by rw [since, Nat.mul_div_cancel _ h1]
  have later : g.lcyc ≠ f.issue + 2 := by omega
  simp only [Gang.factorStep, hf, if_neg h5, if_neg later, if_pos at_step, number, ← hh]

end Factorisation

end Sys2Proof.Execution
end

section
/-! SUPPORT. Generations: the snapshots and samples of a gang, the drain of a generation (15 R290 to R294). -/
namespace Sys2Proof.Execution
open Machine Claims

/-! ### SNAP_CYCLE (R292) -/

/-- One request at the snapshot cycle of a gang, with those before it. -/
def snapTurn (t : Nat) (g : Gang) (acc : State × List SnapReq) (q : SnapReq) : State × List SnapReq :=
  if q.c = g.lcyc then
    let r := acc.1.snapAt t ((acc.1.gang t).getD g) q
    (r.1, acc.2 ++ [r.2])
  else (acc.1, acc.2 ++ [q])

theorem foldl_snapTurn_of_none {t : Nat} {g : Gang} {qs : List SnapReq} (h : ∀ q ∈ qs, q.c ≠ g.lcyc) (acc : State × List SnapReq) :
    qs.foldl (snapTurn t g) acc = (acc.1, acc.2 ++ qs) := by
  induction qs generalizing acc with
  | nil => rw [List.foldl_nil, List.append_nil]
  | cons q qs ih =>
    obtain ⟨now, rest⟩ := List.forall_mem_cons.mp h
    rw [List.foldl_cons, ih rest, snapTurn, if_neg now, List.append_assoc, List.singleton_append]

section Snap
variable {s : State} {t gid : Nat} {g : Gang}

theorem exec_snapCycle (event : AtEvent s t gid) (gang : s.gang t = some g) : exec .snapCycle s
    = .next ((g.snaps.foldl (snapTurn t g) (s, [])).1.onGang t
        (fun h => { h with snaps := (g.snaps.foldl (snapTurn t g) (s, [])).2 })) := by
  show execSnapCycle s = _
  simp only [execSnapCycle, evTask_atEvent event, gang]
  rfl

theorem snapCycle_of_none (event : AtEvent s t gid) (gang : s.gang t = some g) (h : ∀ q ∈ g.snaps, q.c ≠ g.lcyc) :
    GangBecomes .snapCycle s t g := by
  rw [GangBecomes, exec_snapCycle event gang, foldl_snapTurn_of_none h]
  exact congrArg _ (State.onGang_at s t g gang rfl)

/-- The one request of the cycle is answered, and stays with its answer until its result. -/
theorem snapCycle_of_one (event : AtEvent s t gid) (gang : s.gang t = some g) {q : SnapReq} (one : g.snaps = [q]) (hc : q.c = g.lcyc) :
    exec .snapCycle s = .next ((s.snapAt t g q).1.onGang t (fun h => { h with snaps := [(s.snapAt t g q).2] })) := by
  rw [exec_snapCycle event gang, one, List.foldl_cons, List.foldl_nil, snapTurn, if_pos hc, gang]
  rfl

theorem snapAt_refused {q : SnapReq} {n st : Nat} (hn : n = look 0 g.gnum q.dom)
    (hst : st = if q.status = 3 then 3 else s.snapStatus t g q.dom) (h : st ≠ 0) :
    s.snapAt t g q = (s, { q with status := st, g := n }) := by
  simp only [State.snapAt, ← hst, ← hn, if_neg h]

theorem snapAt_started {q : SnapReq} {n m st : Nat} (hn : n = look 0 g.gnum q.dom) (hm : m = (n + 1) % 65536)
    (hst : st = if q.status = 3 then 3 else s.snapStatus t g q.dom) (h : st = 0) :
    s.snapAt t g q = ((s.onGang t (fun h => { h with gnum := put 0 h.gnum q.dom m })).startGen t q.dom m g,
      { q with status := 0, g := m }) := by
  simp only [State.snapAt, ← hst, ← hn, ← hm, if_pos h]

/-- A generation starts on the gang that counts it; the serialiser learns of it (R290, R389). -/
theorem startGen_eq (gang : s.gang t = some g) {dom m : Nat} {k : Gang} {e : Gen} {w : State} {a : Ev}
    (hk : k = { g with gnum := put 0 g.gnum dom m })
    (he : e = { task := t, dom := dom, number := m, pages := k.domainPages dom, old := [], bad := []
                left := (k.domainStacks dom).map (fun i => (i, pageBlocks (k.domainPages dom) i)), ops := [], blocks := [] })
    (hw : w = { s.onGang t (fun _ => k) with gens := s.gens ++ [e] })
    (ha : a = { source := 6, task := some t, lcyc := g.lcyc, gid := 0, place := w.tilePlace k 0, act := .gen t dom m }) :
    (s.onGang t (fun h => { h with gnum := put 0 h.gnum dom m })).startGen t dom m g = w.arrive a := by
  have counted : s.onGang t (fun h => { h with gnum := put 0 h.gnum dom m }) = s.onGang t (fun _ => k) :=
    State.onGang_at s t g gang hk.symm
  subst ha hw he hk
  simp only [State.startGen, counted, State.onGang_gens]
  rfl

/-! ### SNAP_RESULT, GENQ_SAMPLE, GENQ_RESULT (R292, R294) -/

/-- Effects added one after another to those of a gang, each told by what the gang is apart from its effects. -/
theorem foldl_dues {α : Type} (f : Gang → α → Due) (hf : ∀ (g : Gang) (ds : List Due) (e : α), f { g with dues := ds } e = f g e)
    (es : List α) (g : Gang) :
    es.foldl (fun h e => { h with dues := h.dues ++ [f h e] }) g = { g with dues := g.dues ++ es.map (f g) } := by
  induction es generalizing g with
  | nil => rw [List.foldl_nil, List.map_nil, List.append_nil]
  | cons e es ih =>
    rw [List.foldl_cons, ih, List.map_cons]
    have same : f { g with dues := g.dues ++ [f g e] } = f g := funext (hf g _)
    rw [same, List.append_assoc, List.singleton_append]

theorem snapResult_becomes (event : AtEvent s t gid) (gang : s.gang t = some g) : GangBecomes .snapResult s t { g with
    snaps := g.snaps.filter (fun q => g.lcyc < q.c + 600)
    dues := g.dues ++ (g.snaps.filter (fun q => q.c + 600 ≤ g.lcyc)).map (fun q =>
      landing g q.gid q.addr q.t q.code (q.g * 2 ^ 48 + q.status * 2 ^ 40)) } :=
  congrArg Host.Outcome.next (onGang_evTask event gang (foldl_dues
    (fun h (q : SnapReq) => landing h q.gid q.addr q.t q.code (q.g * 2 ^ 48 + q.status * 2 ^ 40)) (fun _ _ _ => rfl) _ _))

theorem genqResult_becomes (event : AtEvent s t gid) (gang : s.gang t = some g) : GangBecomes .genqResult s t { g with
    genqs := g.genqs.filter (fun q => g.lcyc < q.t + 600)
    dues := g.dues ++ (g.genqs.filter (fun q => q.t + 600 ≤ g.lcyc)).map (fun q => landing g q.gid q.addr q.t q.code
      (look 0 g.gnum q.dom * 2 ^ 48 + min 7 q.live * 2 ^ 45 + min (2 ^ 32 - 1) q.blocks)) } :=
  congrArg Host.Outcome.next (onGang_evTask event gang (foldl_dues
    (fun h (q : GenqReq) => landing h q.gid q.addr q.t q.code
      (look 0 h.gnum q.dom * 2 ^ 48 + min 7 q.live * 2 ^ 45 + min (2 ^ 32 - 1) q.blocks)) (fun _ _ _ => rfl) _ _))

theorem genqSample_becomes (event : AtEvent s t gid) (gang : s.gang t = some g) :
    GangBecomes .genqSample s t (g.takeSamples s t) :=
  congrArg Host.Outcome.next (onGang_evTask event gang (by rw [evTask_atEvent event]))

end Snap

/-- The generations of a domain that are live on a stack, oldest first. -/
theorem filter_liveGens (s : State) (t dom k : Nat) : (s.liveGens t dom).filter (fun e => e.left.any (fun p => p.1 == k))
    = s.gens.filter (fun e => e.task == t && e.dom == dom && e.left.any (fun p => p.1 == k)) := by
  rw [State.liveGens, List.filter_filter]
  exact List.filter_congr fun _ _ => Bool.and_comm ..

/-! ### GENERATION_DRAIN_COMPLETE (R293) -/

theorem arg_atOutside {s : State} {as : List Nat} (h : AtOutside s as) (i : Nat) : s.arg i = nthD 0 as i := by
  rw [State.arg, h]

section Drained
variable {s : State} {t dom k : Nat} (h : AtOutside s [t, dom, k])
include h

theorem generationDrainComplete_of_none
    (hn : s.gens.find? (fun g => g.task == t && g.dom == dom && (g.left.isEmpty || s.draining k == some g)) = none) :
    exec .generationDrainComplete s = .next s := by
  show execGenerationDrainComplete s = _
  simp only [execGenerationDrainComplete, arg_atOutside h, nthD, hn]

variable {g : Gen}
  (hs : s.gens.find? (fun g => g.task == t && g.dom == dom && (g.left.isEmpty || s.draining k == some g)) = some g)
include hs

/-- The part of a generation on a stack is drained; with its last part the generation is (R293). -/
theorem generationDrainComplete_of_some {e : Gen} (he : e = { g with left := g.left.filter (fun p => p.1 != k) }) :
    exec .generationDrainComplete s = .next (if e.left.isEmpty = true then s.genDrained g
      else { s with gens := s.gens.map (fun p => if p = g then e else p) }) := by
  subst he
  show execGenerationDrainComplete s = _
  simp only [execGenerationDrainComplete, arg_atOutside h, nthD, hs]

omit h in
/-- A drained generation leaves the log of its uncorrectable words and its copy in the lower tier (R293, R439). -/
theorem genDrained_of_found {d : Drained} {u : State} (hd : d = s.drainedCopy g)
    (hu : u = (dedupNat ((s.badWordsOf g).map (· / 16))).foldl (fun q w =>
      q.logEvent 1 1 (w * 64 / 2 ^ 39 * 512 + w * 64 / 2 ^ 36 % 8) t (64 * w) 0) s) :
    s.genDrained g = { u with
      gens := s.gens.filter (fun e => !(e == g)), tier := s.tier.filter (fun e => !(e.task == t && e.dom == dom)) ++ [d] } := by
  have found := List.find?_some hs
  simp only [Bool.and_eq_true, beq_iff_eq] at found
  obtain ⟨⟨rfl, rfl⟩, -⟩ := found
  subst hd hu
  rfl

end Drained

end Sys2Proof.Execution
end

section
/-! SUPPORT. Trees of a gang in a cycle: folds and deliveries (21 R347 to R369). -/
namespace Sys2Proof.Execution
open Machine Claims

theorem foldTree_of_frozen (s : State) (t h : Nat) {r : Tree} (hr : r.frozen = true) : s.foldTree t h r = s := by
  unfold State.foldTree
  cases s.gang t with
  | none => rfl
  | some g => exact if_pos hr

/-! ### Deliveries leave the memories and the cores alone -/

/-- The memories and the cores of a state. -/
def stores (s : State) : List Host.Cell × List Host.Cell × Tbl AgentCore := (s.dev, s.sys, s.cores)

@[simp] theorem stores_onGang (s : State) (t : Nat) (f : Gang → Gang) : stores (s.onGang t f) = stores s := by simp [stores]

@[simp] theorem stores_onTree (s : State) (h : Nat) (f : Tree → Tree) : stores (s.onTree h f) = stores s := by
  unfold State.onTree
  split <;> rfl

@[simp] theorem stores_unpin (s : State) (h : Nat) (gone : Nat × Nat × Nat → Bool) : stores (s.unpin h gone) = stores s := rfl

@[simp] theorem stores_post (s : State) (task : Option Nat) (lcyc gid place f : Nat) (r : CplRec) :
    stores (s.post task lcyc gid place f r) = stores s := by
  unfold State.post State.arrive
  dsimp only
  split <;> rfl

theorem stores_performGang (s : State) (pick : Job → Bool) (run : Gang → Due → Gang) :
    stores (s.performGang pick run) = stores s := by
  unfold State.performGang State.perform
  dsimp only
  split
  · rfl
  · rw [foldl_keeps stores _ (fun _ _ => stores_onGang ..), stores_onGang]

theorem stores_completeRange (s : State) (t h : Nat) (q : TreeRange) (c : Nat) : stores (s.completeRange t h q c) = stores s := by
  unfold State.completeRange
  dsimp only
  split
  · exact stores_onTree ..
  · rw [stores_unpin, stores_onGang, stores_onTree]

theorem stores_closeRange (s : State) (t h : Nat) (r : Tree) (q : TreeRange) : stores (s.closeRange t h r q) = stores s := by
  unfold State.closeRange
  split
  · rfl
  · dsimp only
    rw [stores_onGang]
    split
    · rw [stores_post, stores_onTree]
    · exact stores_onTree ..

theorem stores_finishRange (s : State) (t h : Nat) (q : TreeRange) : stores (s.finishRange t h q) = stores s := by
  unfold State.finishRange
  dsimp only
  repeat' split
  all_goals simp only [stores_closeRange, stores_completeRange]

/-! ### TREE_DELIVERY (R355, R358, R360) -/

/-- A result beat of a tile, which its event performs. -/
def isDelivery (j : Job) : Bool :=
  match j with
  | .deliver _ _ _ _ _ _ => true
  | _ => false

/-- A result beat written and counted at its tile. -/
def landed (g : Gang) (d : Due) : Gang :=
  match d.job with
  | .deliver h seg beat fl p bs => if bs.isEmpty then g else (g.stage d.o p bs).onTile d.o.gid (fun x => x.delivered h seg beat fl)
  | _ => g

/-- The ranges of a task, in every tree, finished where they may be. -/
def finished (s : State) (t : Nat) : State :=
  s.trees.foldl (fun s e => (e.2.ranges.filter (fun q => q.task == t)).foldl (fun s q => s.finishRange t e.1 q) s) s

theorem stores_finished (s : State) (t : Nat) : stores (finished s t) = stores s :=
  foldl_keeps stores _ (fun _ _ => foldl_keeps stores _ (fun _ _ => stores_finishRange ..) _ _) _ _

/-- The beats that are due perform; then the ranges finish, unless a delivery of the gang waits. -/
theorem treeDelivery_eq (s : State) : ∃ waits : Bool, exec .treeDelivery s
    = .next (if waits = true then s.performGang isDelivery landed else finished (s.performGang isDelivery landed) s.evTask) :=
  ⟨_, rfl⟩

theorem stage_eq_stagedTo (g : Gang) (o : Origin) (p : Place) (bs : List PByte) : g.stage o p bs = stagedTo g o p bs := by
  cases p <;> rfl

theorem treeDelivery_keeps_stores (s : State) :
    ∃ u, exec .treeDelivery s = .next u ∧ u.dev = s.dev ∧ u.sys = s.sys ∧ u.cores = s.cores := by
  obtain ⟨waits, he⟩ := treeDelivery_eq s
  refine ⟨_, he, ?_⟩
  have kept : stores (if waits = true then s.performGang isDelivery landed
      else finished (s.performGang isDelivery landed) s.evTask) = stores s := by
    split
    · exact stores_performGang ..
    · exact (stores_finished ..).trans (stores_performGang ..)
  simpa only [stores, Prod.mk.injEq] using kept

/-- Without trees a due beat only performs. -/
theorem treeDelivery_of_sole {s : State} {t gid : Nat} {g h : Gang} {d : Due} (treeless : s.trees = [])
    (sole : SoleDue s t gid g h d) (hd : isDelivery d.job = true) : GangBecomes .treeDelivery s t (landed h d) := by
  obtain ⟨waits, he⟩ := treeDelivery_eq s
  rw [GangBecomes, he, performGang_of_sole sole hd]
  simp only [finished, State.onGang_trees, treeless, List.foldl_nil, ite_self]

end Sys2Proof.Execution
end

section
/-! SUPPORT. The engines of the device: waits of cores, copies, scrubs, moves of pages, patrols (13 R243, R254, 23 R390 to R393, R409,
R410, 27 R454). -/
namespace Sys2Proof.Execution
open Machine Claims

/-! ### Waits of a core (R254, R255, R393) -/

theorem asCore_onMe (s : State) (c : Nat) (f : AgentCore → AgentCore) :
    s.asCore c (fun q => q.onMe f) = s.setCore c (f (s.core c)) := rfl

theorem endWait_eq (s : State) (d st : Nat) : s.endWait d st
    = s.onMe (fun x => ((({ x with wait := none } : AgentCore).setReg d (BitVec.ofNat 64 st)).advance)) := by
  simp only [State.endWait, State.status, State.finish]
  rw [State.onMe, State.me_onMe, State.coreId_onMe, State.onMe, State.setCore_setCore, State.onMe]

section Over
variable {s : State} {c : Nat} {y : AgentCore} (hy : y = s.core c) {line since d i n : Nat} {lim : Option Nat}
include hy

theorem waitOver_of_written (hw : y.wait = some (.line line lim since true d)) : s.waitOver c = 1 := by
  subst hy
  simp only [State.waitOver, hw, if_true]

theorem waitOver_of_line {l : Nat} (hw : y.wait = some (.line line (some l) since false d)) :
    s.waitOver c = if since + l ≤ s.wall then 2 else 0 := by
  subst hy
  simp only [State.waitOver, hw, Bool.false_eq_true, if_false]

theorem waitOver_of_open_line (hw : y.wait = some (.line line lim since false d)) (hl : ∀ l, lim = some l → s.wall < since + l) :
    s.waitOver c = 0 := by
  cases lim with
  | none =>
    subst hy
    simp only [State.waitOver, hw, Bool.false_eq_true, if_false]
  | some l => exact (waitOver_of_line hy hw).trans (if_neg (Nat.not_le.mpr (hl l rfl)))

theorem waitOver_of_timeline (hw : y.wait = some (.timeline i n d)) : s.waitOver c = if n ≤ s.ctxTime c i then 3 else 0 := by
  subst hy
  simp only [State.waitOver, hw]

theorem waitOver_of_batches (hw : y.wait = some (.batches i n d)) :
    s.waitOver c = if (y.ctx i).openBatches ≤ n then 4 else 0 := by
  subst hy
  simp only [State.waitOver, hw]

end Over

section Wait
variable {s : State} {c : Nat} {y : AgentCore} (h : AtOutside s [c]) (hy : y = s.core c)
include h

theorem returnWait_of_not_over {why : Nat} (hn : s.waitOver c ≠ why) (st : Nat) : s.returnWait why st = s := by
  simp only [State.returnWait, arg_atOutside h, nthD]
  cases (s.core c).wait with
  | none => rfl
  | some w => exact if_neg hn

include hy

/-- A wait that is over ends with its status in its register; the core goes on behind it. -/
theorem returnWait_of_over {w : Wait} (hw : y.wait = some w) (st : Nat) :
    s.returnWait (s.waitOver c) st
      = s.setCore c ((({ y with wait := none } : AgentCore).setReg w.dest (BitVec.ofNat 64 st)).advance) := by
  subst hy
  simp only [State.returnWait, arg_atOutside h, nthD, hw, if_true, endWait_eq, asCore_onMe]

theorem exec_wait_of_none (hn : y.wait = none) :
    ∀ i ∈ [Instr.waitaReturn, .waitaTimeout, .waittReturn, .waitbReturn], exec i s = .next s := by
  have idle : s.waitOver c = 0 := by
    subst hy
    simp only [State.waitOver, hn]
  have on {why : Nat} (hw : why ≠ 0) (st : Nat) : Host.Outcome.next (s.returnWait why st) = (.next s : Outcome) :=
    congrArg _ (returnWait_of_not_over h (idle ▸ hw.symm) st)
  simp only [List.forall_mem_cons, List.not_mem_nil, false_implies, implies_true, and_true]
  exact ⟨on (by decide) stOK, on (by decide) stTIMEOUT, on (by decide) stOK, on (by decide) stOK⟩

end Wait

/-! ### COPY_COMPLETE (R390) -/

section Copy
variable {s : State} {c i : Nat} {ops : List CopyOp} (h : AtOutside s [c, i]) (hops : ops = ((s.core c).ctx i).ops)
include h hops

theorem copyComplete_of_none (hn : ops = []) : exec .copyComplete s = .next s := by
  subst hops
  show execCopyComplete s = _
  simp only [execCopyComplete, arg_atOutside h, nthD, hn, List.getElem?_nil]

/-- The engine goes on with the copy that the free value picks. -/
theorem copyComplete_of_some {o : CopyOp} (ho : ops[Config.choice s.tape % ops.length]? = some o) :
    exec .copyComplete s = .next (({ s with tape := s.tape + 1 } : State).copyStep c i o) := by
  have some_copy : ops.length ≠ 0 := by
    intro h0
    rw [List.length_eq_zero_iff.mp h0, List.getElem?_nil] at ho
    exact Option.some_ne_none _ ho.symm
  subst hops
  show execCopyComplete s = _
  simp only [execCopyComplete, arg_atOutside h, nthD, State.choose, if_neg some_copy, ho]

end Copy

section Step
variable {s : State} {c i : Nat} {o : CopyOp}

theorem copyStep_of_start (hs : o.started = false) (hb : o.bar = none) :
    s.copyStep c i o = s.onCopy c i o.n (fun e => { e with started := true }) := by
  simp only [State.copyStep, hs, hb, Bool.not_false, if_true]

theorem copyStep_of_barrier {a : Nat} (hs : o.started = false) (hb : o.bar = some a) {r : State × Barrier × Bool}
    (hr : r = s.barrierAt (rawLoc a) 0 o.beats false) :
    s.copyStep c i o = if r.2.2 = true then r.1.copyEnds c i { o with refused := true }
      else r.1.onCopy c i o.n (fun e => { e with started := true }) := by
  simp only [State.copyStep, hs, hb, Bool.not_false, if_true, ← hr]

theorem copyStep_of_line (hs : o.started = true) (hl : o.at_ < o.len) {stop : Nat} {r : State × Bool}
    (hstop : stop = min o.len (o.at_ + (64 - (o.dst + o.at_) % 64))) (hr : r = s.copyPieces c o 9 o.at_ stop) :
    s.copyStep c i o = r.1.onCopy c i o.n (fun e => { e with at_ := stop, refused := r.2 }) := by
  simp only [State.copyStep, hs, Bool.not_true, Bool.false_eq_true, if_false, if_pos hl, ← hstop, ← hr]

theorem copyStep_of_end (hs : o.started = true) (hl : o.len ≤ o.at_) : s.copyStep c i o = (s.copyBeats o).copyEnds c i o := by
  simp only [State.copyStep, hs, Bool.not_true, Bool.false_eq_true, if_false, if_neg (Nat.not_lt.mpr hl)]

end Step

/-! ### SCRUB_UNIT_DONE (R409, R414) -/

section Scrub
variable {s : State} {p : Nat}

theorem scrubUnitDone_of_none (h : AtOutside s [p]) (hn : (s.pkg p).scrub = none) : exec .scrubUnitDone s = .next s := by
  show execScrubUnitDone s = _
  simp only [execScrubUnitDone, arg_atOutside h, nthD, hn]

section Job
variable {j : ScrubJob} (h : AtOutside s [p]) (hj : (s.pkg p).scrub = some j)
include h hj

theorem scrubUnitDone_waits (hw : j.total ≤ j.done ∨ j.frame.any s.frameMapped = true) : exec .scrubUnitDone s = .next s := by
  show execScrubUnitDone s = _
  simp only [execScrubUnitDone, arg_atOutside h, nthD, hj, if_pos hw]

/-- The next unit is zeroed; after the last one the scrub ends. -/
theorem scrubUnitDone_of_unit (hd : j.done < j.total) (hf : j.frame.any s.frameMapped = false) {q u : State}
    (hq : q = s.scrubUnit p j) (hu : u = q.setPkg p { q.pkg p with scrub := some { j with done := j.done + 1 } }) :
    exec .scrubUnitDone s = .next (if j.done + 1 = j.total then u.scrubEnds p { j with done := j.done + 1 } else u) := by
  have goes_on : ¬(j.total ≤ j.done ∨ j.frame.any s.frameMapped = true) := by
    rw [hf]
    rintro (past | mapped)
    · omega
    · exact Bool.false_ne_true mapped
  show execScrubUnitDone s = _
  simp only [execScrubUnitDone, arg_atOutside h, nthD, hj, if_neg goes_on, ← hq, ← hu]
  rfl

end Job

theorem scrubUnit_of_block {j : ScrubJob} {i : Nat} (hi : j.done = popCount 32 j.tiles + i) : s.scrubUnit p j
    = s.devWrite (nthD 0 j.frames (i / 32) * 2 ^ 21 + i % 32 * 65536) (clean (List.replicate 65536 0)) := by
  rw [State.scrubUnit, if_neg (by omega), hi, Nat.add_sub_cancel_left]

theorem scrubUnit_of_tile {j : ScrubJob} {f : Nat} {q : State} (hd : j.done < popCount 32 j.tiles)
    (hf : f = nthD 0 ((List.range 32).filter (fun b => bitAt j.tiles b)) j.done)
    (hq : q = s.setPkg p { s.pkg p with
      idle := setKey (s.pkg p).idle f { (s.pkg p).idleTile f with tile := ((s.pkg p).idleTile f).tile.scrubbed, lcyc := 0 }
      limits := setKey (s.pkg p).limits f (0, 0), debug := dropKey (s.pkg p).debug f }) :
    (q.tileAt p f = none → s.scrubUnit p j = q)
      ∧ (∀ t gid, q.tileAt p f = some (t, gid) → s.scrubUnit p j = q.onTile t gid Tile.scrubbed) := by
  have tile : maskTile j.tiles j.done = f := hf.symm
  refine ⟨fun idle => ?_, fun t gid busy => ?_⟩
  · simp only [State.scrubUnit, if_pos hd, tile, ← hq, idle]
  · simp only [State.scrubUnit, if_pos hd, tile, ← hq, busy]

end Scrub

/-! ### MIGRATION_COMPLETE (R243, R410) -/

section Migration
variable {s : State} {n : Nat} (h : AtOutside s [n])
include h

theorem migrationComplete_of_none (hn : s.migrations[n]? = none) : exec .migrationComplete s = .next s := by
  show execMigrationComplete s = _
  simp only [execMigrationComplete, arg_atOutside h, nthD, hn]

variable {m : Migration} (hm : s.migrations[n]? = some m)
include hm

theorem migrationComplete_of_no_image (hi : ∀ x, s.task m.task = some x → x.image = none) :
    exec .migrationComplete s = .next { s with migrations := s.migrations.eraseIdx n } := by
  have imageless : (({ s with migrations := s.migrations.eraseIdx n } : State).task m.task).bind (fun x => x.image) = none := by
    cases hx : s.task m.task with
    | none => exact congrArg (Option.bind · _) hx
    | some x => exact (congrArg (Option.bind · _) hx).trans (hi x hx)
  show execMigrationComplete s = _
  simp only [execMigrationComplete, arg_atOutside h, nthD, hm, imageless]

theorem migrationComplete_of_image {x : Task} {i : Image} (hx : s.task m.task = some x) (hi : x.image = some i) :
    exec .migrationComplete s = .next (({ s with migrations := s.migrations.eraseIdx n } : State).movePage m.task i m.entry
      { src := i.gang.xlLoc (look 0 i.gang.table m.entry) 0
        dst := { i.gang.xlLoc (look 0 i.gang.table m.entry) 0 with addr := m.dst, key := m.key }
        size := entryFrames (look 0 i.gang.table m.entry) * 2 ^ 21 }) := by
  have image : (({ s with migrations := s.migrations.eraseIdx n } : State).task m.task).bind (fun x => x.image) = some i :=
    (congrArg (Option.bind · _) hx).trans hi
  show execMigrationComplete s = _
  simp only [execMigrationComplete, arg_atOutside h, nthD, hm, image]

end Migration

end Sys2Proof.Execution
end

section
/-! SUPPORT. The statement about the units of a tile and the engines of the device. -/
namespace Sys2Proof.Execution
open Machine Claims

section Gang
variable {s : State} {t gid : Nat} {g : Gang} {x : Tile} (event : AtEvent s t gid) (gang : s.gang t = some g)
  (tile : g.tile gid = some x)
include event gang tile

/-- With one nest the tile's step is its reading of the group of the cycle and the count of the cycle (R310, R311). -/
theorem nestStep_of_active (hgid : x.gid = gid) {n : Nest} {h k : Gang} (ha : x.nest = some n) (hp : x.nestPending = none)
    (h1 : 1 ≤ n.steps) (idle : n.groupAt g.lcyc = none → h = g)
    (group : ∀ p q len r, n.groupAt g.lcyc = some (p, q, len) → r = g.readGroup x n p q len →
      h = if r.2 = true then r.1.onTile gid (fun y => { y with nest := y.nest.map (fun m => { m with dropped := true }) }) else r.1)
    (hk : k = if n.t0 ≤ g.lcyc ∧ g.lcyc < n.t0 + n.steps then h.onTile gid (fun y => y.count 6 1) else h) :
    GangBecomes .nestStep s t k := by
  subst hgid
  have step : h = g.stepNest x n (fun y => { y with nest := y.nest.map (fun m => { m with dropped := true }) }) := by
    cases hg : n.groupAt g.lcyc with
    | none => rw [idle hg, stepNest_of_idle hg]
    | some e => rw [stepNest_of_group hg _ rfl, group e.1 e.2.1 e.2.2 _ hg rfl]
  rw [hk, ← stepNests_of_active ha hp h1 step]
  exact gangBecomes_of_withTile event gang tile (f := Gang.stepNests) rfl rfl

end Gang

/-- Settles O58: each event is split along the conditions of its rule; what each branch answers stands in the lemmas above. -/
theorem unitsTreesEngines : Obligations.UnitsTreesEngines := by
  refine ⟨?gang, ?drain, ?wait, ?copy, ?scrub, ?move, fun s p k h => ?patrol⟩
  case gang =>
    intro s t gid g x event gang tile hgid
    have becomes {i f q} := gangBecomes_of_withTile (i := i) (f := f) (q := q) event gang tile
    refine ⟨fun h d n => nestStart_of_copy, nestStart_of_none event gang, fun a w => turnNest_of_pending,
      fun a => turnNest_of_over,
      fun ha hp => becomes rfl (stepNests_of_none ha hp),
      fun n h k => nestStep_of_active event gang tile hgid,
      becomes (f := Gang.stepNests) rfl rfl,
      fun hf => ⟨becomes rfl (factorStep_of_free hf), factorisationEnd_of_free event gang tile hf⟩,
      fun f o hf ho => ?factor,
      snapCycle_of_none event gang,
      fun q st n m one hc hn hm hst => ⟨fun h => ?refused, fun h k e w a hk he hw ha => ?started⟩,
      snapResult_becomes event gang,
      genqSample_becomes event gang,
      fun dom k live hl => ?sample,
      genqResult_becomes event gang,
      ?fold,
      fun h r => foldTree_of_frozen s t h,
      treeDelivery_keeps_stores s,
      fun treeless h d hd seg beat fl p bs sole hj => ?deliver⟩
    case factor =>
      subst hgid
      refine ⟨fun h5 hc r h hr hh => ?_, fun h5 hc => ?_, fun h5 hc => ?_,
        fun k h h5 hc h1 he hh => ⟨fun go => ?_, fun stop q hq => ?_⟩,
        fun he => ⟨?_, endFactor_of_mperm⟩, factorisationEnd_of_going event gang tile hf⟩
      · exact becomes rfl (factorStep_of_exchange hf h5 ho hc hr hh)
      · exact becomes rfl (factorStep_of_no_exchange hf h5 hc)
      · exact becomes rfl (factorStep_of_load hf h5 hc)
      · exact becomes rfl ((factorStep_of_step hf h5 hc h1 he hh).trans (if_neg (Bool.not_eq_true _ ▸ go)))
      · subst hq ho
        exact becomes rfl ((factorStep_of_step hf h5 hc h1 he hh).trans (if_pos stop))
      · exact factorisationEnd_of_over event gang tile hf he
    case refused =>
      rw [GangBecomes, snapCycle_of_one event gang one hc, snapAt_refused hn hst h]
      exact congrArg _ (State.onGang_at s t g gang rfl)
    case started =>
      rw [snapCycle_of_one event gang one hc, snapAt_started hn hm hst h, startGen_eq gang hk he hw ha]
    case sample =>
      simp only [State.genqSampleOf, filter_liveGens, ← hl]
      refine ⟨trivial, fun drained => ?_, fun e es n oldest left => ?_⟩
      · rw [drained]
      · rw [oldest]
        simp only [left]
        rfl
    case fold =>
      show execTreeFold s = _
      rw [execTreeFold, evTask_atEvent event]
    case deliver =>
      obtain ⟨-, -, -, own, -⟩ := id sole
      have lands := treeDelivery_of_sole treeless sole (by rw [hj]; rfl)
      simp only [landed, hj, own, List.isEmpty_iff, stage_eq_stagedTo] at lands
      exact ⟨fun data => by simpa only [if_neg data] using lands, fun empty => by simpa only [if_pos empty] using lands⟩
  case drain =>
    intro s t dom k h
    refine ⟨generationDrainComplete_of_none h, fun g e hs he => ⟨fun more => ?_, fun last d u hd hu => ?_⟩⟩
    · rw [generationDrainComplete_of_some h hs he, if_neg (mt List.isEmpty_iff.mp more)]
    · rw [generationDrainComplete_of_some h hs he, if_pos (List.isEmpty_iff.mpr last), genDrained_of_found hs hd hu]
  case wait =>
    intro s c y h hy
    have answers {why w st} (hw : y.wait = some w) (ho : s.waitOver c = why) : Host.Outcome.next (s.returnWait why st)
        = (.next (s.setCore c ((({ y with wait := none } : AgentCore).setReg w.dest (BitVec.ofNat 64 st)).advance)) : Outcome) :=
      congrArg _ (ho ▸ returnWait_of_over h hy hw st)
    have stays {n why st} (ho : s.waitOver c = n) (hn : n ≠ why) : Host.Outcome.next (s.returnWait why st) = (.next s : Outcome) :=
      congrArg _ (returnWait_of_not_over h (ho ▸ hn) st)
    refine ⟨fun line lim since d hw => ?_, fun line l since d hw hl => ?_, fun line lim since d hw hl => ?_,
      fun i n d hw => ⟨fun hn => ?_, fun hn => ?_⟩, fun i n d hw => ⟨fun hn => ?_, fun hn => ?_⟩, exec_wait_of_none h hy⟩
    · have written := waitOver_of_written hy hw
      exact ⟨answers hw written, stays written (by decide)⟩
    · have late := (waitOver_of_line hy hw).trans (if_pos hl)
      exact ⟨answers hw late, stays late (by decide)⟩
    · have open_ := waitOver_of_open_line hy hw hl
      exact ⟨stays open_ (by decide), stays open_ (by decide)⟩
    · exact answers hw ((waitOver_of_timeline hy hw).trans (if_pos hn))
    · exact stays ((waitOver_of_timeline hy hw).trans (if_neg (Nat.not_le.mpr hn))) (by decide)
    · exact answers hw ((waitOver_of_batches hy hw).trans (if_pos hn))
    · exact stays ((waitOver_of_batches hy hw).trans (if_neg (Nat.not_le.mpr hn))) (by decide)
  case copy =>
    intro s q c i ops h hops hq
    refine ⟨copyComplete_of_none h hops, fun o ho => ?_⟩
    rw [copyComplete_of_some h hops ho, ← hq]
    refine ⟨fun hs hb => ?_, fun a r hs hb hr => ⟨fun refused => ?_, fun taken => ?_⟩, fun stop r hs hl hstop hr => ?_,
      fun hs hl => ?_⟩
    · rw [copyStep_of_start hs hb]
    · rw [copyStep_of_barrier hs hb hr, if_pos refused]
    · rw [copyStep_of_barrier hs hb hr, if_neg (Bool.not_eq_true _ ▸ taken)]
    · rw [copyStep_of_line hs hl hstop hr]
    · rw [copyStep_of_end hs hl]
  case scrub =>
    intro s p h
    refine ⟨scrubUnitDone_of_none h, fun j hj => ⟨scrubUnitDone_waits h hj, fun hf q hq => ⟨fun more => ?_, fun last => ?_⟩,
      fun i => scrubUnit_of_block, fun k f q hd hk hf hq => ?_⟩⟩
    · rw [scrubUnitDone_of_unit h hj (by omega) hf hq rfl, if_neg (by omega)]
    · rw [scrubUnitDone_of_unit h hj (by omega) hf hq rfl, if_pos last]
    · subst hk
      exact scrubUnit_of_tile hd hf hq
  case move =>
    intro s n h
    refine ⟨migrationComplete_of_none h, fun m hm => ⟨migrationComplete_of_no_image h hm,
      fun x i e e' v r own hx hi he hv hown hr he' => ?_⟩⟩
    rw [migrationComplete_of_image h hm hx hi]
    subst hr he' hown hv he
    rfl
  case patrol =>
    show execPatrolScrub s = _
    rw [execPatrolScrub, arg_atOutside h]
    rfl

end Sys2Proof.Execution
end

section
/-! SUPPORT. The factorisation unit at issue: MFLU, MFCH, MFQR, MTRS and MPERM (19 R320 to R337). -/
namespace Sys2Proof.Execution
open Machine Claims

section AtUnit
variable {g h : Gang} {x : Tile} {o : Origin} {r : Reads} {d b : TileDesc} {kind ag rt rx inv w : Nat} {up tr unit scratch : Bool}

/-! ### The unit is occupied (R324) -/

theorem factorise_of_busy (busy : x.unitBusy g.lcyc = true) : g.factorise x o kind ag rt = g.record o 2 8 g.lcyc 0 :=
  if_pos busy

theorem mtrs_of_busy (busy : x.unitBusy g.lcyc = true) : g.mtrs x o ag rt rx up tr unit = g.record o 2 8 g.lcyc 0 :=
  if_pos busy

theorem mperm_of_busy (busy : x.unitBusy g.lcyc = true) : g.mperm x o scratch ag rx inv w = g.record o 2 8 g.lcyc 0 :=
  if_pos busy

variable (free : x.unitBusy g.lcyc = false) (hh : h = reading g o r 0)
include free hh

/-! ### MFLU, MFCH, MFQR (R320, R327, R331 to R335) -/

section Factorise
variable (hr : r = x.readCodes g.lcyc o.slot o.addr [rt])
include hr

theorem factorise_of_reserved (hd : TileDesc.ofWord (nthD 0 r.vals 0).toNat = none) :
    g.factorise x o kind ag rt = h.record o 2 10 g.lcyc 0 := by
  obtain ⟨after, vals⟩ := dRead_reading_zero g x o [rt] hr
  simp only [Gang.factorise, free, Bool.false_eq_true, if_false, after, vals, hd, ← hh]
  rw [hh, reading_lcyc]

variable (hd : TileDesc.ofWord (nthD 0 r.vals 0).toNat = some d)
include hd

/-- What decides a factorisation of a descriptor without reserved bits: its limits, the group, the threshold. -/
theorem factorise_of_desc : g.factorise x o kind ag rt =
    if d.ok (if kind = 3 then 1 else 0) = false then h.record o 2 10 g.lcyc 0
    else if x.group ag = [] then h.record o 2 0 g.lcyc 0
    else if kind ≠ 3 ∧ x.pivotThreshold = none then h.record o 2 10 g.lcyc 0
    else h.startFactor o { Factor.new kind ag d TileDesc.none o with pthr := x.pivotThreshold.getD 0 } := by
  obtain ⟨after, vals⟩ := dRead_reading_zero g x o [rt] hr
  have lcyc : h.lcyc = g.lcyc := by rw [hh, reading_lcyc]
  simp only [Gang.factorise, free, Bool.false_eq_true, if_false, after, vals, hd, ← hh, lcyc, Bool.not_eq_true',
    Option.isNone_iff_eq_none]

theorem factorise_of_bad_desc (bad : d.ok (if kind = 3 then 1 else 0) = false) :
    g.factorise x o kind ag rt = h.record o 2 10 g.lcyc 0 :=
  (factorise_of_desc free hh hr hd).trans (if_pos bad)

theorem factorise_of_no_banks (ok : d.ok (if kind = 3 then 1 else 0) = true) (bare : x.group ag = []) :
    g.factorise x o kind ag rt = h.record o 2 0 g.lcyc 0 := by
  rw [factorise_of_desc free hh hr hd, if_neg (ne_false_of_eq_true ok), if_pos bare]

theorem factorise_of_banks (ok : d.ok (if kind = 3 then 1 else 0) = true) (banks : x.group ag ≠ [])
    (usable : kind = 3 ∨ x.pivotThreshold ≠ none) : g.factorise x o kind ag rt
      = h.startFactor o { Factor.new kind ag d TileDesc.none o with pthr := x.pivotThreshold.getD 0 } := by
  rw [factorise_of_desc free hh hr hd, if_neg (ne_false_of_eq_true ok), if_neg banks,
    if_neg (fun unfit => usable.elim unfit.1 (· unfit.2))]

variable (pivoted : kind ≠ 3)
include pivoted

/-- MFLU and MFCH start with the threshold that MXC3 holds. -/
theorem factorise_of_threshold (ok : d.ok 0 = true) (banks : x.group ag ≠ []) {p : Nat} (hp : x.pivotThreshold = some p) :
    g.factorise x o kind ag rt = h.startFactor o { Factor.new kind ag d TileDesc.none o with pthr := p } := by
  have least : d.ok (if kind = 3 then 1 else 0) = true := by rwa [if_neg pivoted]
  rw [factorise_of_banks free hh hr hd least banks (.inr (hp ▸ Option.some_ne_none p)), hp]
  rfl

/-- MFLU and MFCH refuse a descriptor out of its limits and, with the group held, a threshold that may not be used. -/
theorem factorise_of_unfit (unfit : d.ok 0 = false ∨ x.group ag ≠ [] ∧ x.pivotThreshold = none) :
    g.factorise x o kind ag rt = h.record o 2 10 g.lcyc 0 := by
  rw [factorise_of_desc free hh hr hd, if_neg pivoted]
  rcases unfit with bad | ⟨banks, no_threshold⟩
  · exact if_pos bad
  · rw [if_neg banks, if_pos (And.intro pivoted no_threshold), ite_self]

end Factorise

/-! ### MTRS (R320, R336) -/

section Solve
variable (hr : r = x.readCodes g.lcyc o.slot o.addr [rt, rx])
include hr

theorem mtrs_of_reserved
    (reserved : TileDesc.ofWord (nthD 0 r.vals 0).toNat = none ∨ TileDesc.ofWord (nthD 0 r.vals 1).toNat = none) :
    g.mtrs x o ag rt rx up tr unit = h.record o 2 10 g.lcyc 0 := by
  obtain ⟨after, vals⟩ := dRead_reading_zero g x o [rt, rx] hr
  have lcyc : h.lcyc = g.lcyc := by rw [hh, reading_lcyc]
  simp only [Gang.mtrs, free, Bool.false_eq_true, if_false, after, vals, ← hh, lcyc]
  rcases reserved with first | second
  · rw [first]
  · rw [second]
    cases TileDesc.ofWord (nthD 0 r.vals 0).toNat <;> rfl

variable (hd : TileDesc.ofWord (nthD 0 r.vals 0).toNat = some d) (hb : TileDesc.ofWord (nthD 0 r.vals 1).toNat = some b)
include hd hb

/-- What decides a solution with two descriptors without reserved bits: their limits and the group. -/
theorem mtrs_of_descs : g.mtrs x o ag rt rx up tr unit =
    if d.ok 0 = false ∨ b.ok 0 = false then h.record o 2 10 g.lcyc 0
    else if x.group ag = [] then h.record o 2 0 g.lcyc 0
    else h.startFactor o { Factor.new 4 ag d b o with up := up, tr := tr, unit := unit } := by
  obtain ⟨after, vals⟩ := dRead_reading_zero g x o [rt, rx] hr
  have lcyc : h.lcyc = g.lcyc := by rw [hh, reading_lcyc]
  simp only [Gang.mtrs, free, Bool.false_eq_true, if_false, after, vals, hd, hb, ← hh, lcyc, Bool.not_eq_true']

theorem mtrs_of_bad_desc (bad : d.ok 0 = false ∨ b.ok 0 = false) :
    g.mtrs x o ag rt rx up tr unit = h.record o 2 10 g.lcyc 0 :=
  (mtrs_of_descs free hh hr hd hb).trans (if_pos bad)

variable (okd : d.ok 0 = true) (okb : b.ok 0 = true)
include okd okb

theorem mtrs_of_no_banks (bare : x.group ag = []) : g.mtrs x o ag rt rx up tr unit = h.record o 2 0 g.lcyc 0 := by
  rw [mtrs_of_descs free hh hr hd hb, if_neg (by simp [okd, okb]), if_pos bare]

theorem mtrs_of_banks (banks : x.group ag ≠ []) : g.mtrs x o ag rt rx up tr unit
    = h.startFactor o { Factor.new 4 ag d b o with up := up, tr := tr, unit := unit } := by
  rw [mtrs_of_descs free hh hr hd hb, if_neg (by simp [okd, okb]), if_neg banks]

end Solve

/-! ### MPERM (R320, R337) -/

/-- The permutation that MPERM starts, with no row read. -/
def permFactor (x : Tile) (o : Origin) (scratch : Bool) (ag : Nat) (d : TileDesc) (inv w : Nat) : Factor :=
  { Factor.new 5 ag d TileDesc.none o with
    scratch := scratch, words := w + 1, up := inv == 1, rows := List.replicate d.edge []
    perm := (List.range 64).map (fun i => look i x.perm i) }

/-- The read of row i of a permutation: its pieces in scratch, or the row of the accumulators. -/
def permRow (x : Tile) (o : Origin) (scratch : Bool) (d : TileDesc) (w : Nat) (g : Gang) (i : Nat) : Gang :=
  if scratch then (x.rowPieces (d.at i 0) (4 * (w + 1))).foldl (fun g' p =>
    g'.later o (g'.lcyc + 2 + i) (.read 4 (.scratch o.gid p.1) p.2 (.toRow i))) g
  else g.later o (g.lcyc + 2 + i) (.permGet i)

section Permute
variable (hr : r = x.readCodes g.lcyc o.slot o.addr [rx])
include hr

theorem mperm_of_reserved (hd : TileDesc.ofWord (nthD 0 r.vals 0).toNat = none) :
    g.mperm x o scratch ag rx inv w = h.record o 2 10 g.lcyc 0 := by
  obtain ⟨after, vals⟩ := dRead_reading_zero g x o [rx] hr
  simp only [Gang.mperm, free, Bool.false_eq_true, if_false, after, vals, hd, ← hh]
  rw [hh, reading_lcyc]

variable (hd : TileDesc.ofWord (nthD 0 r.vals 0).toNat = some d)
include hd

/-- What decides a permutation by a descriptor without reserved bits: its edge, the group of an accumulator, the path of scratch. -/
theorem mperm_of_desc : g.mperm x o scratch ag rx inv w =
    if d.edge < 1 ∨ 64 < d.edge then h.record o 2 10 g.lcyc 0
    else if scratch = false ∧ x.group ag = [] then h.record o 2 0 g.lcyc 0
    else if scratch = true ∧ x.pathBusy g.lcyc = true then h.record o 2 8 g.lcyc 0
    else (List.range d.edge).foldl (permRow x o scratch d w) (h.startFactor o (permFactor x o scratch ag d inv w)) := by
  obtain ⟨after, vals⟩ := dRead_reading_zero g x o [rx] hr
  have lcyc : h.lcyc = g.lcyc := by rw [hh, reading_lcyc]
  simp only [Gang.mperm, free, Bool.false_eq_true, if_false, after, vals, hd, ← hh, lcyc]
  rfl

theorem mperm_of_bad_edge (bad : d.edge = 0 ∨ 64 < d.edge) : g.mperm x o scratch ag rx inv w = h.record o 2 10 g.lcyc 0 :=
  (mperm_of_desc free hh hr hd).trans (if_pos (by omega))

variable (h1 : 1 ≤ d.edge) (h64 : d.edge ≤ 64)
include h1 h64

theorem mperm_of_no_banks (bare : x.group ag = []) : g.mperm x o false ag rx inv w = h.record o 2 0 g.lcyc 0 := by
  rw [mperm_of_desc free hh hr hd, if_neg (by omega), if_pos ⟨rfl, bare⟩]

theorem mperm_of_path_busy (busy : x.pathBusy g.lcyc = true) : g.mperm x o true ag rx inv w = h.record o 2 8 g.lcyc 0 := by
  rw [mperm_of_desc free hh hr hd, if_neg (by omega), if_neg (by simp), if_pos ⟨rfl, busy⟩]

theorem mperm_of_rows (banks : scratch = false → x.group ag ≠ []) (path : scratch = true → x.pathBusy g.lcyc = false) :
    g.mperm x o scratch ag rx inv w
      = (List.range d.edge).foldl (permRow x o scratch d w) (h.startFactor o (permFactor x o scratch ag d inv w)) := by
  rw [mperm_of_desc free hh hr hd, if_neg (by omega), if_neg (fun bare => banks bare.1 bare.2),
    if_neg (fun busy => Bool.false_ne_true ((path busy.1).symm.trans busy.2))]

end Permute

end AtUnit

/-- Settles O34: each instruction is refused while the unit is occupied; with the unit free its descriptors decide, then the group,
the threshold or the path. -/
theorem factorisations : Obligations.Factorisations := by
  intro s t gid k addr ag ra rb up tr u inv w g h h2 x o r r2 d b hat ho hr hr2 hh hh2
  subst ho
  have becomes {i run q} := gangBecomes_of_issueOn (i := i) (run := run) (q := q) hat
  refine ⟨?described, ?reserved, ?scratch, ?solved, ?unsolved, ?busy⟩
  case described =>
    intro free hd
    refine ⟨fun banks => ⟨fun p ok hp => ⟨?_, ?_⟩, fun ok => ?_, fun f h1 h64 hf => ?_⟩, fun unfit => ⟨?_, ?_⟩, fun bad => ?_,
      fun bad => ?_, fun bare => ⟨fun ok => ⟨?_, ?_⟩, fun ok => ?_, fun h1 h64 => ?_⟩⟩
    · exact becomes rfl (factorise_of_threshold free hh hr hd (by decide) ok banks hp)
    · exact becomes rfl (factorise_of_threshold free hh hr hd (by decide) ok banks hp)
    · exact becomes rfl (factorise_of_banks free hh hr hd ok banks (.inl rfl))
    · subst hf
      exact becomes rfl (mperm_of_rows free hh hr hd h1 h64 (fun _ => banks) nofun)
    · exact becomes rfl (factorise_of_unfit free hh hr hd (by decide) unfit)
    · exact becomes rfl (factorise_of_unfit free hh hr hd (by decide) unfit)
    · exact becomes rfl (factorise_of_bad_desc free hh hr hd bad)
    · simp only [List.forall_mem_cons, List.not_mem_nil, false_implies, implies_true, and_true]
      exact ⟨becomes rfl (mperm_of_bad_edge free hh hr hd bad), becomes rfl (mperm_of_bad_edge free hh hr hd bad)⟩
    · exact becomes rfl (factorise_of_no_banks free hh hr hd ok bare)
    · exact becomes rfl (factorise_of_no_banks free hh hr hd ok bare)
    · exact becomes rfl (factorise_of_no_banks free hh hr hd ok bare)
    · exact becomes rfl (mperm_of_no_banks free hh hr hd h1 h64 bare)
  case reserved =>
    intro free hd
    simp only [List.forall_mem_cons, List.not_mem_nil, false_implies, implies_true, and_true]
    exact ⟨becomes rfl (factorise_of_reserved free hh hr hd), becomes rfl (factorise_of_reserved free hh hr hd),
      becomes rfl (factorise_of_reserved free hh hr hd), becomes rfl (mperm_of_reserved free hh hr hd),
      becomes rfl (mperm_of_reserved free hh hr hd)⟩
  case scratch =>
    intro f free hd h1 h64 hf
    subst hf
    refine ⟨fun path => ?_, fun busy => ?_⟩
    · exact becomes rfl (mperm_of_rows free hh hr hd h1 h64 nofun (fun _ => path))
    · exact becomes rfl (mperm_of_path_busy free hh hr hd h1 h64 busy)
  case solved =>
    intro free hd hb
    refine ⟨fun okd okb banks => ?_, fun okd okb bare => ?_, fun bad => ?_⟩
    · exact becomes rfl (mtrs_of_banks free hh2 hr2 hd hb okd okb banks)
    · exact becomes rfl (mtrs_of_no_banks free hh2 hr2 hd hb okd okb bare)
    · exact becomes rfl (mtrs_of_bad_desc free hh2 hr2 hd hb bad)
  case unsolved => exact fun free reserved => becomes rfl (mtrs_of_reserved free hh2 hr2 reserved)
  case busy =>
    intro busy
    simp only [List.forall_mem_cons, List.not_mem_nil, false_implies, implies_true, and_true]
    exact ⟨becomes rfl (factorise_of_busy busy), becomes rfl (factorise_of_busy busy), becomes rfl (factorise_of_busy busy),
      becomes rfl (mtrs_of_busy busy), becomes rfl (mperm_of_busy busy), becomes rfl (mperm_of_busy busy)⟩

end Sys2Proof.Execution
end

section
/-! SUPPORT. Collective trees on a tile: TARM, TPOST, TRECV and TSTAT at issue (21 R352 to R360). -/
namespace Sys2Proof.Execution
open Machine Claims

/-! ### TARM (R352 to R356) -/

/-- What keeps an entry of the arm list from being armed (R356). -/
theorem armRefused_iff (x : Tile) (r : Tree) (e : ArmEntry) (hd s0 : Nat) : armRefused x (some r) (some e) hd s0 = true ↔
    e.handle ≠ hd ∨ r.frozen = true ∨ 2 ^ 24 ≤ s0 ∨ 2 ^ 24 < s0 + e.count ∨ r.roleOf x.gid = none
      ∨ ∃ b ∈ x.arms, b.live = true ∧ b.handle = hd ∧ s0 < b.s0 + b.n ∧ b.s0 < s0 + e.count := by
  simp only [armRefused, Bool.or_eq_true, bne_iff_ne, decide_eq_true_eq, Option.isNone_iff_eq_none, List.any_eq_true, Bool.and_eq_true,
    beq_iff_eq, or_assoc, and_assoc]
  simp only [and_comm (a := s0 < _)]

@[simp] theorem markArmed_arms (x : Tile) (hd : Nat) : (x.markArmed hd).arms = x.arms := rfl

section Arm
variable {g h q : Gang} {x y v : Tile} {o : Origin} {hd ra aix : Nat} {rd : Reads}

/-- TARM is a fault unless the tree is live, the entry is there and nothing refuses it. -/
theorem tarm_of_refused {n : Nat} {tree : Option Tree} (regs : h.dRead y o 1 [ra] (fun _ => 0) = (q, v, rd.vals, rd.poison))
    (refused : tree = none ∨ v.armList[aix]? = none
      ∨ ∃ r e, tree = some r ∧ v.armList[aix]? = some e ∧ armRefused v (some r) (some e) hd (nthD 0 rd.vals 0).toNat = true)
    (lcyc : q.lcyc = n) : h.tarm y o tree hd ra aix = (q.record o 2 11 n 0).inFlight o n := by
  simp only [Gang.tarm, regs, lcyc]
  rcases refused with none_tree | none_entry | ⟨r, e, tree_eq, entry, why⟩
  · rw [none_tree]
  · rw [none_entry]
    cases tree <;> rfl
  · rw [tree_eq, entry]
    exact if_pos why

/-- What TARM is given else adds an arm to its tile. -/
theorem tarm_of_taken {r : Tree} {e : ArmEntry} (regs : h.dRead y o 1 [ra] (fun _ => 0) = (q, v, rd.vals, rd.poison))
    (entry : v.armList[aix]? = some e) (taken : ¬armRefused v (some r) (some e) hd (nthD 0 rd.vals 0).toNat = true) :
    h.tarm y o (some r) hd ra aix = q.onTile o.gid (fun w =>
      ({ w with arms := w.arms ++ [newArm r w e o hd (nthD 0 rd.vals 0).toNat q.lcyc] } : Tile).markArmed hd) := by
  simp only [Gang.tarm, regs, entry, if_neg taken]

end Arm

/-- A tree that takes an arm of a task: the task uses it, and the edits whose boundary the arm reaches are marked (R354, R364). -/
def joined (t : Nat) (a : Arm) (r : Tree) : Tree :=
  { r with
    users := addNum r.users t
    edits := r.edits.map (fun e => if e.at_ < a.s0 + a.n then { e with reached := true } else e) }

/-- The newest arm of the tile, made in this cycle, pins the slots of its path when all are present, else announces a hold. -/
theorem armSlots_of_new_arm {s : State} {t gid buf hd : Nat} {g : Gang} {r : Tree} {x : Tile} {a : Arm} (hg : s.gang t = some g)
    (hr : find? s.trees hd = some r) (hx : g.tile gid = some x) (ha : x.arms.getLast? = some a) (handle : a.handle = hd)
    (issue : a.issue = g.lcyc) (unpinned : a.pinned = false) :
    s.armSlots t gid buf hd
      = if ∀ p ∈ g.armEnds r a.mi, ((s.onTree hd (joined t a)).slotOf g p hd).isSome = true
        then (s.onTree hd (joined t a)).pinArm t gid g r hd a
        else (s.onTree hd (joined t a)).onGang t (fun z => z.announce 0 gid buf) := by
  unfold State.armSlots
  simp only [hg, hr, hx, Option.bind_some, ha]
  rw [if_neg (by simp [handle, issue, unpinned])]
  simp only [List.all_eq_true]
  rfl

section AtIssue
variable {s : State} {t gid k addr buf hd ra rb step aix : Nat} {g h q : Gang} {x y v : Tile} {o : Origin} {rd : Reads}

/-- TARM changes its gang as `Gang.tarm` says and then pins the slots of a new arm. -/
theorem exec_tarm_atD (hat : AtD s t gid k addr buf g x o y h) (hq : h.tarm y o (find? s.trees hd) hd ra aix = q) :
    exec (.tarm buf hd ra aix) s = .next ((s.onGang t (fun _ => q)).armSlots t gid buf hd) := by
  obtain ⟨⟨cur, gang, tile⟩, rfl, free, rfl, rfl, rfl⟩ := hat
  have task : s.evTask = t := by rw [State.evTask, cur]
  have own : s.evGid = x.gid := by rw [State.evGid, cur]
  show execTarm buf hd ra aix s = _
  rw [execTarm, State.dslot, State.issueOn_tile s t x.gid 6 k addr g x cur gang tile, task, own, if_neg (Nat.not_le.mpr free), ← hq]
  rfl

theorem gang_atD (hat : AtD s t gid k addr buf g x o y h) : s.gang t = some g := by
  obtain ⟨⟨-, gang, -⟩, -⟩ := hat
  exact gang

theorem tile_atD (hat : AtD s t gid k addr buf g x o y h) : h.tile gid = some y := by
  obtain ⟨⟨-, -, tile⟩, -, -, -, -, rfl⟩ := hat
  rw [Gang.tile_onTile, if_pos rfl, tile]
  rfl

theorem gang_onGang_atD (hat : AtD s t gid k addr buf g x o y h) (q : Gang) : (s.onGang t (fun _ => q)).gang t = some q := by
  rw [State.gang_onGang, if_pos rfl, gang_atD hat]
  rfl


/-- The arm that TARM makes, pinned when the slots of its path are all present, else with a hold announced (R354). -/
theorem exec_tarm_of_taken {g2 : Gang} {u : State} {r : Tree} {e : ArmEntry} {a : Arm} (hat : AtD s t gid k addr buf g x o y h)
    (regs : h.dRead y o 1 [ra] (fun _ => 0) = (q, v, rd.vals, rd.poison)) (hv : q.tile gid = some v) (hr : find? s.trees hd = some r)
    (entry : v.armList[aix]? = some e) (taken : ¬armRefused v (some r) (some e) hd (nthD 0 rd.vals 0).toNat = true)
    (ha : a = newArm r v e o hd (nthD 0 rd.vals 0).toNat q.lcyc)
    (hg2 : g2 = q.onTile gid (fun w => ({ w with arms := w.arms ++ [a] } : Tile).markArmed hd))
    (hu : u = (s.onGang t (fun _ => g2)).onTree hd (joined t a)) :
    exec (.tarm buf hd ra aix) s = .next (if ∀ p ∈ g2.armEnds r a.mi, (u.slotOf g2 p hd).isSome = true then u.pinArm t gid g2 r hd a
      else u.onGang t (fun z => z.announce 0 gid buf)) := by
  obtain ⟨gid_eq, -, -⟩ := place_atD hat
  have work : h.tarm y o (find? s.trees hd) hd ra aix = g2 := by
    rw [hr, tarm_of_taken regs entry taken, gid_eq, hg2, ha]
    exact Gang.onTile_at _ _ v hv rfl
  have tile : g2.tile gid = some (({ v with arms := v.arms ++ [a] } : Tile).markArmed hd) := by
    rw [hg2, Gang.tile_onTile, if_pos rfl, hv]
    rfl
  have lcyc : g2.lcyc = q.lcyc := by rw [hg2, Gang.onTile_lcyc]
  rw [exec_tarm_atD hat work, hu]
  refine congrArg Host.Outcome.next (armSlots_of_new_arm (gang_onGang_atD hat g2) ?_ tile ?_ ?_ ?_ ?_)
  · rw [State.onGang_trees, hr]
  · rw [markArmed_arms]
    exact List.getLast?_concat
  · rw [ha]
    rfl
  · rw [lcyc, ha]
    rfl
  · rw [ha]
    rfl

/-- A refused TARM of a tile without an arm of this cycle is its fault alone (R356). -/
theorem exec_tarm_of_refused (hat : AtD s t gid k addr buf g x o y h) (hv : q.tile gid = some v) (lcyc : q.lcyc = g.lcyc)
    (work : h.tarm y o (find? s.trees hd) hd ra aix = (q.record o 2 11 g.lcyc 0).inFlight o g.lcyc)
    (old : ∀ b ∈ v.arms, b.issue ≠ g.lcyc) :
    GangBecomes (.tarm buf hd ra aix) s t ((q.record o 2 11 g.lcyc 0).inFlight o g.lcyc) := by
  obtain ⟨rfl, -, -⟩ := place_atD hat
  rw [GangBecomes, exec_tarm_atD hat work]
  refine congrArg Host.Outcome.next (armSlots_of_no_arm (gang_onGang_atD hat _)
    (x := { v.record 2 11 o.slot o.addr g.lcyc 0 with
      dEnds := g.lcyc :: (v.record 2 11 o.slot o.addr g.lcyc 0).dEnds
      busyTo := max (v.record 2 11 o.slot o.addr g.lcyc 0).busyTo (g.lcyc : Int) }) ?_ ?_ buf hd)
  · rw [Gang.inFlight, Gang.busy, Gang.onTile_onTile, Gang.record, Gang.onTile_onTile, Gang.tile_onTile, if_pos rfl, hv]
    rfl
  · simpa only [record_arms, inFlight_lcyc, Gang.record_lcyc, lcyc] using old

end AtIssue

/-! ### TPOST, TRECV (R357, R358) -/

/-- The reads of one beat of a posted segment, one for each line that it meets, for the node that takes it. -/
def postBeat (x : Tile) (o : Origin) (r : Tree) (hd seg base node : Nat) (g : Gang) (j : Nat) : Gang :=
  (linePieces (base + 64 * j) (min 64 (r.segSize - 64 * j))).foldl (fun g' p =>
    g'.later o (g'.lcyc + 1 + j) (.read 4 (.scratch o.gid (x.map (base + 64 * j + p.1))) p.2 (.toPost hd seg j p.1 node))) g

/-- A post added to its arm and counted. -/
def postedOn (a : Arm) (p : Post) (w : Tile) : Tile :=
  (w.onArms (fun b => b == a) (fun b => { b with posts := b.posts ++ [p] })).count 0x0A 1

section Segment
variable {h q : Gang} {x y v : Tile} {o : Origin} {k hd ra rb step n s0 seg base : Nat} {rd : Reads} {tree : Option Tree}
  {r : Tree} {a : Arm}
variable (regs : h.dRead y o 1 [ra, rb] (fun vs => alignDown (nthD 0 vs 1).toNat 16) = (q, v, rd.vals, rd.poison)) (lcyc : q.lcyc = n)
  (hs0 : s0 = (nthD 0 rd.vals 0).toNat) (hseg : seg = s0 + (if step = 1 then k else 0))
include regs lcyc hs0 hseg

/-- TPOST is a fault without a tree, without an arm of the segment, and where the segment, its arm or the root forbids it. -/
theorem tpost_of_refused (refused : tree = none ∨ v.armOf hd seg = none ∨ 2 ^ 24 ≤ s0 ∨ ∃ r a, tree = some r ∧ v.armOf hd seg = some a
      ∧ (n < a.issue + q.horizon ∨ (∃ p ∈ a.posts, p.seg = seg) ∨ (r.kind = 2 ∧ v.gid ≠ r.gidOf r.root))) :
    h.tpost y o k tree hd ra rb step = (q.record o 2 11 n 0).inFlight o n := by
  simp only [Gang.tpost, regs, lcyc, segOperands, ← hs0, ← hseg]
  cases tree with
  | none => rfl
  | some r =>
    cases held : v.armOf hd seg with
    | none => rfl
    | some a =>
      simp only [List.any_eq_true, beq_iff_eq]
      exact if_pos (by simpa [held] using refused)

/-- TRECV is a fault without a tree, without an arm of the segment, and where the segment, its cover or the root forbids it. -/
theorem trecv_of_refused (c : Cfg) (refused : tree = none ∨ v.armOf hd seg = none ∨ 2 ^ 24 ≤ s0 ∨ ∃ r, tree = some r
      ∧ ((∃ w ∈ v.covers, w.handle = hd ∧ w.seg = seg) ∨ (r.kind = 0 ∧ v.gid ≠ r.gidOf r.root))) :
    h.trecv c y o k tree hd ra rb step = (q.record o 2 11 n 0).inFlight o n := by
  simp only [Gang.trecv, regs, lcyc, segOperands, ← hs0, ← hseg]
  cases tree with
  | none => rfl
  | some r =>
    cases held : v.armOf hd seg with
    | none => rfl
    | some a =>
      simp only [List.any_eq_true, Bool.and_eq_true, beq_iff_eq]
      exact if_pos (by simpa [held] using refused)

variable (held : v.armOf hd seg = some a)
include held

variable (low : s0 < 2 ^ 24)
  (hbase : base = alignDown (((nthD 0 rd.vals 1).toNat + (if step = 1 then k else 0) * r.segSize) % 2 ^ 64) 16)
include low hbase

/-- What TPOST is given else is posted: the beats are read from the next cycle on for the node that takes them. -/
theorem tpost_of_taken (due : a.issue + q.horizon ≤ n) (fresh : ∀ p ∈ a.posts, p.seg ≠ seg)
    (root : r.kind = 2 → v.gid = r.gidOf r.root) :
    h.tpost y o k (some r) hd ra rb step
      = (((List.range r.beats).foldl
          (postBeat v o r hd seg base (q.nodeEnd (nthD TreeNode.none r.nodes (r.takes r.nodes a.mi))))
          (q.onTile o.gid (postedOn a { seg := seg, issue := n, base := base }))).charge o r.segSize 0).inFlight o (n + r.beats) := by
  have kept : ¬(2 ^ 24 ≤ s0 ∨ n < a.issue + q.horizon ∨ a.posts.any (fun p => p.seg == seg) = true
      ∨ (r.kind = 2 ∧ v.gid ≠ r.gidOf r.root)) := by
    simp only [List.any_eq_true, beq_iff_eq]
    rintro (high | early | ⟨p, hp, same⟩ | ⟨kind, other⟩)
    · omega
    · omega
    · exact fresh p hp same
    · exact other (root kind)
  simp only [Gang.tpost, regs, lcyc, segOperands, ← hs0, ← hseg, ← hbase, held]
  rw [if_neg kept, foldl_keeps Gang.lcyc _ (fun _ _ => foldl_keeps Gang.lcyc _ (fun _ _ => Gang.later_lcyc ..) _ _), Gang.onTile_lcyc,
    lcyc]
  rfl

/-- What TRECV is given else covers its segment until the last delivery. -/
theorem trecv_of_taken (c : Cfg) {cover : Cover} (fresh : ∀ w ∈ v.covers, w.handle = hd → w.seg ≠ seg)
    (root : r.kind = 0 → v.gid = r.gidOf r.root)
    (hcover : cover = { handle := hd, seg := seg, base := base, issue := n, addr := o.addr, buf := o.buf, got := []
                        last := a.c + (seg - a.s0 + 1) * r.beats - 1 + c.topDelay q r.nodes + 1
                          + c.lambda q (q.topEnd r.nodes) (q.endOf v.gid) }) :
    h.trecv c y o k (some r) hd ra rb step
      = ((q.onTile o.gid (fun w => { w with covers := w.covers ++ [cover] })).busy o cover.last).charge o 0 r.segSize := by
  have kept : ¬(2 ^ 24 ≤ s0 ∨ v.covers.any (fun w => w.handle == hd && w.seg == seg) = true
      ∨ (r.kind = 0 ∧ v.gid ≠ r.gidOf r.root)) := by
    simp only [List.any_eq_true, Bool.and_eq_true, beq_iff_eq]
    rintro (high | ⟨w, hw, same, again⟩ | ⟨kind, other⟩)
    · omega
    · exact fresh w hw same again
    · exact other (root kind)
  subst hcover
  simp only [Gang.trecv, regs, lcyc, segOperands, ← hs0, ← hseg, ← hbase, held]
  rw [if_neg kept]

end Segment

/-! ### TSTAT (R360) -/

/-- The sticky bits that a tile keeps of a handle, cleared. -/
def clearSticky (hd : Nat) (w : Tile) : Tile :=
  match find? w.trees hd with
  | some v => { w with trees := setKey w.trees hd { v with sticky := 0 } }
  | none => w

/-- TSTAT puts its word off to t + 2 and clears the sticky bits when CLR says so. -/
theorem exec_tstat_eq (s : State) (buf hd d clr : Nat) : exec (.tstat buf hd d clr) s = s.dslot buf (fun g x _ o =>
    if clr = 1 then ((g.later o (g.lcyc + 2) (.sreg d (BitVec.ofNat 64 (x.treeWord hd)) false)).inFlight o
        (g.lcyc + 2)).onTile o.gid (clearSticky hd)
    else (g.later o (g.lcyc + 2) (.sreg d (BitVec.ofNat 64 (x.treeWord hd)) false)).inFlight o (g.lcyc + 2)) := by
  show execTstat buf hd d clr s = _
  simp only [execTstat, Gang.laterReg]
  rfl

/-- The tile of an operation that is put off and in flight keeps what it knows of trees. -/
theorem tile_later_inFlight {g : Gang} {y : Tile} (o : Origin) (due end_ : Nat) (j : Job) (hy : g.tile o.gid = some y) :
    ∃ w, ((g.later o due j).inFlight o end_).tile o.gid = some w ∧ w.trees = y.trees := by
  have put_off : (g.later o due j).tile o.gid = some { y with busyTo := max y.busyTo (due : Int) } := by
    rw [Gang.later, Gang.tile_onTile, if_pos rfl]
    exact congrArg (Option.map _) hy
  rw [Gang.inFlight, Gang.busy, Gang.onTile_onTile, Gang.tile_onTile, if_pos rfl, put_off]
  exact ⟨_, rfl, rfl⟩

/-- Settles O42: each of the four is one D-slot operation, split by what refuses it; TARM then pins the slots of its arm. -/
theorem treeOperationsOnTile : Obligations.TreeOperationsOnTile := by
  intro s t gid k addr buf hd ra rb step aix d g h x y o hat
  obtain ⟨rfl, -, -⟩ := place_atD hat
  have origin := origin_atD hat
  have lcyc_h := lcyc_atD hat
  refine ⟨?tarm, ?segment, ?tstat⟩
  case tarm =>
    intro q g2 v rd s0 u hrd read hs0
    have regs := dRead_atD hat (at_ := fun _ => 0) hrd read rfl
    have lcyc : q.lcyc = g.lcyc := (lcyc_of_read read).trans lcyc_h
    have hv : q.tile o.gid = some v := read.2
    subst hs0
    refine ⟨?taken, ?refused⟩
    case taken =>
      intro r e who a hr entry handle live low fits member apart ha hg2 hu
      have taken : ¬armRefused v (some r) (some e) hd (nthD 0 rd.vals 0).toNat = true := by
        rw [armRefused_iff]
        rintro (other | frozen | high | beyond | stranger | ⟨b, hb, alive, same, above, below⟩)
        · exact other handle
        · simp [live] at frozen
        · omega
        · omega
        · simp [member] at stranger
        · have := apart b hb alive same
          omega
      have work := exec_tarm_of_taken hat regs hv hr entry taken (a := a)
        (by rw [ha, newArm, member, lcyc, origin]; rfl) hg2 hu
      refine ⟨fun present => ?_, fun ⟨p, hp, absent⟩ => ?_⟩
      · rw [work, if_pos present]
        rfl
      · rw [work, if_neg fun present => by simpa [absent] using present p hp]
    case refused =>
      intro old refused
      refine exec_tarm_of_refused hat hv lcyc (tarm_of_refused regs ?_ lcyc) old
      simpa only [armRefused_iff] using refused
  case segment =>
    intro q v rd kk s0 seg hrd read hkk hs0 hseg
    have regs := dRead_atD hat (at_ := fun vs => alignDown (nthD 0 vs 1).toNat 16) hrd read rfl
    have lcyc : q.lcyc = g.lcyc := (lcyc_of_read read).trans lcyc_h
    subst hkk
    have post {u} := gangBecomes_of_dslot (q := u) hat (exec_tpost buf rb s hd ra step)
    have recv {u} := gangBecomes_of_dslot (q := u) hat (exec_trecv buf rb s hd ra step)
    refine ⟨fun r a base node hr held low hbase hnode => ⟨fun due fresh root => post ?_, fun last c hlast fresh root hc => recv ?_⟩,
      fun refused => post ?_, fun refused => recv ?_⟩
    · rw [hr, tpost_of_taken regs lcyc hs0 hseg held low hbase due fresh root, hnode]
      rfl
    · rw [hr, trecv_of_taken regs lcyc hs0 hseg held low hbase s.cfg (cover := c) fresh root (by rw [hc, hlast, origin]; rfl), hc]
    · exact tpost_of_refused regs lcyc hs0 hseg refused
    · exact trecv_of_refused regs lcyc hs0 hseg s.cfg refused
  case tstat =>
    intro v w u hv hw hu
    have word : y.treeWord hd = w := by rw [Tile.treeWord, ← hv, hw]
    have work (clr : Nat) := gangBecomes_of_dslot hat (exec_tstat_eq s buf hd d clr) rfl
    simp only [word, lcyc_h, ← hu] at work
    obtain ⟨z, hz, trees⟩ : ∃ z, u.tile o.gid = some z ∧ z.trees = y.trees := by
      rw [hu]
      exact tile_later_inFlight o _ _ _ (tile_atD hat)
    refine ⟨fun c hc => ?_, fun known => ?_, fun unknown => ?_⟩
    · simpa only [if_neg hc] using work c
    · rw [← Gang.onTile_at u o.gid z hz (f := clearSticky hd)]
      · simpa only [if_true] using work 1
      · simp only [clearSticky, trees, known]
    · rw [← Gang.onTile_at u o.gid z hz (f := clearSticky hd)]
      · simpa only [if_true] using work 1
      · simp only [clearSticky, trees, unknown]

end Sys2Proof.Execution
end

section
/-! SUPPORT. Trees as an agent core manages them: TREE.CREATE, EDIT, ALT, FREEZE, THAW and DESTROY (21 R361 to R367). -/
namespace Sys2Proof.Execution
open Machine Claims

/-! ### The core in turn -/

theorem me_atCore {s : State} {c : Nat} (hat : AtCore s c) : s.me = s.core c := by rw [State.me, State.coreId_agent s c hat]

@[simp] theorem agentWrite_cur (s : State) (c a : Nat) (bs : List PByte) : (s.agentWrite c a bs).cur = s.cur := by
  unfold State.agentWrite
  split <;> simp

theorem performStores_cur (s : State) (c : Nat) (xs : List (Store × Bool)) : (performStores s c xs).1.cur = s.cur := by
  induction xs generalizing s with
  | nil => rfl
  | cons x xs ih =>
    unfold performStores
    split
    · rw [ih, agentWrite_cur]
    · exact ih s

/-- The turn stays a core's while it performs its stores. -/
theorem atCore_flush {s : State} {c : Nat} (hat : AtCore s c) (pick : Store → Bool) : AtCore (s.flush c pick) c :=
  (performStores_cur s c _).trans hat

/-- An instruction of a core that only answers a status. -/
theorem coreBecomes_of_status {s : State} {c d st : Nat} {i : Instr} {y : AgentCore} (hat : AtCore s c) (hy : y = s.core c)
    (hi : exec i s = .next (s.status d st)) : CoreBecomes i s c ((y.setReg d (BitVec.ofNat 64 st)).advance) := by
  rw [CoreBecomes, hi, State.status, State.finish, State.onMe, me_atCore hat, State.coreId_agent s c hat, hy]

/-- An instruction of device level at that level does its work. -/
theorem deviceLevel_atCore {s : State} {c : Nat} (hat : AtCore s c) (device : (s.core c).lv = 1) (k : State → Outcome) :
    s.deviceLevel k = k s := if_pos (me_atCore hat ▸ device)

/-! ### Whose tree it is (R361, R362) -/

theorem ownsTree_iff {s : State} {c : Nat} (hat : AtCore s c) (r : Tree) :
    s.ownsTree r = true ↔ (s.core c).lv = 1 ∨ r.fn = (s.core c).afunc := by
  simp [State.ownsTree, me_atCore hat]

theorem ownsTree_of_foreign {s : State} {c : Nat} (hat : AtCore s c) {r : Tree}
    (foreign : (s.core c).lv ≠ 1 ∧ r.fn ≠ (s.core c).afunc) : s.ownsTree r = false := by
  rw [Bool.eq_false_iff, ne_eq, ownsTree_iff hat]
  exact fun own => own.elim foreign.1 foreign.2

/-- A tree that is frozen or has no incomplete arms is not busy (R362). -/
theorem not_busy_of_idle {s : State} {h : Nat} {r : Tree} (idle : r.frozen = true ∨ s.liveArms h = []) :
    ¬(r.frozen = false ∧ s.liveArms h ≠ []) := by
  rintro ⟨live, arms⟩
  exact idle.elim (by simp [live]) arms

/-! ### TREE.EDIT (R364) -/

section EditExec
variable {s q : State} {c d a h : Nat} {r : Tree} {w : List Nat} (hat : AtCore s c) (hq : q = s.flush c (fun _ => true))
include hat hq

theorem exec_treeEdit_of_no_block (bad : q.blockAt ((q.core c).reg a).toNat 64 64 = none) :
    exec (.treeEdit d a) s = .next (q.status d 4) := by
  subst hq
  show execTreeEdit d a s = _
  simp only [execTreeEdit, State.flushAll, State.coreId_agent s c hat, me_atCore (atCore_flush hat _), bad]
  rfl

variable (block : q.blockAt ((q.core c).reg a).toNat 64 64 = some w) (hh : h = fieldOf w 0 2)
include block hh

theorem exec_treeEdit_of_no_tree (none_tree : find? q.trees h = none) : exec (.treeEdit d a) s = .next (q.status d 1) := by
  subst hq hh
  show execTreeEdit d a s = _
  simp only [execTreeEdit, State.flushAll, State.coreId_agent s c hat, me_atCore (atCore_flush hat _), block, none_tree]
  rfl

/-- TREE.EDIT of a live handle answers what `State.editTree` decides. -/
theorem exec_treeEdit_of_tree (hr : find? q.trees h = some r) {v : Nat × Tree} (hv : q.editTree w h r = v) :
    exec (.treeEdit d a) s = .next ((q.onTree h (fun _ => v.2)).status d v.1) := by
  subst hq hh
  show execTreeEdit d a s = _
  simp only [execTreeEdit, State.flushAll, State.coreId_agent s c hat, me_atCore (atCore_flush hat _), block, hr, hv]

end EditExec

section Decision
variable {q : State} {c h : Nat} {r : Tree} {w : List Nat} (hat : AtCore q c)
include hat

/-- An edit that is refused leaves the tree as it is: another function's, a bad block, a tree in use, a boundary already folded. -/
theorem editTree_of_refused {v : Nat} (refused : ((q.core c).lv ≠ 1 ∧ r.fn ≠ (q.core c).afunc ∧ v = 5)
    ∨ (((q.core c).lv = 1 ∨ r.fn = (q.core c).afunc) ∧ editOfBlock r w = none ∧ v = 4)
    ∨ (((q.core c).lv = 1 ∨ r.fn = (q.core c).afunc) ∧ editOfBlock r w ≠ none
      ∧ ((r.frozen = false ∧ q.liveArms h ≠ []) ∨ ∃ x ∈ r.edits, x.reached = false) ∧ v = 3)
    ∨ (∃ e, ((q.core c).lv = 1 ∨ r.fn = (q.core c).afunc) ∧ editOfBlock r w = some e ∧ (∀ x ∈ r.edits, x.reached = true)
      ∧ r.frozen = true ∧ q.folded r e.1 = true ∧ v = 6)) : q.editTree w h r = (v, r) := by
  rw [State.editTree]
  rcases refused with ⟨lv, fn, rfl⟩ | ⟨own, bad, rfl⟩ | ⟨own, sound, busy, rfl⟩ | ⟨e, own, sound, reached, frozen, late, rfl⟩
  · rw [if_pos (ownsTree_of_foreign hat ⟨lv, fn⟩)]
    rfl
  · rw [(ownsTree_iff hat r).mpr own, if_neg nofun, bad]
    rfl
  · rw [(ownsTree_iff hat r).mpr own, if_neg nofun]
    obtain ⟨e, block⟩ := Option.ne_none_iff_exists'.mp sound
    rw [block]
    exact if_pos (by simpa using busy)
  · rw [(ownsTree_iff hat r).mpr own, if_neg nofun, sound]
    dsimp only
    rw [if_neg (by simpa [frozen] using reached), if_pos ⟨frozen, late⟩]
    rfl

/-- An edit of a sound block is added to an idle tree of its core, ahead of what is folded. -/
theorem editTree_of_sound {e : Nat × List (Nat × Bool)} (own : (q.core c).lv = 1 ∨ r.fn = (q.core c).afunc)
    (sound : editOfBlock r w = some e) (idle : r.frozen = true ∨ q.liveArms h = []) (reached : ∀ x ∈ r.edits, x.reached = true)
    (ahead : r.frozen = false ∨ q.folded r e.1 = false) :
    q.editTree w h r = (0, { r with edits := r.edits ++ [{
      at_ := e.1, changes := e.2, reached := (q.liveArms h).any (fun x => e.1 < x.2.s0 + x.2.n) }] }) := by
  rw [State.editTree, (ownsTree_iff hat r).mpr own, if_neg nofun, sound]
  dsimp only
  have free : ¬(r.frozen = false ∧ q.liveArms h ≠ [] ∨ (r.edits.any fun x => !x.reached) = true) := by
    rintro (busy | pending)
    · exact not_busy_of_idle idle busy
    · obtain ⟨x, hx, unreached⟩ := List.any_eq_true.mp pending
      simp [reached x hx] at unreached
  have early : ¬(r.frozen = true ∧ q.folded r e.1 = true) := by
    rintro ⟨frozen, folded⟩
    exact ahead.elim (by simp [frozen]) (by simp [folded])
  rw [if_neg free, if_neg early]
  rfl

/-! ### TREE.ALT (R365) -/

variable {i : Nat} {alt : Option Nat}

/-- An alternate that is refused leaves the tree as it is: another function's, a tree in use, a bad index or alternate. -/
theorem altTree_of_refused {v : Nat} (refused : ((q.core c).lv ≠ 1 ∧ r.fn ≠ (q.core c).afunc ∧ v = 5)
    ∨ (((q.core c).lv = 1 ∨ r.fn = (q.core c).afunc) ∧ r.frozen = false ∧ q.liveArms h ≠ [] ∧ v = 3)
    ∨ (((q.core c).lv = 1 ∨ r.fn = (q.core c).afunc) ∧ (r.frozen = true ∨ q.liveArms h = [])
      ∧ (r.members.length ≤ i ∨ ∃ g, alt = some g ∧ g ∈ memberGids r.members) ∧ v = 4)) : q.altTree h i alt r = (v, r) := by
  unfold State.altTree
  rcases refused with ⟨lv, fn, rfl⟩ | ⟨own, live, arms, rfl⟩ | ⟨own, idle, bad, rfl⟩
  · exact if_pos (ownsTree_of_foreign hat ⟨lv, fn⟩)
  · rw [(ownsTree_iff hat r).mpr own, if_neg nofun, if_pos ⟨live, arms⟩]
    rfl
  · rw [(ownsTree_iff hat r).mpr own, if_neg nofun, if_neg (not_busy_of_idle idle), if_pos ?_]
    · rfl
    · simpa [Option.any_eq_true] using bad

/-- An alternate that nothing refuses replaces that of its member. -/
theorem altTree_of_sound {m : Nat} (own : (q.core c).lv = 1 ∨ r.fn = (q.core c).afunc) (idle : r.frozen = true ∨ q.liveArms h = [])
    (index : i < r.members.length) (fresh : ∀ g, alt = some g → g ∉ memberGids r.members)
    (hm : m = nthD 0 r.members i % 4096 + (if bitAt (nthD 0 r.members i) 30 then 2 ^ 30 else 0)
      + alt.elim 0 (fun g => 2 ^ 31 + g * 2 ^ 16)) :
    q.altTree h i alt r = (0, { r with members := r.members.set i m }) := by
  have sound : ¬(r.members.length ≤ i ∨ alt.any (fun g => (memberGids r.members).contains g) = true) := by
    rintro (outside | taken)
    · omega
    · obtain ⟨g, some_g, taken⟩ := (Option.any_eq_true ..).mp taken
      exact fresh g some_g (List.contains_iff_mem.mp taken)
  unfold State.altTree
  rw [(ownsTree_iff hat r).mpr own, if_neg nofun, if_neg (not_busy_of_idle idle), if_neg sound, hm]
  cases alt <;> rfl

end Decision

/-! ### TREE.ALT, FREEZE, THAW and DESTROY (R365 to R367) -/

section Handle
variable {s : State} {c d a b h : Nat} {y : AgentCore} {r : Tree} (hat : AtCore s c) (hy : y = s.core c)
  (hh : h = (y.reg a).toNat % 65536)
include hat hy hh

theorem exec_treeAlt_of_none (none_tree : find? s.trees h = none) : exec (.treeAlt d a b) s = .next (s.status d 1) := by
  show execTreeAlt d a b s = _
  simp only [execTreeAlt, me_atCore hat, ← hy, ← hh, none_tree]
  rfl

/-- TREE.ALT of a live handle answers what `State.altTree` decides. -/
theorem exec_treeAlt_of_some (hr : find? s.trees h = some r) {v : Nat × Tree}
    (hv : s.altTree h (bitsOf (y.reg a).toNat 31 16)
      (if bitAt (y.reg b).toNat 12 then some ((y.reg b).toNat % 4096) else none) r = v) :
    exec (.treeAlt d a b) s = .next ((s.onTree h (fun _ => v.2)).status d v.1) := by
  show execTreeAlt d a b s = _
  simp only [execTreeAlt, me_atCore hat, ← hy, ← hh, hr, hv]

variable (device : y.lv = 1)
include device

/-- FREEZE, THAW and DESTROY of a handle without a tree answer NOHANDLE (R362). -/
theorem exec_of_no_tree (none_tree : find? s.trees h = none) :
    ∀ i ∈ [Instr.treeFreeze d a, .treeThaw d a, .treeDestroy d a], exec i s = .next (s.status d 1) := by
  have work := deviceLevel_atCore hat (hy ▸ device)
  simp only [List.forall_mem_cons, List.not_mem_nil, false_implies, implies_true, and_true]
  refine ⟨?freeze, ?thaw, ?destroy⟩
  case freeze =>
    show execTreeFreeze d a s = _
    simp only [execTreeFreeze, work, me_atCore hat, ← hy, ← hh, none_tree]
    rfl
  case thaw =>
    show execTreeThaw d a s = _
    simp only [execTreeThaw, work, me_atCore hat, ← hy, ← hh, none_tree]
    rfl
  case destroy =>
    show execTreeDestroy d a s = _
    simp only [execTreeDestroy, work, me_atCore hat, ← hy, ← hh, none_tree]
    rfl

variable (hr : find? s.trees h = some r)
include hr

/-- TREE.FREEZE of a live handle asks for a running gang among its arms. -/
theorem exec_treeFreeze_of_some : exec (.treeFreeze d a) s
    = if r.frozen = true ∨ ∃ e ∈ s.liveArms h, e.1.run = .running then .next (s.status d 3)
      else .next ((s.freezeTree h r).status d 0) := by
  have held (g : Gang) : (!g.isHeld) = true ↔ g.run = .running := by
    unfold Gang.isHeld
    cases g.run <;> simp
  show execTreeFreeze d a s = _
  simp only [execTreeFreeze, deviceLevel_atCore hat (hy ▸ device), me_atCore hat, ← hy, ← hh, hr, List.any_eq_true, held]
  rfl

/-- TREE.THAW of a live handle asks for the placement of its gangs, then for the slots. -/
theorem exec_treeThaw_of_some : exec (.treeThaw d a) s
    = if r.frozen = false ∨ ∃ t ∈ s.treeUsers h, s.gang t = none then .next (s.status d 7)
      else match s.thawTree h r with
        | some u => .next (u.status d 0)
        | none => .next (s.status d 3) := by
  show execTreeThaw d a s = _
  simp only [execTreeThaw, deviceLevel_atCore hat (hy ▸ device), me_atCore hat, ← hy, ← hh, hr, List.any_eq_true,
    Option.isNone_iff_eq_none]
  rfl

/-- TREE.DESTROY of a live handle asks for a thawed tree without arms that no arm list names. -/
theorem exec_treeDestroy_of_some : exec (.treeDestroy d a) s
    = if r.frozen = true ∨ s.liveArms h ≠ [] ∨ s.namesTree h = true then .next (s.status d 3)
      else .next ((({ s with trees := dropKey s.trees h } : State).dropSlots h).status d 0) := by
  show execTreeDestroy d a s = _
  simp only [execTreeDestroy, deviceLevel_atCore hat (hy ▸ device), me_atCore hat, ← hy, ← hh, hr]
  rfl

end Handle

/-! ### TREE.CREATE (R363) -/

section Create
variable {s q : State} {c d a : Nat} {w : List Nat}

/-- TREE.CREATE performs the core's stores and makes what its block says, or answers why not. -/
theorem exec_treeCreate (hat : AtCore s c) (device : (s.core c).lv = 1) (hq : q = s.flush c (fun _ => true)) {st : Nat}
    {made : Option (Nat × Tree)} (hm : q.createTree ((q.core c).reg a).toNat = (st, made)) : exec (.treeCreate d a) s = match made with
      | some (h, r) => .next (({ q with trees := setKey q.trees h r } : State).finish d (BitVec.ofNat 64 (r.nodes.length * 2 ^ 32)))
      | none => .next (q.status d st) := by
  show execTreeCreate d a s = _
  subst hq
  simp only [execTreeCreate, deviceLevel_atCore hat device, State.flushAll, State.coreId_agent s c hat,
    me_atCore (atCore_flush hat _), hm]
  cases made <;> rfl

theorem createTree_of_no_block {at_ : Nat} (bad : q.blockAt at_ 64 64 = none) : q.createTree at_ = (4, none) := by
  simp only [State.createTree, bad]
  rfl

variable {at_ : Nat} (hw : q.blockAt at_ 64 64 = some w)
include hw

theorem createTree_of_live_handle (live : find? q.trees (fieldOf w 0 2) ≠ none) : q.createTree at_ = (2, none) := by
  simp only [State.createTree, hw, if_pos (Option.isSome_iff_ne_none.mpr live)]
  rfl

variable (free : find? q.trees (fieldOf w 0 2) = none)
include free

/-- A member list too long, or not readable, makes the block bad. -/
theorem createTree_of_no_members (bad : 65535 < fieldOf w 8 4 ∨ q.blockAt (fieldOf w 16 8) 64 (4 * (fieldOf w 8 4 + 1)) = none) :
    q.createTree at_ = (4, none) := by
  simp only [State.createTree, hw, free, Option.isSome_none, Bool.false_eq_true, if_false]
  rcases bad with many | missing
  · exact if_pos many
  · rw [missing]
    exact ite_self _

/-- With its member list read, the block alone decides. -/
theorem createTree_of_members {l ws : List Nat} (few : fieldOf w 8 4 ≤ 65535)
    (hl : q.blockAt (fieldOf w 16 8) 64 (4 * (fieldOf w 8 4 + 1)) = some l)
    (hws : ws = (List.range (fieldOf w 8 4 + 1)).map (fun i => fieldOf l (4 * i) 4)) :
    q.createTree at_ = match treeOfBlock w ws with
      | none => (4, none)
      | some r => (0, some (fieldOf w 0 2, r)) := by
  simp only [State.createTree, hw, free, Option.isSome_none, Bool.false_eq_true, if_false, if_neg (Nat.not_lt.mpr few), hl, ← hws]
  rfl

end Create

/-- Settles O51: each instruction is split by the statuses of R362, in the order in which the model asks. -/
theorem treeManagement : Obligations.TreeManagement := by
  intro s q c d a b h y z r hat hy
  refine ⟨?edit, fun hh => ⟨?alt, ?noAlt, fun device => ⟨?noTree, ?live⟩⟩, ?create⟩
  case edit =>
    intro hq hz
    have at_q : AtCore q c := hq ▸ atCore_flush hat _
    subst hz
    refine ⟨exec_treeEdit_of_no_block hat hq, fun w block hh => ⟨exec_treeEdit_of_no_tree hat hq block hh, fun hr => ⟨?_, ?_⟩⟩⟩
    · exact fun v refused => exec_treeEdit_of_tree hat hq block hh hr (editTree_of_refused at_q refused)
    · exact fun e own sound idle reached ahead =>
        exec_treeEdit_of_tree hat hq block hh hr (editTree_of_sound at_q own sound idle reached ahead)
  case alt =>
    intro i alt hi halt hr
    subst hi halt hy
    refine ⟨fun v refused => exec_treeAlt_of_some hat rfl hh hr (altTree_of_refused hat refused), fun w own idle index fresh hw => ?_⟩
    refine exec_treeAlt_of_some hat rfl hh hr (altTree_of_sound hat own idle index fresh ?_)
    rw [hw]
    cases bitAt ((s.core c).reg b).toNat 12 <;> rfl
  case noAlt => exact fun none_tree => coreBecomes_of_status hat hy (exec_treeAlt_of_none hat hy hh none_tree)
  case noTree => exact fun none_tree i hi => coreBecomes_of_status hat hy (exec_of_no_tree hat hy hh device none_tree i hi)
  case live =>
    intro hr
    have freeze := exec_treeFreeze_of_some (d := d) hat hy hh device hr
    have thaw := exec_treeThaw_of_some (d := d) hat hy hh device hr
    have destroy := exec_treeDestroy_of_some (d := d) hat hy hh device hr
    refine ⟨fun live held => ?_, fun busy => ?_, fun u frozen placed made => ?_, fun frozen placed full => ?_, fun unfit => ?_,
      fun live idle unnamed => ?_, fun busy => ?_⟩
    · rw [freeze, if_neg (by simpa [live] using held)]
      rfl
    · exact coreBecomes_of_status hat hy (freeze.trans (if_pos busy))
    · rw [thaw, if_neg (by simpa [frozen] using placed), made]
    · refine coreBecomes_of_status hat hy (thaw.trans ?_)
      rw [if_neg (by simpa [frozen] using placed), full]
    · exact coreBecomes_of_status hat hy (thaw.trans (if_pos unfit))
    · rw [destroy, if_neg (by simp [live, idle, unnamed])]
    · exact coreBecomes_of_status hat hy (destroy.trans (if_pos busy))
  case create =>
    intro device hq hz
    subst hz hy
    have work {st made} := exec_treeCreate (d := d) (a := a) (st := st) (made := made) hat device hq
    refine ⟨fun bad => work (createTree_of_no_block bad), fun w block hh => ?_⟩
    subst hh
    refine ⟨fun live => work (createTree_of_live_handle block live), fun free bad => work (createTree_of_no_members block free bad),
      fun l ws free few hl hws => ?_⟩
    have members := createTree_of_members block free few hl hws
    refine ⟨fun bad => ?_, fun sound => ?_⟩
    · rw [bad] at members
      exact work members
    · rw [sound] at members
      exact work members

end Sys2Proof.Execution
end

section
/-! SUPPORT. An instruction of an agent core: the core in turn, its guard and its level, what its accesses leave alone; loads, stores and
fences (13 R250 to R253, 23 R377, R386, R387). -/
namespace Sys2Proof.Execution
open Machine Claims

/-! ### The core in turn -/

section InTurn
variable {s : State} {c : Nat} (hat : AtCore s c)
include hat

theorem coreId_atCore : s.coreId = c := State.coreId_agent s c hat

theorem onMe_atCore (f : AgentCore → AgentCore) : s.onMe f = s.setCore c (f (s.core c)) := by
  rw [State.onMe, me_atCore hat, coreId_atCore hat]

theorem atCore_setCore (d : Nat) (x : AgentCore) : AtCore (s.setCore d x) c := hat

theorem atCore_onMe (f : AgentCore → AgentCore) : AtCore (s.onMe f) c := hat

theorem atCore_setPkg (p : Nat) (x : Pkg) : AtCore (s.setPkg p x) c := hat

theorem atCore_devWrite (a : Nat) (bs : List PByte) : AtCore (s.devWrite a bs) c := hat

theorem atCore_cacheLine (a : Nat) : AtCore (s.cacheLine a) c := by
  unfold State.cacheLine
  split
  · exact hat
  · exact hat

theorem atCore_beforeLoad (cls a n : Nat) : AtCore (s.beforeLoad c cls a n) c := atCore_flush hat _

/-- An exception of the core in turn changes that core alone (R380). -/
theorem exception_atCore (cause at_ : Nat) :
    s.exception cause at_ = s.setCore c ((s.core c).takeException cause (s.core c).pc (BitVec.ofNat 64 at_)) :=
  onMe_atCore hat _

theorem finish_atCore (d : Nat) (v : Word) : s.finish d v = s.setCore c (((s.core c).setReg d v).advance) := onMe_atCore hat _

/-- A guarded instruction whose guard holds does its work (R113). -/
theorem guarded_of_true {g n : Nat} (true_guard : (s.core c).guard g n = true) (k : State → Outcome) : s.guarded g n k = k s :=
  if_pos (me_atCore hat ▸ true_guard)

/-- One whose guard is false goes on (R113). -/
theorem guarded_of_false {g n : Nat} (false_guard : (s.core c).guard g n = false) (k : State → Outcome) :
    s.guarded g n k = .next (s.setCore c (s.core c).advance) := by
  rw [State.guarded, me_atCore hat, false_guard, onMe_atCore hat]
  rfl

/-- An instruction of device level at host level is the privilege exception (R379). -/
theorem deviceLevel_of_host (host : (s.core c).lv ≠ 1) (k : State → Outcome) : s.deviceLevel k = .next (s.exception 2 0) :=
  if_neg (me_atCore hat ▸ host)

end InTurn

/-! ### What a store leaves alone (R251, R377) -/

theorem look_dropKey_ne {α : Type} (d : α) (t : Tbl α) {n m : Nat} (other : m ≠ n) : look d (dropKey t n) m = look d t m := by
  induction t with
  | nil => rfl
  | cons e r ih =>
    obtain ⟨k, v⟩ := e
    simp only [dropKey]
    split
    · rfl
    · split
      · subst_vars
        simp only [look, if_neg other]
      · simp only [look, ih]

theorem readByte_writeByte_ne (m : List Host.Cell) {a b : Nat} (v : Byte) (other : b ≠ a) : readByte (writeByte m a v) b = readByte m b := by
  unfold readByte writeByte put
  split
  · exact look_dropKey_ne emptyByte m other
  · rw [look_setKey, if_neg other]

/-- Bytes outside those written read as before, in any table. -/
theorem readByte_writeBytes_outside (m : List Host.Cell) (a b : Nat) (bs : List Byte) (outside : ¬(a ≤ b ∧ b < a + bs.length)) :
    readByte (writeBytes m a bs) b = readByte m b := by
  induction bs generalizing m a with
  | nil => rfl
  | cons v bs ih =>
    rw [List.length_cons] at outside
    rw [writeBytes, ih _ _ (by omega)]
    by_cases first : b = a
    · omega
    · exact readByte_writeByte_ne m v first

theorem leBytes_length (n x : Nat) : (leBytes n x).length = n := by
  induction n generalizing x with
  | zero => rfl
  | succ n ih => rw [leBytes, List.length_cons, ih]

theorem pbytes_length (n x : Nat) (p : Bool) : (pbytes n x p).length = n := by rw [pbytes, List.length_map, leBytes_length]

/-- Two states of which one core alone may differ, and that core not in its registers nor in bytes of its SRAM outside n bytes
from an address, when those are in SRAM. -/
structure OnlyStored (s u : State) (c at_ n : Nat) : Prop where
  dev : u.dev = s.dev
  sys : u.sys = s.sys
  marks : u.devPoison = s.devPoison
  sram : ∀ b, ¬(at_ / 2 ^ 46 = 2 ∧ at_ % 2 ^ 16 ≤ b ∧ b < at_ % 2 ^ 16 + n) → readByte (u.core c).sram b = readByte (s.core c).sram b
  regs : ∀ r, (u.core c).reg r = (s.core c).reg r
  others : ∀ c', c' ≠ c → u.core c' = s.core c'

/-- A change of the core that keeps its SRAM and its registers. -/
theorem onlyStored_of_setCore (s : State) (c at_ n : Nat) {y : AgentCore} (sram : y.sram = (s.core c).sram) (regs : y.s = (s.core c).s) :
    OnlyStored s (s.setCore c y) c at_ n where
  dev := rfl
  sys := rfl
  marks := rfl
  sram b _ := by rw [State.core_setCore_same, sram]
  regs r := by rw [State.core_setCore_same, AgentCore.reg, AgentCore.reg, regs]
  others c' other := by rw [State.core_setCore, if_neg other]

theorem OnlyStored.trans {s u v : State} {c at_ n : Nat} (first : OnlyStored s u c at_ n) (second : OnlyStored u v c at_ n) :
    OnlyStored s v c at_ n where
  dev := second.dev.trans first.dev
  sys := second.sys.trans first.sys
  marks := second.marks.trans first.marks
  sram b outside := (second.sram b outside).trans (first.sram b outside)
  regs r := (second.regs r).trans (first.regs r)
  others c' other := (second.others c' other).trans (first.others c' other)

theorem agentStore_of_sram {s : State} {c cls at_ : Nat} (private_ : at_ / 2 ^ 46 = 2) (bs : List PByte) :
    s.agentStore c cls at_ bs = s.setCore c { s.core c with
      sram := writeBytes (s.core c).sram (at_ % 2 ^ 16) (bs.map (·.b))
      sramPoison := markBytes (s.core c).sramPoison (at_ % 2 ^ 16) bs } := by
  rw [State.agentStore, if_pos private_, State.agentWrite, private_]
  rfl

theorem agentStore_of_shared {s : State} {c cls at_ : Nat} (shared : at_ / 2 ^ 46 ≠ 2) (bs : List PByte) :
    s.agentStore c cls at_ bs
      = s.setCore c { s.core c with stores := (s.core c).stores ++ [{ cls := cls, addr := at_, bytes := bs }] } := if_neg shared

theorem onlyStored_agentStore (s : State) (c cls at_ : Nat) (bs : List PByte) :
    OnlyStored s (s.agentStore c cls at_ bs) c at_ bs.length := by
  by_cases private_ : at_ / 2 ^ 46 = 2
  · rw [agentStore_of_sram private_]
    exact {
      dev := rfl
      sys := rfl
      marks := rfl
      sram := fun b outside => by
        rw [State.core_setCore_same]
        refine readByte_writeBytes_outside _ _ _ _ ?_
        rw [List.length_map]
        exact fun inside => outside ⟨private_, inside⟩
      regs := fun r => by
        rw [State.core_setCore_same]
        rfl
      others := fun c' other => by rw [State.core_setCore, if_neg other] }
  · rw [agentStore_of_shared private_]
    exact onlyStored_of_setCore s c at_ _ rfl rfl

theorem onlyStored_cacheLine {s : State} {c : Nat} (hat : AtCore s c) (a at_ n : Nat) : OnlyStored s (s.cacheLine a) c at_ n := by
  unfold State.cacheLine
  split
  · rw [onMe_atCore hat]
    exact onlyStored_of_setCore s c at_ n rfl rfl
  · exact ⟨rfl, rfl, rfl, fun _ _ => rfl, fun _ => rfl, fun _ _ => rfl⟩

theorem atCore_agentStore {s : State} {c : Nat} (hat : AtCore s c) (cls at_ : Nat) (bs : List PByte) :
    AtCore (s.agentStore c cls at_ bs) c := by
  unfold State.agentStore
  split
  · exact (agentWrite_cur ..).trans hat
  · exact hat

section Access
variable {s q u : State} {c cls at_ n d a b z off scope w : Nat} (hat : AtCore s c)
include hat

/-- STS within reach puts its store behind the core's others, or performs it in SRAM (R377). -/
theorem exec_sts_of_reach (reach : s.spaceOk (s.core c).lv (s.core c).afunc (agentAddr ((s.core c).reg a) z off) (accessSize z) = true) :
    exec (.stsAgent d a z cls off) s = .next (((s.agentStore c cls (agentAddr ((s.core c).reg a) z off)
      (pbytes (accessSize z) ((s.core c).reg d).toNat false)).cacheLine (agentAddr ((s.core c).reg a) z off)).onMe (·.advance)) := by
  show execStsAgent d a z cls off s = _
  rw [execStsAgent, me_atCore hat, coreId_atCore hat]
  exact if_pos reach

/-- STS out of reach is an access exception (R379). -/
theorem exec_sts_of_out (out : s.spaceOk (s.core c).lv (s.core c).afunc (agentAddr ((s.core c).reg a) z off) (accessSize z) = false) :
    exec (.stsAgent d a z cls off) s = .next (s.exception 3 (agentAddr ((s.core c).reg a) z off)) := by
  show execStsAgent d a z cls off s = _
  rw [execStsAgent, me_atCore hat]
  exact if_neg (by rw [out]; nofun)

/-- STS changes its core alone: no register of it, and of its SRAM the bytes that the store meets. -/
theorem onlyStored_sts (hu : exec (.stsAgent d a z cls off) s = .next u) :
    OnlyStored s u c (agentAddr ((s.core c).reg a) z off) (accessSize z) := by
  cases reach : s.spaceOk (s.core c).lv (s.core c).afunc (agentAddr ((s.core c).reg a) z off) (accessSize z) with
  | true =>
    rw [exec_sts_of_reach hat reach] at hu
    obtain rfl : _ = u := Host.Outcome.next.inj hu
    have store := onlyStored_agentStore s c cls (agentAddr ((s.core c).reg a) z off)
      (pbytes (accessSize z) ((s.core c).reg d).toNat false)
    rw [pbytes_length] at store
    have stored := atCore_agentStore hat cls (agentAddr ((s.core c).reg a) z off)
      (pbytes (accessSize z) ((s.core c).reg d).toNat false)
    rw [onMe_atCore (atCore_cacheLine stored _)]
    exact (store.trans (onlyStored_cacheLine stored _ _ _)).trans (onlyStored_of_setCore _ c _ _ rfl rfl)
  | false =>
    rw [exec_sts_of_out hat reach, exception_atCore hat] at hu
    obtain rfl : _ = u := Host.Outcome.next.inj hu
    exact onlyStored_of_setCore s c _ _ rfl rfl

end Access

/-- Settles O44: within reach or not, STS changes its core and nothing else, and of the core's SRAM what it meets. -/
theorem agentStoreFrame : Obligations.AgentStoreFrame := by
  intro s u c d a z cls off n at_ hat hat_ hn hu
  subst hat_ hn
  obtain ⟨dev, sys, marks, sram, regs, others⟩ := onlyStored_sts hat hu
  exact ⟨dev, sys, marks, sram, regs, others⟩

/-! ### Loads, stores, fences (R252, R253, R377, R386, R387) -/

section Load
variable {s q : State} {c cls at_ n : Nat} {k : State → Nat → State} (hat : AtCore s c)
include hat

/-- A load out of reach is an access exception (R379). -/
theorem agentLoad_of_out (out : s.spaceOk (s.core c).lv (s.core c).afunc at_ n = false) : s.agentLoad cls at_ n k = s.exception 3 at_ := by
  rw [State.agentLoad, me_atCore hat]
  exact if_neg (by rw [out]; nofun)

variable (reach : s.spaceOk (s.core c).lv (s.core c).afunc at_ n = true) (hq : q = (s.beforeLoad c cls at_ n).cacheLine at_)
include reach hq

/-- A load within reach performs the stores that must come first, and poison is an exception (R250, R251, R379). -/
theorem agentLoad_of_reach : s.agentLoad cls at_ n k
    = if anyPoison (q.agentRead c at_ n) = true then (q.noteAgent at_ n).exception 5 at_ else k q (pval (q.agentRead c at_ n)) := by
  have turn : q.coreId = c := by rw [hq, coreId_atCore (atCore_cacheLine (atCore_beforeLoad hat cls at_ n) at_)]
  subst hq
  simp only [State.agentLoad, me_atCore hat, coreId_atCore hat, turn]
  exact if_pos reach

theorem agentLoad_of_clean (unpoisoned : anyPoison (q.agentRead c at_ n) = false) :
    s.agentLoad cls at_ n k = k q (pval (q.agentRead c at_ n)) := by
  rw [agentLoad_of_reach hat reach hq, unpoisoned, if_neg nofun]

theorem agentLoad_of_poison (poisoned : anyPoison (q.agentRead c at_ n) = true) :
    s.agentLoad cls at_ n k = (q.noteAgent at_ n).exception 5 at_ := by
  rw [agentLoad_of_reach hat reach hq, if_pos poisoned]

end Load

section Exec
variable {s q : State} {c cls d a b z off scope w : Nat} (hat : AtCore s c)
include hat

theorem exec_lds : exec (.ldsAgent d a z cls off) s = .next (s.agentLoad cls (agentAddr ((s.core c).reg a) z off) (accessSize z)
    (fun q v => q.finish d (extendLoad z v))) := by
  show execLdsAgent d a z cls off s = _
  rw [execLdsAgent, me_atCore hat]

/-- LDA loads when it is aligned (R386). -/
theorem exec_lda_of_aligned (aligned : ((s.core c).reg a).toNat % orderedSize w = 0) : exec (.lda d a cls scope w) s
    = .next (s.agentLoad cls ((s.core c).reg a).toNat (orderedSize w) (fun q v => q.finish d (BitVec.ofNat 64 v))) := by
  show execLda d a cls scope w s = _
  rw [execLda, me_atCore hat]
  exact congrArg Host.Outcome.next (if_pos aligned)

/-- Misaligned or out of reach, LDA is an access exception (R379). -/
theorem exec_lda_of_bad (bad : ((s.core c).reg a).toNat % orderedSize w ≠ 0
      ∨ s.spaceOk (s.core c).lv (s.core c).afunc ((s.core c).reg a).toNat (orderedSize w) = false) :
    exec (.lda d a cls scope w) s = .next (s.exception 3 ((s.core c).reg a).toNat) := by
  by_cases aligned : ((s.core c).reg a).toNat % orderedSize w = 0
  · rw [exec_lda_of_aligned hat aligned, agentLoad_of_out hat (bad.resolve_left (not_not_intro aligned))]
  · show execLda d a cls scope w s = _
    rw [execLda, me_atCore hat]
    exact congrArg Host.Outcome.next (if_neg aligned)

/-- STL, aligned and within reach, stores behind the core's others, which perform first above agent scope (R252, R253, R387). -/
theorem exec_stl_of_reach (aligned : ((s.core c).reg a).toNat % orderedSize w = 0)
    (reach : s.spaceOk (s.core c).lv (s.core c).afunc ((s.core c).reg a).toNat (orderedSize w) = true)
    (hq : q = if scope = 0 then s else s.flush c (fun _ => true)) : exec (.stl a b cls scope w) s
      = .next (((q.agentStore c cls ((s.core c).reg a).toNat (pbytes (orderedSize w) ((s.core c).reg b).toNat false)).cacheLine
        ((s.core c).reg a).toNat).onMe (·.advance)) := by
  show execStl a b cls scope w s = _
  subst hq
  rw [execStl, me_atCore hat, coreId_atCore hat]
  exact if_pos ⟨aligned, reach⟩

/-- Misaligned or out of reach, STL is an access exception (R379). -/
theorem exec_stl_of_bad (bad : ((s.core c).reg a).toNat % orderedSize w ≠ 0
      ∨ s.spaceOk (s.core c).lv (s.core c).afunc ((s.core c).reg a).toNat (orderedSize w) = false) :
    exec (.stl a b cls scope w) s = .next (s.exception 3 ((s.core c).reg a).toNat) := by
  show execStl a b cls scope w s = _
  rw [execStl, me_atCore hat]
  refine if_neg fun ok => ?_
  exact bad.elim (fun misaligned => misaligned ok.1) (fun out => by rw [out] at ok; exact Bool.false_ne_true ok.2)

end Exec

/-- Settles O43: a load asks for reach and then for poison, a store for reach, the ordered ones for alignment too. -/
theorem agentLoadsAndStores : Obligations.AgentLoadsAndStores := by
  intro s q c d a b z cls off scope w m n at_ y hat hy
  subst hy
  refine ⟨?unordered, ?ordered, ?fence, ?fenceAgent, ?store⟩
  case unordered =>
    intro hat_ hn
    subst hat_ hn
    refine ⟨fun reach hq => ⟨fun unpoisoned => ?_, fun poisoned => ?_⟩, exec_sts_of_reach hat, fun out => ⟨?_, exec_sts_of_out hat out⟩⟩
    · rw [exec_lds hat, agentLoad_of_clean hat reach hq unpoisoned]
    · rw [exec_lds hat, agentLoad_of_poison hat reach hq poisoned]
    · rw [exec_lds hat, agentLoad_of_out hat out]
  case ordered =>
    intro hat_ hn
    obtain rfl : n = orderedSize w := hn
    subst hat_
    refine ⟨fun aligned reach hq => ⟨fun unpoisoned => ?_, fun poisoned => ?_⟩, exec_stl_of_reach hat,
      fun bad => ⟨exec_lda_of_bad hat bad, exec_stl_of_bad hat bad⟩⟩
    · rw [exec_lda_of_aligned hat aligned, agentLoad_of_clean hat reach hq unpoisoned]
    · rw [exec_lda_of_aligned hat aligned, agentLoad_of_poison hat reach hq poisoned]
  case fence =>
    intro above
    show execFence m scope s = _
    rw [execFence, if_neg above, coreId_atCore hat]
  case fenceAgent => rfl
  case store => exact fun bs => ⟨fun shared => agentStore_of_shared shared bs, fun private_ => agentStore_of_sram private_ bs⟩

end Sys2Proof.Execution
end

section
/-! SUPPORT. The atomics of an agent core on device memory and on barrier records (13 R263, 23 R388). -/
namespace Sys2Proof.Execution
open Machine Claims

/-! ### AMO of a word and of a record -/

/-- The bytes that an AMO of a number reads: a word, or a barrier record (R388). -/
def atomicSize (op : Nat) : Nat := if 11 ≤ op then 16 else 8

/-- An aligned address of device memory within reach is none of what makes an AMO an access exception. -/
theorem not_bad_of_reach {at_ n : Nat} {reaches : Bool} (inside : at_ / 2 ^ 46 = 0) (aligned : at_ % n = 0) (reach : reaches = true) :
    ¬(at_ % n ≠ 0 ∨ at_ / 2 ^ 46 ≠ 0 ∨ reaches = false) := by
  rintro (misaligned | outside | out)
  · exact misaligned aligned
  · exact outside inside
  · exact Bool.false_ne_true (out.symm.trans reach)

/-- What CAS is as an atomic of a word: it writes its operand when the old value is the one it expects (R288). -/
theorem atomValue_cas (old : Nat) (b d : Word) : atomValue 9 8 old b.toNat d.toNat = (b.toNat, 0, old == d.toNat) := by
  show (b.toNat % 2 ^ 64, 0, old == d.toNat % 2 ^ 64) = _
  rw [Nat.mod_eq_of_lt b.isLt, Nat.mod_eq_of_lt d.isLt]

section Atomic
variable {s q : State} {c d a b cls at_ op : Nat} (hat : AtCore s c) (hat_ : at_ = ((s.core c).reg a).toNat)
include hat hat_

/-- Misaligned, outside device memory or out of reach, an AMO is an access exception (R379). -/
theorem agentAtomic_of_bad (bad : at_ / 2 ^ 46 ≠ 0 ∨ at_ % atomicSize op ≠ 0
      ∨ s.spaceOk (s.core c).lv (s.core c).afunc at_ (atomicSize op) = false) :
    s.agentAtomic op d a b cls = .next (s.exception 3 at_) := by
  subst hat_
  rw [State.agentAtomic, me_atCore hat]
  exact if_pos (bad.elim (fun outside => .inr (.inl outside)) (fun rest => rest.elim .inl (fun out => .inr (.inr out))))

variable (inside : at_ / 2 ^ 46 = 0) (aligned : at_ % atomicSize op = 0)
  (reach : s.spaceOk (s.core c).lv (s.core c).afunc at_ (atomicSize op) = true)
include inside aligned reach

/-- A poisoned old value or record is an exception (R379). -/
theorem agentAtomic_of_poison (hq : q = if op = 11 then s.flush c (fun _ => true) else s.beforeLoad c cls at_ (atomicSize op))
    (poisoned : anyPoison (q.devRead at_ (atomicSize op)) = true) :
    s.agentAtomic op d a b cls = .next ((q.noteAgent at_ (atomicSize op)).exception 5 at_) := by
  subst hat_ hq
  rw [State.agentAtomic, me_atCore hat, coreId_atCore hat]
  exact (if_neg (not_bad_of_reach inside aligned reach)).trans (if_pos poisoned)

/-- An AMO of a word returns the old value and leaves the value of its operation, when it writes one. -/
theorem agentAtomic_of_word (word : op < 11) (hq : q = s.beforeLoad c cls at_ 8) (unpoisoned : anyPoison (q.devRead at_ 8) = false)
    {v f : Nat} {writes : Bool}
    (hv : atomValue op 8 (pval (q.devRead at_ 8)) ((s.core c).reg b).toNat ((s.core c).reg d).toNat = (v, f, writes)) :
    s.agentAtomic op d a b cls = .next ((if writes = true then q.devWrite at_ (pbytes 8 v false) else q).finish d
      (BitVec.ofNat 64 (pval (q.devRead at_ 8)))) := by
  have size : atomicSize op = 8 := if_neg (Nat.not_le.mpr word)
  rw [size] at aligned reach
  subst hat_ hq
  simp only [State.agentAtomic, me_atCore hat, coreId_atCore hat, if_neg (Nat.not_le.mpr word), if_neg (Nat.ne_of_lt word), hv]
  rw [if_neg (not_bad_of_reach inside aligned reach), if_neg (by rw [unpoisoned]; nofun)]

/-- An AMO of a barrier record returns its generation and whether it was refused (R388). -/
theorem agentAtomic_of_record (record : 11 ≤ op)
    (hq : q = if op = 11 then s.flush c (fun _ => true) else s.beforeLoad c cls at_ 16)
    (unpoisoned : anyPoison (q.devRead at_ 16) = false) {r : State × Barrier × Bool}
    (hr : q.barrierAt (rawLoc at_) (if op = 11 then 2 else 0) (((s.core c).reg b).toNat % 2 ^ 32) false = r) :
    s.agentAtomic op d a b cls
      = .next (r.1.finish d (BitVec.ofNat 64 (r.2.1.gen + (if r.2.2 then 2 ^ 32 else 0)))) := by
  have size : atomicSize op = 16 := if_pos record
  rw [size] at aligned reach
  subst hat_ hq hr
  simp only [State.agentAtomic, me_atCore hat, coreId_atCore hat, if_pos record]
  rw [if_neg (not_bad_of_reach inside aligned reach)]
  exact if_neg (by rw [← Bool.not_eq_true] at unpoisoned; exact unpoisoned)

end Atomic

/-- A barrier update that a record takes writes what it becomes (R263). -/
theorem barrierAt_of_some {q : State} {at_ kind n : Nat} {v : Barrier} (unpoisoned : anyPoison (q.devRead at_ 16) = false)
    (hv : (Barrier.ofNat (pval (q.devRead at_ 16))).update kind n = some v) :
    q.barrierAt (rawLoc at_) kind n false = (q.devWrite at_ (pbytes 16 v.toNat false), v, false) := by
  have read : q.locRead (rawLoc at_) 16 = q.devRead at_ 16 := rfl
  simp only [State.barrierAt, read, unpoisoned, hv]
  rfl

/-- One that it refuses changes nothing (R263). -/
theorem barrierAt_of_none {q : State} {at_ kind n : Nat} (unpoisoned : anyPoison (q.devRead at_ 16) = false)
    (hv : (Barrier.ofNat (pval (q.devRead at_ 16))).update kind n = none) :
    q.barrierAt (rawLoc at_) kind n false = (q, Barrier.ofNat (pval (q.devRead at_ 16)), true) := by
  have read : q.locRead (rawLoc at_) 16 = q.devRead at_ 16 := rfl
  simp only [State.barrierAt, read, unpoisoned, hv]
  rfl

/-- The AMO of a register that adds to a record or arrives at it: its number, its kind of update, the state in which it performs. -/
def IsRecordAmo (s q : State) (c d a b cls at_ : Nat) (i : Instr) (kind op : Nat) : Prop :=
  exec i s = s.agentAtomic op d a b cls ∧ 11 ≤ op ∧ kind = (if op = 11 then 2 else 0)
    ∧ q = if op = 11 then s.flush c (fun _ => true) else s.beforeLoad c cls at_ 16

theorem isRecordAmo_of_cases {s q : State} {c d a b cls at_ kind : Nat} {i : Instr}
    (h : (i = .amoArv d a b cls ∧ kind = 2 ∧ q = s.flush c (fun _ => true))
      ∨ (i = .amoBreg d a b cls ∧ kind = 0 ∧ q = s.beforeLoad c cls at_ 16)) :
    ∃ op, IsRecordAmo s q c d a b cls at_ i kind op := by
  rcases h with ⟨rfl, rfl, rfl⟩ | ⟨rfl, rfl, rfl⟩
  · exact ⟨11, rfl, by decide, rfl, rfl⟩
  · exact ⟨12, rfl, by decide, rfl, rfl⟩

/-- Settles O45: an AMO is split by its access, then by poison; CAS by what it compares, a record by what the update answers. -/
theorem agentAtomics : Obligations.AgentAtomics := by
  intro s q c d a b cls at_ y hat hy hat_
  subst hy
  refine ⟨?word, ?record, ?badWord, ?badRecord, ?update⟩
  case word =>
    intro old inside aligned reach hq hold
    rw [hold]
    have rows {op : Nat} (word : op < 11) (size : atomicSize op = 8) {v f : Nat} {w : Bool} (unpoisoned) (hv) :=
      agentAtomic_of_word (d := d) (b := b) (op := op) (v := v) (f := f) (writes := w) hat hat_ inside (size ▸ aligned)
        (size ▸ reach) word hq unpoisoned hv
    have poison {op : Nat} (word : op ≠ 11) (size : atomicSize op = 8) (poisoned : anyPoison (q.devRead at_ 8) = true) :
        s.agentAtomic op d a b cls = .next ((q.noteAgent at_ 8).exception 5 at_) := by
      have work := agentAtomic_of_poison (d := d) (b := b) (op := op) (q := q) hat hat_ inside (size ▸ aligned) (size ▸ reach)
        (by rw [if_neg word, size]; exact hq) (size ▸ poisoned)
      rwa [size] at work
    refine ⟨fun unpoisoned => ⟨?_, fun equal => ?_, fun differs => ?_⟩, fun poisoned => ⟨?_, ?_⟩⟩
    · simp only [amoRows, List.forall_mem_cons, List.not_mem_nil, false_implies, implies_true, and_true]
      exact ⟨rows (op := 0) (by decide) rfl unpoisoned rfl, rows (op := 1) (by decide) rfl unpoisoned rfl,
        rows (op := 2) (by decide) rfl unpoisoned rfl, rows (op := 8) (by decide) rfl unpoisoned rfl,
        rows (op := 7) (by decide) rfl unpoisoned rfl⟩
    · have cas := atomValue_cas (pval (q.devRead at_ 8)) ((s.core c).reg b) ((s.core c).reg d)
      rw [beq_iff_eq.mpr equal] at cas
      exact rows (op := 9) (by decide) rfl unpoisoned cas
    · have cas := atomValue_cas (pval (q.devRead at_ 8)) ((s.core c).reg b) ((s.core c).reg d)
      rw [beq_eq_false_iff_ne.mpr differs] at cas
      exact rows (op := 9) (by decide) rfl unpoisoned cas
    · simp only [amoRows, List.forall_mem_cons, List.not_mem_nil, false_implies, implies_true, and_true]
      exact ⟨poison (op := 0) (by decide) rfl poisoned, poison (op := 1) (by decide) rfl poisoned,
        poison (op := 2) (by decide) rfl poisoned, poison (op := 8) (by decide) rfl poisoned,
        poison (op := 7) (by decide) rfl poisoned⟩
    · exact poison (op := 9) (by decide) rfl poisoned
  case record =>
    intro i kind r inside aligned reach amo hr
    obtain ⟨op, exec_eq, record, rfl, hq⟩ := isRecordAmo_of_cases amo
    have size : atomicSize op = 16 := if_pos record
    subst hr
    refine ⟨fun v unpoisoned hv => ?_, fun unpoisoned hv => ?_, fun poisoned => ?_⟩
    · exact exec_eq.trans (agentAtomic_of_record hat hat_ inside (size ▸ aligned) (size ▸ reach) record hq unpoisoned
        (barrierAt_of_some unpoisoned hv))
    · exact exec_eq.trans (agentAtomic_of_record hat hat_ inside (size ▸ aligned) (size ▸ reach) record hq unpoisoned
        (barrierAt_of_none unpoisoned hv))
    · have work := agentAtomic_of_poison (d := d) (b := b) (op := op) (q := q) hat hat_ inside (size ▸ aligned) (size ▸ reach)
        (size ▸ hq) (size ▸ poisoned)
      rw [size] at work
      exact exec_eq.trans work
  case badWord =>
    intro bad
    have out {op : Nat} (size : atomicSize op = 8) := agentAtomic_of_bad (d := d) (b := b) (cls := cls) hat hat_ (size.symm ▸ bad)
    simp only [amoRows, List.forall_mem_cons, List.not_mem_nil, false_implies, implies_true, and_true]
    exact ⟨⟨out (op := 0) rfl, out (op := 1) rfl, out (op := 2) rfl, out (op := 8) rfl, out (op := 7) rfl⟩, out (op := 9) rfl⟩
  case badRecord =>
    exact fun bad => ⟨agentAtomic_of_bad (op := 11) hat hat_ bad, agentAtomic_of_bad (op := 12) hat hat_ bad⟩
  case update =>
    intro r v w n hw
    refine ⟨fun hv => ⟨fun fits => ?_, fun full => if_pos full⟩, fun hv => ⟨fun expects fits => ?_, fun refused => if_pos refused⟩⟩
    · subst hw hv
      exact if_neg (Nat.not_le.mpr fits)
    · subst hw hv
      exact if_neg (not_or.mpr ⟨expects, Nat.not_lt.mpr fits⟩)

end Sys2Proof.Execution
end

section
/-! SUPPORT. System calls, returns and the other exceptions of an agent core (23 R379 to R381). -/
namespace Sys2Proof.Execution
open Machine Claims

theorem exec_eret (s : State) : exec .eret s = s.deviceLevel (fun s => .next (s.onMe AgentCore.returnFrom)) := rfl

section Exception
variable {s : State} {c : Nat} (hat : AtCore s c)
include hat

/-- SCALL saves the address after its own and its code (R380). -/
theorem coreBecomes_scall (code : Nat) :
    CoreBecomes (.scall code) s c ((s.core c).takeException 4 ((s.core c).pc + 4) (BitVec.ofNat 64 code)) :=
  congrArg Host.Outcome.next (onMe_atCore hat _)

/-- ERET at device level goes back to where the exception was taken (R380). -/
theorem coreBecomes_eret (device : (s.core c).lv = 1) : CoreBecomes .eret s c (s.core c).returnFrom := by
  rw [CoreBecomes, exec_eret, deviceLevel_atCore hat device, onMe_atCore hat]

/-- An instruction of device level at host level takes the privilege exception (R379). -/
theorem coreBecomes_of_host {i : Instr} {k : State → Outcome} (hi : exec i s = s.deviceLevel k) (host : (s.core c).lv ≠ 1) :
    CoreBecomes i s c ((s.core c).takeException 2 (s.core c).pc 0) := by
  rw [CoreBecomes, hi, deviceLevel_of_host hat host, exception_atCore hat]
  rfl

end Exception

/-- Settles O48: each is the exception of its cause, or the return; the words are decoded by computation. -/
theorem systemCallAndReturn : Obligations.SystemCallAndReturn := by
  intro s c code y hat hy
  subst hy
  exact ⟨coreBecomes_scall hat code, coreBecomes_eret hat, coreBecomes_of_host hat (exec_eret s), exception_atCore hat, rfl, rfl⟩

end Sys2Proof.Execution
end

section
/-! SUPPORT. Waits, batches, copies, interrupts and records of an agent core (13 R254, R255, 23 R389 to R393, R399). -/
namespace Sys2Proof.Execution
open Machine Claims

/-! ### An instruction under its guard -/

section Guard
variable {s q : State} {c g n : Nat} {y : AgentCore}

theorem atCore_of_guarded (h : Guarded s c g n y) : AtCore s c := h.1

theorem core_of_guarded (h : Guarded s c g n y) : s.core c = y := h.2.1.symm

/-- An instruction whose guard holds does its work (R113). -/
theorem guarded_eq (h : Guarded s c g n y) (k : State → Outcome) : s.guarded g n k = k s := by
  obtain ⟨hat, rfl, true_guard⟩ := h
  exact guarded_of_true hat true_guard k

theorem coreBecomes_of_onMe {i : Instr} {f : AgentCore → AgentCore} (hat : AtCore s c) (hy : s.core c = y)
    (hi : exec i s = .next (s.onMe f)) : CoreBecomes i s c (f y) := by
  rw [CoreBecomes, hi, onMe_atCore hat, hy]

end Guard

/-! ### WAITA, WAITT, WAITB, BATCH.CLOSE, INTR (R389, R392, R393, R399) -/

section Waits
variable {s : State} {c d a b g n i : Nat} {y : AgentCore} (h : Guarded s c g n y)
include h

theorem exec_waita : exec (.waita d a b g n) s
    = if s.spaceOk y.lv y.afunc (alignDown (y.reg a).toNat 64) 64 = true then
        .next (s.onMe (fun x => { x with wait := some (.line (alignDown (y.reg a).toNat 64)
          (if (y.reg b).toNat = 0 then none else some (y.reg b).toNat) s.wall false d) }))
      else .next (s.exception 3 (y.reg a).toNat) := by
  show execWaita d a b g n s = _
  rw [execWaita, guarded_eq h, me_atCore (atCore_of_guarded h), core_of_guarded h]

/-- WAITT waits for an operation that its context has submitted (R254, R392). -/
theorem exec_waitt (hi : i = (y.reg a).toNat % 16) : exec (.waitt d a b g n) s
    = if s.ctxSub c i < (y.reg b).toNat then .next (s.status d 10)
      else .next (s.onMe (fun x => { x with wait := some (.timeline i (y.reg b).toNat d) })) := by
  show execWaitt d a b g n s = _
  rw [execWaitt, guarded_eq h, me_atCore (atCore_of_guarded h), core_of_guarded h, coreId_atCore (atCore_of_guarded h), hi]
  rfl

theorem exec_waitb (hi : i = (y.reg a).toNat % 16) : exec (.waitb d a b g n) s
    = if 14 ≤ i then .next (s.status d 8)
      else .next (s.onMe (fun x => { x with wait := some (.batches i (y.reg b).toNat d) })) := by
  show execWaitb d a b g n s = _
  rw [execWaitb, guarded_eq h, me_atCore (atCore_of_guarded h), core_of_guarded h, hi]
  rfl

/-- BATCH.CLOSE keeps the closed batches that are not complete and opens a new one (R255, R392). -/
theorem exec_batchClose (hi : i = (y.reg a).toNat % 16) : exec (.batchClose d a g n) s
    = if 14 ≤ i then .next (s.status d 8)
      else .next ((s.onMe (fun v => v.setCtx i { y.ctx i with
        openBatch := [], closed := (y.ctx i).closed.filter (y.ctx i).batchOpen ++ [(y.ctx i).openBatch] })).status d 0) := by
  show execBatchClose d a g n s = _
  rw [execBatchClose, guarded_eq h, me_atCore (atCore_of_guarded h), core_of_guarded h, hi]
  rfl

theorem exec_intr : exec (.intr a g n) s = .next ((s.emit 1 y.afunc [(y.reg a).toNat % 2048]).onMe (·.advance)) := by
  show execIntr a g n s = _
  rw [execIntr, guarded_eq h, me_atCore (atCore_of_guarded h), core_of_guarded h]
  rfl

end Waits

/-! ### COPY, CPLPOST (R390, R399) -/

section Copies
variable {s q : State} {c d a b g n i : Nat} {y z : AgentCore} (h : Guarded s c g n y) (hq : q = s.flush c (fun _ => true))
  (hz : z = q.core c)
include h hq

theorem atCore_of_flush : AtCore q c := hq ▸ atCore_flush (atCore_of_guarded h) _

theorem flushAll_atCore : s.flushAll s.coreId = q := by rw [State.flushAll, coreId_atCore (atCore_of_guarded h), hq]

include hz

theorem me_of_flush : q.me = z := by rw [me_atCore (atCore_of_flush h hq), hz]

/-- COPY performs the core's stores; its descriptor enters a context below 14 (R390). -/
theorem exec_copy (hi : i = (z.reg b).toNat % 16) : exec (.copy d a b g n) s
    = if 14 ≤ i then .next (q.status d 8)
      else match (q.agentBlock (z.reg a).toNat 1 32).bind (fun w => q.copyOf w ((z.ctx i).sub + 1)) with
        | none => q.badBlock d (z.reg a).toNat 32
        | some o => .next ((q.onMe (fun v => v.setCtx i ((z.ctx i).submit o))).finish d (BitVec.ofNat 64 (o.n * 2 ^ 32))) := by
  show execCopy d a b g n s = _
  simp only [execCopy, guarded_eq h, flushAll_atCore h hq, me_of_flush h hq hz, hi]
  rfl

/-- CPLPOST performs the core's stores and posts the bytes that it can read (R399). -/
theorem exec_cplpost {at_ : Nat} {bs : List PByte} (hat_ : at_ = (z.reg a).toNat) (hbs : bs = q.agentRead c at_ 32) :
    exec (.cplpost d a g n) s
      = .next (if q.spaceOk z.lv z.afunc at_ 32 = false then q.exception 3 at_
        else if anyPoison bs = true then q.exception 5 at_
        else (q.post none 0 0 (corePlace c) z.afunc
          { kind := 3, status := 0, id := 0, osig := 0, ltime := 0, wtime := 0, flags := 0, raw := some (bs.map (·.b)) }).status d 0) := by
  show execCplpost d a g n s = _
  simp only [execCplpost, guarded_eq h, flushAll_atCore h hq, me_of_flush h hq hz, coreId_atCore (atCore_of_flush h hq), hbs, hat_]
  rfl

end Copies

/-- What a descriptor that is not bad says of its operation (R390). -/
theorem copyOf_eq_some {q : State} {w : List Nat} {m : Nat} {op : CopyOp} (sound : q.copyOf w m = some op) :
    op.n = m ∧ op.dst = fieldOf w 0 8 ∧ op.src = fieldOf w 8 8 ∧ op.len = fieldOf w 0x10 4
      ∧ op.bar = (if bitAt (fieldOf w 0x14 1) 0 then some (fieldOf w 0x18 8) else none) ∧ op.arv = bitAt (fieldOf w 0x14 1) 1
      ∧ op.started = false ∧ op.at_ = 0 ∧ op.refused = false := by
  unfold State.copyOf at sound
  dsimp only at sound
  split at sound
  · cases sound
  · cases sound
    exact ⟨rfl, rfl, rfl, rfl, rfl, rfl, rfl, rfl, rfl⟩

/-- Settles O46: each instruction by its reach, its context or its block, in the order in which the model asks. -/
theorem agentWaitsAndCopies : Obligations.AgentWaitsAndCopies := by
  intro s q c d a b g n i y z x h
  have hat := atCore_of_guarded h
  have hy := core_of_guarded h
  refine ⟨?waita, ?contexts, exec_intr h, fun hq hz => ⟨?copy, ?cplpost⟩⟩
  case waita =>
    intro line hline
    subst hline
    exact ⟨fun reach => coreBecomes_of_onMe hat hy ((exec_waita h).trans (if_pos reach)),
      fun out => (exec_waita h).trans (if_neg (by rw [out]; nofun))⟩
  case contexts =>
    intro hi
    refine ⟨fun submitted => ?_, fun ahead => ?_, fun low => ?_, fun low hx => ?_, fun high => ⟨?_, ?_⟩⟩
    · exact coreBecomes_of_onMe hat hy ((exec_waitt h hi).trans (if_neg (Nat.not_lt.mpr submitted)))
    · exact coreBecomes_of_status hat hy.symm ((exec_waitt h hi).trans (if_pos ahead))
    · exact coreBecomes_of_onMe hat hy ((exec_waitb h hi).trans (if_neg (Nat.not_le.mpr low)))
    · subst hx
      rw [CoreBecomes, exec_batchClose h hi, if_neg (Nat.not_le.mpr low), onMe_atCore hat, hy, State.status,
        finish_atCore (atCore_setCore hat _ _), State.core_setCore_same, State.setCore_setCore]
      rfl
    · exact coreBecomes_of_status hat hy.symm ((exec_waitb h hi).trans (if_pos high))
    · exact coreBecomes_of_status hat hy.symm ((exec_batchClose h hi).trans (if_pos high))
  case copy =>
    intro hi hx
    subst hx
    refine ⟨fun w op low block sound => ⟨?_, copyOf_eq_some sound⟩, fun low bad => ?_, fun high => ?_⟩
    · rw [exec_copy h hq hz hi, if_neg (Nat.not_le.mpr low), block, Option.bind_some, sound]
      rfl
    · rw [exec_copy h hq hz hi, if_neg (Nat.not_le.mpr low), bad]
      rfl
    · exact (exec_copy h hq hz hi).trans (if_pos high)
  case cplpost =>
    intro at_ bs r hat_ hbs hr
    subst hr
    have work := exec_cplpost (d := d) h hq hz hat_ hbs
    refine ⟨fun reach unpoisoned => ?_, fun reach poisoned => ?_, fun out => ?_⟩
    · rw [work, reach, if_neg nofun, unpoisoned, if_neg nofun]
      rfl
    · rw [work, reach, if_neg nofun, if_pos poisoned]
    · rw [work, if_pos out]

end Sys2Proof.Execution
end

section
/-! SUPPORT. The instructions of an agent core that name a task: TASKQ, TKILL, TSTATUS and TPRE (01 R47, 23 R394 to R398). -/
namespace Sys2Proof.Execution
open Machine Claims

/-! ### TASKQ (R257, R395) -/

section Submission
variable {s q : State} {c d a g n : Nat} {y z : AgentCore} (h : Guarded s c g n y) (hq : q = s.flush c (fun _ => true))
  (hz : z = q.core c)
include h hq

/-- TASKQ without a verified configuration record is refused (R461). -/
theorem exec_taskq_of_unverified (unverified : q.cfg.verified = false) : exec (.taskq d a g n) s = .next (q.status d 8) := by
  show execTaskq d a g n s = _
  rw [execTaskq, guarded_eq h, flushAll_atCore h hq]
  exact if_pos unverified

variable (verified : q.cfg.verified = true)
include hz verified

theorem exec_taskq_of_bad (bad : (q.agentBlock (z.reg a).toNat 64 64).bind descOf = none) :
    exec (.taskq d a g n) s = .next ((q.noteAgent (z.reg a).toNat 64).status d 4) := by
  show execTaskq d a g n s = _
  simp only [execTaskq, guarded_eq h, flushAll_atCore h hq, me_of_flush h hq hz, verified, bad]
  rfl

/-- TASKQ of a sound descriptor submits the task as the next operation of context 14. -/
theorem exec_taskq_of_sound {t : TaskDesc} (sound : (q.agentBlock (z.reg a).toNat 64 64).bind descOf = some t) :
    exec (.taskq d a g n) s = .next (((q.onMe (fun w => w.setCtx 14 { z.ctx 14 with sub := (z.ctx 14).sub + 1 })).counted.submit z.afunc t c
      (c / 8) ((z.ctx 14).sub + 1) none).finish d (BitVec.ofNat 64 (q.nextTaskId z.afunc * 2 ^ 32))) := by
  show execTaskq d a g n s = _
  simp only [execTaskq, guarded_eq h, flushAll_atCore h hq, me_of_flush h hq hz, verified, sound, coreId_atCore (atCore_of_flush h hq)]
  rfl

end Submission

/-! ### A task of the core's function (R398) -/

/-- The status of an id that is no task, or another function's. -/
def foreignStatus (s : State) (id : Nat) : Nat := if s.task id = none then 1 else 5

section Own
variable {s : State} {c d id : Nat} {y : AgentCore} {k : Task → State} (hat : AtCore s c) (hy : s.core c = y)
include hat hy

/-- An id that is no task, or another function's, is answered with its status. -/
theorem onOwnTask_of_foreign (foreign : ∀ w, s.task id = some w → w.fn ≠ y.afunc) :
    s.onOwnTask d id k = s.status d (foreignStatus s id) := by
  unfold foreignStatus
  rw [State.onOwnTask, State.ownTask, me_atCore hat, hy]
  cases ht : s.task id with
  | none => rfl
  | some w =>
    simp only [if_neg (foreign w ht)]
    rfl

theorem onOwnTask_of_own {x : Task} (hx : s.task id = some x) (own : x.fn = y.afunc) : s.onOwnTask d id k = k x := by
  simp only [State.onOwnTask, State.ownTask, me_atCore hat, hy, hx, if_pos own]

end Own

theorem endStatus_eq_none_iff (x : Task) : x.endStatus = none ↔ ∀ v, x.st ≠ .ended v := by
  unfold Task.endStatus
  cases x.st <;> simp

/-- What TPRE with mode 3 answers for a task of its function. -/
def requeued (s : State) (d : Nat) (x : Task) : State :=
  if x.st = .parked then (s.requeue x).status d 0 else s.status d (if x.endStatus = none then 3 else 1)

section Named
variable {s : State} {c d a b g n : Nat} {y : AgentCore} (h : Guarded s c g n y)
include h

theorem exec_tkill : exec (.tkill d a g n) s = .next (s.onOwnTask d ((y.reg a).toNat % 2 ^ 32) (fun x =>
    if x.endStatus.isSome = true then s.status d 1 else (s.killTask x.id 1).status d 0)) := by
  show execTkill d a g n s = _
  rw [execTkill, guarded_eq h, me_atCore (atCore_of_guarded h), core_of_guarded h]
  rfl

theorem exec_tstatus : exec (.tstatus d a g n) s = .next (s.onOwnTask d ((y.reg a).toNat % 2 ^ 32) (fun x =>
    s.finish d (BitVec.ofNat 64 (x.st.code * 2 ^ 16 + x.endStatus.getD 0 * 2 ^ 32)))) := by
  show execTstatus d a g n s = _
  rw [execTstatus, guarded_eq h, me_atCore (atCore_of_guarded h), core_of_guarded h]

theorem exec_tpreRequeue : exec (.tpreRequeue d a b g n) s = .next (s.onOwnTask d ((y.reg a).toNat % 2 ^ 32) (requeued s d)) := by
  show execTpreRequeue d a b g n s = _
  rw [execTpreRequeue, guarded_eq h, me_atCore (atCore_of_guarded h), core_of_guarded h]
  refine congrArg (fun k => Host.Outcome.next (s.onOwnTask d _ k)) (funext fun x => ?_)
  unfold requeued Task.endStatus
  cases x.st <;> rfl

theorem exec_tpreCheckpoint : exec (.tpreCheckpoint d a b g n) s = .next (s.tprePark d a 2 State.askCheckpoint) := by
  show execTpreCheckpoint d a b g n s = _
  rw [execTpreCheckpoint, guarded_eq h]

/-- TPRE with mode 1; the reserved mode 0 is an exception (R379). -/
theorem exec_tpreDrain : exec (.tpreDrain d a b g n) s
    = .next (if (y.reg b).toNat % 4 = 0 then s.exception 1 0 else s.tprePark d a 1 State.askDrain) := by
  show execTpreDrain d a b g n s = _
  rw [execTpreDrain, guarded_eq h, me_atCore (atCore_of_guarded h), core_of_guarded h]

/-- TPRE with mode 1 or 2, by the policy bit that it needs: it acts on a task of its function. -/
theorem exec_tpre_of_mode {i : Instr} {bit : Nat}
    (mode : (i = .tpreCheckpoint d a b g n ∧ bit = 2) ∨ (i = .tpreDrain d a b g n ∧ bit = 1 ∧ (y.reg b).toNat % 4 ≠ 0)) :
    exec i s = .next (s.tprePark d a bit (if bit = 2 then State.askCheckpoint else State.askDrain)) := by
  rcases mode with ⟨rfl, rfl⟩ | ⟨rfl, rfl, drains⟩
  · exact exec_tpreCheckpoint h
  · exact (exec_tpreDrain h).trans (congrArg Host.Outcome.next (if_neg drains))

end Named

section Park
variable {s : State} {c d a bit : Nat} {y : AgentCore} {x : Task} {ask : State → Nat → Nat → State} (hat : AtCore s c) (hy : s.core c = y)
  (hx : s.task ((y.reg a).toNat % 2 ^ 32) = some x) (own : x.fn = y.afunc)
include hat hy hx own

/-- A task that waits for its dependences or in its queue is parked at once (R398). -/
theorem tprePark_of_waiting (waits : x.st = .waiting ∨ x.st = .queued) :
    s.tprePark d a bit ask = (s.onTask x.id (fun v => { v with st := .parked })).status d 0 := by
  rw [State.tprePark, me_atCore hat, hy, onOwnTask_of_own hat hy hx own]
  rcases waits with st | st <;> rw [st] <;> rfl

/-- One that runs or is held is asked to stop, when its policy permits it. -/
theorem tprePark_of_running (runs : x.st = .running ∨ x.st = .held) : s.tprePark d a bit ask
    = if bitAt x.desc.policy bit = true then
        (ask (({ s with tape := s.tape + 1 } : State).onTask x.id (fun v => { v with park := true })) x.id
          (Config.choice s.tape % 2 ^ 16)).status d 0
      else s.status d 8 := by
  rw [State.tprePark, me_atCore hat, hy, onOwnTask_of_own hat hy hx own]
  rcases runs with st | st <;> rw [st] <;> rfl

theorem tprePark_of_busy (busy : x.st = .parked ∨ x.st = .restoring ∨ ∃ u w, x.st = .saving u w) :
    s.tprePark d a bit ask = s.status d 3 := by
  rw [State.tprePark, me_atCore hat, hy, onOwnTask_of_own hat hy hx own]
  rcases busy with st | st | ⟨u, w, st⟩ <;> rw [st] <;> rfl

theorem tprePark_of_ended (ended : x.endStatus ≠ none) : s.tprePark d a bit ask = s.status d 1 := by
  obtain ⟨v, st⟩ : ∃ v, x.st = .ended v := by simpa [endStatus_eq_none_iff] using ended
  rw [State.tprePark, me_atCore hat, hy, onOwnTask_of_own hat hy hx own, st]
  rfl

end Park

/-! ### What TPRE asks a gang for (R405) -/

section Ask
variable {s : State} {id e : Nat} {w : Gang} {x : Task} (hw : s.gang id = some w)
include hw

theorem askDrain_of_idle (drain : w.drain = none) (holds : w.holds = []) :
    s.askDrain id e = s.onGang id (fun u => { u with drain := some (u.lcyc + u.horizon + e, 0) }) := by
  refine State.onGang_at s id w hw (if_neg ?_)
  simp [drain, holds, Gang.holdsFor, Gang.dueHolds]

variable (hx : s.task id = some x)
include hx

theorem askCheckpoint_of_held (holds : w.holds = []) (held : x.st = .held) : s.askCheckpoint id e = s.startSave id 2 := by
  simp only [State.askCheckpoint, hx, hw, if_pos held]
  exact if_neg (by simp [holds, Gang.holdsFor, Gang.dueHolds])

theorem askCheckpoint_of_running (holds : w.holds = []) (runs : x.st ≠ .held) :
    s.askCheckpoint id e = s.onGang id (fun u => { u.announceAt 2 (u.lcyc + u.horizon + e) 0 with drain := none }) := by
  simp only [State.askCheckpoint, hx, hw, if_neg runs]
  exact if_neg (by simp [holds])

end Ask

/-- Settles O47: a task is looked up by its id and function, then its state decides. -/
theorem taskControl : Obligations.TaskControl := by
  intro s q c d a b g n id y z x h
  have hat := atCore_of_guarded h
  have hy := core_of_guarded h
  refine ⟨?taskq, fun reserved => (exec_tpreDrain h).trans (congrArg Host.Outcome.next (if_pos reserved)), fun hid => ⟨?foreign, ?own⟩, ?ask⟩
  case taskq =>
    intro hq hz
    refine ⟨fun t v verified sound hv => ?_, exec_taskq_of_bad h hq hz, exec_taskq_of_unverified h hq⟩
    rw [hv, exec_taskq_of_sound h hq hz verified sound]
    rfl
  case foreign =>
    intro v i hv other hi
    have answers {k : Task → State} : s.onOwnTask d ((y.reg a).toNat % 2 ^ 32) k = s.status d (foreignStatus s id) :=
      hid ▸ onOwnTask_of_foreign hat hy other
    have value : v = BitVec.ofNat 64 (foreignStatus s id) := by
      rw [hv, foreignStatus]
      split <;> rfl
    rw [value]
    refine coreBecomes_of_status hat hy.symm ?_
    simp only [List.mem_cons, List.not_mem_nil, or_false] at hi
    rcases hi with (rfl | rfl | rfl | rfl) | ⟨rfl, drains⟩
    · rw [exec_tkill h, answers]
    · rw [exec_tstatus h, answers]
    · rw [exec_tpreCheckpoint h, State.tprePark, me_atCore hat, hy, answers]
    · rw [exec_tpreRequeue h, answers]
    · rw [exec_tpreDrain h, if_neg drains, State.tprePark, me_atCore hat, hy, answers]
  case own =>
    intro hx own
    rw [hid] at hx
    refine ⟨?_, fun live => ?_, fun ended => ?_, fun parked => ?_, fun unparked => ?_, fun i bit mode => ?_⟩
    · rw [CoreBecomes, exec_tstatus h, onOwnTask_of_own hat hy hx own, finish_atCore hat, hy]
    · rw [exec_tkill h, onOwnTask_of_own hat hy hx own, live]
      rfl
    · refine coreBecomes_of_status hat hy.symm ?_
      rw [exec_tkill h, onOwnTask_of_own hat hy hx own, if_pos (Option.isSome_iff_ne_none.mpr ended)]
    · rw [exec_tpreRequeue h, onOwnTask_of_own hat hy hx own, requeued, if_pos parked]
    · have value : (if x.endStatus = none then 3 else 1 : Word) = BitVec.ofNat 64 (if x.endStatus = none then 3 else 1) := by split <;> rfl
      rw [value]
      refine coreBecomes_of_status hat hy.symm ?_
      rw [exec_tpreRequeue h, onOwnTask_of_own hat hy hx own, requeued, if_neg unparked]
    · have work := exec_tpre_of_mode h mode
      refine ⟨fun waits => ?_, fun runs permits e he hq => ?_, fun runs forbids => ?_, fun busy => ?_, fun ended => ?_⟩
      · rw [work, tprePark_of_waiting hat hy hx own waits]
      · rw [work, tprePark_of_running hat hy hx own runs, if_pos permits, he, hq]
        split <;> rfl
      · refine coreBecomes_of_status hat hy.symm ?_
        rw [work, tprePark_of_running hat hy hx own runs, forbids, if_neg nofun]
      · exact coreBecomes_of_status hat hy.symm (work.trans (congrArg Host.Outcome.next (tprePark_of_busy hat hy hx own busy)))
      · exact coreBecomes_of_status hat hy.symm (work.trans (congrArg Host.Outcome.next (tprePark_of_ended hat hy hx own ended)))
  case ask =>
    exact fun w e hx hw drain holds => ⟨askDrain_of_idle hw drain holds, askCheckpoint_of_running hw hx holds,
      askCheckpoint_of_held hw hx holds⟩

end Sys2Proof.Execution
end

section
/-! SUPPORT. The control and status registers of an agent core: which there are, what CSRR reads, what CSRW writes; the reset state
(23 R382 to R385). -/
namespace Sys2Proof.Execution
open Machine Claims

/-! ### Which registers there are (R383) -/

theorem mem_upFrom_of_bounds {lo n x : Nat} (low : lo ≤ x) (high : x < lo + n) : x ∈ upFrom lo n := by
  induction n generalizing lo with
  | zero => omega
  | succ n ih =>
    rw [upFrom, List.mem_cons]
    by_cases first : x = lo
    · exact .inl first
    · exact .inr (ih (by omega) (by omega))

/-- The table of R383, number by number, against the tests of the model. -/
theorem csrTable_rows : ∀ e ∈ csrTable, ∀ r ∈ upFrom e.1 (e.2.1 + 1 - e.1),
    csrDefined r = true ∧ csrReadOnly r = e.2.2.1 ∧ csrDevice r = e.2.2.2 := by decide +kernel

theorem csrTable_complete {r : Nat} (low : r < 0x800) (defined : csrDefined r = true) : ∃ e ∈ csrTable, e.1 ≤ r ∧ r ≤ e.2.1 := by
  simp only [csrDefined, Bool.or_eq_true, Bool.and_eq_true, decide_eq_true_eq, beq_iff_eq] at defined
  simp only [csrTable, List.exists_mem_cons_iff, List.not_mem_nil, false_and, exists_false, or_false]
  omega

/-- What a register of R383 is to the tests of the model. -/
theorem csr_of_isCsr {r : Nat} {ro dev : Bool} (h : IsCsr r ro dev) :
    csrDefined r = true ∧ csrReadOnly r = ro ∧ csrDevice r = dev := by
  rcases h with ⟨e, he, low, high, rfl, rfl⟩ | ⟨low, high, defined, hro, rfl⟩
  · exact csrTable_rows e he r (mem_upFrom_of_bounds low (by omega))
  · refine ⟨?_, ?_, ?_⟩
    · simp [csrDefined, defined, low, high]
    · rw [hro]
      cases writable : sregWritable (r - 0x800) <;> simp [csrReadOnly, writable, low]
      omega
    · simp [csrDevice]
      omega

theorem isCsr_of_defined {r : Nat} (defined : csrDefined r = true) : ∃ ro dev, IsCsr r ro dev := by
  by_cases below : r < 0x800
  · obtain ⟨e, he, bounds⟩ := csrTable_complete below defined
    exact ⟨_, _, .inl ⟨e, he, bounds.1, bounds.2, rfl, rfl⟩⟩
  · simp only [csrDefined, Bool.or_eq_true, Bool.and_eq_true, decide_eq_true_eq, beq_iff_eq] at defined
    rcases defined with listed | ⟨⟨low, high⟩, window⟩
    · omega
    · exact ⟨_, _, .inr ⟨low, high, window, rfl, rfl⟩⟩

theorem not_defined_of_reserved {r : Nat} (reserved : ∀ p l, ¬IsCsr r p l) : csrDefined r = false := by
  rw [Bool.eq_false_iff]
  intro defined
  obtain ⟨ro, dev, h⟩ := isCsr_of_defined defined
  exact reserved ro dev h

/-! ### CSRR, CSRW (R382) -/

section Access
variable {s t : State} {c a d r : Nat} {y : AgentCore} {ro dev : Bool} (hat : AtCore s c) (hy : s.core c = y)
include hat hy

theorem exception_zero (cause : Nat) : s.exception cause 0 = s.setCore c (y.takeException cause y.pc 0) := by
  rw [exception_atCore hat, hy]
  rfl

theorem coreBecomes_csrr_of_reserved (reserved : csrDefined r = false) : CoreBecomes (.csrr d r) s c (y.takeException 1 y.pc 0) := by
  show execCsrr d r s = _
  rw [execCsrr, if_pos reserved, exception_zero hat hy]

theorem coreBecomes_csrr_of_host (h : IsCsr r ro true) (host : y.lv = 0) : CoreBecomes (.csrr d r) s c (y.takeException 2 y.pc 0) := by
  obtain ⟨defined, -, device⟩ := csr_of_isCsr h
  show execCsrr d r s = _
  rw [execCsrr, me_atCore hat, hy, if_neg (by rw [defined]; nofun), if_pos ⟨device, host⟩, exception_zero hat hy]

/-- CSRR of a register of its level reads it, and counts the draws of free values on. -/
theorem exec_csrr (h : IsCsr r ro dev) (level : dev = true → y.lv = 1) : exec (.csrr d r) s
    = .next { s.setCore c ((y.setReg d (s.csrValue c r)).advance) with tape := s.tape + 1 } := by
  obtain ⟨defined, -, device⟩ := csr_of_isCsr h
  have permitted : ¬(csrDevice r = true ∧ y.lv = 0) := by
    rintro ⟨isDevice, host⟩
    have := level (device ▸ isDevice)
    omega
  show execCsrr d r s = _
  rw [execCsrr, me_atCore hat, hy, if_neg (by rw [defined]; nofun), if_neg permitted, finish_atCore hat, hy, coreId_atCore hat]

theorem coreBecomes_csrw_of_cause {cause : Nat} (h : csrWriteCause y.lv r = some cause) :
    CoreBecomes (.csrw a r) s c (y.takeException cause y.pc 0) := by
  show execCsrw a r s = _
  simp only [execCsrw, me_atCore hat, hy, h, exception_zero hat hy]

/-- A value that the register refuses is an exception of cause 1. -/
theorem coreBecomes_csrw_of_refused (h : csrWriteCause y.lv r = none) (put : s.csrPut c r (y.reg a) = none) :
    CoreBecomes (.csrw a r) s c (y.takeException 1 y.pc 0) := by
  show execCsrw a r s = _
  simp only [execCsrw, me_atCore hat, hy, h, coreId_atCore hat, put, exception_zero hat hy]

theorem exec_csrw (h : csrWriteCause y.lv r = none) (put : s.csrPut c r (y.reg a) = some t) :
    exec (.csrw a r) s = .next (t.onMe (·.advance)) := by
  show execCsrw a r s = _
  simp only [execCsrw, me_atCore hat, hy, h, coreId_atCore hat, put]

/-- A write of a register that the core itself holds. -/
theorem coreBecomes_csrw {z : AgentCore} (h : csrWriteCause y.lv r = none) (put : s.csrPut c r (y.reg a) = some (s.setCore c z)) :
    CoreBecomes (.csrw a r) s c z.advance := by
  rw [CoreBecomes, exec_csrw hat hy h put, onMe_atCore (atCore_setCore hat c z), State.core_setCore_same, State.setCore_setCore]

end Access

theorem csrWriteCause_of_reserved {r lv : Nat} (reserved : csrDefined r = false) : csrWriteCause lv r = some 1 := if_pos (.inl reserved)

theorem csrWriteCause_of_readOnly {r lv : Nat} {dev : Bool} (h : IsCsr r true dev) : csrWriteCause lv r = some 1 :=
  if_pos (.inr (csr_of_isCsr h).2.1)

theorem csrWriteCause_of_host {r : Nat} (h : IsCsr r false true) : csrWriteCause 0 r = some 2 := by
  obtain ⟨defined, writable, device⟩ := csr_of_isCsr h
  rw [csrWriteCause, defined, writable, device]
  rfl

/-- A writable register of the core's level raises nothing by itself. -/
theorem csrWriteCause_of_level {r lv : Nat} {dev : Bool} (h : IsCsr r false dev) (level : dev = true → lv ≠ 0) :
    csrWriteCause lv r = none := by
  obtain ⟨defined, writable, device⟩ := csr_of_isCsr h
  rw [csrWriteCause, defined, writable, device, if_neg (by simp), if_neg (fun host => level host.1 host.2)]

/-- A register of the table below the window. -/
theorem isCsr_of_row {r lo hi : Nat} {ro dev : Bool} (row : (lo, hi, ro, dev) ∈ csrTable) (low : lo ≤ r) (high : r ≤ hi) :
    IsCsr r ro dev := .inl ⟨_, row, low, high, rfl, rfl⟩

/-- A writable system register, seen through the window (R383). -/
theorem isCsr_of_window {i : Nat} (defined : sregDefined i = true) (writable : sregWritable i = true) (high : i ≤ 0x23F) :
    IsCsr (0x800 + i) false true := by
  have index : 0x800 + i - 0x800 = i := by omega
  refine .inr ⟨by omega, by omega, ?_, ?_, rfl⟩
  · rw [index, defined]
  · rw [index, writable]
    rfl

/-! ### What a register reads and takes (R383, R384, R462) -/

section Values
variable {s : State} {c i : Nat}

theorem csrValue_timeline (hi : i < 16) : s.csrValue c (0x010 + i) = BitVec.ofNat 64 (s.ctxTime c i) := by
  simp (disch := omega) only [State.csrValue, if_neg, if_pos, Nat.add_sub_cancel_left]

theorem csrValue_submitted (hi : i < 16) : s.csrValue c (0x020 + i) = BitVec.ofNat 64 (s.ctxSub c i) := by
  simp (disch := omega) only [State.csrValue, if_neg, if_pos, Nat.add_sub_cancel_left]

theorem csrValue_batches (hi : i < 16) : s.csrValue c (0x030 + i)
    = BitVec.ofNat 64 (((s.core c).ctx i).openBatches * 2 ^ 32 + ((s.core c).ctx i).openBatch.length) := by
  simp (disch := omega) only [State.csrValue, if_neg, if_pos, Nat.add_sub_cancel_left]

theorem csrValue_keys (hi : i < 8) : s.csrValue c (0x070 + i) = BitVec.ofNat 64 ((s.pkg (c / 8)).keyStatus i) := by
  simp (disch := omega) only [State.csrValue, if_neg, if_pos, Nat.add_sub_cancel_left]

theorem csrValue_refusals (hi : i < 16) : s.csrValue c (0x080 + i)
    = BitVec.ofNat 64 (((s.core c).ctx i).errCount * 2 ^ 32 + ((s.core c).ctx i).errOpn) := by
  simp (disch := omega) only [State.csrValue, if_neg, if_pos, Nat.add_sub_cancel_left]

theorem csrValue_window : s.csrValue c (0x800 + i) = s.windowRead c i := by
  simp (disch := omega) only [State.csrValue, if_neg, Nat.add_sub_cancel_left]

theorem csrPut_refusals (hi : i < 16) (v : Word) : s.csrPut c (0x080 + i) v = some (s.clearCtxErr c i) := by
  simp (disch := omega) only [State.csrPut, if_neg, if_pos, Nat.add_sub_cancel_left]

theorem csrPut_window (v : Word) : s.csrPut c (0x800 + i) v = s.windowWrite c i v := by
  simp (disch := omega) only [State.csrPut, if_neg, Nat.add_sub_cancel_left]

end Values

/-! ### The tile window (R383) -/

section Window
variable {s : State} {c i : Nat} {v : Word}

theorem limit_iff : (i == 0x010 || i == 0x011) = true ↔ i = 0x010 ∨ i = 0x011 := by simp

theorem windowWrite_idle (idle : s.tileAt (c / 8) (s.core c).tsel = none) (low : i ≠ 0x010) (high : i ≠ 0x011) :
    s.windowWrite c i v = some (s.setPkg (c / 8) ((s.pkg (c / 8)).idleWrite (s.core c).tsel i v)) := by
  simp [State.windowWrite, idle, low, high]

theorem windowWrite_idle_limit (idle : s.tileAt (c / 8) (s.core c).tsel = none) (limit : i = 0x010 ∨ i = 0x011) :
    s.windowWrite c i v = some (s.setPkg (c / 8) ((s.pkg (c / 8)).setLimit (s.core c).tsel i v.toNat)) := by
  simp [State.windowWrite, idle, limit]

theorem windowWrite_limit {t gid : Nat} (runs : s.tileAt (c / 8) (s.core c).tsel = some (t, gid)) (limit : i = 0x010 ∨ i = 0x011) :
    s.windowWrite c i v = some ((s.setPkg (c / 8) ((s.pkg (c / 8)).setLimit (s.core c).tsel i v.toNat)).onTile t gid
      (fun x => x.setSysReg i v)) := by
  simp [State.windowWrite, runs, limit]

theorem windowWrite_busy {t gid : Nat} (runs : s.tileAt (c / 8) (s.core c).tsel = some (t, gid)) (low : i ≠ 0x010) (high : i ≠ 0x011) :
    s.windowWrite c i v = none := by
  simp [State.windowWrite, runs, low, high]

end Window

/-! ### Reset (R383 to R385) -/

theorem reset_ctx (c i : Nat) : (State.reset.core c).ctx i = Ctx.reset := rfl

/-- Settles O1: no core, function, package, task or generation is listed at reset, so each reads as its own reset value. -/
theorem resetStartsCoreZero : Obligations.ResetStartsCoreZero := by
  refine ⟨?core, fun c i hi => ⟨?time, ?submitted, ?batches, ?refusals⟩, fun p => ⟨rfl, rfl, rfl⟩, rfl, rfl, rfl⟩
  case core =>
    rintro c y rfl
    refine ⟨rfl, rfl, rfl, rfl, rfl, rfl, rfl, rfl, fun r => ite_self _, fun p => ?_⟩
    show (if p = 0 then true else false) = _
    by_cases first : p = 0 <;> simp [first]
  case time =>
    have empty : State.reset.ctxTime c i = 0 := by
      unfold State.ctxTime State.ctxSub
      split
      · rfl
      · split <;> rfl
    rw [csrValue_timeline hi, empty]
    rfl
  case submitted =>
    rw [csrValue_submitted hi, State.ctxSub]
    exact congrArg (BitVec.ofNat 64) (ite_self 0)
  case batches =>
    rw [csrValue_batches hi, reset_ctx]
    rfl
  case refusals =>
    rw [csrValue_refusals hi, reset_ctx]
    rfl

/-! ### The statement -/

section Writes
variable {s : State} {c a : Nat} {y : AgentCore} (hat : AtCore s c) (hy : s.core c = y)
include hat hy

/-- A write of a device-level register that the core itself holds, or that the package or the domain holds. -/
theorem exec_csrw_device {r lo hi : Nat} {t : State} (device : y.lv = 1) (row : (lo, hi, false, true) ∈ csrTable) (low : lo ≤ r)
    (high : r ≤ hi) (put : s.csrPut c r (y.reg a) = some t) : exec (.csrw a r) s = .next (t.onMe (·.advance)) :=
  exec_csrw hat hy (csrWriteCause_of_level (isCsr_of_row row low high) (fun _ => by omega)) put

theorem coreBecomes_csrw_device {r lo hi : Nat} {z : AgentCore} (device : y.lv = 1) (row : (lo, hi, false, true) ∈ csrTable)
    (low : lo ≤ r) (high : r ≤ hi) (put : s.csrPut c r (y.reg a) = some (s.setCore c z)) : CoreBecomes (.csrw a r) s c z.advance :=
  coreBecomes_csrw hat hy (csrWriteCause_of_level (isCsr_of_row row low high) (fun _ => by omega)) put

/-- A write of a host-level register. -/
theorem exec_csrw_host {r lo hi : Nat} {t : State} (row : (lo, hi, false, false) ∈ csrTable) (low : lo ≤ r)
    (high : r ≤ hi) (put : s.csrPut c r (y.reg a) = some t) : exec (.csrw a r) s = .next (t.onMe (·.advance)) :=
  exec_csrw hat hy (csrWriteCause_of_level (isCsr_of_row row low high) nofun) put

theorem coreBecomes_csrw_host {r lo hi : Nat} {z : AgentCore} (row : (lo, hi, false, false) ∈ csrTable) (low : lo ≤ r)
    (high : r ≤ hi) (put : s.csrPut c r (y.reg a) = some (s.setCore c z)) : CoreBecomes (.csrw a r) s c z.advance :=
  coreBecomes_csrw hat hy (csrWriteCause_of_level (isCsr_of_row row low high) nofun) put

/-- A write through the window (R383). -/
theorem exec_csrw_window {i : Nat} {t : State} (device : y.lv = 1) (defined : sregDefined i = true) (writable : sregWritable i = true)
    (high : i ≤ 0x23F) (put : s.windowWrite c i (y.reg a) = some t) :
    exec (.csrw a (0x800 + i)) s = .next (t.onMe (·.advance)) :=
  exec_csrw hat hy (csrWriteCause_of_level (isCsr_of_window defined writable high) (fun _ => by omega)) ((csrPut_window _).trans put)

end Writes

theorem afuncOk_iff (v : Nat) : afuncOk v = true ↔ v < 64 ∨ v = 255 := by simp [afuncOk]

theorem csrPut_afunc {s : State} {c : Nat} {v : Word} (ok : v.toNat < 64 ∨ v.toNat = 255) :
    s.csrPut c 5 v = some (s.setCore c { s.core c with afunc := v.toNat }) := if_pos ((afuncOk_iff _).mpr ok)

theorem csrPut_afunc_refused {s : State} {c : Nat} {v : Word} (low : 64 ≤ v.toNat) (other : v.toNat ≠ 255) :
    s.csrPut c 5 v = none := if_neg (by rw [afuncOk_iff]; omega)

/-- What CSRW does to a register of device level (R383, R384). -/
theorem csrw_device {s : State} {c a : Nat} {y : AgentCore} {v : Word} (hat : AtCore s c) (hy : y = s.core c) (hv : v = y.reg a)
    (device : y.lv = 1) :
    CoreBecomes (.csrw a 1) s c ({ y with ecause := v }.advance) ∧ CoreBecomes (.csrw a 2) s c ({ y with epc := v }.advance)
    ∧ CoreBecomes (.csrw a 3) s c ({ y with eval := v }.advance) ∧ CoreBecomes (.csrw a 4) s c ({ y with etvec := v }.advance)
    ∧ (v.toNat < 64 ∨ v.toNat = 255 → CoreBecomes (.csrw a 5) s c ({ y with afunc := v.toNat }.advance))
    ∧ CoreBecomes (.csrw a 0x0C0) s c ({ y with tsel := v.toNat % 32 }.advance)
    ∧ exec (.csrw a 0x040) s = .next (({ s with slice := v.toNat % 2 ^ 32 } : State).onMe (·.advance))
    ∧ exec (.csrw a 0x041) s = .next (({ s with sepoch := v } : State).onMe (·.advance)) := by
  subst hv hy
  have core {r lo hi : Nat} {z : AgentCore} := coreBecomes_csrw_device (a := a) (r := r) (lo := lo) (hi := hi) (z := z) hat rfl device
  have domain {r lo hi : Nat} {t : State} := exec_csrw_device (a := a) (r := r) (lo := lo) (hi := hi) (t := t) hat rfl device
  have first : (0x001, 0x005, false, true) ∈ csrTable := by decide
  have slice : (0x040, 0x041, false, true) ∈ csrTable := by decide
  exact ⟨core first (by decide) (by decide) rfl, core first (by decide) (by decide) rfl, core first (by decide) (by decide) rfl,
    core first (by decide) (by decide) rfl, fun ok => core first (by decide) (by decide) (csrPut_afunc ok),
    core (lo := 0x0C0) (hi := 0x0C0) (by decide) (by decide) (by decide) rfl, domain slice (by decide) (by decide) rfl,
    domain slice (by decide) (by decide) rfl⟩

/-- SPRES and DRNSLOT take an exponent of 2 to 6 (R384). -/
theorem csrw_shares {s : State} {c a k : Nat} {p : Pkg} {v : Word} (hat : AtCore s c) (hv : v = (s.core c).reg a)
    (device : (s.core c).lv = 1) (hp : p = s.pkg (c / 8)) (hk : k = v.toNat % 8) :
    (2 ≤ k → k ≤ 6 → exec (.csrw a 0x062) s = .next ((s.setPkg (c / 8) { p with spres := k }).onMe (·.advance))
      ∧ exec (.csrw a 0x063) s = .next ((s.setPkg (c / 8) { p with drnslot := k }).onMe (·.advance)))
    ∧ (k < 2 ∨ 6 < k → exec (.csrw a 0x062) s = .next ((s.setPkg (c / 8) p).onMe (·.advance))
      ∧ exec (.csrw a 0x063) s = .next ((s.setPkg (c / 8) p).onMe (·.advance))) := by
  subst hv hp hk
  have shares : (0x062, 0x063, false, true) ∈ csrTable := by decide
  have spres := exec_csrw_device (a := a) (r := 0x062) hat rfl device shares (by decide) (by decide) rfl
  have drnslot := exec_csrw_device (a := a) (r := 0x063) hat rfl device shares (by decide) (by decide) rfl
  refine ⟨fun low high => ?_, fun out => ?_⟩
  · have takes (old : Nat) : shareWrite old ((s.core c).reg a).toNat = ((s.core c).reg a).toNat % 8 := if_pos ⟨low, high⟩
    rw [spres, drnslot, takes, takes]
    exact ⟨rfl, rfl⟩
  · have keeps (old : Nat) : shareWrite old ((s.core c).reg a).toNat = old := if_neg (by omega)
    rw [spres, drnslot, keeps, keeps]
    exact ⟨rfl, rfl⟩

/-- CSRW through the tile window (R383). -/
theorem csrw_window {s : State} {c a i p phys : Nat} {v : Word} (hat : AtCore s c) (hv : v = (s.core c).reg a)
    (device : (s.core c).lv = 1) (defined : sregDefined i = true) (writable : sregWritable i = true) (high : i ≤ 0x23F)
    (hp : p = c / 8) (hphys : phys = (s.core c).tsel) :
    (s.tileAt p phys = none → i ≠ 0x010 → i ≠ 0x011 → exec (.csrw a (0x800 + i)) s
      = .next ((s.setPkg p ((s.pkg p).idleWrite phys i v)).onMe (·.advance)))
    ∧ (s.tileAt p phys = none → i = 0x010 ∨ i = 0x011 → exec (.csrw a (0x800 + i)) s
      = .next ((s.setPkg p ((s.pkg p).setLimit phys i v.toNat)).onMe (·.advance)))
    ∧ (∀ t gid, s.tileAt p phys = some (t, gid) → i = 0x010 ∨ i = 0x011 → exec (.csrw a (0x800 + i)) s
      = .next (((s.setPkg p ((s.pkg p).setLimit phys i v.toNat)).onTile t gid (fun x => x.setSysReg i v)).onMe (·.advance)))
    ∧ (∀ t gid, s.tileAt p phys = some (t, gid) → i ≠ 0x010 → i ≠ 0x011 →
      CoreBecomes (.csrw a (0x800 + i)) s c ((s.core c).takeException 1 (s.core c).pc 0)) := by
  subst hv hp hphys
  have write {t : State} := exec_csrw_window (a := a) (t := t) hat rfl device defined writable high
  refine ⟨fun idle low top => write (windowWrite_idle idle low top), fun idle limit => write (windowWrite_idle_limit idle limit),
    fun t gid runs limit => write (windowWrite_limit runs limit), fun t gid runs low top => ?_⟩
  exact coreBecomes_csrw_of_refused hat rfl (csrWriteCause_of_level (isCsr_of_window defined writable high) (fun _ => by omega))
    ((csrPut_window _).trans (windowWrite_busy runs low top))

/-- CSRW of the queue registers of the core's function (R462). -/
theorem csrw_queue {s : State} {c a : Nat} {x : Fn} {v : Word} (hat : AtCore s c) (hv : v = (s.core c).reg a)
    (hx : x = s.fn (s.core c).afunc) :
    exec (.csrw a 0x050) s = .next ((s.setFn (s.core c).afunc { x with cqbase := v.toNat / 4096 * 4096 }).onMe (·.advance))
    ∧ exec (.csrw a 0x051) s
      = .next (((s.setFn (s.core c).afunc { x with cqsize := v.toNat % 16 }).wakeQueue (s.core c).afunc).onMe (·.advance))
    ∧ exec (.csrw a 0x052) s
      = .next (((s.setFn (s.core c).afunc { x with cqhead := v.toNat % 2 ^ 32 }).wakeQueue (s.core c).afunc).onMe (·.advance))
    ∧ exec (.csrw a 0x055) s = .next ((s.setFn (s.core c).afunc { x with cqvec := v.toNat % 2048 }).onMe (·.advance)) := by
  subst hv hx
  have queue {r lo hi : Nat} {t : State} := exec_csrw_host (a := a) (r := r) (lo := lo) (hi := hi) (t := t) hat rfl
  have bank : (0x050, 0x052, false, false) ∈ csrTable := by decide
  have vector : (0x055, 0x055, false, false) ∈ csrTable := by decide
  exact ⟨queue bank (by decide) (by decide) rfl, queue bank (by decide) (by decide) rfl, queue bank (by decide) (by decide) rfl,
    queue vector (by decide) (by decide) rfl⟩

theorem csrValue_scrub (s : State) (c : Nat) : s.csrValue c 0x060 = match (s.pkg (c / 8)).scrub with
    | none => 0
    | some j => BitVec.ofNat 64 (j.total * 2 ^ 32 + j.done) := rfl

/-- Settles O49: a register is in the table of R383 or in the window; its row gives the cause, its number the effect. -/
theorem controlRegisters : Obligations.ControlRegisters := by
  intro s c a d r y v ro dev hat hy hv
  subst hy
  refine ⟨exec_csrr hat rfl, fun reserved => ⟨?_, ?_⟩, fun h _ => ?_, fun h host => ⟨coreBecomes_csrr_of_host hat rfl h host, fun writable => ?_⟩,
    fun device => ?device, ?flags, fun i hi => ?refusals, fun x hx => csrw_queue hat hv hx, fun i hi p x z hp hx hz => ?values, fun i => ?window⟩
  · exact coreBecomes_csrr_of_reserved hat rfl (not_defined_of_reserved reserved)
  · exact coreBecomes_csrw_of_cause hat rfl (csrWriteCause_of_reserved (not_defined_of_reserved reserved))
  · exact coreBecomes_csrw_of_cause hat rfl (csrWriteCause_of_readOnly h)
  · subst writable
    exact coreBecomes_csrw_of_cause hat rfl (host.symm ▸ csrWriteCause_of_host h)
  case device =>
    obtain ⟨ecause, epc, eval, etvec, afunc, tsel, slice, sepoch⟩ := csrw_device hat rfl hv device
    exact ⟨ecause, epc, eval, etvec, afunc, tsel, slice, sepoch, fun p k hp hk => csrw_shares hat hv device hp hk,
      fun i p phys defined writable high hp hphys => csrw_window hat hv device defined writable high hp hphys⟩
  case flags =>
    subst hv
    exact coreBecomes_csrw_host hat rfl (lo := 0x006) (hi := 0x006) (by decide) (by decide) (by decide) rfl
  case refusals =>
    exact coreBecomes_csrw_host hat rfl (lo := 0x080) (hi := 0x08F) (by decide) (by omega) (by omega) (csrPut_refusals hi _)
  case values =>
    subst hp hx hz
    refine ⟨rfl, rfl, rfl, rfl, rfl, rfl, rfl, csrValue_timeline hi, csrValue_submitted hi, csrValue_batches hi, rfl, rfl, rfl, rfl, rfl, rfl,
      rfl, rfl, rfl, fun idle => ?_, fun j runs => ?_, rfl, rfl, rfl, rfl, csrValue_keys, csrValue_refusals hi, rfl⟩
    · rw [csrValue_scrub, idle]
    · rw [csrValue_scrub, runs]
  case window => exact csrValue_window

end Sys2Proof.Execution
end

section
/-! SUPPORT. Guards and levels of the instructions that a core alone runs, and that each of them answers (05 R113, 23 R377 to R379, R382). -/
namespace Sys2Proof.Execution
open Machine Claims

/-! ### Instructions of device level, instructions under a guard (R377) -/

section Shape
variable {d a b g n : Nat} {i : Instr}

/-- Each guarded instruction but those of device level asks its guard first. -/
theorem exec_eq_guarded (hi : i ∈ guardedRows d a b g n) (host : i ∉ deviceRows d a b g n) (s : State) :
    ∃ k, exec i s = s.guarded g n k := by
  simp only [guardedRows, List.mem_append, host, or_false, List.mem_cons, List.not_mem_nil] at hi
  rcases hi with rfl | rfl | rfl | rfl | rfl | rfl | rfl | rfl | rfl | rfl | rfl | rfl | rfl | rfl
  · exact ⟨_, show execWaita d a b g n s = _ by rw [execWaita]⟩
  · exact ⟨_, show execWaitt d a b g n s = _ by rw [execWaitt]⟩
  · exact ⟨_, show execBatchClose d a g n s = _ by rw [execBatchClose]⟩
  · exact ⟨_, show execWaitb d a b g n s = _ by rw [execWaitb]⟩
  · exact ⟨_, show execCopy d a b g n s = _ by rw [execCopy]⟩
  · exact ⟨_, show execTaskq d a g n s = _ by rw [execTaskq]⟩
  · exact ⟨_, show execTkill d a g n s = _ by rw [execTkill]⟩
  · exact ⟨_, show execTpreDrain d a b g n s = _ by rw [execTpreDrain]⟩
  · exact ⟨_, show execTpreCheckpoint d a b g n s = _ by rw [execTpreCheckpoint]⟩
  · exact ⟨_, show execTpreRequeue d a b g n s = _ by rw [execTpreRequeue]⟩
  · exact ⟨_, show execTstatus d a g n s = _ by rw [execTstatus]⟩
  · exact ⟨_, show execCplpost d a g n s = _ by rw [execCplpost]⟩
  · exact ⟨_, show execIntr a g n s = _ by rw [execIntr]⟩
  · exact ⟨_, show execImgchk d a b g n s = _ by rw [execImgchk]⟩

/-- Those of device level ask for the level first, then for the guard. -/
theorem exec_eq_deviceLevel_guarded (hi : i ∈ deviceRows d a b g n) (s : State) :
    ∃ k, exec i s = s.deviceLevel (fun s => s.guarded g n k) := by
  simp only [deviceRows, List.mem_cons, List.not_mem_nil, or_false] at hi
  rcases hi with rfl | rfl | rfl | rfl
  · exact ⟨_, show execKeyz d a g n s = _ by rw [execKeyz]⟩
  · exact ⟨_, show execKeyld d a b g n s = _ by rw [execKeyld]⟩
  · exact ⟨_, show execScrub d a g n s = _ by rw [execScrub]⟩
  · exact ⟨_, show execMigr d a g n s = _ by rw [execMigr]⟩

theorem exec_eq_deviceLevel (hi : i ∈ [Instr.eret, .treeCreate d a, .treeFreeze d a, .treeThaw d a, .treeDestroy d a]) (s : State) :
    ∃ k, exec i s = s.deviceLevel k := by
  simp only [List.mem_cons, List.not_mem_nil, or_false] at hi
  rcases hi with rfl | rfl | rfl | rfl | rfl
  · exact ⟨_, exec_eret s⟩
  · exact ⟨_, show execTreeCreate d a s = _ by rw [execTreeCreate]⟩
  · exact ⟨_, show execTreeFreeze d a s = _ by rw [execTreeFreeze]⟩
  · exact ⟨_, show execTreeThaw d a s = _ by rw [execTreeThaw]⟩
  · exact ⟨_, show execTreeDestroy d a s = _ by rw [execTreeDestroy]⟩

end Shape

/-! ### Each of them answers -/

/-- The instruction answers a next state. -/
def Goes (o : Outcome) : Prop := ∃ u, o = .next u

section Goes
variable {s : State} {d a b c g n m k w op : Nat}

theorem goes_next (u : State) : Goes (.next u) := ⟨u, rfl⟩

theorem goes_ite {p : Prop} [Decidable p] {x y : Outcome} (hx : Goes x) (hy : Goes y) : Goes (if p then x else y) := by
  split
  · exact hx
  · exact hy

theorem goes_guarded {f : State → Outcome} (hf : ∀ t, Goes (f t)) : Goes (s.guarded g n f) := goes_ite (hf s) (goes_next _)

theorem goes_deviceLevel {f : State → Outcome} (hf : ∀ t, Goes (f t)) : Goes (s.deviceLevel f) := goes_ite (hf s) (goes_next _)

theorem goes_badBlock : Goes (s.badBlock d a n) := goes_next _

theorem goes_agentAtomic : Goes (s.agentAtomic op d a b c) :=
  goes_ite (goes_next _) (goes_ite (goes_next _) (goes_ite (goes_next _) (goes_next _)))

theorem goes_copy : Goes (execCopy d a b g n s) := goes_guarded fun t => goes_ite (goes_next _) <| by
  split
  · exact goes_badBlock
  · exact goes_next _

theorem goes_taskq : Goes (execTaskq d a g n s) := goes_guarded fun t => goes_ite (goes_next _) <| by
  split
  · exact goes_badBlock
  · exact goes_next _

theorem goes_imgchk : Goes (execImgchk d a b g n s) := goes_guarded fun t => goes_ite (goes_next _) <| by
  split
  · exact goes_badBlock
  · exact goes_next _

theorem goes_keyld : Goes (execKeyld d a b g n s) := goes_deviceLevel fun _ => goes_guarded fun t => goes_ite (goes_next _) <| by
  split
  · exact goes_badBlock
  · exact goes_next _

theorem goes_scrub : Goes (execScrub d a g n s) := goes_deviceLevel fun _ => goes_guarded fun t => goes_ite (goes_next _) <| by
  split
  · exact goes_badBlock
  · exact goes_next _

theorem goes_migr : Goes (execMigr d a g n s) := goes_deviceLevel fun _ => goes_guarded fun t => by
  dsimp only
  split
  · exact goes_badBlock
  · split <;> exact goes_next _

theorem goes_treeCreate : Goes (execTreeCreate d a s) := goes_deviceLevel fun t => by
  dsimp only
  split <;> exact goes_next _

theorem goes_treeEdit : Goes (execTreeEdit d a s) := by
  unfold execTreeEdit
  dsimp only
  split
  · exact goes_next _
  · split <;> exact goes_next _

theorem goes_treeAlt : Goes (execTreeAlt d a b s) := by
  unfold execTreeAlt
  dsimp only
  split <;> exact goes_next _

theorem goes_treeFreeze : Goes (execTreeFreeze d a s) := goes_deviceLevel fun t => by
  dsimp only
  split
  · exact goes_next _
  · exact goes_ite (goes_next _) (goes_next _)

theorem goes_treeThaw : Goes (execTreeThaw d a s) := goes_deviceLevel fun t => by
  dsimp only
  split
  · exact goes_next _
  · exact goes_ite (goes_next _) (by split <;> exact goes_next _)

theorem goes_treeDestroy : Goes (execTreeDestroy d a s) := goes_deviceLevel fun t => by
  dsimp only
  split
  · exact goes_next _
  · exact goes_ite (goes_next _) (goes_next _)

theorem goes_guardedRows : ∀ i ∈ guardedRows d a b g n, Goes (exec i s) := by
  simp only [guardedRows, deviceRows, List.cons_append, List.nil_append, List.forall_mem_cons, List.not_mem_nil, false_implies,
    implies_true, and_true]
  refine ⟨?waita, ?waitt, ?batchClose, ?waitb, goes_copy, goes_taskq, ?tkill, ?tpreDrain, ?tpreCheckpoint, ?tpreRequeue, ?tstatus,
    ?cplpost, ?intr, goes_imgchk, ?keyz, goes_keyld, goes_scrub, goes_migr⟩
  case waita => exact show Goes (execWaita d a b g n s) from goes_guarded fun _ => goes_ite (goes_next _) (goes_next _)
  case waitt => exact show Goes (execWaitt d a b g n s) from goes_guarded fun _ => goes_ite (goes_next _) (goes_next _)
  case batchClose => exact show Goes (execBatchClose d a g n s) from goes_guarded fun _ => goes_ite (goes_next _) (goes_next _)
  case waitb => exact show Goes (execWaitb d a b g n s) from goes_guarded fun _ => goes_ite (goes_next _) (goes_next _)
  case tkill => exact show Goes (execTkill d a g n s) from goes_guarded fun _ => goes_next _
  case tpreDrain => exact show Goes (execTpreDrain d a b g n s) from goes_guarded fun _ => goes_next _
  case tpreCheckpoint => exact show Goes (execTpreCheckpoint d a b g n s) from goes_guarded fun _ => goes_next _
  case tpreRequeue => exact show Goes (execTpreRequeue d a b g n s) from goes_guarded fun _ => goes_next _
  case tstatus => exact show Goes (execTstatus d a g n s) from goes_guarded fun _ => goes_next _
  case cplpost => exact show Goes (execCplpost d a g n s) from goes_guarded fun _ => goes_next _
  case intr => exact show Goes (execIntr a g n s) from goes_guarded fun _ => goes_next _
  case keyz => exact show Goes (execKeyz d a g n s) from goes_deviceLevel fun _ => goes_guarded fun _ => goes_next _

theorem goes_plainRows : ∀ i ∈ plainRows d a b g n m k, Goes (exec i s) := by
  simp only [plainRows, List.forall_mem_cons, List.not_mem_nil, false_implies, implies_true, and_true]
  refine ⟨goes_next _, ?sts, goes_next _, ?stl, goes_next _, goes_agentAtomic, goes_agentAtomic, goes_agentAtomic, goes_agentAtomic,
    goes_agentAtomic, goes_agentAtomic, goes_agentAtomic, goes_agentAtomic, goes_next _, goes_next _, goes_next _, ?eret, goes_treeCreate,
    goes_treeEdit, goes_treeAlt, goes_treeFreeze, goes_treeThaw, goes_treeDestroy⟩
  case sts => exact show Goes (execStsAgent d a g n m s) from goes_ite (goes_next _) (goes_next _)
  case stl => exact show Goes (execStl d a g n m s) from goes_ite (goes_next _) (goes_next _)
  case eret => exact show Goes (execEret s) from goes_deviceLevel fun _ => goes_next _

end Goes

/-- Settles O52: the level is asked for before the guard, the guard before the work. -/
theorem privilegeAndGuards : Obligations.PrivilegeAndGuards := by
  intro s c d a b g n m k y hat hy
  subst hy
  refine ⟨fun host i hi => ?_, fun closed i hi level => ?_, fun h _ => ?_, fun device low other => ?_, fun i hi => ?_⟩
  · have privilege {f : State → Outcome} (work : exec i s = s.deviceLevel f) := coreBecomes_of_host hat work (by omega)
    have level : (s.core c).takeException 2 (s.core c).pc 0
        = { s.core c with epc := (s.core c).pc, ecause := 2, eval := 0, plv := 0, lv := 1, pc := (s.core c).etvec } := by
      rw [AgentCore.takeException, host]
      rfl
    rw [← level]
    rcases List.mem_append.mp hi with unguarded | guarded
    · obtain ⟨f, work⟩ := exec_eq_deviceLevel unguarded s
      exact privilege work
    · obtain ⟨f, work⟩ := exec_eq_deviceLevel_guarded guarded s
      exact privilege work
  · by_cases device : i ∈ deviceRows d a b g n
    · obtain ⟨f, work⟩ := exec_eq_deviceLevel_guarded device s
      exact (work.trans (deviceLevel_atCore hat (level.resolve_right (not_not_intro device)) _)).trans (guarded_of_false hat closed _)
    · obtain ⟨f, work⟩ := exec_eq_guarded hi device s
      exact work.trans (guarded_of_false hat closed _)
  · exact coreBecomes_csrw_of_cause hat rfl (csrWriteCause_of_readOnly h)
  · have writable : csrWriteCause (s.core c).lv 5 = none :=
      csrWriteCause_of_level (dev := true) (isCsr_of_row (lo := 0x001) (hi := 0x005) (by decide) (by decide) (by decide)) (fun _ => by omega)
    exact coreBecomes_csrw_of_refused hat rfl writable (csrPut_afunc_refused low other)
  · exact (List.mem_append.mp hi).elim (goes_guardedRows i) (goes_plainRows i)

end Sys2Proof.Execution
end

section
/-! SUPPORT. Keys, scrubs, moves of pages and image checks of an agent core (23 R407 to R410, 27 R455). -/
namespace Sys2Proof.Execution
open Machine Claims

section Privileged
variable {s q : State} {c d a b g n k at_ : Nat} {y z : AgentCore} {p : Pkg} (h : Privileged s c g n y)
include h

/-- At device level with a true guard an instruction does its work. -/
theorem deviceLevel_guarded (f : State → Outcome) : s.deviceLevel (fun s => s.guarded g n f) = f s := by
  obtain ⟨guarded, device⟩ := h
  rw [deviceLevel_atCore (atCore_of_guarded guarded) (core_of_guarded guarded ▸ device), guarded_eq guarded]

theorem exec_keyz (hk : k = (y.reg a).toNat % 128) (hp : p = s.pkg (c / 8)) :
    exec (.keyz d a g n) s = .next ((s.setPkg (c / 8) { p with keys := dropKey p.keys k }).status d 0) := by
  show execKeyz d a g n s = _
  rw [execKeyz, deviceLevel_guarded h, me_atCore (atCore_of_guarded h.1), core_of_guarded h.1, State.myPkg,
    coreId_atCore (atCore_of_guarded h.1), hk, hp]
  rfl

variable (hq : q = s.flush c (fun _ => true)) (hz : z = q.core c) (hat_ : at_ = (z.reg a).toNat) (hp : p = q.pkg (c / 8))
include hq hz hat_

section Package
include hp

/-- KEYLD performs the core's stores; a full slot is busy, an empty one takes the keys of a sound blob (R408). -/
theorem exec_keyld (hk : k = (z.reg b).toNat % 128) : exec (.keyld d a b g n) s
    = if (look KeySlot.empty p.keys k).alg ≠ 0 then .next (q.status d 3)
      else match (q.agentBlock at_ 1 96).bind (keyOfBlob p.wrapKey) with
        | none => .next ((q.noteAgent at_ 96).status d 4)
        | some v => .next ((q.setPkg (c / 8) { p with keys := setKey p.keys k v }).status d 0) := by
  subst hk hat_ hp
  show execKeyld d a b g n s = _
  simp only [execKeyld, deviceLevel_guarded h, flushAll_atCore h.1 hq, me_of_flush h.1 hq hz, State.myPkg,
    coreId_atCore (atCore_of_flush h.1 hq)]
  rfl

/-- SCRUB performs the core's stores; while one runs it is busy, else its block decides (R409). -/
theorem exec_scrub : exec (.scrub d a g n) s
    = if p.scrubbing = true then .next (q.status d 3)
      else match (q.agentBlock at_ 1 32).bind q.scrubOf with
        | none => .next ((q.noteAgent at_ 32).status d 4)
        | some j => .next ((q.setPkg (c / 8) { p with
            scrub := some j
            quarTiles := p.quarTiles ||| j.tiles
            quarFrames := j.frames.foldl addNum p.quarFrames }).status d 0) := by
  subst hat_ hp
  show execScrub d a g n s = _
  simp only [execScrub, deviceLevel_guarded h, flushAll_atCore h.1 hq, me_of_flush h.1 hq hz, State.myPkg,
    coreId_atCore (atCore_of_flush h.1 hq)]
  rfl

end Package

/-! ### MIGR (R410) -/

theorem exec_migr_of_no_block (bad : q.agentBlock at_ 1 32 = none) :
    exec (.migr d a g n) s = .next ((q.noteAgent at_ 32).status d 4) := by
  subst hat_
  show execMigr d a g n s = _
  simp only [execMigr, deviceLevel_guarded h, flushAll_atCore h.1 hq, me_of_flush h.1 hq hz, bad]
  rfl

variable {w : List Nat} (block : q.agentBlock at_ 1 32 = some w)
include block

theorem exec_migr_of_error {st : Nat} (refused : q.migrationOf w = .error st) : exec (.migr d a g n) s = .next (q.status d st) := by
  subst hat_
  show execMigr d a g n s = _
  simp only [execMigr, deviceLevel_guarded h, flushAll_atCore h.1 hq, me_of_flush h.1 hq hz, block, refused]

theorem exec_migr_of_ok {m : Migration} (sound : q.migrationOf w = .ok m) :
    exec (.migr d a g n) s = .next (({ q with migrations := q.migrations ++ [m] } : State).status d 0) := by
  subst hat_
  show execMigr d a g n s = _
  simp only [execMigr, deviceLevel_guarded h, flushAll_atCore h.1 hq, me_of_flush h.1 hq hz, block, sound]
  rfl

end Privileged

/-! ### What a MIGR block asks for (R410) -/

section Move
variable {q : State} {c : Nat} {w : List Nat} {x : Task} {z : AgentCore} (hat : AtCore q c) (hz : q.core c = z)

theorem migrationOf_of_no_task (absent : q.task (fieldOf w 0 4) = none) : q.migrationOf w = .error 1 := by
  simp only [State.migrationOf, State.ownTask, absent]
  rfl

variable (hx : q.task (fieldOf w 0 4) = some x)
include hat hz hx

theorem migrationOf_of_foreign (foreign : x.fn ≠ z.afunc) : q.migrationOf w = .error 5 := by
  simp only [State.migrationOf, State.ownTask, hx, me_atCore hat, hz, if_neg foreign]
  rfl

variable (own : x.fn = z.afunc)
include own

theorem migrationOf_of_ended (ended : x.endStatus ≠ none) : q.migrationOf w = .error 1 := by
  simp only [State.migrationOf, State.ownTask, hx, me_atCore hat, hz, if_pos own, if_pos (Option.isSome_iff_ne_none.mpr ended)]
  rfl

variable (live : x.endStatus = none)
include live

theorem migrationOf_of_placed (placed : x.gang ≠ none) : q.migrationOf w = .error 3 := by
  simp only [State.migrationOf, State.ownTask, hx, me_atCore hat, hz, if_pos own, live, Option.isSome_none, Bool.false_eq_true, if_false,
    if_pos (Option.isSome_iff_ne_none.mpr placed)]
  rfl

variable (away : x.gang = none)
include away

theorem migrationOf_of_no_image (bare : x.image = none) : q.migrationOf w = .error 4 := by
  simp only [State.migrationOf, State.ownTask, hx, me_atCore hat, hz, if_pos own, live, away, Option.isSome_none, Bool.false_eq_true,
    if_false, bare]
  rfl

variable {i : Image} (hi : x.image = some i)
include hi

theorem migrationOf_of_no_entry (unmapped : i.gang.entryFor (fieldOf w 8 8) = none) : q.migrationOf w = .error 4 := by
  simp only [State.migrationOf, State.ownTask, hx, me_atCore hat, hz, if_pos own, live, away, Option.isSome_none, Bool.false_eq_true,
    if_false, hi, unmapped]
  rfl

/-- A page of the task's own: the fields of the block decide. -/
theorem migrationOf_of_entry {e dst : Nat} (mapped : i.gang.entryFor (fieldOf w 8 8) = some e) (hdst : dst = fieldOf w 0x10 8) :
    q.migrationOf w = if fieldOf w 4 4 ≠ 0 ∨ 16 ≤ fieldOf w 0x18 1 ∨ fieldOf w 0x19 7 ≠ 0
        ∨ dst % (entryFrames (look 0 i.gang.table e) * 2 ^ 21) ≠ 0 ∨ q.devExists dst = false
        ∨ i.gang.pkgs.contains (dst / 2 ^ 39) = false then .error 4
      else .ok { task := x.id, va := fieldOf w 8 8, dst := dst, key := fieldOf w 0x18 1, entry := e } := by
  subst hdst
  simp only [State.migrationOf, State.ownTask, hx, me_atCore hat, hz, if_pos own, live, away, Option.isSome_none, Bool.false_eq_true,
    if_false, hi, mapped, Bool.not_eq_eq_eq_not, Bool.not_true]
  rfl

end Move

/-! ### IMGCHK (R407) -/

@[simp] theorem agentWrite_cfg (s : State) (c a : Nat) (bs : List PByte) : (s.agentWrite c a bs).cfg = s.cfg := by
  unfold State.agentWrite
  split <;> rfl

section Check
variable {s q : State} {c d a b g n k at_ : Nat} {y z : AgentCore} (h : Guarded s c g n y) (hq : q = s.flush c (fun _ => true))
  (hz : z = q.core c) (hat_ : at_ = (z.reg a).toNat) (hk : k = (z.reg b).toNat)
include h hq hz hk

theorem exec_imgchk_of_out (out : q.spaceOk z.lv z.afunc k 32 = false) : exec (.imgchk d a b g n) s = .next (q.exception 3 k) := by
  subst hk
  show execImgchk d a b g n s = _
  simp only [execImgchk, guarded_eq h, flushAll_atCore h hq, me_of_flush h hq hz, if_pos out]

variable (reach : q.spaceOk z.lv z.afunc k 32 = true)
include hat_ reach

theorem exec_imgchk_of_no_image (bad : q.agentImage at_ = none) :
    exec (.imgchk d a b g n) s = .next ((q.noteAgent at_ 64).status d 4) := by
  subst hat_ hk
  show execImgchk d a b g n s = _
  simp only [execImgchk, guarded_eq h, flushAll_atCore h hq, me_of_flush h hq hz, reach, bad]
  rfl

theorem exec_imgchk_of_image {bytes : List Nat} (image : q.agentImage at_ = some bytes) : exec (.imgchk d a b g n) s
    = .next ((q.agentWrite c k (clean ((sm3 bytes).map (BitVec.ofNat 8)))).status d (if imageOk bytes q.cfg.stepping = true then 0 else 4)) := by
  subst hat_ hk
  show execImgchk d a b g n s = _
  simp only [execImgchk, guarded_eq h, flushAll_atCore h hq, me_of_flush h hq hz, reach, image, agentWrite_cfg,
    coreId_atCore (atCore_of_flush h hq)]
  rfl

end Check

/-- Settles O50: each instruction by what its block, its slot, its package or its task decides, in the order of the model. -/
theorem keysScrubsAndImages : Obligations.KeysScrubsAndImages := by
  intro s q c d a b g n k at_ y z p
  refine ⟨fun h => ⟨exec_keyz h, fun hq hz hat_ hp => ⟨fun hk => ⟨fun full => ?_, fun v empty sound => ?_, fun empty bad => ?_⟩,
    fun j idle sound => ?_, fun idle bad => ?_, fun busy => ?_, exec_migr_of_no_block h hq hz hat_, fun w block => ?migr⟩⟩,
    fun h hq hz hat_ hk => ⟨exec_imgchk_of_out h hq hz hk, fun reach =>
      ⟨exec_imgchk_of_no_image h hq hz hat_ hk reach, fun bytes => exec_imgchk_of_image h hq hz hat_ hk reach⟩⟩⟩
  · exact (exec_keyld h hq hz hat_ hp hk).trans (if_pos full)
  · rw [exec_keyld h hq hz hat_ hp hk, if_neg (not_not_intro empty), sound]
  · rw [exec_keyld h hq hz hat_ hp hk, if_neg (not_not_intro empty), bad]
  · rw [exec_scrub h hq hz hat_ hp, idle, if_neg nofun, sound]
  · rw [exec_scrub h hq hz hat_ hp, idle, if_neg nofun, bad]
  · exact (exec_scrub h hq hz hat_ hp).trans (if_pos busy)
  case migr =>
    have at_q : AtCore q c := atCore_of_flush h.1 hq
    have refused {st} := exec_migr_of_error (d := d) (st := st) h hq hz hat_ block
    refine ⟨fun absent => refused (migrationOf_of_no_task absent), fun x hx => ⟨
      fun foreign => refused (migrationOf_of_foreign at_q hz.symm hx foreign),
      fun own ended => refused (migrationOf_of_ended at_q hz.symm hx own ended),
      fun own live placed => refused (migrationOf_of_placed at_q hz.symm hx own live placed), fun own live away => ?_⟩⟩
    have entry {i e dst} := migrationOf_of_entry (i := i) (e := e) (dst := dst) at_q hz.symm hx own live away
    refine ⟨fun bare => refused (migrationOf_of_no_image at_q hz.symm hx own live away bare),
      fun i e dst hi hdst mapped pad key tail align there pkg => ?_, fun i e dst hi hdst mapped bad => ?_,
      fun i hi unmapped => refused (migrationOf_of_no_entry at_q hz.symm hx own live away hi unmapped)⟩
    · refine exec_migr_of_ok h hq hz hat_ block ((entry hi mapped hdst).trans (if_neg ?_))
      simp only [not_or]
      exact ⟨not_not_intro pad, Nat.not_le.mpr key, not_not_intro tail, not_not_intro align, by rw [there]; nofun, by rw [pkg]; nofun⟩
    · exact refused ((entry hi mapped hdst).trans (if_pos bad))

end Sys2Proof.Execution
end

section
/-! SUPPORT. The scheduler: the decision table, its actions, slice boundaries (01 R56, 23 R403 to R406, 27 R457). -/
namespace Sys2Proof.Execution
open Machine Claims

theorem evTask_atOutside {s : State} {t : Nat} {as : List Nat} (h : AtOutside s (t :: as)) : s.evTask = t := by rw [State.evTask, h]

/-! ### The table (R405) -/

/-- The debugger has claimed the gang or runs it by steps: the scheduler leaves it alone (R405). -/
theorem free_iff (g : Gang) : (bitAt g.dctl 4 || g.dctl % 8 != 0) = true ↔ bitAt g.dctl 4 = true ∨ g.dctl % 8 ≠ 0 := by simp

theorem not_free_of {g : Gang} (unclaimed : bitAt g.dctl 4 = false) (mode : g.dctl % 8 = 0) :
    (bitAt g.dctl 4 || g.dctl % 8 != 0) = false := by simp [unclaimed, mode]

section Table
variable {s : State} {x y : Task} {g : Gang} {cand : Option Task} {again : Bool}

section Hot
variable (hot : ∃ p ∈ g.pkgs, (s.pkg p).pewter.hotWarn = true)
include hot

theorem rowFor_of_hot : s.rowFor x g cand again = if (bitAt g.dctl 4 || g.dctl % 8 != 0) = true then 2 else 5 :=
  if_pos (List.any_eq_true.mpr hot)

theorem rowFor_of_hot_free (free : bitAt g.dctl 4 = true ∨ g.dctl % 8 ≠ 0) : s.rowFor x g cand again = 2 := by
  rw [rowFor_of_hot hot, if_pos ((free_iff g).mpr free)]

theorem rowFor_of_hot_scheduled (unclaimed : bitAt g.dctl 4 = false) (mode : g.dctl % 8 = 0) : s.rowFor x g cand again = 5 := by
  rw [rowFor_of_hot hot, not_free_of unclaimed mode, if_neg nofun]

end Hot

/-- A candidate that wants the tiles of a gang and precedes its task is not one that leaves it alone. -/
theorem not_unwanted (wanted : s.wants y g = true) (precedes : y.fn ≠ x.fn ∨ x.desc.prio < y.effective) :
    ¬(s.wants y g = false ∨ (y.fn = x.fn ∧ y.effective ≤ x.desc.prio)) := by
  rintro (unwanted | ⟨same, behind⟩)
  · exact Bool.false_ne_true (unwanted.symm.trans wanted)
  · exact precedes.elim (fun other => other same) (fun ahead => Nat.not_le.mpr ahead behind)

variable (cool : ∀ p ∈ g.pkgs, (s.pkg p).pewter.hotWarn = false)
include cool

theorem not_hot : ¬(g.pkgs.any (fun p => (s.pkg p).pewter.hotWarn) = true) := by simpa using cool

theorem rowFor_of_no_candidate : s.rowFor x g none again = 1 := if_neg (not_hot cool)

/-- With a candidate the rows are asked for in their order. -/
theorem rowFor_of_candidate : s.rowFor x g (some y) again
    = if s.wants y g = false ∨ (y.fn = x.fn ∧ y.effective ≤ x.desc.prio) then 1
      else if (bitAt g.dctl 4 || g.dctl % 8 != 0) = true then 2
      else if ((g.tile 0).map (fun z => z.estm.toNat)).getD 0 ≤ s.sliceCycles / 8 ∧ (!x.extended) = true ∧ (!again) = true then 3
      else if bitAt x.desc.policy 1 = true ∧ (y.effective ≤ x.desc.prio + 3 ∨ (!bitAt x.desc.policy 2) = true) then 4
      else if bitAt x.desc.policy 2 = true then 5
      else 6 := if_neg (not_hot cool)

theorem rowFor_of_unwanted (stays : s.wants y g = false ∨ (y.fn = x.fn ∧ y.effective ≤ x.desc.prio)) :
    s.rowFor x g (some y) again = 1 := by
  rw [rowFor_of_candidate cool, if_pos stays]

variable (wanted : s.wants y g = true) (precedes : y.fn ≠ x.fn ∨ x.desc.prio < y.effective)
include wanted precedes

theorem rowFor_of_free (free : bitAt g.dctl 4 = true ∨ g.dctl % 8 ≠ 0) : s.rowFor x g (some y) again = 2 := by
  rw [rowFor_of_candidate cool, if_neg (not_unwanted wanted precedes), if_pos ((free_iff g).mpr free)]

variable (unclaimed : bitAt g.dctl 4 = false) (mode : g.dctl % 8 = 0)
include unclaimed mode

theorem rowFor_of_extension (short : ((g.tile 0).map (fun z => z.estm.toNat)).getD 0 ≤ s.sliceCycles / 8) (first : x.extended = false)
    (decided : again = false) : s.rowFor x g (some y) again = 3 := by
  rw [rowFor_of_candidate cool, if_neg (not_unwanted wanted precedes), not_free_of unclaimed mode, if_neg nofun,
    if_pos ⟨short, by rw [first]; rfl, by rw [decided]; rfl⟩]

variable (long : s.sliceCycles / 8 < ((g.tile 0).map (fun z => z.estm.toNat)).getD 0 ∨ x.extended = true ∨ again = true)
include long

/-- Without an extension the policy decides. -/
theorem rowFor_of_policy : s.rowFor x g (some y) again
    = if bitAt x.desc.policy 1 = true ∧ (y.effective ≤ x.desc.prio + 3 ∨ (!bitAt x.desc.policy 2) = true) then 4
      else if bitAt x.desc.policy 2 = true then 5
      else 6 := by
  rw [rowFor_of_candidate cool, if_neg (not_unwanted wanted precedes), not_free_of unclaimed mode, if_neg nofun, if_neg]
  rintro ⟨short, first, decided⟩
  rcases long with long | extended | again
  · omega
  · rw [extended] at first
    exact Bool.false_ne_true first
  · rw [again] at decided
    exact Bool.false_ne_true decided

theorem rowFor_of_drain (drains : bitAt x.desc.policy 1 = true) (near : y.effective ≤ x.desc.prio + 3 ∨ bitAt x.desc.policy 2 = false) :
    s.rowFor x g (some y) again = 4 := by
  rw [rowFor_of_policy cool wanted precedes unclaimed mode long, if_pos ⟨drains, near.imp id (fun none_ => by rw [none_]; rfl)⟩]

theorem rowFor_of_checkpoint (far : bitAt x.desc.policy 1 = false ∨ (x.desc.prio + 3 < y.effective ∧ bitAt x.desc.policy 2 = true))
    (checkpoints : bitAt x.desc.policy 2 = true) : s.rowFor x g (some y) again = 5 := by
  rw [rowFor_of_policy cool wanted precedes unclaimed mode long, if_neg, if_pos checkpoints]
  rintro ⟨drains, near⟩
  rw [checkpoints] at near
  rcases far with off | ⟨ahead, -⟩
  · exact Bool.false_ne_true (off.symm.trans drains)
  · exact near.elim (fun near => Nat.not_le.mpr ahead near) nofun

theorem rowFor_of_kill (no_drain : bitAt x.desc.policy 1 = false) (no_checkpoint : bitAt x.desc.policy 2 = false) :
    s.rowFor x g (some y) again = 6 := by
  rw [rowFor_of_policy cool wanted precedes unclaimed mode long, no_drain, no_checkpoint]
  rfl

end Table

/-! ### The actions (R43, R404, R405) -/

section Actions
variable {s : State} {t : Nat} {x : Task} {g : Gang} (hx : s.task t = some x) (hg : s.gang t = some g)
include hg

theorem actOn_drain (drain : g.drain = none) (holds : ∀ h ∈ g.holds, h.cause ≠ 2) :
    s.actOn t 4 = s.onGang t (fun _ => { g with drain := some (g.lcyc + max g.h 8192, 0) }) :=
  State.onGang_at s t g hg (if_neg (by simpa [drain] using holds))

include hx

theorem actOn_checkpoint : s.actOn t 5 = if x.st = .held then (if g.holdsFor 5 = true then s else s.startSave t 2)
    else if g.holds.any (fun h => h.cause == 2) = true then s
    else s.onGang t (fun g => { g.announceAt 2 (g.lcyc + g.lead) 0 with drain := none }) := by
  simp only [State.actOn, hx, hg]

theorem actOn_checkpoint_of_running (runs : x.st ≠ .held) (holds : ∀ h ∈ g.holds, h.cause ≠ 2) :
    s.actOn t 5 = s.onGang t (fun _ => { g with
      holds := g.holds ++ [{ cause := 2, ta := g.lcyc, th := g.lcyc + max g.h 8192, gid := 0, buf := 64 }], drain := none }) := by
  have ahead : max g.lcyc (g.lcyc + max g.h 8192) = g.lcyc + max g.h 8192 := max_eq_right (Nat.le_add_right ..)
  rw [actOn_checkpoint hx hg, if_neg runs, if_neg (by simpa using holds)]
  refine State.onGang_at s t g hg ?_
  rw [Gang.announceAt, Gang.lead, decisionLead, ahead]

end Actions

/-! ### Decisions and boundaries (R403, R404) -/

section Events
variable {s : State} {i : Nat} {p : Partition} (hat : AtOutside s [i])
include hat

theorem exec_schedulerDecision_of_none (absent : find? s.parts i = none) : exec .schedulerDecision s = .next s := by
  show execSchedulerDecision s = _
  simp only [execSchedulerDecision, arg_zero_atOutside hat, absent]

theorem exec_sliceBoundary_of_none (absent : find? s.parts i = none) : exec .sliceBoundary s = .next s := by
  show execSliceBoundary s = _
  simp only [execSliceBoundary, arg_zero_atOutside hat, absent]

variable (hp : find? s.parts i = some p)
include hp

/-- A decision fixes the next function, then decides for each task that stands in the partition. -/
theorem exec_schedulerDecision_of_some {q : State} (hq : q = { s with parts := setKey s.parts i { p with next := s.nextFn p } }) :
    exec .schedulerDecision s
      = .next ((q.tasksOf p).foldl (fun s' x => s'.decide x.id (q.candidate i { p with next := s.nextFn p }) false) q) := by
  subst hq
  show execSchedulerDecision s = _
  simp only [execSchedulerDecision, arg_zero_atOutside hat, hp]

/-- A boundary makes the next function the current one, ages the heads and performs the kills that are due. -/
theorem exec_sliceBoundary_of_some {r q : State} (hr : r = s.instant p.pkg)
    (hq : q = { r with parts := setKey r.parts i { p with turn := if p.next < 256 then p.next else r.nextFn p, next := 256 } }) :
    exec .sliceBoundary s = .next (((q.agedBy i p).foldl State.ageHead q).dueKills) := by
  subst hr hq
  show execSliceBoundary s = _
  simp only [execSliceBoundary, arg_zero_atOutside hat, hp]

end Events

section Redecide
variable {s : State} {t gid : Nat} {x : Task} (hat : AtEvent s t gid) (hx : s.task t = some x)
include hat hx

theorem exec_extensionRedecide_of_none (none_ : x.redecide = none) : exec .extensionRedecide s = .next s := by
  show execExtensionRedecide s = _
  simp only [execExtensionRedecide, evTask_atEvent hat, hx, none_]

variable {w : Nat} (hw : x.redecide = some w)
include hw

theorem exec_extensionRedecide_of_away (away : s.parts.find? (fun e => (s.tasksOf e.2).any (fun y => y.id == t)) = none) :
    exec .extensionRedecide s = .next (s.onTask t (fun y => { y with redecide := none })) := by
  show execExtensionRedecide s = _
  simp only [execExtensionRedecide, evTask_atEvent hat, hx, hw, away]

/-- An extension that is over is decided without row 3. -/
theorem exec_extensionRedecide_of_placed {e : Nat × Partition}
    (placed : s.parts.find? (fun e => (s.tasksOf e.2).any (fun y => y.id == t)) = some e) :
    exec .extensionRedecide s = .next (if w ≤ s.wall then s.decide t (s.candidate e.1 e.2) true else s) := by
  show execExtensionRedecide s = _
  simp only [execExtensionRedecide, evTask_atEvent hat, hx, hw, placed]

end Redecide

/-! ### The statement about the scheduler -/

/-- The row that R405 gives a task, by what decides it. -/
theorem rowFor_by_table {s : State} {x : Task} {g : Gang} {cand : Option Task} {again : Bool} {row : Nat}
    (hrow : row = s.rowFor x g cand again) :
    ((∃ p ∈ g.pkgs, (s.pkg p).pewter.hotWarn = true) →
      (bitAt g.dctl 4 = true ∨ g.dctl % 8 ≠ 0 → row = 2) ∧ (bitAt g.dctl 4 = false → g.dctl % 8 = 0 → row = 5))
    ∧ ((∀ p ∈ g.pkgs, (s.pkg p).pewter.hotWarn = false) →
      (cand = none → row = 1)
      ∧ (∀ y e m, cand = some y → e = ((g.tile 0).map (fun z => z.estm.toNat)).getD 0 → m = x.desc.policy →
        (s.wants y g = false ∨ (y.fn = x.fn ∧ y.effective ≤ x.desc.prio) → row = 1)
        ∧ (s.wants y g = true → y.fn ≠ x.fn ∨ x.desc.prio < y.effective →
          (bitAt g.dctl 4 = true ∨ g.dctl % 8 ≠ 0 → row = 2)
          ∧ (bitAt g.dctl 4 = false → g.dctl % 8 = 0 →
            (e ≤ s.sliceCycles / 8 → x.extended = false → again = false → row = 3)
            ∧ (s.sliceCycles / 8 < e ∨ x.extended = true ∨ again = true →
              (bitAt m 1 = true → y.effective ≤ x.desc.prio + 3 ∨ bitAt m 2 = false → row = 4)
              ∧ (bitAt m 1 = false ∨ (x.desc.prio + 3 < y.effective ∧ bitAt m 2 = true) → bitAt m 2 = true → row = 5)
              ∧ (bitAt m 1 = false → bitAt m 2 = false → row = 6)))))) := by
  refine ⟨fun hot => ⟨fun free => ?_, fun unclaimed mode => ?_⟩, fun cool => ⟨fun none_ => ?_, fun y e m hy he hm => ?_⟩⟩
  · rw [hrow, rowFor_of_hot_free hot free]
  · rw [hrow, rowFor_of_hot_scheduled hot unclaimed mode]
  · rw [hrow, none_, rowFor_of_no_candidate cool]
  · subst hm
    rw [hy] at hrow
    refine ⟨fun stays => hrow.trans (rowFor_of_unwanted cool stays), fun wanted precedes =>
      ⟨fun free => hrow.trans (rowFor_of_free cool wanted precedes free),
        fun unclaimed mode => ⟨fun short first decided => ?_, fun long => ?_⟩⟩⟩
    · exact hrow.trans (rowFor_of_extension cool wanted precedes unclaimed mode (he ▸ short) first decided)
    · rw [he] at long
      exact ⟨fun drains near => hrow.trans (rowFor_of_drain cool wanted precedes unclaimed mode long drains near),
        fun far checkpoints => hrow.trans (rowFor_of_checkpoint cool wanted precedes unclaimed mode long far checkpoints),
        fun no_drain no_checkpoint => hrow.trans (rowFor_of_kill cool wanted precedes unclaimed mode long no_drain no_checkpoint)⟩

end Sys2Proof.Execution
end

section
/-! SUPPORT. The debugger: steps, DCTL, debug registers, releases, edits of a freeze image (02 R61, R62, 25 R418, R432 to R436). -/
namespace Sys2Proof.Execution
open Machine Claims

section Debug
variable {s : State} {t v : Nat} {g : Gang} {x : Task} {as : List Nat} (hat : AtOutside s (t :: as)) (hg : s.gang t = some g)
  (hx : s.task t = some x)
include hat hx

/-- DEBUG_HOLD_RELEASE of a held gang ends its debug holds that are due (R435). -/
theorem exec_debugHoldRelease_of_held (held : x.st = .held) : exec .debugHoldRelease s
    = .next (((s.releaseLaunches t).onGang t (fun k =>
        { k with holds := k.holds.filter (fun h => k.lcyc < h.th || h.cause != 3) })).planResume t) := by
  show execDebugHoldRelease s = _
  simp only [execDebugHoldRelease, evTask_atOutside hat, hx, if_pos held]

theorem exec_debugHoldRelease_of_running (runs : x.st ≠ .held) : exec .debugHoldRelease s = .next s := by
  show execDebugHoldRelease s = _
  simp only [execDebugHoldRelease, evTask_atOutside hat, hx, if_neg runs]

include hg

/-- DEBUG_STEP of a gang that only the debugger holds, in step mode (R61). -/
theorem exec_debugStep : exec .debugStep s
    = .next (if x.st = .held ∧ g.dctl % 8 = 1 ∧ g.holdsFor 4 = false ∧ g.holdsFor 5 = false then
        (s.thawAll t).elim s (fun q => (q.runOn t).onGang t (fun k => k.announceAt 3 (k.lcyc + 1) 0))
      else s) := by
  show execDebugStep s = _
  rw [execDebugStep, evTask_atOutside hat, State.stepGang, hx, hg]
  cases s.thawAll t <;> rfl

theorem exec_debugRelease : exec .debugRelease s
    = .next (if x.st = .held ∧ g.holdsFor 5 = true then (s.releaseLaunches t).endTask t (256 + g.faultClass) else s) := by
  show execDebugRelease s = _
  simp only [execDebugRelease, evTask_atOutside hat, hx, hg]

end Debug

/-- A step ends at the next cycle (R61). -/
theorem announceAt_next (k : Gang) : k.announceAt 3 (k.lcyc + 1) 0
    = { k with holds := k.holds ++ [{ cause := 3, ta := k.lcyc, th := k.lcyc + 1, gid := 0, buf := 64 }] } := by
  rw [Gang.announceAt, max_eq_right (Nat.le_succ k.lcyc)]

/-! ### DCTL (R432, R434, R435) -/

section Dctl
variable {s p q r : State} {t v : Nat} {g : Gang} {x : Task} (hat : AtOutside s [t, v]) (hg : s.gang t = some g)
  (hx : s.task t = some x)
include hat hg hx

theorem exec_dctlWrite_of_reserved (reserved : 3 ≤ v % 8) : exec .dctlWrite s = .next s := by
  show execDctlWrite s = _
  simp only [execDctlWrite, evTask_atOutside hat, arg_atOutside hat, nthD, State.writeDctl, hx, hg, if_pos reserved]

/-- A write of DCTL: the claim and the boundary bit, then the mode, then what the end of a claim releases. -/
theorem exec_dctlWrite (mode : v % 8 < 3) (hp : p = s.onGang t (fun _ => { g with dctl := g.dctl % 8 + v / 8 % 4 * 8 }))
    (hq : q = if x.st = .held then
        (if g.dctl % 8 = v % 8 then p else (p.applyMode t (v % 8)).onGang t (fun k => { k with resumeAt := none }))
      else p.onGang t (fun k => { k with dctlNext := some (v % 8) }))
    (hr : r = if bitAt g.dctl 4 = true ∧ (!bitAt v 4) = true then q.releaseLaunches t else q) :
    exec .dctlWrite s
      = .next (if x.st = .held ∧ g.holdsFor 5 = true ∧ (!bitAt v 4) = true then r.endTask t (256 + g.faultClass) else r) := by
  have same : s.onGang t (fun k => { k with dctl := k.dctl % 8 + v / 8 % 4 * 8 }) = p :=
    (State.onGang_at s t g hg (f := fun k => { k with dctl := k.dctl % 8 + v / 8 % 4 * 8 })
      (h := fun _ => { g with dctl := g.dctl % 8 + v / 8 % 4 * 8 }) rfl).trans hp.symm
  subst hr hq
  show execDctlWrite s = _
  simp only [execDctlWrite, evTask_atOutside hat, arg_atOutside hat, nthD, State.writeDctl, hx, hg, if_neg (Nat.not_le.mpr mode), same]

end Dctl

/-! ### Breakpoints and watch ranges (R432) -/

section Registers
variable {s q : State} {p f r v : Nat} (hat : AtOutside s [p, f, r, v])
include hat

theorem exec_debugRegisterWrite : exec .debugRegisterWrite s = .next (s.writeDebug p f r v) := by
  show execDebugRegisterWrite s = _
  simp only [execDebugRegisterWrite, arg_atOutside hat, nthD]

end Registers

theorem setDebug_of_defined {r v : Nat} {w : Word} (defined : r < 12) (hw : w = debugFields r v) (x : Tile) :
    x.setDebug r v = if r < 8 then { x with bpa := put 0 x.bpa r w } else { x with wr := put 0 x.wr (r - 8) w } := by
  rw [Tile.setDebug, hw, if_pos defined]

theorem writeDebug_of_defined {s q : State} {p f r v : Nat} (register : r < 12) (tile : f < 32)
    (hq : q = s.setPkg p { s.pkg p with debug := setKey (s.pkg p).debug f (put 0 (look [] (s.pkg p).debug f) r (debugFields r v)) }) :
    s.writeDebug p f r v = (q.tileAt p f).elim q (fun e => q.onTile e.1 e.2 (fun x => x.setDebug r v)) := by
  have kept : ¬(12 ≤ r ∨ 32 ≤ f) := by omega
  subst hq
  simp only [State.writeDebug, if_neg kept]
  split <;> rename_i runs <;> simp only [runs, Option.elim]

/-! ### Edits of a freeze image (R436) -/

section Edit
variable {s : State} {t kind gid n v p : Nat} {x : Task} (hat : AtOutside s [t, kind, gid, n, v, p]) (hx : s.task t = some x)
include hat hx

/-- The image that a hold saves of a standing gang is edited with the gang. -/
theorem exec_freezeImageEdit_of_gang {g : Gang} (hg : x.gang = some g) : exec .freezeImageEdit s
    = .next (if x.st = .held ∧ x.snap ≠ none then (s.onGang t (fun k => k.edit kind gid n v p)).snapGang t else s) := by
  show execFreezeImageEdit s = _
  simp only [execFreezeImageEdit, evTask_atOutside hat, arg_atOutside hat, nthD, hx, hg, Option.isSome_iff_ne_none]

/-- Else the freeze images that are saved or left to be read. -/
theorem exec_freezeImageEdit_of_no_gang (away : x.gang = none) : exec .freezeImageEdit s = .next (s.onTask t (fun y => { y with
    image := y.image.map (fun i => if i.kind = 2 then (i.gang.edit kind gid n v p).image 2 i.gen else i)
    snap := y.snap.map (fun i => (i.gang.edit kind gid n v p).image 2 i.gen) })) := by
  show execFreezeImageEdit s = _
  simp only [execFreezeImageEdit, evTask_atOutside hat, arg_atOutside hat, nthD, hx, away]
  rfl

end Edit

section Field
variable {g : Gang} {x : Tile} {kind gid n v p : Nat} (hx : g.tile gid = some x) (field : kind ≠ 0)
include hx field

theorem edit_of_some {y : Tile} (hy : x.edit kind n v p = some y) : g.edit kind gid n v p = g.onTile gid (fun _ => y) := by
  simp only [Gang.edit, if_neg field, hx, Option.bind_some, hy]

theorem edit_of_none (hy : x.edit kind n v p = none) : g.edit kind gid n v p = g := by
  simp only [Gang.edit, if_neg field, hx, Option.bind_some, hy]

end Field

/-- The fields of a freeze image that R436 lets a debugger edit, within their limits. -/
theorem edits_within_limits {g : Gang} {x : Tile} (gid n v p : Nat) (hx : g.tile gid = some x) :
    (1 ≤ n → n < 32 → v < 2 ^ 64 → p < 2 → g.edit 1 gid n v p
      = g.onTile gid (fun _ => x.setSreg n { val := BitVec.ofNat 64 v, poison := p == 1 }))
    ∧ (1 ≤ n → n < 8 → v < 2 → g.edit 2 gid n v p = g.onTile gid (fun _ => x.setPred n (v == 1)))
    ∧ (n < x.size → v < 256 → g.edit 4 gid n v p = g.onTile gid (fun _ => { x with scratch := writeByte x.scratch n (BitVec.ofNat 8 v) }))
    ∧ (v < 4 * x.codeLen → v % 4 = 0 → g.edit 5 gid n v p = g.onTile gid (fun _ => { x with pc := v }))
    ∧ (4 * x.codeLen ≤ v ∨ v % 4 ≠ 0 → g.edit 5 gid n v p = g)
    ∧ (n < 128 → v < 2 ^ 1024 → p < 2 ^ 32 → g.edit 7 gid n v p = g.onTile gid (fun _ =>
        { x with v := put VEntry.zero x.v n { bits := BitVec.ofNat 1024 v, poison := BitVec.ofNat 32 p } }))
    ∧ (2 ^ 64 ≤ v → g.edit 3 gid n v p = g) := by
  refine ⟨fun low high value mark => ?_, fun low high value => ?_, fun low value => ?_, fun inside aligned => ?_, fun bad => ?_,
    fun entry value mark => ?_, fun large => ?_⟩
  · exact edit_of_some (kind := 1) hx (by decide)
      (if_pos (by simp only [Bool.and_eq_true, decide_eq_true_eq]; exact ⟨⟨⟨low, high⟩, value⟩, mark⟩))
  · exact edit_of_some (kind := 2) hx (by decide)
      (if_pos (by simp only [Bool.and_eq_true, decide_eq_true_eq]; exact ⟨⟨low, high⟩, value⟩))
  · exact edit_of_some (kind := 4) hx (by decide)
      (if_pos (by simp only [Bool.and_eq_true, decide_eq_true_eq]; exact ⟨low, value⟩))
  · exact edit_of_some (kind := 5) hx (by decide)
      (if_pos (by simp only [Bool.and_eq_true, decide_eq_true_eq, beq_iff_eq]; exact ⟨inside, aligned⟩))
  · refine edit_of_none (kind := 5) hx (by decide) (if_neg ?_)
    simp only [Bool.and_eq_true, decide_eq_true_eq, beq_iff_eq]
    omega
  · exact edit_of_some (kind := 7) hx (by decide)
      (if_pos (by simp only [Bool.and_eq_true, decide_eq_true_eq]; exact ⟨⟨entry, value⟩, mark⟩))
  · exact edit_of_none (kind := 3) hx (by decide) (if_pos large)

/-- Settles O57: the decision is the row of the table and its action; each event of the debugger asks for the task's state first. -/
theorem schedulerAndDebugger : Obligations.SchedulerAndDebugger := by
  refine ⟨⟨?decision, ?redecide, ?table⟩, ?held, ?dctl, ?registers, ?edit, fun g x gid n v p hx => edits_within_limits gid n v p hx⟩
  case decision =>
    exact fun s q i p hat => ⟨fun absent => ⟨exec_schedulerDecision_of_none hat absent, exec_sliceBoundary_of_none hat absent⟩,
      fun hp => ⟨exec_schedulerDecision_of_some hat hp, fun r hr hq => exec_sliceBoundary_of_some hat hp hr hq⟩⟩
  case redecide =>
    intro s t gid x hat hx
    refine ⟨exec_extensionRedecide_of_none hat hx, fun w hw => ⟨exec_extensionRedecide_of_away hat hx hw,
      fun e placed => ⟨fun expired => ?_, fun lasts => ?_⟩⟩⟩
    · rw [exec_extensionRedecide_of_placed hat hx hw placed, if_pos expired]
    · rw [exec_extensionRedecide_of_placed hat hx hw placed, if_neg (Nat.not_le.mpr lasts)]
  case table =>
    intro s t row cand again x g hx hg hrow
    obtain ⟨hot, cool⟩ := rowFor_by_table hrow
    refine ⟨?_, hot, cool, rfl, rfl, rfl, actOn_drain hg, actOn_checkpoint_of_running hx hg,
      fun held fine => ?_, fun held faulty => ?_, rfl⟩
    · simp only [State.decide, hx, hg, hrow]
    · rw [actOn_checkpoint hx hg, if_pos held, fine, if_neg nofun]
      rfl
    · rw [actOn_checkpoint hx hg, if_pos held, if_pos faulty]
  case held =>
    intro s t g x hat hg hx
    have step := exec_debugStep hat hg hx
    have release := exec_debugRelease hat hg hx
    refine ⟨fun runs => ⟨?_, ?_, exec_debugHoldRelease_of_running hat hx runs⟩,
      fun held => ⟨fun mode links faults => ⟨fun q thaws => ?_, fun stuck => ?_⟩,
      fun other => ?_, fun faulty => ?_, fun fine => ?_, exec_debugHoldRelease_of_held hat hx held⟩⟩
    · rw [step, if_neg (fun h => runs h.1)]
    · rw [release, if_neg (fun h => runs h.1)]
    · rw [step, if_pos ⟨held, mode, links, faults⟩, thaws, Option.elim_some, runOn_eq_ranOn]
      simp only [announceAt_next]
    · rw [step, if_pos ⟨held, mode, links, faults⟩, stuck, Option.elim_none]
    · rw [step, if_neg]
      rintro ⟨-, mode, links, faults⟩
      simp [mode, links, faults] at other
    · rw [release, if_pos ⟨held, faulty⟩]
    · rw [release, fine, if_neg (fun h => Bool.false_ne_true h.2)]
  case dctl =>
    intro s t v g x hat hg hx
    refine ⟨exec_dctlWrite_of_reserved hat hg hx, fun mode p q r hp runs same changes hr => ?_⟩
    have hq : q = if x.st = .held then
          (if g.dctl % 8 = v % 8 then p else (p.applyMode t (v % 8)).onGang t (fun k => { k with resumeAt := none }))
        else p.onGang t (fun k => { k with dctlNext := some (v % 8) }) := by
      by_cases held : x.st = .held
      · rw [if_pos held]
        split
        · exact same held ‹_›
        · exact changes held ‹_›
      · rw [if_neg held, runs held, hp, State.onGang_onGang]
    have work := exec_dctlWrite hat hg hx mode hp hq (r := r)
    simp only [Bool.not_eq_true'] at work
    exact work hr
  case registers =>
    intro s p f r v hat
    have write := exec_debugRegisterWrite hat
    refine ⟨fun undefined => write.trans (congrArg Host.Outcome.next (if_pos undefined)), fun register tile w q hw hq => ?_⟩
    have fields : w = debugFields r v := by
      rw [hw, debugFields]
      split <;> rfl
    have work := writeDebug_of_defined register tile (fields ▸ hq)
    refine ⟨fun idle => ?_, fun t gid runs => ?_⟩
    · rw [write, work, idle, Option.elim_none]
    · rw [write, work, runs, Option.elim_some]
      simp only [setDebug_of_defined register fields]
  case edit =>
    intro s t kind gid n v p x hat hx
    refine ⟨fun g hg hg' => ⟨fun held saved => ?_, fun other => ?_⟩, exec_freezeImageEdit_of_no_gang hat hx⟩
    · rw [exec_freezeImageEdit_of_gang hat hx hg, if_pos ⟨held, saved⟩, State.snapGang]
      rw [State.onGang_at s t g hg' (f := fun k => k.edit kind gid n v p) (h := fun _ => g.edit kind gid n v p) rfl]
    · rw [exec_freezeImageEdit_of_gang hat hx hg, if_neg]
      rintro ⟨held, saved⟩
      exact other.elim (fun runs => runs held) saved

end Sys2Proof.Execution
end

section
/-! SUPPORT. Power and resets: POWER_ON, WARM_RESET, FUNCTION_RESET, the critical temperature, PTM (23 R385, 27 R457, R461, R462). -/
namespace Sys2Proof.Execution
open Machine Claims

/-! ### Tables and cores that a package owns -/

/-- A table without the keys that a test rejects. -/
theorem look_filter_key {α : Type} (d : α) (keep : Nat → Bool) (t : Tbl α) (n : Nat) :
    look d (t.filter (fun e => keep e.1)) n = if keep n = true then look d t n else d := by
  induction t with
  | nil => simp [look]
  | cons e t ih =>
    obtain ⟨k, v⟩ := e
    by_cases kept : keep k = true
    · rw [List.filter_cons_of_pos (by exact kept), look, look, ih]
      by_cases same : n = k
      · subst same
        rw [if_pos rfl, if_pos kept, if_pos rfl]
      · rw [if_neg same, if_neg same]
    · rw [List.filter_cons_of_neg (by exact kept), ih, look]
      by_cases same : n = k
      · subst same
        rw [if_neg kept, if_neg kept]
      · rw [if_neg same]

theorem mem_coresOf {p c : Nat} (home : c / 8 = p) : c ∈ coresOf p := mem_upFrom_of_bounds (by omega) (by omega)

theorem home_of_mem_upFrom {lo n c : Nat} (h : c ∈ upFrom lo n) : lo ≤ c ∧ c < lo + n := by
  induction n generalizing lo with
  | zero => cases h
  | succ n ih =>
    rcases List.mem_cons.mp h with rfl | rest
    · exact ⟨le_rfl, by omega⟩
    · have := ih rest
      omega

theorem home_of_mem_coresOf {p c : Nat} (h : c ∈ coresOf p) : c / 8 = p := by
  have := home_of_mem_upFrom h
  omega

/-- Every core of a list set to the same value. -/
theorem core_foldl_setCore (x : AgentCore) (c : Nat) (cs : List Nat) (s : State) :
    (cs.foldl (fun s d => s.setCore d x) s).core c = if c ∈ cs then x else s.core c := by
  induction cs generalizing s with
  | nil => simp
  | cons d cs ih =>
    rw [List.foldl_cons, ih, State.core_setCore]
    by_cases same : c = d <;> by_cases later : c ∈ cs <;> simp [same, later]

/-! ### Training of the links (R446) -/

@[simp] theorem pkg_setPkg_same (s : State) (p : Nat) (k : Pkg) : (s.setPkg p k).pkg p = k := by simp [State.pkg, State.setPkg]

/-- What training leaves of its package: everything but the links. -/
theorem pkg_trainLink (s : State) (p l : Nat) : ({ (s.trainLink p l).pkg p with links := [] } : Pkg) = { s.pkg p with links := [] } := by
  show ({ ((s.setLink p l _).pkg p) with links := [] } : Pkg) = _
  rw [State.setLink, pkg_setPkg_same]

theorem link_setLink (s : State) (p l m : Nat) (x : Link) : (s.setLink p l x).link p m = if m = l then x else s.link p m := by
  rw [State.link, State.setLink, pkg_setPkg_same, look_setKey, State.link]

theorem latency_trainLink (s : State) (p l m : Nat) :
    ((s.trainLink p l).link p m).latency = if m = l then some (Config.linkLatency p l) else (s.link p m).latency := by
  show ((s.setLink p l _).link p m).latency = _
  rw [link_setLink]
  split <;> rfl

theorem latency_trainLinks (p m : Nat) (ls : List Nat) (s : State)
    (h : m ∈ ls ∨ (s.link p m).latency = some (Config.linkLatency p m)) :
    ((ls.foldl (fun s l => s.trainLink p l) s).link p m).latency = some (Config.linkLatency p m) := by
  induction ls generalizing s with
  | nil => exact h.resolve_left (List.not_mem_nil)
  | cons l ls ih =>
    refine ih _ ?_
    by_cases same : m = l
    · exact Or.inr (by rw [latency_trainLink, if_pos same, same])
    · rw [latency_trainLink, if_neg same]
      exact h.imp_left (fun mem => (List.mem_cons.mp mem).resolve_left same)

/-! ### POWER_ON (R461) -/

/-- A package that boots, with its links trained. -/
def trainedPackage (s : State) (p : Nat) : State :=
  (List.range 12).foldl (fun s l => s.trainLink p l) ((s.losePackage p).setPkg p ((s.pkg p).booted s.wall))

section Trained
variable (s : State) (p : Nat)

/-- What no training of a link changes stands as the package left it. -/
theorem trainedPackage_keeps {γ : Type} (f : State → γ) (h : ∀ u l, f (u.trainLink p l) = f u) :
    f (trainedPackage s p) = f ((s.losePackage p).setPkg p ((s.pkg p).booted s.wall)) := foldl_keeps f _ h _ _

theorem trainedPackage_pkg : ({ (trainedPackage s p).pkg p with links := [] } : Pkg) = (s.pkg p).booted s.wall := by
  rw [trainedPackage_keeps s p (fun u => ({ u.pkg p with links := [] } : Pkg)) (fun u l => pkg_trainLink u p l), pkg_setPkg_same]
  rfl

theorem trainedPackage_core (c : Nat) : (trainedPackage s p).core c = if c / 8 = p then AgentCore.reset else s.core c := by
  have cores := trainedPackage_keeps s p State.cores (fun _ _ => rfl)
  have kept : (s.losePackage p).cores = s.cores.filter (fun e => e.1 / 8 != p) := rfl
  rw [State.core, cores, State.setPkg, kept, look_filter_key AgentCore.reset (fun n => n / 8 != p), State.core]
  by_cases home : c / 8 = p <;> simp [home]

/-- The package after the functions of the host port have taken their reset values with the package of the lowest identity. -/
def bootedDomain : State := if p = 0 then (trainedPackage s p).resetDomain else trainedPackage s p

theorem bootedDomain_keeps {γ : Type} (f : State → γ) (h : ∀ u, f u.resetDomain = f u) :
    f (bootedDomain s p) = f (trainedPackage s p) := by
  rw [bootedDomain]
  split
  · exact h _
  · rfl

/-- The agent firmware that a package boots with. -/
def bootFirmware : List Byte := ((s.pkg p).pewter.bank (s.pkg p).pewter.bootBank).agent

theorem powerOn_eq : s.powerOn p = if (bootFirmware s p).isEmpty = true then bootedDomain s p
    else (coresOf p).foldl (fun u c => u.setCore c (AgentCore.released [] (bootFirmware s p))) (bootedDomain s p) := rfl

/-- What neither a domain's reset nor a core's release changes stands after POWER_ON as training left it. -/
theorem powerOn_keeps {γ : Type} (f : State → γ) (domain : ∀ u, f u.resetDomain = f u) (release : ∀ u c x, f (u.setCore c x) = f u) :
    f (s.powerOn p) = f (trainedPackage s p) := by
  rw [powerOn_eq]
  split
  · exact bootedDomain_keeps s p f domain
  · exact (foldl_keeps f _ (fun u c => release u c _) _ _).trans (bootedDomain_keeps s p f domain)

theorem core_powerOn_same {c : Nat} (home : c / 8 = p) : (s.powerOn p).core c = AgentCore.released [] (bootFirmware s p) := by
  have before : (bootedDomain s p).core c = AgentCore.reset := by
    rw [bootedDomain_keeps s p (fun u => u.core c) (fun _ => rfl), trainedPackage_core, if_pos home]
  rw [powerOn_eq]
  split
  next empty =>
    rw [before, List.isEmpty_iff.mp empty]
    rfl
  next => rw [core_foldl_setCore, if_pos (mem_coresOf home)]

theorem core_powerOn_other {c : Nat} (away : c / 8 ≠ p) : (s.powerOn p).core c = s.core c := by
  have before : (bootedDomain s p).core c = s.core c := by
    rw [bootedDomain_keeps s p (fun u => u.core c) (fun _ => rfl), trainedPackage_core, if_neg away]
  rw [powerOn_eq]
  split
  · exact before
  · rw [core_foldl_setCore, if_neg (fun mem => away (home_of_mem_coresOf mem)), before]

theorem latency_powerOn {l : Nat} (hl : l < 12) : ((s.powerOn p).link p l).latency = some (Config.linkLatency p l) := by
  rw [powerOn_keeps s p (fun u => u.link p l) (fun _ => rfl) (fun _ _ _ => rfl)]
  exact latency_trainLinks p l _ _ (Or.inl (List.mem_range.mpr hl))

theorem powerOn_pkg : ({ (s.powerOn p).pkg p with links := [] } : Pkg) = (s.pkg p).booted s.wall := by
  rw [powerOn_keeps s p (fun u => u.pkg p) (fun _ => rfl) (fun _ _ _ => rfl)]
  exact trainedPackage_pkg s p

/-- The domain of the package of the lowest identity takes its reset values. -/
theorem powerOn_domain (lowest : p = 0) : (s.powerOn p).fns = [] ∧ (s.powerOn p).ptm = none := by
  have fns : (bootedDomain s p).fns = [] := by rw [bootedDomain, if_pos lowest]; rfl
  have ptm : (bootedDomain s p).ptm = none := by rw [bootedDomain, if_pos lowest]; rfl
  rw [powerOn_eq]
  split
  · exact ⟨fns, ptm⟩
  · have cores {γ : Type} (f : State → γ) := foldl_keeps f (fun u c => u.setCore c (AgentCore.released [] (bootFirmware s p)))
    exact ⟨(cores State.fns (fun _ _ => rfl) _ _).trans fns, (cores State.ptm (fun _ _ => rfl) _ _).trans ptm⟩

end Trained

/-! ### WARM_RESET (R385) -/

/-- A core as a reset leaves its control: at its start, at device level, waiting for nothing, its scalar registers 0. -/
def Restarted (x : AgentCore) : Prop := x.pc = AgentCore.reset.pc ∧ x.lv = 1 ∧ x.wait = none ∧ x.s = []

theorem restarted_released (sram : List Host.Cell) (fw : List Byte) : Restarted (AgentCore.released sram fw) := ⟨rfl, rfl, rfl, rfl⟩

/-- A core that waits for nothing is not woken. -/
theorem restarted_wakeCores {cs : Tbl AgentCore} {d : Nat} (a n : Nat) (h : Restarted (look AgentCore.reset cs d)) :
    Restarted (look AgentCore.reset (wakeCores cs a n) d) := by
  induction cs with
  | nil => exact h
  | cons e cs ih =>
    obtain ⟨k, x⟩ := e
    by_cases same : d = k
    · rw [look, if_pos same] at h
      have asleep : wakeCores ((k, x) :: cs) a n = (k, x) :: wakeCores cs a n := by
        simp only [wakeCores, List.map_cons, h.2.2.1]
      rwa [asleep, look, if_pos same]
    · rw [look, if_neg same] at h
      have key : ∃ y, wakeCores ((k, x) :: cs) a n = (k, y) :: wakeCores cs a n := by
        simp only [wakeCores, List.map_cons]
        split
        · split
          · exact ⟨_, rfl⟩
          · exact ⟨x, rfl⟩
        · exact ⟨x, rfl⟩
      obtain ⟨y, hy⟩ := key
      rw [hy, look, if_neg same]
      exact ih h

theorem restarted_setCore {s : State} {d c : Nat} {y : AgentCore} (h : Restarted (s.core d)) (hy : c = d → Restarted y) :
    Restarted ((s.setCore c y).core d) := by
  rw [State.core_setCore]
  split
  next same => exact hy same.symm
  next => exact h

theorem restarted_agentWrite {s : State} {d : Nat} (c a : Nat) (bs : List PByte) (h : Restarted (s.core d)) :
    Restarted ((s.agentWrite c a bs).core d) := by
  unfold State.agentWrite
  split
  · exact restarted_wakeCores _ _ h
  · exact restarted_wakeCores _ _ h
  · exact restarted_setCore h (fun same => by subst same; exact h)

theorem restarted_performStores {d : Nat} (c : Nat) (xs : List (Store × Bool)) {s : State} (h : Restarted (s.core d)) :
    Restarted ((performStores s c xs).1.core d) := by
  induction xs generalizing s with
  | nil => exact h
  | cons x xs ih =>
    rw [performStores]
    split
    · exact ih (restarted_agentWrite c _ _ h)
    · exact ih h

theorem restarted_flushAll {s : State} {d : Nat} (c : Nat) (h : Restarted (s.core d)) : Restarted ((s.flushAll c).core d) := by
  have performed := restarted_performStores c (markStores (fun _ => true) (s.core c).stores) h
  exact restarted_setCore performed (fun same => by subst same; exact performed)

theorem agentWrite_pkgs (s : State) (c a : Nat) (bs : List PByte) : (s.agentWrite c a bs).pkgs = s.pkgs := by
  unfold State.agentWrite
  split <;> rfl

theorem performStores_pkgs (s : State) (c : Nat) (xs : List (Store × Bool)) : (performStores s c xs).1.pkgs = s.pkgs := by
  induction xs generalizing s with
  | nil => rfl
  | cons x xs ih =>
    rw [performStores]
    split
    · rw [ih, agentWrite_pkgs]
    · exact ih s

theorem flushAll_pkgs (s : State) (c : Nat) : (s.flushAll c).pkgs = s.pkgs := performStores_pkgs s c _

/-- A core starts again: its stores perform or are lost, and the firmware is reloaded. -/
def restartCore (fw : List Byte) (s : State) (c : Nat) : State :=
  let r := s.choose 2
  let s := if r.1 = 0 then r.2 else r.2.flushAll c
  s.setCore c (AgentCore.released (s.core c).sram fw)

theorem restartCore_pkgs (fw : List Byte) (s : State) (c : Nat) : (restartCore fw s c).pkgs = s.pkgs := by
  show State.pkgs (if (s.choose 2).1 = 0 then (s.choose 2).2 else (s.choose 2).2.flushAll c) = _
  split
  · rfl
  · exact flushAll_pkgs _ c

theorem restarted_restartCore {fw : List Byte} {s : State} {d : Nat} (c : Nat) (h : Restarted (s.core d) ∨ d = c) :
    Restarted ((restartCore fw s c).core d) := by
  rw [restartCore, State.core_setCore]
  split
  · exact restarted_released _ _
  next other =>
    have kept := h.resolve_right other
    split
    · exact kept
    · exact restarted_flushAll c kept

theorem restarted_foldl {fw : List Byte} {d : Nat} (cs : List Nat) {s : State} (h : Restarted (s.core d) ∨ d ∈ cs) :
    Restarted ((cs.foldl (restartCore fw) s).core d) := by
  induction cs generalizing s with
  | nil => exact h.resolve_right List.not_mem_nil
  | cons c cs ih =>
    refine ih ?_
    rcases h with kept | mem
    · exact Or.inl (restarted_restartCore c (Or.inl kept))
    · exact (List.mem_cons.mp mem).imp_left (fun same => restarted_restartCore c (Or.inr same))

/-- The cores of a package restarted. -/
def restartedCores (s : State) (p : Nat) : State :=
  (coresOf p).foldl (restartCore ((s.pewter p).bank (s.pewter p).activeBank).agent) s

theorem restartedCores_pkg (s : State) (p q : Nat) : (restartedCores s p).pkg q = s.pkg q := by
  rw [State.pkg, restartedCores, foldl_keeps State.pkgs _ (restartCore_pkgs _), State.pkg]

section Events
variable {s : State} {p : Nat} (hat : AtOutside s [p])
include hat

theorem exec_powerOn_of_absent (absent : s.cfg.packages ≤ p) : exec .powerOn s = .next s := by
  show execPowerOn s = _
  simp only [execPowerOn, arg_atOutside hat, nthD, if_neg (Nat.not_lt.mpr absent)]

theorem exec_powerOn (there : p < s.cfg.packages) : exec .powerOn s = .next (s.powerOn p) := by
  show execPowerOn s = _
  simp only [execPowerOn, arg_atOutside hat, nthD, if_pos there]

theorem exec_warmReset : exec .warmReset s = .next (((restartedCores s p).resetContexts p).setPkg p
    { ((restartedCores s p).resetContexts p).pkg p with
      scrub := (((restartedCores s p).resetContexts p).pkg p).scrub.map ScrubJob.again }) := by
  show execWarmReset s = _
  simp only [execWarmReset, arg_atOutside hat, nthD]
  rfl

theorem exec_functionReset : exec .functionReset s
    = .next (s.setFn p { s.fn p with cqbase := 0, cqsize := 0, cqhead := 0, cqtail := 0, cqlost := 0, cqvec := 0 }) := by
  show execFunctionReset s = _
  simp only [execFunctionReset, arg_atOutside hat, nthD]

theorem exec_criticalTemperature {u q : State} (hu : u = s.logEvent 4 0 (512 * p) 0 0 0)
    (hq : q = pewtered u p { (u.pkg p).pewter with powered := false }) :
    exec .criticalTemperature s = .next { q with tasks := s.tasks.filter (fun e => match e.2.gang with
        | some g => !g.pkgs.contains p
        | none => true) } := by
  subst hq hu
  show execCriticalTemperature s = _
  simp only [execCriticalTemperature, arg_atOutside hat, nthD]
  rfl

theorem exec_ptmSync : exec .ptmSync s = .next { s with ptm := some (s.wall, p) } := by
  show execPtmSync s = _
  simp only [execPtmSync, arg_atOutside hat, nthD]

/-- What a package that has booted is in, and what its power-on leaves. -/
theorem powerOn_leaves (there : p < s.cfg.packages) :
    ∃ u, exec .powerOn s = .next u ∧ u.sys = s.sys ∧ u.parts = s.parts ∧ u.grants = s.grants ∧ u.wall = s.wall
      ∧ u.dev = s.dev.filter (fun e => e.1 / 2 ^ 39 != p) ∧ u.tasks = s.tasks.filter (fun e => !e.2.livesOn p)
      ∧ (u.pkg p).pewter.log = (s.pkg p).pewter.log ∧ (u.pkg p).pewter.banks = (s.pkg p).pewter.banks
      ∧ (u.pkg p).pewter.activeBank = (s.pkg p).pewter.bootBank ∧ (u.pkg p).quarTiles = (s.pkg p).quarTiles
      ∧ (u.pkg p).quarFrames = (s.pkg p).quarFrames ∧ (u.pkg p).since = s.wall ∧ (u.pkg p).pewter.powered = true
      ∧ (∀ c fw, c / 8 = p → fw = (((s.pkg p).pewter.bank (s.pkg p).pewter.bootBank).agent.take 65536) →
        u.core c = { AgentCore.reset with sram := writeBytes [] 0 fw })
      ∧ (∀ c, c / 8 ≠ p → u.core c = s.core c) ∧ (∀ l, l < 12 → (u.link p l).latency = some (Config.linkLatency p l))
      ∧ (p = 0 → u.fns = [] ∧ u.ptm = none) := by
  have kept {γ : Type} (f : State → γ) (domain : ∀ u, f u.resetDomain = f u) (release : ∀ u c x, f (u.setCore c x) = f u)
      (train : ∀ u l, f (u.trainLink p l) = f u) : f (s.powerOn p) = f ((s.losePackage p).setPkg p ((s.pkg p).booted s.wall)) :=
    (powerOn_keeps s p f domain release).trans (trainedPackage_keeps s p f train)
  have own {γ : Type} (f : Pkg → γ) : f { (s.powerOn p).pkg p with links := [] } = f ((s.pkg p).booted s.wall) :=
    congrArg f (powerOn_pkg s p)
  have field {γ : Type} (f : Pewter → γ) : f ((s.powerOn p).pkg p).pewter = f ((s.pkg p).booted s.wall).pewter :=
    congrArg f (own Pkg.pewter)
  refine ⟨s.powerOn p, exec_powerOn hat there, ?_, ?_, ?_, ?_, ?_, ?_, field Pewter.log, field Pewter.banks, field Pewter.activeBank,
    own Pkg.quarTiles, own Pkg.quarFrames, own Pkg.since,
    field Pewter.powered, fun c fw home hfw => hfw ▸ core_powerOn_same s p home, fun c away => core_powerOn_other s p away,
    fun l hl => latency_powerOn s p hl, powerOn_domain s p⟩
  · exact kept State.sys (fun _ => rfl) (fun _ _ _ => rfl) (fun _ _ => rfl)
  · exact kept State.parts (fun _ => rfl) (fun _ _ _ => rfl) (fun _ _ => rfl)
  · exact kept State.grants (fun _ => rfl) (fun _ _ _ => rfl) (fun _ _ => rfl)
  · exact kept State.wall (fun _ => rfl) (fun _ _ _ => rfl) (fun _ _ => rfl)
  · exact kept State.dev (fun _ => rfl) (fun _ _ _ => rfl) (fun _ _ => rfl)
  · exact kept State.tasks (fun _ => rfl) (fun _ _ _ => rfl) (fun _ _ => rfl)

theorem warmReset_leaves :
    ∃ u, exec .warmReset s = .next u ∧ (u.pkg p).drainSub = 0 ∧ (u.pkg p).quarTiles = (s.pkg p).quarTiles
      ∧ (u.pkg p).since = (s.pkg p).since ∧ (u.pkg p).limits = (s.pkg p).limits ∧ (u.pkg p).scrub = (s.pkg p).scrub.map ScrubJob.again
      ∧ (∀ c, c / 8 = p → (u.core c).pc = AgentCore.reset.pc ∧ (u.core c).lv = 1 ∧ (u.core c).wait = none ∧ ∀ r, (u.core c).reg r = 0) := by
  have contexts : ((restartedCores s p).resetContexts p).pkg p = { s.pkg p with drainSub := 0 } := by
    rw [State.resetContexts, pkg_setPkg_same, restartedCores_pkg]
  refine ⟨_, exec_warmReset hat, ?_, ?_, ?_, ?_, ?_, fun c home => ?_⟩
  iterate 5 rw [pkg_setPkg_same, contexts]
  obtain ⟨pc, lv, wait, regs⟩ : Restarted ((restartedCores s p).core c) := restarted_foldl _ (Or.inr (mem_coresOf home))
  refine ⟨pc, lv, wait, fun r => ?_⟩
  show AgentCore.reg ((restartedCores s p).core c) r = 0
  rw [AgentCore.reg, regs, look, ite_self]

end Events

end Sys2Proof.Execution
end

section
/-! SUPPORT. Pewter: requests, errors, log, sensors, firmware (23 R402, R409, 25 R421, R431, R437, 27 R447, R456 to R458, R467). -/
namespace Sys2Proof.Execution
open Machine Claims

/-! ### Partitions (R402) -/

section Partition
variable {s : State} {a b c d : Nat} (hat : AtOutside s [a, b, c, d])
include hat

theorem exec_partitionRequest_of_some {p : Tbl Partition} (hp : s.partitionAs a b c d = some p) :
    exec .partitionRequest s = .next (({ s with parts := p } : State).emit 3 0 [1]) := by
  show execPartitionRequest s = _
  simp only [execPartitionRequest, arg_atOutside hat, nthD, hp]
  rfl

theorem exec_partitionRequest_of_none (refused : s.partitionAs a b c d = none) : exec .partitionRequest s = .next (s.emit 3 0 [0]) := by
  show execPartitionRequest s = _
  simp only [execPartitionRequest, arg_atOutside hat, nthD, refused]
  rfl

end Partition

section PartitionAs
variable {s : State} {part v tiles : Nat} {p : Partition}

theorem partitionAs_make (there : v < s.cfg.packages) (set : tiles < 2 ^ 32) (apart : s.tilesApart part v tiles = true) :
    s.partitionAs 0 part v tiles = some (setKey s.parts part
      { (find? s.parts part).getD { Partition.whole v with fns := [] } with pkg := v, tiles := tiles }) := by
  simp only [State.partitionAs]
  rw [if_pos ⟨there, set, apart⟩]

theorem partitionAs_make_refused (bad : s.cfg.packages ≤ v ∨ 2 ^ 32 ≤ tiles ∨ s.tilesApart part v tiles = false) :
    s.partitionAs 0 part v tiles = none := by
  simp only [State.partitionAs]
  rw [if_neg]
  rintro ⟨there, set, apart⟩
  rcases bad with bad | bad | bad
  · omega
  · omega
  · rw [bad] at apart
    cases apart

theorem partitionAs_of_none (absent : find? s.parts part = none) :
    s.partitionAs 1 part v tiles = none ∧ s.partitionAs 2 part v tiles = none ∧ s.partitionAs 3 part v tiles = none := by
  simp only [State.partitionAs, absent, and_self]

section Named
variable (hp : find? s.parts part = some p)
include hp

theorem partitionAs_admit_again (admitted : p.fns.contains v = true) : s.partitionAs 1 part v tiles = some s.parts := by
  simp only [State.partitionAs, hp, if_pos admitted]

theorem partitionAs_admit (new : p.fns.contains v = false) : s.partitionAs 1 part v tiles
    = if 64 ≤ p.fns.length ∨ (!afuncOk v) = true then none else some (setKey s.parts part { p with fns := p.fns ++ [v] }) := by
  simp only [State.partitionAs, hp, new, if_neg Bool.false_ne_true]

theorem partitionAs_remove :
    s.partitionAs 2 part v tiles = some (setKey s.parts part { p with fns := p.fns.filter (· != v) }) := by
  simp only [State.partitionAs, hp]

theorem partitionAs_drop : s.partitionAs 3 part v tiles = some (dropKey s.parts part) := by
  simp only [State.partitionAs, hp]

end Named

theorem partitionAs_cases :
    (v < s.cfg.packages → tiles < 2 ^ 32 → s.tilesApart part v tiles = true → s.partitionAs 0 part v tiles = some (setKey s.parts part
      { (find? s.parts part).getD { Partition.whole v with fns := [] } with pkg := v, tiles := tiles }))
    ∧ (s.cfg.packages ≤ v ∨ 2 ^ 32 ≤ tiles ∨ s.tilesApart part v tiles = false → s.partitionAs 0 part v tiles = none)
    ∧ (find? s.parts part = none → s.partitionAs 1 part v tiles = none ∧ s.partitionAs 2 part v tiles = none ∧ s.partitionAs 3 part v tiles = none)
    ∧ (find? s.parts part = some p →
      (p.fns.contains v = true → s.partitionAs 1 part v tiles = some s.parts)
      ∧ (p.fns.contains v = false → p.fns.length < 64 → v < 64 ∨ v = 255 →
        s.partitionAs 1 part v tiles = some (setKey s.parts part { p with fns := p.fns ++ [v] }))
      ∧ (p.fns.contains v = false → 64 ≤ p.fns.length ∨ (64 ≤ v ∧ v ≠ 255) → s.partitionAs 1 part v tiles = none)
      ∧ s.partitionAs 2 part v tiles = some (setKey s.parts part { p with fns := p.fns.filter (· != v) })
      ∧ s.partitionAs 3 part v tiles = some (dropKey s.parts part)) := by
  refine ⟨partitionAs_make, partitionAs_make_refused, partitionAs_of_none,
    fun hp => ⟨partitionAs_admit_again hp, fun new room number => ?_,
    fun new bad => ?_, partitionAs_remove hp, partitionAs_drop hp⟩⟩
  · rw [partitionAs_admit hp new, (afuncOk_iff v).mpr number, if_neg (by simpa using room)]
  · rw [partitionAs_admit hp new, if_pos (bad.imp_right (fun number => ?_))]
    rw [Bool.not_eq_true', ← Bool.not_eq_true, afuncOk_iff]
    omega

end PartitionAs

/-! ### Grants (R467) -/

section Grant
variable {s : State} {fn a b c n first : Nat} (hat : AtOutside s [fn, a, b, c, n]) (hfirst : first = a * 2 ^ 18 + b * 2 ^ 15 + c)

include hat hfirst

theorem exec_frameGrant : exec .frameGrant s = .next (if a < s.cfg.packages ∧ b < 8 ∧ c + n ≤ 24576
      ∧ (fn = 256 ∨ ((fn < 64 ∨ fn = 255) ∧ ∀ f ∈ upFrom first n, s.cfg.reserved.contains f = false ∧ (find? s.grants f).getD fn = fn)) then
      ({ s with grants := grantRun s.grants fn first n } : State).emit 3 0 [1]
    else s.emit 3 0 [0]) := by
  subst hfirst
  show execFrameGrant s = _
  simp only [execFrameGrant, arg_atOutside hat, nthD, List.all_eq_true, afuncOk_iff]
  refine congrArg Host.Outcome.next (if_congr (and_congr_right fun _ => and_congr_right fun _ => and_congr_right fun _ =>
    or_congr_right (and_congr_right fun _ => forall₂_congr fun f _ => ?_)) rfl rfl)
  cases find? s.grants f <;> simp

theorem exec_frameGrant_of_outside (bad : s.cfg.packages ≤ a ∨ 8 ≤ b ∨ 24576 < c + n) :
    exec .frameGrant s = .next (s.emit 3 0 [0]) := by
  rw [exec_frameGrant hat hfirst, if_neg (by omega)]

end Grant

/-! ### Errors (R421, R437) -/

section Error
variable {s : State} {a b c d : Nat}

theorem exec_errorInjection_of_stack_line (hat : AtOutside s [0, a]) :
    exec .errorInjection s = .next (if s.devExists a = true then
        ({ s with devBad := (upFrom (a / 64 * 16) 16).foldl addNum s.devBad } : State).emit 3 0 [1]
      else s.emit 3 0 [0]) := by
  show execErrorInjection s = _
  simp only [execErrorInjection, arg_atOutside hat, nthD]
  rfl

theorem exec_errorInjection_of_slice (hat : AtOutside s [1, a, b, c]) : exec .errorInjection s = .next ((s.onTile a b (fun y =>
    if 4 * c + 4 ≤ y.size then y.storeScratch (4 * c) (poisonedBytes 0 4) else y)).noteTile a b (4 * c)) := by
  show execErrorInjection s = _
  simp only [execErrorInjection, arg_atOutside hat, nthD]
  rfl

theorem exec_errorInjection_of_accumulator (hat : AtOutside s [2, a, b, c]) : exec .errorInjection s = .next ((s.onTile a b (fun y =>
    if c < 262144 then y.storeAcc (4 * c) (poisonedBytes 0 4) else y)).noteTile a b (4 * c)) := by
  show execErrorInjection s = _
  simp only [execErrorInjection, arg_atOutside hat, nthD]
  rfl

theorem exec_errorInjection_of_primary (hat : AtOutside s [3, a, b, c, d]) : exec .errorInjection s = .next (s.onTile a b (fun y =>
    { y with prim := setKey y.prim c ((look 0 y.prim c ^^^ d) % 2 ^ 128) })) := by
  show execErrorInjection s = _
  simp only [execErrorInjection, arg_atOutside hat, nthD]
  rfl

theorem exec_errorInjection_of_shadow (hat : AtOutside s [4, a, b, c, d]) : exec .errorInjection s = .next (s.onTile a b (fun y =>
    { y with shadow := setKey y.shadow c ((look 0 y.shadow c ^^^ d) % 2 ^ 128) })) := by
  show execErrorInjection s = _
  simp only [execErrorInjection, arg_atOutside hat, nthD]
  rfl

theorem exec_errorInjection_of_bundle (hat : AtOutside s [5, a, b, c]) :
    exec .errorInjection s = .next (s.onTile a b (fun y => { y with badWords := addNum y.badWords c })) := by
  show execErrorInjection s = _
  simp only [execErrorInjection, arg_atOutside hat, nthD]

theorem exec_errorInjection_of_table (hat : AtOutside s [6, a]) :
    exec .errorInjection s = .next (s.onGang a (fun g => { g with tableBad := true })) := by
  show execErrorInjection s = _
  simp only [execErrorInjection, arg_atOutside hat, nthD]

theorem exec_errorInjection_of_image (hat : AtOutside s [7, a]) : exec .errorInjection s
    = .next (s.onTask a (fun x => { x with image := x.image.map (fun i => { i with intact := false }) })) := by
  show execErrorInjection s = _
  simp only [execErrorInjection, arg_atOutside hat, nthD]

theorem exec_errorInjection_of_corrected (hat : AtOutside s [8, a, b, c, d]) :
    exec .errorInjection s = .next (s.logEvent 0 a b c d 0) := by
  show execErrorInjection s = _
  simp only [execErrorInjection, arg_atOutside hat, nthD]

theorem exec_errorInjection_of_vector (hat : AtOutside s [9, a, b, c, d]) : exec .errorInjection s = .next ((s.onTile a b (fun y =>
    if c < 128 ∧ d < 32 then y.breakEntry c d else y)).noteTile a b c) := by
  show execErrorInjection s = _
  simp only [execErrorInjection, arg_atOutside hat, nthD]

end Error

/-! ### Log, temperature, sensors (R431, R447, R456, R457) -/

theorem linkThere_iff (s : State) (p l : Nat) : s.linkThere p l = true ↔ p < s.cfg.packages ∧ l < 12 := by simp [State.linkThere]

section Reads
variable {s : State} {p k n : Nat}

theorem exec_logRead_of_some (hat : AtOutside s [p, n]) {v : LogEntry} (hv : (s.pkg p).pewter.log[n]? = some v) :
    exec .logRead s = .next (s.emit 3 0 [1, v.wtime, v.sev, v.unit, v.place, v.task, v.addr, v.code]) := by
  show execLogRead s = _
  simp only [execLogRead, arg_atOutside hat, nthD, State.pewter, hv]
  rfl

theorem exec_logRead_of_none (hat : AtOutside s [p, n]) (absent : (s.pkg p).pewter.log[n]? = none) :
    exec .logRead s = .next (s.emit 3 0 [0]) := by
  show execLogRead s = _
  simp only [execLogRead, arg_atOutside hat, nthD, State.pewter, absent]
  rfl

theorem exec_warningTemperature (hat : AtOutside s [p, n]) :
    exec .warningTemperature s = .next (pewtered s p { (s.pkg p).pewter with hotWarn := n ≠ 0 }) := by
  show execWarningTemperature s = _
  simp only [execWarningTemperature, arg_atOutside hat, nthD]
  rfl

variable (hat : AtOutside s [p, k, n])
include hat

theorem exec_sensorRead_of_sensor (kind : k = 0) : exec .sensorRead s
    = .next (({ s with tape := s.tape + 1 } : State).emit 3 0 [1, Config.sensor (64 * p + n) s.tape]) := by
  subst kind
  show execSensorRead s = _
  simp only [execSensorRead, arg_atOutside hat, nthD]
  rfl

theorem exec_sensorRead_of_link (kind : k = 1) (there : p < s.cfg.packages) (link : n < 12) : exec .sensorRead s = .next (s.emit 3 0
    [1, (s.link p n).unc * 2 ^ 48 + (s.link p n).corr * 2 ^ 32 + look 0 s.cfg.dw (16 * p + n) % 16 * 2 ^ 20
      + (s.link p n).w % 16 * 2 ^ 16 + (s.link p n).lmap]) := by
  subst kind
  have hthere := (linkThere_iff s p n).mpr ⟨there, link⟩
  show execSensorRead s = _
  simp only [execSensorRead, arg_atOutside hat, nthD, if_pos hthere]
  rfl

theorem exec_sensorRead_of_no_link (kind : k = 1) (absent : s.cfg.packages ≤ p ∨ 12 ≤ n) :
    exec .sensorRead s = .next (s.emit 3 0 [0]) := by
  subst kind
  have hthere : s.linkThere p n ≠ true := by
    rw [Ne, linkThere_iff]
    omega
  show execSensorRead s = _
  simp only [execSensorRead, arg_atOutside hat, nthD, if_neg hthere]
  rfl

theorem exec_sensorRead_of_other (kind : 2 ≤ k) : exec .sensorRead s = .next (s.emit 3 0 [0]) := by
  obtain ⟨j, rfl⟩ : ∃ j, k = j + 2 := ⟨k - 2, by omega⟩
  show execSensorRead s = _
  simp only [execSensorRead, arg_atOutside hat, nthD]
  rfl

end Reads

/-! ### FIRMWARE_UPDATE (R458) -/

section Firmware
variable {s : State} {p v sig n : Nat} {bs ds : List Nat} {w : Pewter} (hat : AtOutside s (p :: v :: sig :: n :: bs))
  (hw : w = (s.pkg p).pewter) (hds : ds = bs.map (· % 256))
include hat hw hds

theorem exec_firmwareUpdate : exec .firmwareUpdate s
    = .next (if w.minVersion ≤ v ∧ Config.sm2Valid (digestOf ds) sig = true then (pewtered s p { w with
        banks := setKey w.banks (1 - w.activeBank)
          { version := v, bytes := (ds.map (BitVec.ofNat 8)).take n,
            agent := (ds.map (BitVec.ofNat 8)).drop n, valid := true } }).emit 3 0 [1]
      else s.emit 3 0 [0]) := by
  subst hw hds
  have hcur : s.cur = .outside (p :: v :: sig :: n :: bs) := hat
  show execFirmwareUpdate s = _
  simp only [execFirmwareUpdate, arg_atOutside hat, nthD, hcur, List.drop_succ_cons, List.drop_zero]
  rfl

end Firmware

end Sys2Proof.Execution
end

section
/-! SUPPORT. Links: flits and their lanes, training, width changes, received flits (27 R443 to R449). -/
namespace Sys2Proof.Execution
open Machine Claims

/-! ### A flit has 384 bytes (R443) -/

theorem length_padTo (n : Nat) (b : List Nat) : (padTo n b).length = n := by
  rw [padTo, List.length_append, List.length_take, List.length_replicate]
  omega

theorem length_payload (f : Flit) : f.payload.length = 360 := by
  simp [Flit.payload, List.length_flatMap, length_padTo]

theorem length_gfAdd (a b : List Nat) : (gfAdd a b).length = max a.length b.length := by
  induction a, b using gfAdd.induct with
  | case1 b => simp [gfAdd]
  | case2 a other => simp [gfAdd]
  | case3 x xs y ys ih => simp [gfAdd, ih]

/-- A product with a polynomial of degree 1 has one coefficient more. -/
theorem length_gfTimes_linear (a b : Nat) (p : List Nat) (x : Nat) : (gfTimes (x :: p) [a, b]).length = p.length + 2 := by
  induction p generalizing x with
  | nil => simp [gfTimes, length_gfAdd]
  | cons y p ih =>
    rw [gfTimes, length_gfAdd, List.length_cons, ih]
    simp

theorem length_generator_foldl (is : List Nat) (g : List Nat) (h : g ≠ []) :
    (is.foldl (fun g i => gfTimes g [gfExp i, 1]) g).length = g.length + is.length := by
  induction is generalizing g with
  | nil => rfl
  | cons i is ih =>
    obtain ⟨x, p, rfl⟩ := List.exists_cons_of_ne_nil h
    have longer := length_gfTimes_linear (gfExp i) 1 p x
    rw [List.foldl_cons, ih _ (List.ne_nil_of_length_pos (by omega)), longer, List.length_cons, List.length_cons]
    omega

theorem length_rsGenerator : rsGenerator.length = 12 := by
  rw [rsGenerator, List.length_reverse, List.length_take, length_generator_foldl _ _ (List.cons_ne_nil _ _)]
  rfl

/-- A step of the division by the generator keeps twelve symbols. -/
theorem length_parity_foldl (data r : List Nat) (h : r.length = 12) :
    (data.foldl (fun r d => gfAdd (r.drop 1 ++ [0]) (rsGenerator.map (gfMul (d ^^^ nthD 0 r 0)))) r).length = 12 := by
  induction data generalizing r with
  | nil => exact h
  | cons d data ih =>
    refine ih _ ?_
    rw [length_gfAdd, List.length_append, List.length_drop, List.length_map, length_rsGenerator, h]
    rfl

theorem length_rsParity (data : List Nat) : (rsParity data).length = 12 :=
  length_parity_foldl data _ List.length_replicate

theorem length_interleave (a b : List Nat) : (interleave a b).length = 2 * min a.length b.length := by
  simp [interleave, List.length_flatMap, Nat.mul_comm]

theorem length_bytes (f : Flit) : f.bytes.length = 384 := by
  rw [Flit.bytes, List.length_append, length_payload, length_interleave, length_rsParity, length_rsParity]
  rfl

/-! ### Lanes (R444) -/

/-- Padding shows only beyond the bytes that there are, where it reads as the default does. -/
theorem nthD_padTo {n i : Nat} (b : List Nat) (h : i < n) : nthD 0 (padTo n b) i = nthD 0 b i := by
  rw [nthD_eq_getElem?, nthD_eq_getElem?, padTo, List.getElem?_append, List.length_take]
  split
  · rw [List.getElem?_take_of_lt h]
  next beyond =>
    rw [List.getElem?_eq_none (by omega : b.length ≤ i), List.getElem?_replicate]
    split <;> rfl

/-- The cycles of a flit on w lanes carry 16 symbols or more. -/
theorem le_mul_flitCycles {w : Nat} (h : 1 ≤ w) : 16 ≤ w * flitCycles w := by
  have := Nat.lt_mul_div_succ (16 + w - 1) h
  rw [Nat.mul_add] at this
  rw [flitCycles, ceilDiv]
  omega

theorem length_stripe (w : Nat) (b : List Nat) : (stripe w b).length = w := by simp [stripe]

theorem length_lane {w : Nat} {b v : List Nat} (h : v ∈ stripe w b) : v.length = 24 * ceilDiv 16 w := by
  obtain ⟨k, -, rfl⟩ := List.mem_map.mp h
  exact length_padTo _ _

/-- Byte j of a flit is byte j / w of lane j mod w. -/
theorem lane_byte {w j : Nat} {b : List Nat} (lanes : 1 ≤ w) (length : b.length = 384) (hj : j < 384) :
    nthD 0 (nthD [] (stripe w b) (j % w)) (j / w) = nthD 0 b j := by
  have lane : j % w < w := Nat.mod_lt _ lanes
  have place := Nat.div_add_mod j w
  have cycles : j / w < 24 * flitCycles w := by
    have := le_mul_flitCycles lanes
    refine Nat.div_lt_of_lt_mul ?_
    rw [Nat.mul_left_comm]
    omega
  have carried : j / w < (b.length + w - 1 - j % w) / w := by
    rw [← Nat.succ_le_iff, Nat.le_div_iff_mul_le lanes, Nat.succ_mul, Nat.mul_comm]
    omega
  rw [stripe, nthD_map_range _ _ lane, nthD_padTo _ cycles, nthD_map_range _ _ carried, place]

theorem unstripe_stripe {w : Nat} {b : List Nat} (lanes : 1 ≤ w) (length : b.length = 384) : unstripe w (stripe w b) = b := by
  refine List.ext_getElem (by simp [unstripe, length]) (fun j hj hb => ?_)
  simp only [unstripe, List.getElem_map, List.getElem_range]
  rw [lane_byte lanes length (length ▸ hb), nthD_eq_getElem?, List.getElem?_eq_getElem hb, Option.getD_some]

/-! ### Training and width changes (R446, R449) -/

section Width
variable {s : State} {p l : Nat} {x : Link} (hat : AtOutside s [p, l]) (hx : x = s.link p l)
include hat

theorem exec_linkTraining_of_absent (absent : s.cfg.packages ≤ p ∨ 12 ≤ l) : exec .linkTraining s = .next s := by
  show execLinkTraining s = _
  simp only [execLinkTraining, arg_atOutside hat, nthD, linkThere_iff]
  rw [if_neg (by omega)]

include hx

theorem exec_linkTraining (package : p < s.cfg.packages) (link : l < 12) : exec .linkTraining s
    = .next { s.setLink p l { x with latency := some (Config.linkLatency p l), w := popCount 16 x.lmap, errs := [] } with
        dcycStart := some (s.dcycStart.getD s.wall) } := by
  subst hx
  show execLinkTraining s = _
  simp only [execLinkTraining, arg_atOutside hat, nthD, linkThere_iff]
  rw [if_pos ⟨package, link⟩]
  rfl

theorem exec_linkWidthChange : exec .linkWidthChange s = .next (if (x.next ≠ none ∨ x.drop ≠ 0) ∧ s.widthReady p l = true then
      s.tasks.foldl (fun u e => u.afterWidth e.1 p l) (s.setLink p l
        { x with lmap := x.wanted, w := popCount 16 x.wanted, next := none, drop := 0, errs := [] })
    else s) := by
  subst hx
  show execLinkWidthChange s = _
  simp only [execLinkWidthChange, arg_atOutside hat, nthD, Link.changing, Bool.or_eq_true, Option.isSome_iff_ne_none, bne_iff_ne]
  rfl

end Width

section Lanes
variable {s : State} {p l k : Nat} {x : Link}

theorem wantLanes_of_refused (absent : s.cfg.packages ≤ p ∨ 12 ≤ l ∨ x.wanted = 0) : s.wantLanes p l x = s := by
  refine if_neg ?_
  rw [linkThere_iff]
  omega

theorem wantLanes_of_wanted (package : p < s.cfg.packages) (link : l < 12) (lanes : x.wanted ≠ 0) :
    s.wantLanes p l x = (s.setLink p l x).announceWidth p l := by
  exact if_pos ⟨(linkThere_iff s p l).mpr ⟨package, link⟩, lanes⟩

variable (hat : AtOutside s [p, l, k]) (hx : x = s.link p l)
include hat hx

theorem exec_lmapWrite : exec .lmapWrite s = .next (s.wantLanes p l { x with next := some (k % 65536) }) := by
  subst hx
  show execLmapWrite s = _
  simp only [execLmapWrite, arg_atOutside hat, nthD]

theorem exec_laneRetire : exec .laneRetire s
    = .next (if bitAt x.drop k = true ∨ 16 ≤ k then s else s.wantLanes p l { x with drop := x.drop + 2 ^ k }) := by
  subst hx
  show execLaneRetire s = _
  simp only [execLaneRetire, arg_atOutside hat, nthD]
  rfl

theorem lanes_change {y z : Link} (hy : y = { x with next := some (k % 65536) }) (hz : z = { x with drop := x.drop + 2 ^ k }) :
    (p < s.cfg.packages → l < 12 →
      (y.wanted ≠ 0 → exec .lmapWrite s = .next ((s.setLink p l y).announceWidth p l))
      ∧ (bitAt x.drop k = false → k < 16 → z.wanted ≠ 0 → exec .laneRetire s = .next ((s.setLink p l z).announceWidth p l)))
    ∧ (s.cfg.packages ≤ p ∨ 12 ≤ l ∨ y.wanted = 0 → exec .lmapWrite s = .next s)
    ∧ (s.cfg.packages ≤ p ∨ 12 ≤ l ∨ bitAt x.drop k = true ∨ 16 ≤ k ∨ z.wanted = 0 → exec .laneRetire s = .next s) := by
  rw [exec_lmapWrite hat hx, exec_laneRetire hat hx, ← hy, ← hz]
  refine ⟨fun package link => ⟨fun lanes => ?_, fun kept low lanes => ?_⟩, fun refused => ?_, fun refused => ?_⟩
  · rw [wantLanes_of_wanted package link lanes]
  · rw [if_neg, wantLanes_of_wanted package link lanes]
    rintro (retired | high)
    · exact Bool.false_ne_true (kept.symm.trans retired)
    · omega
  · rw [wantLanes_of_refused refused]
  · split
    · rfl
    next again =>
      rw [wantLanes_of_refused]
      tauto

end Lanes

/-! ### Flits that arrive (R445, R449) -/

section Receive
variable {s : State} {p l t n : Nat} {as : List Nat} (hat : AtOutside s (p :: l :: t :: n :: as))
include hat

theorem exec_flitReceive_of_absent (absent : s.cfg.packages ≤ p ∨ 12 ≤ l) : exec .flitReceive s = .next s := by
  show execFlitReceive s = _
  simp only [execFlitReceive, arg_atOutside hat, nthD, linkThere_iff]
  rw [if_neg (by omega)]

theorem exec_flitReceive (package : p < s.cfg.packages) (link : l < 12) :
    exec .flitReceive s = .next (s.receiveFlit p l t (chunks 4 n (as.take (4 * n))) (as.drop (4 * n))) := by
  have hcur : s.cur = .outside (p :: l :: t :: n :: as) := hat
  show execFlitReceive s = _
  simp only [execFlitReceive, arg_atOutside hat, nthD, linkThere_iff, hcur, List.drop_succ_cons, List.drop_zero]
  rw [if_pos ⟨package, link⟩]

end Receive

section Flit
variable {s : State} {p l t : Nat} {beats : List (List Nat)} {symbols : List Nat} {x : Link} {r : Option (Flit × List Nat)}
  (hx : x = s.link p l) (hr : r = flitDecode (unstripe x.w (chunks (24 * flitCycles x.w) x.w symbols)))
include hx hr

theorem receiveFlit_of_clean {f : Flit} (clean : r = some (f, [])) : s.receiveFlit p l t beats symbols = s := by
  subst hx
  simp only [State.receiveFlit, ← hr, clean]

theorem receiveFlit_of_corrected {f : Flit} {e : Nat} {es : List Nat} (corrected : r = some (f, e :: es)) :
    s.receiveFlit p l t beats symbols
      = (s.setLink p l { x.countErrors (e :: es) with corr := min 65535 (x.corr + 1) }).retireNoisy p l := by
  subst hx
  simp only [State.receiveFlit, ← hr, corrected]

theorem receiveFlit_of_uncorrectable (lost : r = none) : s.receiveFlit p l t beats symbols
    = (beats.take 5).foldl (fun q e => q.loseBeat t e)
        ((s.setLink p l { x with unc := min 65535 (x.unc + 1) }).logEvent 1 2 (p * 512 + l) 0 0 0) := by
  subst hx
  simp only [State.receiveFlit, ← hr, lost]

end Flit

end Sys2Proof.Execution
end

section
/-! SUPPORT. The host port and register writes (13 R248, R261, 23 R382, R383, R391, 27 R440 to R442, R462). -/
namespace Sys2Proof.Execution
open Machine Claims

/-! ### Training of the host port (R440, R442) -/

section Port
variable {s q : State} {mode width rate flit : Nat} {ds : List Nat} (hat : AtOutside s (mode :: width :: rate :: flit :: ds))
include hat

/-- What a link of the host port can train as. -/
def PortTrains (mode width rate flit : Nat) : Prop :=
  mode < 2 ∧ width ∈ [1, 2, 4, 8, 16] ∧ rate ∈ [25, 50, 80, 160, 320, 640] ∧ (flit = 68 ∨ flit = 256)

theorem exec_hostPortTraining_of_unfit (unfit : ¬PortTrains mode width rate flit) : exec .hostPortTraining s = .next s := by
  show execHostPortTraining s = _
  simp only [execHostPortTraining, arg_atOutside hat, nthD, hostRates, List.contains_iff_mem]
  exact congrArg Host.Outcome.next (if_neg unfit)

theorem exec_hostPortTraining (fit : PortTrains mode width rate flit)
    (hq : q = { s with hostMode := mode, hostWidth := width, hostRate := rate, hostFlit := flit }) :
    exec .hostPortTraining s = .next (if mode = 1 then { q with hdm := hdmOf ds }
      else { q with cores := q.cores.map (fun e => (e.1, { e.2 with lines := [] })), hdm := [], hostLines := [] }) := by
  subst hq
  have hcur : s.cur = .outside (mode :: width :: rate :: flit :: ds) := hat
  show execHostPortTraining s = _
  simp only [execHostPortTraining, arg_atOutside hat, nthD, hostRates, List.contains_iff_mem]
  have port : AtOutside { s with hostMode := mode, hostWidth := width, hostRate := rate, hostFlit := flit } _ := hat
  refine (congrArg Host.Outcome.next (if_pos fit)).trans ?_
  rw [arg_atOutside port]
  simp only [nthD, hcur, List.drop_succ_cons, List.drop_zero]
  rfl

end Port

/-! ### Accesses of device memory by the host (R248, R261) -/

theorem hostAccess_write (s : State) (who a n v : Nat) (ep : Bool) :
    s.hostAccess who a n v true ep = (s.devWrite a (pbytes n v ep)).emit 2 who [1, 0, 0] := rfl

theorem hostAccess_read (s : State) (who a n v : Nat) (ep : Bool) : s.hostAccess who a n v false ep
    = (s.noteBad 0 a n).emit 2 who [1, pval (s.devRead a n), if anyPoison (s.devRead a n) = true then 1 else 0] := rfl

section Bar
variable {s : State} {fn wr off len v ep n : Nat} (hat : AtOutside s [fn, wr, off, len, v, ep]) (hn : n = min 64 len)
include hat

theorem exec_bar2Access_of_ungranted (absent : s.grantedFrame fn (off / 2 ^ 21) = none) :
    exec .bar2Access s = .next (s.emit 2 fn [0]) := by
  show execBar2Access s = _
  simp only [execBar2Access, arg_atOutside hat, nthD, absent]
  rfl

include hn

theorem exec_bar2Access {f a : Nat} (hf : s.grantedFrame fn (off / 2 ^ 21) = some f) (ha : a = f * 2 ^ 21 + off % 2 ^ 21) :
    exec .bar2Access s = .next (if s.frameQuarantined f = true ∨ 2 ^ 21 < off % 2 ^ 21 + n then s.emit 2 fn [0]
      else s.hostAccess fn a n v (wr ≠ 0) (ep ≠ 0)) := by
  subst hn ha
  show execBar2Access s = _
  simp only [execBar2Access, arg_atOutside hat, nthD, hf]
  rfl

end Bar

section Cxl
variable {s : State} {wr at_ len v ep keep n : Nat} (hat : AtOutside s [wr, at_, len, v, ep, keep]) (hn : n = min 64 len)

/-- Memory that the host reaches by CXL.mem: n bytes of device memory from an address, no byte of them in a reserved frame (R442). -/
def CxlServes (s : State) (a n : Nat) : Prop :=
  s.hostMode = 1 ∧ s.devExists a = true ∧ s.devExists (a + n - 1) = true ∧ s.cfg.reserved.contains (frameOf a) = false
    ∧ s.cfg.reserved.contains (frameOf (a + n - 1)) = false

include hat

theorem exec_cxlMemAccess_of_undecoded (absent : s.hdmAddr at_ = none) : exec .cxlMemAccess s = .next (s.emit 2 255 [0]) := by
  show execCxlMemAccess s = _
  simp only [execCxlMemAccess, arg_atOutside hat, nthD, absent]
  rfl

include hn

section Decoded
variable {a : Nat} (ha : s.hdmAddr at_ = some a)
include ha

theorem exec_cxlMemAccess_of_refused (refused : ¬CxlServes s a n) : exec .cxlMemAccess s = .next (s.emit 2 255 [0]) := by
  subst hn
  show execCxlMemAccess s = _
  simp only [execCxlMemAccess, arg_atOutside hat, nthD, ha, Bool.not_eq_true']
  exact congrArg Host.Outcome.next (if_neg refused)

theorem exec_cxlMemAccess (served : CxlServes s a n) : exec .cxlMemAccess s = .next (if wr = 0 ∧ keep ≠ 0 then
      (s.hostAccess 255 a n v (wr ≠ 0) (ep ≠ 0)).hostCaches a
    else s.hostAccess 255 a n v (wr ≠ 0) (ep ≠ 0)) := by
  subst hn
  show execCxlMemAccess s = _
  simp only [execCxlMemAccess, arg_atOutside hat, nthD, ha, Bool.not_eq_true']
  exact congrArg Host.Outcome.next (if_pos served)

end Decoded

end Cxl

/-! ### Register writes (R382, R383, R391, R462) -/

section Queue
variable {s : State} {a b : Nat} (hat : AtOutside s [a, b])
include hat

theorem exec_cqheadWrite : exec .cqheadWrite s = .next ((s.setFn a { s.fn a with cqhead := b % 2 ^ 32 }).wakeQueue a) := by
  show execCqheadWrite s = _
  simp only [execCqheadWrite, arg_atOutside hat, nthD]
  rfl

theorem exec_ctxerrWrite : exec .ctxerrWrite s
    = .next (s.setCore a ((s.core a).setCtx b { (s.core a).ctx b with errCount := 0, errOpn := 0 })) := by
  show execCtxerrWrite s = _
  simp only [execCtxerrWrite, arg_atOutside hat, nthD]
  rfl

end Queue

section Register
variable {s : State} {a n v : Nat} {w : Word} (hat : AtOutside s [a, n, v]) (hw : w = BitVec.ofNat 64 v)
include hat

theorem exec_registerWrite_of_refused (refused : csrDefined n = false ∨ csrReadOnly n = true) : exec .registerWrite s = .next s := by
  have cause : csrWriteCause 1 n = some 1 := if_pos refused
  show execRegisterWrite s = _
  simp only [execRegisterWrite, arg_atOutside hat, nthD, cause]

include hw

theorem exec_registerWrite (defined : csrDefined n = true) (writable : csrReadOnly n = false) :
    exec .registerWrite s = .next ((s.csrPut a n w).getD s) := by
  have cause : csrWriteCause 1 n = none := by simp [csrWriteCause, defined, writable]
  subst hw
  show execRegisterWrite s = _
  simp only [execRegisterWrite, arg_atOutside hat, nthD, cause]

end Register

/-- What a write of the control registers of a core and of the domain puts (R383, R384). -/
theorem csrPut_cases (s : State) (a : Nat) (w : Word) {y : AgentCore} (hy : y = s.core a) :
    (s.csrPut a 1 w).getD s = s.setCore a { y with ecause := w }
    ∧ (s.csrPut a 2 w).getD s = s.setCore a { y with epc := w }
    ∧ (s.csrPut a 3 w).getD s = s.setCore a { y with eval := w }
    ∧ (s.csrPut a 4 w).getD s = s.setCore a { y with etvec := w }
    ∧ (w.toNat < 64 ∨ w.toNat = 255 → (s.csrPut a 5 w).getD s = s.setCore a { y with afunc := w.toNat })
    ∧ (64 ≤ w.toNat → w.toNat ≠ 255 → (s.csrPut a 5 w).getD s = s)
    ∧ (s.csrPut a 6 w).getD s = s.setCore a { y with fstatus := w.toNat % 128 }
    ∧ (s.csrPut a 0x040 w).getD s = { s with slice := w.toNat % 2 ^ 32 }
    ∧ (s.csrPut a 0x041 w).getD s = { s with sepoch := w }
    ∧ (s.csrPut a 0x0C0 w).getD s = s.setCore a { y with tsel := w.toNat % 32 } := by
  subst hy
  refine ⟨rfl, rfl, rfl, rfl, fun ok => ?_, fun low other => ?_, rfl, rfl, rfl, rfl⟩
  · rw [csrPut_afunc ok, Option.getD_some]
  · rw [csrPut_afunc_refused low other, Option.getD_none]

end Sys2Proof.Execution
end

section
/-! SUPPORT. The SPDM responder of Pewter (27 R459). -/
namespace Sys2Proof.Execution
open Machine Claims

/-- The answer to a request that follows the negotiation. -/
theorem afterNegotiation_of_negotiated {s : State} {p : Nat} {c : Spdm} (hc : c = (s.pkg p).pewter.spdm) (done : c.algs = true)
    (k : State) : s.afterNegotiation p k = k := by
  subst hc
  exact if_pos done

theorem afterNegotiation_of_early {s : State} {p : Nat} {c : Spdm} (hc : c = (s.pkg p).pewter.spdm) (early : c.algs = false)
    (k : State) : s.afterNegotiation p k = replied s p 0x7F [4] := by
  subst hc
  exact if_neg (by rw [State.pewter, early]; exact Bool.false_ne_true)

section Spdm
variable {s : State} {p : Nat} {as : List Nat} {c : Spdm} (hat : AtOutside s (p :: as)) (hc : c = (s.pkg p).pewter.spdm)
include hat

theorem exec_getVersion : exec .getVersion s
    = .next (replied (connected s p { version := true, caps := false, algs := false, session := 0, authed := false }) p 4 [0x13]) := by
  show execGetVersion s = _
  simp only [execGetVersion, arg_atOutside hat, nthD]
  rfl

include hc

theorem exec_getCapabilities : exec .getCapabilities s
    = .next (if c.version = true then replied (connected s p { c with caps := true }) p 0x61 [0, 982] else replied s p 0x7F [4]) := by
  subst hc
  show execGetCapabilities s = _
  simp only [execGetCapabilities, arg_atOutside hat, nthD]
  rfl

theorem exec_negotiateAlgorithms_of_early (early : c.caps = false) : exec .negotiateAlgorithms s = .next (replied s p 0x7F [4]) := by
  subst hc
  show execNegotiateAlgorithms s = _
  simp only [execNegotiateAlgorithms, arg_atOutside hat, nthD, State.pewter, if_pos early]
  rfl

theorem exec_early (early : c.algs = false) : ∀ i ∈ [Instr.getDigests, .getCertificate, .challenge, .getMeasurements, .keyExchange],
    exec i s = .next (replied s p 0x7F [4]) := by
  have answer (k : State) : (.next (s.afterNegotiation p k) : Outcome) = .next (replied s p 0x7F [4]) :=
    congrArg Host.Outcome.next (afterNegotiation_of_early hc early k)
  have package : s.arg 0 = p := arg_atOutside hat 0
  intro i hi
  simp only [List.mem_cons, List.not_mem_nil, or_false] at hi
  rcases hi with rfl | rfl | rfl | rfl | rfl
  · show execGetDigests s = _
    rw [execGetDigests, package]
    exact answer _
  · show execGetCertificate s = _
    rw [execGetCertificate, package]
    exact answer _
  · show execChallenge s = _
    rw [execChallenge, package]
    exact answer _
  · show execGetMeasurements s = _
    rw [execGetMeasurements, package]
    exact answer _
  · show execKeyExchange s = _
    rw [execKeyExchange, package]
    exact answer _

theorem exec_getDigests (done : c.algs = true) : exec .getDigests s = .next (replied s p 1 (1 :: sm3 (s.certChain p))) := by
  show execGetDigests s = _
  simp only [execGetDigests, arg_atOutside hat, nthD, afterNegotiation_of_negotiated hc done]
  rfl

theorem exec_finish_of_no_session (none_ : c.session = 0) : exec .finish s = .next (replied s p 0x7F [4]) := by
  subst hc
  show execFinish s = _
  simp only [execFinish, arg_atOutside hat, nthD, State.pewter, if_pos none_]
  rfl

end Spdm

section Negotiation
variable {s : State} {p a b e : Nat} {c : Spdm} (hat : AtOutside s [p, a, b, e]) (hc : c = (s.pkg p).pewter.spdm) (caps : c.caps = true)
include hat hc caps

theorem exec_negotiateAlgorithms : exec .negotiateAlgorithms s
    = .next (((if bitAt a 9 = true ∧ bitAt b 6 = true then aeadOf e else none).map (fun suite =>
        replied (connected s p { c with algs := true }) p 0x63 [512, 64, suite])).getD (replied s p 0x7F [1])) := by
  have late : ¬(s.pkg p).pewter.spdm.caps = false := by
    rw [← hc, caps]
    exact Bool.noConfusion
  subst hc
  show execNegotiateAlgorithms s = _
  simp only [execNegotiateAlgorithms, arg_atOutside hat, nthD, State.pewter, if_neg late]
  cases (if bitAt a 9 = true ∧ bitAt b 6 = true then aeadOf e else none) <;> rfl

theorem negotiation_cases :
    (bitAt a 9 = true → bitAt b 6 = true →
      (bitAt e 1 = true → exec .negotiateAlgorithms s = .next (replied (connected s p { c with algs := true }) p 0x63 [512, 64, 2]))
      ∧ (bitAt e 1 = false → bitAt e 3 = true →
        exec .negotiateAlgorithms s = .next (replied (connected s p { c with algs := true }) p 0x63 [512, 64, 8]))
      ∧ (bitAt e 1 = false → bitAt e 3 = false → exec .negotiateAlgorithms s = .next (replied s p 0x7F [1])))
    ∧ (bitAt a 9 = false ∨ bitAt b 6 = false → exec .negotiateAlgorithms s = .next (replied s p 0x7F [1])) := by
  rw [exec_negotiateAlgorithms hat hc caps]
  refine ⟨fun sign hash => ?_, fun bad => ?_⟩
  · rw [if_pos ⟨sign, hash⟩, aeadOf]
    refine ⟨fun aes => ?_, fun no_aes sm4 => ?_, fun no_aes no_sm4 => ?_⟩
    · rw [if_pos aes]
      rfl
    · rw [no_aes, if_neg Bool.false_ne_true, if_pos sm4]
      rfl
    · rw [no_aes, no_sm4, if_neg Bool.false_ne_true, if_neg Bool.false_ne_true]
      rfl
  · rw [if_neg]
    · rfl
    · rintro ⟨sign, hash⟩
      simp [sign, hash] at bad

end Negotiation

section Certificate
variable {s : State} {p slot off n : Nat} {part : List Nat} {c : Spdm} (hat : AtOutside s [p, slot, off, n])
  (hc : c = (s.pkg p).pewter.spdm) (done : c.algs = true) (hpart : part = (s.certChain p).drop off)
include hat hc done

theorem exec_getCertificate_of_empty_slot (empty : slot ≠ 0) : exec .getCertificate s = .next (replied s p 0x7F [1]) := by
  show execGetCertificate s = _
  simp only [execGetCertificate, arg_atOutside hat, nthD, afterNegotiation_of_negotiated hc done, if_neg empty]
  rfl

include hpart

theorem exec_getCertificate (full : slot = 0) :
    exec .getCertificate s = .next (replied s p 2 ([0, part.length - (part.take n).length] ++ part.take n)) := by
  subst hpart full
  show execGetCertificate s = _
  simp only [execGetCertificate, arg_atOutside hat, nthD, afterNegotiation_of_negotiated hc done, if_pos]
  rfl

end Certificate

section Slot
variable {s : State} {p i : Nat} {c : Spdm} (hat : AtOutside s [p, i]) (hc : c = (s.pkg p).pewter.spdm) (done : c.algs = true)
include hat hc done

theorem exec_challenge : exec .challenge s = .next (if i = 0 then replied s p 3 ([i] ++ sm3 (s.certChain p) ++ s.spdmBytes 96)
    else replied s p 0x7F [1]) := by
  show execChallenge s = _
  simp only [execChallenge, arg_atOutside hat, nthD, afterNegotiation_of_negotiated hc done]
  rfl

theorem exec_keyExchange : exec .keyExchange s = .next (if i = 0 then
      replied (connected s p { c with session := c.session + 1, authed := false }) p 0x64 (s.spdmBytes 160)
    else replied s p 0x7F [1]) := by
  show execKeyExchange s = _
  simp only [execKeyExchange, arg_atOutside hat, nthD, afterNegotiation_of_negotiated hc done]
  subst hc
  rfl

theorem exec_getMeasurements : exec .getMeasurements s = .next (if i = 0 then replied s p 0x60 [4]
    else if i = 255 then replied s p 0x60 (4 :: [1, 2, 3, 4].flatMap (s.measurement p) ++ s.spdmBytes 64)
    else if i < 5 then replied s p 0x60 (i :: s.measurement p i ++ s.spdmBytes 64)
    else replied s p 0x7F [1]) := by
  show execGetMeasurements s = _
  simp only [execGetMeasurements, arg_atOutside hat, nthD, afterNegotiation_of_negotiated hc done]
  rfl

end Slot

section Finish
variable {s q : State} {p m what n key : Nat} {c : Spdm} (hat : AtOutside s [p, m, what, n, key]) (hc : c = (s.pkg p).pewter.spdm)
  (session : c.session ≠ 0)
include hat hc session

theorem exec_finish_of_invalid (invalid : Config.spdmPeerValid m = false) : exec .finish s = .next (replied s p 0x7F [1]) := by
  subst hc
  show execFinish s = _
  simp only [execFinish, arg_atOutside hat, nthD, State.pewter, if_neg session, invalid, if_neg Bool.false_ne_true]
  rfl

theorem exec_finish (valid : Config.spdmPeerValid m = true)
    (hq : q = replied (connected s p { c with authed := true }) p 0x65 (s.spdmBytes 32)) :
    exec .finish s = .next (q.inSession p what n key) := by
  subst hc hq
  show execFinish s = _
  simp only [execFinish, arg_atOutside hat, nthD, State.pewter, if_neg session, if_pos valid]
  rfl

end Finish

theorem inSession_other {q : State} {p what n key : Nat} (wrap : what ≠ 1) (ide : what ≠ 2) : q.inSession p what n key = q := by
  unfold State.inSession
  split
  · exact absurd rfl wrap
  · exact absurd rfl ide
  · rfl

end Sys2Proof.Execution
end

section
/-! SUPPORT. The outside world (O59): its events, by what each names. -/
namespace Sys2Proof.Execution
open Machine Claims

theorem frameGrant_cases {s : State} {fn a b c n first : Nat} (hat : AtOutside s [fn, a, b, c, n])
    (hfirst : first = a * 2 ^ 18 + b * 2 ^ 15 + c) :
    (s.cfg.packages ≤ a ∨ 8 ≤ b ∨ 24576 < c + n → exec .frameGrant s = .next (s.emit 3 0 [0]))
    ∧ (a < s.cfg.packages → b < 8 → c + n ≤ 24576 →
      (fn = 256 ∨ ((fn < 64 ∨ fn = 255) ∧ ∀ f ∈ upFrom first n, s.cfg.reserved.contains f = false ∧ (find? s.grants f).getD fn = fn) →
        exec .frameGrant s = .next (({ s with grants := grantRun s.grants fn first n } : State).emit 3 0 [1]))
      ∧ (fn ≠ 256 → (64 ≤ fn ∧ fn ≠ 255) ∨ (∃ f ∈ upFrom first n, s.cfg.reserved.contains f = true ∨ (find? s.grants f).getD fn ≠ fn) →
        exec .frameGrant s = .next (s.emit 3 0 [0]))) := by
  refine ⟨exec_frameGrant_of_outside hat hfirst, fun package stack run => ⟨fun free => ?_, fun given taken => ?_⟩⟩
  · rw [exec_frameGrant hat hfirst, if_pos ⟨package, stack, run, free⟩]
  · rw [exec_frameGrant hat hfirst, if_neg]
    rintro ⟨-, -, -, ended | ⟨number, free⟩⟩
    · exact given ended
    · rcases taken with bad | ⟨f, hf, bad⟩
      · omega
      · obtain ⟨open_, own⟩ := free f hf
        exact bad.elim (fun reserved => Bool.false_ne_true (open_.symm.trans reserved)) (fun other => other own)

theorem bar2Access_cases {s : State} {fn wr off len v ep n : Nat} (hat : AtOutside s [fn, wr, off, len, v, ep]) (hn : n = min 64 len) :
    (s.grantedFrame fn (off / 2 ^ 21) = none → exec .bar2Access s = .next (s.emit 2 fn [0]))
    ∧ (∀ f a, s.grantedFrame fn (off / 2 ^ 21) = some f → a = f * 2 ^ 21 + off % 2 ^ 21 →
      (s.frameQuarantined f = true ∨ 2 ^ 21 < off % 2 ^ 21 + n → exec .bar2Access s = .next (s.emit 2 fn [0]))
      ∧ (s.frameQuarantined f = false → off % 2 ^ 21 + n ≤ 2 ^ 21 →
        (wr ≠ 0 → exec .bar2Access s = .next ((s.devWrite a (pbytes n v (ep ≠ 0))).emit 2 fn [1, 0, 0]))
        ∧ (wr = 0 → ∀ bs, bs = s.devRead a n → exec .bar2Access s
          = .next ((s.noteBad 0 a n).emit 2 fn [1, pval bs, if anyPoison bs = true then 1 else 0])))) := by
  refine ⟨exec_bar2Access_of_ungranted hat, fun f a hf ha => ⟨fun refused => ?_, fun open_ inside => ?_⟩⟩
  · rw [exec_bar2Access hat hn hf ha, if_pos refused]
  · have answer : exec .bar2Access s = .next (s.hostAccess fn a n v (wr ≠ 0) (ep ≠ 0)) := by
      rw [exec_bar2Access hat hn hf ha, if_neg]
      rintro (quarantined | outside)
      · exact Bool.false_ne_true (open_.symm.trans quarantined)
      · omega
    refine ⟨fun write => ?_, fun read bs hbs => ?_⟩
    · rw [answer, decide_eq_true write, hostAccess_write]
    · rw [answer, decide_eq_false (not_not.mpr read), hostAccess_read, hbs]

theorem cxlMemAccess_cases {s : State} {wr at_ len v ep keep n : Nat} (hat : AtOutside s [wr, at_, len, v, ep, keep])
    (hn : n = min 64 len) :
    (s.hdmAddr at_ = none → exec .cxlMemAccess s = .next (s.emit 2 255 [0]))
    ∧ (∀ a, s.hdmAddr at_ = some a →
      (s.hostMode ≠ 1 ∨ s.devExists a = false ∨ s.devExists (a + n - 1) = false ∨ s.cfg.reserved.contains (frameOf a) = true
        ∨ s.cfg.reserved.contains (frameOf (a + n - 1)) = true → exec .cxlMemAccess s = .next (s.emit 2 255 [0]))
      ∧ (s.hostMode = 1 → s.devExists a = true → s.devExists (a + n - 1) = true → s.cfg.reserved.contains (frameOf a) = false →
        s.cfg.reserved.contains (frameOf (a + n - 1)) = false →
        (wr ≠ 0 → exec .cxlMemAccess s = .next ((s.devWrite a (pbytes n v (ep ≠ 0))).emit 2 255 [1, 0, 0]))
        ∧ (wr = 0 → ∀ bs q, bs = s.devRead a n →
          q = (s.noteBad 0 a n).emit 2 255 [1, pval bs, if anyPoison bs = true then 1 else 0] →
          (keep = 0 → exec .cxlMemAccess s = .next q)
          ∧ (keep ≠ 0 → q.hostUncached (frameOf a) = true → exec .cxlMemAccess s = .next q)
          ∧ (keep ≠ 0 → q.hostUncached (frameOf a) = false → exec .cxlMemAccess s
            = .next { q with hostLines := addNum q.hostLines (alignDown a 64) })))) := by
  refine ⟨exec_cxlMemAccess_of_undecoded hat, fun a ha => ⟨fun bad => exec_cxlMemAccess_of_refused hat hn ha ?_,
    fun mode first last free free' => ?_⟩⟩
  · rintro ⟨mode, first, last, free, free'⟩
    simp only [mode, first, last, free, free', ne_eq, not_true_eq_false, Bool.true_eq_false, Bool.false_eq_true, or_self] at bad
  · have answer := exec_cxlMemAccess hat hn ha ⟨mode, first, last, free, free'⟩
    refine ⟨fun write => ?_, fun read bs q hbs hq => ?_⟩
    · rw [answer, if_neg (fun h => write h.1), decide_eq_true write, hostAccess_write]
    · rw [decide_eq_false (not_not.mpr read), hostAccess_read, ← hbs, ← hq] at answer
      refine ⟨fun dropped => ?_, fun kept uncached => ?_, fun kept cached => ?_⟩
      · rw [answer, if_neg (fun h => h.2 dropped)]
      · rw [answer, if_pos ⟨read, kept⟩, State.hostCaches, if_pos uncached]
      · rw [answer, if_pos ⟨read, kept⟩, State.hostCaches, cached, if_neg Bool.false_ne_true]

theorem getMeasurements_cases {s : State} {p i : Nat} {c : Spdm} (hat : AtOutside s [p, i]) (hc : c = (s.pkg p).pewter.spdm)
    (done : c.algs = true) :
    (i = 0 → exec .challenge s = .next (replied s p 3 ([0] ++ sm3 (s.certChain p) ++ s.spdmBytes 96))
      ∧ exec .getMeasurements s = .next (replied s p 0x60 [4])
      ∧ exec .keyExchange s = .next (replied (connected s p { c with session := c.session + 1, authed := false }) p 0x64
        (s.spdmBytes 160)))
    ∧ (i ≠ 0 → exec .challenge s = .next (replied s p 0x7F [1]) ∧ exec .keyExchange s = .next (replied s p 0x7F [1]))
    ∧ (1 ≤ i → i < 5 → exec .getMeasurements s = .next (replied s p 0x60 (i :: s.measurement p i ++ s.spdmBytes 64)))
    ∧ (i = 255 → exec .getMeasurements s
      = .next (replied s p 0x60 (4 :: [1, 2, 3, 4].flatMap (s.measurement p) ++ s.spdmBytes 64)))
    ∧ (5 ≤ i → i ≠ 255 → exec .getMeasurements s = .next (replied s p 0x7F [1])) := by
  rw [exec_challenge hat hc done, exec_keyExchange hat hc done, exec_getMeasurements hat hc done]
  refine ⟨fun zero => ?_, fun other => ?_, fun low high => ?_, fun all => ?_, fun high other => ?_⟩
  · rw [if_pos zero, if_pos zero, if_pos zero, zero]
    exact ⟨rfl, rfl, rfl⟩
  · rw [if_neg other, if_neg other]
    exact ⟨rfl, rfl⟩
  · rw [if_neg (by omega), if_neg (by omega), if_pos high]
  · rw [if_neg (by omega), if_pos all]
  · rw [if_neg (by omega), if_neg other, if_neg (by omega)]

/-- Settles O59: each event of the outside world, by the package, link, frame or register that it names. -/
theorem outsideEvents : Obligations.OutsideEvents := by
  refine ⟨?power, ?requests, fun s part v tiles p => partitionAs_cases, fun s fn a b c n first hat hfirst => frameGrant_cases hat hfirst,
    ?errors, ?reads, ?firmware, ?links, ?receive, ?flits, ?port, fun s fn wr off len v ep n hat hn => bar2Access_cases hat hn,
    fun s wr at_ len v ep keep n hat hn => cxlMemAccess_cases hat hn, fun s a b hat => ⟨exec_cqheadWrite hat, exec_ctxerrWrite hat⟩,
    ?registers, ?spdm⟩
  case power =>
    exact fun s p hat => ⟨exec_powerOn_of_absent hat, powerOn_leaves hat, warmReset_leaves hat, exec_functionReset hat,
      fun q hq => exec_criticalTemperature hat rfl hq, exec_ptmSync hat⟩
  case requests =>
    exact fun s a b c d hat => ⟨fun p => exec_partitionRequest_of_some hat, exec_partitionRequest_of_none hat⟩
  case errors =>
    refine fun s a b c d => ⟨fun hat => ⟨fun there => ?_, fun absent => ?_⟩,
      exec_errorInjection_of_slice, exec_errorInjection_of_accumulator,
      exec_errorInjection_of_primary, exec_errorInjection_of_shadow, exec_errorInjection_of_bundle, exec_errorInjection_of_table,
      exec_errorInjection_of_image, exec_errorInjection_of_corrected, exec_errorInjection_of_vector⟩
    · rw [exec_errorInjection_of_stack_line hat, if_pos there]
    · rw [exec_errorInjection_of_stack_line hat, absent, if_neg Bool.false_ne_true]
  case reads =>
    exact fun s p n k => ⟨fun hat => ⟨fun v => exec_logRead_of_some hat, exec_logRead_of_none hat, exec_warningTemperature hat⟩,
      fun hat => ⟨exec_sensorRead_of_sensor hat, exec_sensorRead_of_link hat, exec_sensorRead_of_no_link hat,
        exec_sensorRead_of_other hat⟩⟩
  case firmware =>
    intro s p v sig n bs ds w hat hw hds
    rw [exec_firmwareUpdate hat hw hds]
    refine ⟨fun bad => ?_, fun version signed => ?_⟩
    · rw [if_neg]
      rintro ⟨version, signed⟩
      rcases bad with old | unsigned
      · omega
      · exact Bool.false_ne_true (unsigned.symm.trans signed)
    · rw [if_pos ⟨version, signed⟩]
  case links =>
    refine fun s p l k x hx => ⟨fun hat => ⟨exec_linkTraining hat hx, exec_linkTraining_of_absent hat, ?_⟩,
      fun hat y z hy hz => lanes_change hat hx hy hz⟩
    rw [exec_linkWidthChange hat hx]
    refine ⟨fun map lanes => ?_, fun waits => ?_, fun changes ready => ?_⟩
    · rw [if_neg (fun h => h.1.elim (fun h => h map) (fun h => h lanes))]
    · rw [if_neg (fun h => Bool.false_ne_true (waits.symm.trans h.2))]
    · rw [if_pos ⟨changes, ready⟩]
  case receive =>
    intro s p l t n as x r hat hx hr
    refine ⟨exec_flitReceive_of_absent hat, fun package link => ?_⟩
    rw [exec_flitReceive hat package link]
    refine ⟨fun f clean => ?_, fun f e es corrected => ?_, fun lost => ?_⟩
    · rw [receiveFlit_of_clean hx hr clean]
    · rw [receiveFlit_of_corrected hx hr corrected]
    · rw [receiveFlit_of_uncorrectable hx hr lost]
  case flits =>
    exact fun f w b => ⟨length_bytes f,
      fun low _ length => ⟨unstripe_stripe low length, length_stripe w b, fun v hv => length_lane hv⟩⟩
  case port =>
    refine fun s mode width rate flit ds q hat hq => ⟨fun low hwidth hrate hflit => ?_,
      fun unfit => exec_hostPortTraining_of_unfit hat ?_⟩
    · rw [exec_hostPortTraining hat ⟨low, hwidth, hrate, hflit⟩ hq]
      refine ⟨fun cxl => ?_, fun pcie => ?_⟩
      · rw [if_pos cxl]
      · rw [if_neg (by omega)]
    · rintro ⟨low, hwidth, hrate, hflit⟩
      rcases unfit with bad | bad | bad | bad
      · omega
      · exact bad hwidth
      · exact bad hrate
      · omega
  case registers =>
    intro s a n v y w hat hy hw
    refine ⟨exec_registerWrite_of_refused hat, fun defined writable => ?_⟩
    have put := exec_registerWrite hat hw defined writable
    obtain ⟨cause, epc, eval, etvec, afunc, refused, status, slice, epoch, tsel⟩ := csrPut_cases s a w hy
    rw [put]
    refine ⟨rfl, ?_, ?_, ?_, ?_, ?_, ?_, ?_, ?_, ?_, ?_⟩ <;> rintro rfl
    · rw [cause]
    · rw [epc]
    · rw [eval]
    · rw [etvec]
    · exact fun ok => by rw [afunc ok]
    · exact fun low other => by rw [refused low other]
    · rw [status]
    · rw [slice]
    · rw [epoch]
    · rw [tsel]
  case spdm =>
    intro s p as c hat hc
    have caps := exec_getCapabilities hat hc
    refine ⟨exec_getVersion hat, fun early => ?_, fun version => ?_, exec_negotiateAlgorithms_of_early hat hc,
      fun a b e has done => negotiation_cases (has ▸ hat) hc done, exec_early hat hc,
      fun done => ⟨exec_getDigests hat hc done, fun slot off n part has hpart => ?_,
        fun i has => getMeasurements_cases (has ▸ hat) hc done⟩,
      exec_finish_of_no_session hat hc, fun m what n key q has session =>
        ⟨exec_finish_of_invalid (has ▸ hat) hc session, fun valid hq => ?_⟩,
      rfl, rfl, rfl⟩
    · rw [caps, early, if_neg Bool.false_ne_true]
    · rw [caps, if_pos version]
    · exact ⟨exec_getCertificate (has ▸ hat) hc done hpart, exec_getCertificate_of_empty_slot (has ▸ hat) hc done⟩
    · rw [exec_finish (has ▸ hat) hc session valid hq]
      refine ⟨fun wrap => ?_, fun ide => ?_, fun wrap ide => ?_⟩
      · rw [wrap]
        rfl
      · rw [ide]
        rfl
      · rw [inSession_other wrap ide]

end Sys2Proof.Execution
end

section
/-! SUPPORT. What each function of the state does to the canonical form of the two shared memories: only `devWrite`, `sysWrite` and
the loss of a package change them, and everything else is put together from those (R236, R244, R245). -/
namespace Sys2Proof.Machine
open State

/-! ### Conditions, folds and memories -/

theorem memWf_ite {p : Prop} [Decidable p] {s u : State} (hs : s.memWf) (hu : u.memWf) : (if p then s else u).memWf := by
  split
  · exact hs
  · exact hu

/-- A fold whose every step keeps the form keeps it. -/
theorem memWf_foldl {α : Type} {f : State → α → State} {l : List α} {s : State} (wf : s.memWf)
    (hf : ∀ (u : State) (a : α), u.memWf → (f u a).memWf) : (l.foldl f s).memWf :=
  List.foldlRecOn l f wf fun u hu a _ => hf u a hu

/-- The same of a fold that carries something along. -/
theorem memWf_foldl_fst {α β : Type} {f : State × β → α → State × β} {l : List α} {p : State × β} (wf : p.1.memWf)
    (hf : ∀ (q : State × β) (a : α), q.1.memWf → (f q a).1.memWf) : (l.foldl f p).1.memWf :=
  List.foldlRecOn l f wf fun q hq a _ => hf q a hq

/-- The same of a fold that may fail at every step. -/
theorem memWf_foldl_bind {α : Type} {f : State → α → Option State} {l : List α} {o : Option State} {v : State}
    (hf : ∀ (u : State) (a : α) (w : State), u.memWf → f u a = some w → w.memWf) (ho : ∀ u : State, o = some u → u.memWf)
    (hv : l.foldl (fun acc a => acc.bind (fun s => f s a)) o = some v) : v.memWf := by
  refine List.foldlRecOn l _ (motive := fun acc => ∀ u : State, acc = some u → u.memWf) ho (fun acc hacc a _ u hu => ?_)
    v hv
  obtain ⟨w, hw, hfw⟩ := Option.bind_eq_some_iff.mp hu
  exact hf w a u (hacc w hw) hfw

theorem memWf_getD {o : Option State} {s : State} (wf : s.memWf) (ho : ∀ u : State, o = some u → u.memWf) :
    (o.getD s).memWf := by
  cases o with
  | none => exact wf
  | some u => exact ho u rfl

theorem risesFrom_filter {α : Type} (q : Nat × α → Bool) {lo : Nat} {t : Tbl α} (h : risesFrom lo t = true) :
    risesFrom lo (t.filter q) = true := by
  induction t generalizing lo with
  | nil => rfl
  | cons e r ih =>
    obtain ⟨k, v⟩ := e
    simp only [risesFrom, Bool.and_eq_true, decide_eq_true_eq] at h
    obtain ⟨hk, hr⟩ := h
    rw [List.filter_cons]
    split
    · simp only [risesFrom, Bool.and_eq_true, decide_eq_true_eq]
      exact ⟨hk, ih hr⟩
    · exact risesFrom_le (k + 1) lo _ (ih hr) (by omega)

/-- A memory of which some bytes are lost keeps its form. -/
theorem Memory.wf_filter {m : List Host.Cell} (q : Host.Cell → Bool) (h : Memory.wf m = true) : Memory.wf (m.filter q) =
    true := by
  simp only [Memory.wf, tableWf, Bool.and_eq_true, List.all_eq_true] at h ⊢
  exact ⟨risesFrom_filter q h.1, fun e he => h.2 e (List.mem_of_mem_filter he)⟩

theorem State.memWf_setFn {s : State} {f : Nat} {x : Fn} (wf : s.memWf) : (s.setFn f x).memWf := wf

theorem State.memWf_setPkg {s : State} {p : Nat} {x : Pkg} (wf : s.memWf) : (s.setPkg p x).memWf := wf

theorem State.memWf_setTask {s : State} {x : Task} (wf : s.memWf) : (s.setTask x).memWf := wf

theorem State.memWf_onTile {s : State} {t i : Nat} {f : Tile → Tile} (wf : s.memWf) : (s.onTile t i f).memWf :=
  memWf_onGang _ _ _ wf

theorem State.memWf_choose {s : State} {n : Nat} (wf : s.memWf) : (s.choose n).2.memWf := wf

theorem State.memWf_emit {s : State} {kind who : Nat} {value : List Nat} (wf : s.memWf) : (s.emit kind who value).memWf
    := wf

theorem State.memWf_onPewter {s : State} {p : Nat} {f : Pewter → Pewter} (wf : s.memWf) : (s.onPewter p f).memWf :=
  memWf_setPkg wf

theorem State.memWf_logEvent {s : State} {sev unit place task addr code : Nat} (wf : s.memWf) :
    (s.logEvent sev unit place task addr code).memWf := memWf_onPewter wf

theorem State.memWf_noteBad {s : State} {task a n : Nat} (wf : s.memWf) : (s.noteBad task a n).memWf := by
  unfold State.noteBad
  split
  · exact wf
  · exact memWf_logEvent wf

theorem State.memWf_noteAgent {s : State} {a n : Nat} (wf : s.memWf) : (s.noteAgent a n).memWf :=
  memWf_ite (memWf_noteBad wf) wf

theorem State.memWf_flushAll {s : State} {c : Nat} (wf : s.memWf) : (s.flushAll c).memWf := memWf_flush _ _ _ wf

theorem State.memWf_beforeLoad {s : State} {c cls a n : Nat} (wf : s.memWf) : (s.beforeLoad c cls a n).memWf :=
  memWf_flush _ _ _ wf

theorem State.memWf_exception {s : State} {cause eval : Nat} (wf : s.memWf) : (s.exception cause eval).memWf :=
  memWf_onMe _ _ wf

theorem State.memWf_systemCall {s : State} {code : Nat} (wf : s.memWf) : (s.systemCall code).memWf := memWf_onMe _ _ wf

theorem State.memWf_finish {s : State} {d : Nat} {v : Word} (wf : s.memWf) : (s.finish d v).memWf := memWf_onMe _ _ wf

theorem State.memWf_status {s : State} {d st : Nat} (wf : s.memWf) : (s.status d st).memWf := memWf_finish wf

theorem State.memWf_issueOn {s : State} {k : Gang → Tile → Nat → Origin → Gang} (wf : s.memWf) : (s.issueOn k).memWf := by
  unfold State.issueOn
  split
  · exact memWf_onGang _ _ _ wf
  · exact wf

theorem State.memWf_cacheLine {s : State} {a : Nat} (wf : s.memWf) : (s.cacheLine a).memWf :=
  memWf_ite (memWf_onMe _ _ wf) wf

theorem State.memWf_agentLoad {s : State} {cls a n : Nat}
    {k : State → Nat → State} (wf : s.memWf) (hk : ∀ (u : State) (v : Nat), u.memWf → (k u v).memWf) :
      (s.agentLoad cls a n k).memWf :=
  memWf_ite (memWf_ite (memWf_exception (memWf_noteAgent (memWf_cacheLine (memWf_beforeLoad wf))))
    (hk _ _ (memWf_cacheLine (memWf_beforeLoad wf)))) (memWf_exception wf)

theorem State.memWf_fetchFails {s : State} {c cause : Nat} (wf : s.memWf) : (s.fetchFails c cause).memWf :=
  memWf_exception (memWf_ite (memWf_noteAgent wf) wf)

theorem State.memWf_control {s : State} {f : Gang → Tile → Active → Origin → Gang} (wf : s.memWf) : (s.control f).memWf :=
  memWf_issueOn wf

theorem State.memWf_before {s : State} {ts : List Turn} (wf : s.memWf) : (s.before ts).memWf := wf

theorem State.memWf_bundleIssue {s : State} {t gid : Nat} {g : Gang} {x : Tile} (wf : s.memWf) :
    (s.bundleIssue t gid g x).memWf := by
  unfold State.bundleIssue
  dsimp only
  refine memWf_ite wf ?_
  refine memWf_ite (memWf_onGang _ _ _ wf) ?_
  split
  · exact memWf_before (memWf_onTile wf)
  · exact memWf_ite (memWf_onGang _ _ _ wf) (memWf_ite (memWf_onGang _ _ _ wf) (memWf_before (memWf_onGang _ _ _ wf)))

theorem State.memWf_withTile {s : State}
    {k : Nat → Nat → Gang → Tile → State} (wf : s.memWf) (hk : ∀ (t gid : Nat) (g : Gang) (x : Tile),
      (k t gid g x).memWf) : (s.withTile k).memWf := by
  unfold State.withTile
  dsimp only
  split
  · exact wf
  · split
    · exact wf
    · exact hk _ _ _ _

theorem State.memWf_writeRecord {s : State} {f : Nat} (wf : s.memWf) : (s.writeRecord f).memWf := by
  unfold State.writeRecord
  dsimp only
  split
  · exact wf
  · exact memWf_ite wf (memWf_ite (memWf_ite (memWf_emit (memWf_setFn (memWf_sysWrite _ _ _ wf)))
    (memWf_setFn (memWf_sysWrite _ _ _ wf))) (memWf_before (memWf_ite (memWf_emit
    (memWf_setFn (memWf_sysWrite _ _ _ wf))) (memWf_setFn (memWf_sysWrite _ _ _ wf)))))

theorem State.memWf_takeRecord {s : State} {f : Nat} {r : CplRec} (wf : s.memWf) : (s.takeRecord f r).memWf :=
  memWf_ite (memWf_setFn wf) (memWf_before (memWf_setFn wf))

theorem State.memWf_counted {s : State} (wf : s.memWf) : s.counted.memWf := wf

theorem State.memWf_arrive {s : State} {e : Ev} (wf : s.memWf) : (s.arrive e).memWf := memWf_ite wf (memWf_before wf)

theorem State.memWf_post {s : State} {task : Option Nat} {lcyc gid place f : Nat} {r : CplRec} (wf : s.memWf) :
    (s.post task lcyc gid place f r).memWf := memWf_arrive wf

theorem State.memWf_setLink {s : State} {p l : Nat} {x : Link} (wf : s.memWf) : (s.setLink p l x).memWf := memWf_setPkg wf

theorem State.memWf_locWrite {s : State} {l : DevLoc} {bs : List PByte} (wf : s.memWf) : (s.locWrite l bs).memWf :=
  memWf_ite (memWf_devWrite _ _ _ wf) (memWf_ite wf (memWf_devWrite _ _ _ wf))

theorem State.memWf_locRevert {s : State} {l : DevLoc} {bs : List PByte} (wf : s.memWf) : (s.locRevert l bs).memWf :=
  memWf_locWrite wf

theorem State.memWf_perform {s : State} {pick : Job → Bool}
    {run : State → Nat → Due → State} (wf : s.memWf) (hr : ∀ (u : State) (t : Nat) (d : Due), u.memWf →
      (run u t d).memWf) : (s.perform pick run).memWf := by
  unfold State.perform
  dsimp only
  split
  · exact wf
  · exact memWf_foldl (memWf_onGang _ _ _ wf) (fun _ _ hu => hr _ _ _ hu)

theorem State.memWf_performGang {s : State} {pick : Job → Bool} {run : Gang → Due → Gang} (wf : s.memWf) :
    (s.performGang pick run).memWf := memWf_perform wf (fun _ _ _ hu => memWf_onGang _ _ _ hu)

theorem State.memWf_sendOn {s : State} {t : Nat} {o : Origin} {dst : Place} {due a b : Nat} {bs : List PByte}
    (wf : s.memWf) :
    (s.sendOn t o dst due a b bs).memWf := by
  unfold State.sendOn
  split
  · exact wf
  · split
    · exact memWf_onGang _ _ _ wf

theorem State.memWf_postBeat {s : State} {t : Nat} {o : Origin} {h seg beat off node at_ : Nat}
    {bs : List PByte} (wf : s.memWf) : (s.postBeat t o h seg beat off node at_ bs).memWf := memWf_onGang _ _ _ wf

theorem State.memWf_deliver {s : State} {t : Nat} {o : Origin} {after : After} {at_ : Nat} {bs : List PByte}
    (wf : s.memWf) :
    (s.deliver t o after at_ bs).memWf := by
  unfold State.deliver
  split
  · exact memWf_onGang _ _ _ (memWf_onGang _ _ _ wf)
  · exact memWf_sendOn (memWf_onGang _ _ _ wf)
  · exact memWf_onGang _ _ _ (memWf_onGang _ _ _ wf)
  · exact memWf_onGang _ _ _ (memWf_onGang _ _ _ wf)
  · exact memWf_onGang _ _ _ (memWf_onGang _ _ _ wf)
  · exact memWf_postBeat (memWf_onGang _ _ _ wf)

theorem State.memWf_readPerform {s : State} {t : Nat} {o : Origin} {port : Nat} {src : Place} {n : Nat}
    {after : After} (wf : s.memWf) : (s.readPerform t o port src n after).memWf := by
  unfold State.readPerform
  refine memWf_deliver ?_
  split
  · exact memWf_ite wf (memWf_onGang _ _ _ wf)
  · exact memWf_noteBad wf
  · exact wf

theorem State.memWf_barrierAt {s : State} {l : DevLoc} {kind n : Nat} {poison : Bool} (wf : s.memWf) :
    (s.barrierAt l kind n poison).1.memWf := by
  unfold State.barrierAt
  dsimp only
  split
  · exact memWf_noteBad wf
  · split
    · exact wf
    · exact memWf_locWrite wf

theorem State.memWf_noteArrival {s : State} {t : Nat} {o : Origin} {kind : Nat} (wf : s.memWf) :
    (s.noteArrival t o kind).memWf := by
  unfold State.noteArrival
  split
  · exact wf
  · exact memWf_ite (memWf_arrive wf) wf

theorem State.memWf_barrierApply {s : State} {t : Nat} {o : Origin} {u : BarrierUpdate}
    {rest : List (Nat × BarrierUpdate)} (wf : s.memWf) : (s.barrierApply t o u rest).memWf :=
  memWf_onGang _ _ _ (memWf_barrierAt (memWf_noteArrival wf))

theorem State.memWf_tileWrite {s : State} {t : Nat} {o : Origin} {l : DevLoc} {bs : List PByte} (wf : s.memWf) :
    (s.tileWrite t o l bs).1.memWf := by
  unfold State.tileWrite
  split
  · exact wf
  · split
    · exact memWf_locWrite wf
    · split
      · exact memWf_locWrite (memWf_onTile wf)
      · exact memWf_onTile wf

theorem State.memWf_atomApply {s : State} {t : Nat} {o : Origin} {op : Nat} {l : DevLoc} {w b c : Nat} {poison : Bool}
    {code due : Nat} (wf : s.memWf) : (s.atomApply t o op l w b c poison code due).memWf :=
  memWf_ite (memWf_onGang _ _ _ (memWf_barrierAt (memWf_noteArrival wf)))
    (memWf_ite (memWf_onGang _ _ _ (memWf_noteBad wf)) (memWf_onGang _ _ _ (memWf_ite (memWf_tileWrite wf) wf)))

theorem State.memWf_applyStaged {s : State} {t : Nat} {w : Staged} (wf : s.memWf) : (s.applyStaged t w).memWf := by
  unfold State.applyStaged
  split
  · exact memWf_atomApply wf
  · exact memWf_barrierApply wf
  · exact memWf_onGang _ _ _ wf
  · exact memWf_ite (memWf_locRevert wf) (memWf_tileWrite wf)
  · exact memWf_ite (memWf_onTile wf) (memWf_onTile wf)

theorem State.memWf_commit {s : State} {t : Nat} (wf : s.memWf) : (s.commit t).memWf := by
  unfold State.commit
  split
  · exact wf
  · exact memWf_foldl (memWf_onGang _ _ _ wf) (fun _ _ hu => memWf_applyStaged hu)

theorem State.memWf_startGen {s : State} {t dom number : Nat} {g : Gang} (wf : s.memWf) :
    (s.startGen t dom number g).memWf := memWf_arrive wf

theorem State.memWf_countGen {s : State} {t dom number : Nat} (wf : s.memWf) : (s.countGen t dom number).memWf := by
  unfold State.countGen
  split
  · exact wf
  · exact memWf_foldl wf (fun _ _ hu => memWf_setPkg hu)

theorem State.memWf_snapAt {s : State} {t : Nat} {g : Gang} {r : SnapReq} (wf : s.memWf) : (s.snapAt t g r).1.memWf := by
  unfold State.snapAt
  extract_lets st n
  split
  · exact memWf_startGen (memWf_onGang _ _ _ wf)
  · exact wf

theorem State.memWf_drainOn {s : State} {t dom number stk : Nat} (wf : s.memWf) : (s.drainOn t dom number stk).memWf := wf

theorem State.memWf_genDrained {s : State} {g : Gen} (wf : s.memWf) : (s.genDrained g).memWf :=
  memWf_foldl wf (fun _ _ hu => memWf_logEvent hu)

theorem State.memWf_onTree {s : State} {h : Nat} {f : Tree → Tree} (wf : s.memWf) : (s.onTree h f).memWf := by
  unfold State.onTree
  split
  · exact wf
  · exact wf

theorem State.memWf_setSlots {s : State} {e : Nat} {v : Tbl TreeSlot} (wf : s.memWf) : (s.setSlots e v).memWf :=
  memWf_setPkg wf

theorem State.memWf_setGangSlots {s : State} {g : Gang} {e : Nat} {v : Tbl TreeSlot} (wf : s.memWf) :
    (s.setGangSlots g e v).memWf := memWf_setSlots wf

theorem State.memWf_pinSlot {s : State} {g : Gang} {e h : Nat} {pin : Nat × Nat × Nat} (wf : s.memWf) :
    (s.pinSlot g e h pin).memWf := by
  unfold State.pinSlot
  split
  · exact wf
  · exact memWf_setGangSlots wf

theorem State.memWf_refill {s u : State} {g : Gang} {n h : Nat} (wf : s.memWf) (hu : s.refill g n h = some u) : u.memWf
    := by
  unfold State.refill at hu
  dsimp only at hu
  split at hu
  · obtain rfl := Option.some.inj hu
    exact memWf_setGangSlots wf
  · cases hu

theorem State.memWf_mapSlots {s : State} {f : Tbl TreeSlot → Tbl TreeSlot} (wf : s.memWf) : (s.mapSlots f).memWf := wf

theorem State.memWf_unpin {s : State} {h : Nat} {gone : Nat × Nat × Nat → Bool} (wf : s.memWf) : (s.unpin h gone).memWf :=
  memWf_mapSlots wf

theorem State.memWf_dropSlots {s : State} {h : Nat} (wf : s.memWf) : (s.dropSlots h).memWf := memWf_mapSlots wf

theorem State.memWf_markPinned {s : State} {t gid h s0 : Nat} (wf : s.memWf) : (s.markPinned t gid h s0).memWf :=
  memWf_onTile wf

theorem State.memWf_pinArm {s : State} {t gid : Nat} {g : Gang} {r : Tree} {h : Nat} {a : Arm} (wf : s.memWf) :
    (s.pinArm t gid g r h a).memWf := memWf_markPinned (memWf_foldl wf (fun _ _ hu => memWf_pinSlot hu))

theorem State.memWf_refuseArms {s : State} {t : Nat} {g : Gang} {r : Tree} {h e : Nat} {like : Arm} (wf : s.memWf) :
    (s.refuseArms t g r h e like).memWf := memWf_foldl wf (fun _ _ hu => memWf_ite (memWf_unpin (memWf_onTile hu)) hu)

theorem State.memWf_refillArm {s : State} {t gid h : Nat} {a : Arm} (wf : s.memWf) : (s.refillArm t gid h a).memWf := by
  unfold State.refillArm
  split
  next g r _ _ =>
    extract_lets step out
    have hStep (acc : State × Bool) (e : Nat) (hacc : acc.1.memWf) : (step acc e).1.memWf := by
      unfold step
      split
      · exact hacc
      · split
        next v hv => exact memWf_refill hacc hv
        · exact memWf_refuseArms hacc
    have hOut : out.1.memWf := memWf_foldl_fst (p := (s, true)) wf hStep
    exact memWf_ite (memWf_pinArm hOut) hOut
  · exact wf

theorem State.memWf_refillArms {s : State} {t : Nat} (wf : s.memWf) : (s.refillArms t).memWf := by
  unfold State.refillArms
  split
  · exact wf
  · refine memWf_foldl wf ?_
    intro u a hu
    split
    · exact memWf_ite (memWf_refillArm hu) hu
    · exact hu

theorem State.memWf_armSlots {s : State} {t gid buf h : Nat} (wf : s.memWf) : (s.armSlots t gid buf h).memWf := by
  unfold State.armSlots
  split
  · split
    · exact wf
    · exact memWf_ite wf (memWf_ite (memWf_pinArm (memWf_onTree wf)) (memWf_onGang _ _ _ (memWf_onTree wf)))
  · exact wf

theorem State.memWf_openRange {s : State} {t h : Nat} {waiting : List (Nat × Arm)} {a : Arm} (wf : s.memWf) :
    (s.openRange t h waiting a).memWf := by
  unfold State.openRange
  split
  · exact wf
  · exact memWf_onGang _ _ _ (memWf_onTree wf)

theorem State.memWf_openRanges {s : State} {t h : Nat} {r : Tree} {ns : List TreeNode} {g : Gang} (wf : s.memWf) :
    (s.openRanges t h r ns g).memWf := by
  unfold State.openRanges
  refine memWf_foldl ?_ (fun _ _ hu => memWf_openRange hu)
  refine memWf_foldl wf ?_
  intro u a hu
  split
  · exact memWf_ite (memWf_onGang _ _ _ hu) hu
  · exact hu

theorem State.memWf_sendBeatDown {s : State} {t h : Nat} {r : Tree} {ns : List TreeNode} {g : Gang} {q : TreeRange}
    {seg beat : Nat} (wf : s.memWf) : (s.sendBeatDown t h r ns g q seg beat).memWf := memWf_onGang _ _ _ (memWf_onTree wf)

theorem State.memWf_spoilBeats {s : State} {t h : Nat} {r : Tree} {ns : List TreeNode} {g : Gang}
    {q : TreeRange} (wf : s.memWf) : (s.spoilBeats t h r ns g q).memWf := memWf_ite wf (memWf_onTree wf)

theorem State.memWf_foldRange {s : State} {t h : Nat} {r : Tree} {ns : List TreeNode} {g : Gang} {q : TreeRange}
    (wf : s.memWf) :
    (s.foldRange t h r ns g q).memWf := by
  unfold State.foldRange
  extract_lets d arms slipped spoiled
  have hSlipped : slipped.memWf := by
    unfold slipped
    split
    · exact memWf_onGang _ _ _ wf
    · exact wf
  have hSpoiled : spoiled.memWf := memWf_spoilBeats hSlipped
  split
  · exact memWf_sendBeatDown hSpoiled
  · exact hSpoiled

theorem State.memWf_foldTree {s : State} {t h : Nat} {r : Tree} (wf : s.memWf) : (s.foldTree t h r).memWf := by
  unfold State.foldTree
  dsimp only
  split
  · exact wf
  · refine memWf_ite wf ?_
    split
    · exact memWf_foldl (memWf_openRanges (memWf_onGang _ _ _ wf)) (fun _ _ hu => memWf_foldRange hu)
    · exact memWf_openRanges (memWf_onGang _ _ _ wf)

theorem State.memWf_landDelivery {s : State} {t h : Nat} {r : Tree} {d : Delivery} (wf : s.memWf) :
    (s.landDelivery t h r d).memWf := by
  unfold State.landDelivery
  split
  · split
    · exact wf
    · split
      · exact memWf_ite wf (memWf_onTile wf)
      · exact memWf_onGang _ _ _ wf
  · exact wf

theorem State.memWf_landDeliveries {s : State} {t : Nat} (wf : s.memWf) : (s.landDeliveries t).memWf := by
  unfold State.landDeliveries
  split
  · exact wf
  · exact memWf_foldl wf (fun _ _ hu => memWf_onTree (memWf_foldl hu (fun _ _ hu2 => memWf_landDelivery hu2)))

theorem State.memWf_completeRange {s : State} {t h : Nat} {q : TreeRange} {c : Nat} (wf : s.memWf) :
    (s.completeRange t h q c).memWf := by
  unfold State.completeRange
  dsimp only
  split
  · exact memWf_onTree wf
  · exact memWf_unpin (memWf_onGang _ _ _ (memWf_onTree wf))

theorem State.memWf_closeRange {s : State} {t h : Nat} {r : Tree} {q : TreeRange} (wf : s.memWf) :
    (s.closeRange t h r q).memWf := by
  unfold State.closeRange
  split
  · exact wf
  · exact memWf_onGang _ _ _ (memWf_ite (memWf_post (memWf_onTree wf)) (memWf_onTree wf))

theorem State.memWf_finishRange {s : State} {t h : Nat} {q : TreeRange} (wf : s.memWf) : (s.finishRange t h q).memWf := by
  unfold State.finishRange
  split
  · extract_lets quiet sent done
    have hDone : done.memWf := memWf_ite (memWf_completeRange wf) wf
    split
    · split
      · exact memWf_ite (memWf_closeRange hDone) hDone
      · exact hDone
    · exact hDone
  · exact wf

theorem State.memWf_finishCover {s : State} {t h : Nat} {g : Gang} {r : Tree} {gid : Nat} {v : Cover} (wf : s.memWf) :
    (s.finishCover t h g r gid v).memWf := by
  unfold State.finishCover
  split
  · exact wf
  · split
    · exact wf
    · exact memWf_foldl wf (fun _ _ hu => memWf_ite hu (memWf_onTile hu))

theorem State.memWf_killTrees {s : State} {t : Nat} (wf : s.memWf) : (s.killTrees t).memWf := by
  unfold State.killTrees
  refine memWf_foldl wf ?_
  intro u a hu
  split
  · exact hu
  · exact memWf_ite hu (memWf_unpin (memWf_onTree (memWf_foldl hu (fun _ _ hu2 => memWf_finishCover hu2))))

theorem State.memWf_forgetTrees {s : State} {t : Nat} (wf : s.memWf) : (s.forgetTrees t).memWf :=
  memWf_foldl wf (fun _ _ hu => memWf_unpin hu)

theorem State.memWf_freezeTree {s : State} {h : Nat} {r : Tree} (wf : s.memWf) : (s.freezeTree h r).memWf :=
  memWf_onTree (memWf_dropSlots (memWf_devWrite _ _ _ wf))

theorem State.memWf_refillPath {s u : State} {g : Gang} {h : Nat} {ends : List Nat} (wf : s.memWf)
    (hu : s.refillPath g h ends = some u) : u.memWf := by
  refine memWf_foldl_bind (fun v n w hv hw => ?_) (fun v hv => Option.some.inj hv ▸ wf) hu
  split at hw
  · exact Option.some.inj hw ▸ hv
  · exact memWf_refill hv hw

theorem State.memWf_thawTree {s u : State} {h : Nat} {r : Tree} (wf : s.memWf) (hu : s.thawTree h r = some u) : u.memWf
    := by
  refine memWf_foldl_bind (fun v e w hv hw => ?_) (fun v hv => Option.some.inj hv ▸ memWf_onTree wf) hu
  obtain ⟨q, hq, rfl⟩ := Option.map_eq_some_iff.mp hw
  exact memWf_pinArm (memWf_refillPath hv hq)

theorem State.memWf_asCore {s : State} {c : Nat}
    {k : State → State} (wf : s.memWf) (hk : ∀ u : State, u.memWf → (k u).memWf) : (s.asCore c k).memWf := hk _ wf

theorem State.memWf_copyPiece {s : State} {c : Nat} {o : CopyOp} {at_ n : Nat} (wf : s.memWf) :
    (s.copyPiece c o at_ n).1.memWf := by
  unfold State.copyPiece
  split
  · exact memWf_agentWrite _ _ _ _ (memWf_noteAgent wf)
  · exact wf

theorem State.memWf_copyPieces {s : State} {c : Nat} {o : CopyOp} {k at_ stop : Nat} (wf : s.memWf) :
    (s.copyPieces c o k at_ stop).1.memWf := by
  induction k generalizing s at_ with
  | zero => exact wf
  | succ k ih =>
    unfold State.copyPieces
    split
    · exact wf
    · exact ih (memWf_copyPiece wf)

theorem State.memWf_copyEnds {s : State} {c i : Nat} {o : CopyOp} (wf : s.memWf) : (s.copyEnds c i o).memWf :=
  memWf_ite (memWf_post (memWf_setCore _ _ _ wf)) (memWf_setCore _ _ _ wf)

theorem State.memWf_copyBeats {s : State} {o : CopyOp} (wf : s.memWf) : (s.copyBeats o).memWf := by
  unfold State.copyBeats
  split
  · exact wf
  · exact memWf_ite (memWf_barrierAt (memWf_barrierAt wf)) (memWf_barrierAt wf)

theorem State.memWf_onCopy {s : State} {c i n : Nat} {f : CopyOp → CopyOp} (wf : s.memWf) : (s.onCopy c i n f).memWf :=
  memWf_setCore _ _ _ wf

theorem State.memWf_copyStep {s : State} {c i : Nat} {o : CopyOp} (wf : s.memWf) : (s.copyStep c i o).memWf := by
  unfold State.copyStep
  split
  · split
    · exact memWf_onCopy wf
    · exact memWf_ite (memWf_copyEnds (memWf_barrierAt wf)) (memWf_onCopy (memWf_barrierAt wf))
  · exact memWf_ite (memWf_onCopy (memWf_copyPieces wf)) (memWf_copyEnds (memWf_copyBeats wf))

theorem State.memWf_endWait {s : State} {d st : Nat} (wf : s.memWf) : (s.endWait d st).memWf :=
  memWf_status (memWf_onMe _ _ wf)

theorem State.memWf_returnWait {s : State} {why st : Nat} (wf : s.memWf) : (s.returnWait why st).memWf := by
  unfold State.returnWait
  dsimp only
  split
  · exact wf
  · exact memWf_ite (memWf_asCore wf (fun _ hu => memWf_endWait hu)) wf

theorem State.memWf_leaveTiles {s : State} {g : Gang} (wf : s.memWf) : (s.leaveTiles g).memWf :=
  memWf_foldl wf (fun _ _ hu => memWf_setPkg hu)

theorem State.memWf_windowWrite {s u : State} {c r : Nat} {v : Word} (wf : s.memWf) (hu : s.windowWrite c r v = some u) :
    u.memWf := by
  unfold State.windowWrite at hu
  extract_lets p phys limit s1 at hu
  have hs1 : s1.memWf := memWf_ite (memWf_setPkg wf) wf
  split at hu <;> split at hu
  · obtain rfl := Option.some.inj hu
    exact memWf_onTile hs1
  · cases hu
  · obtain rfl := Option.some.inj hu
    exact hs1
  · obtain rfl := Option.some.inj hu
    exact memWf_setPkg wf

theorem State.memWf_wakeQueue {s : State} {f : Nat} (wf : s.memWf) : (s.wakeQueue f).memWf := memWf_ite wf (memWf_before wf)

theorem State.memWf_queueWrite {s : State} {f i v : Nat} (wf : s.memWf) : (s.queueWrite f i v).memWf := by
  unfold State.queueWrite
  split
  · exact memWf_setFn wf
  · exact memWf_wakeQueue (memWf_setFn wf)
  · exact memWf_wakeQueue (memWf_setFn wf)
  · exact memWf_setFn wf

theorem State.memWf_clearCtxErr {s : State} {c i : Nat} (wf : s.memWf) : (s.clearCtxErr c i).memWf := memWf_setCore _ _ _ wf

theorem State.memWf_csrPut {s u : State} {c n : Nat} {v : Word} (wf : s.memWf) (hu : s.csrPut c n v = some u) : u.memWf
    := by
  have hPut {p : Prop} [Decidable p] {o q : Option State} (ho : ∀ w, o = some w → w.memWf)
      (hq : ∀ w, q = some w → w.memWf) : ∀ w, (if p then o else q) = some w → w.memWf := by
    intro w hw
    split at hw
    · exact ho w hw
    · exact hq w hw
  have hSome {a : State} (ha : a.memWf) : ∀ w, some a = some w → w.memWf := fun _ h => Option.some.inj h ▸ ha
  have hNone : ∀ w : State, none = some w → w.memWf := fun _ h => nomatch h
  have hCore (x : AgentCore) : ∀ w, some (s.setCore c x) = some w → w.memWf := hSome (memWf_setCore _ _ _ wf)
  have hSlice (x : Nat) : ∀ w, some { s with slice := x } = some w → w.memWf := hSome wf
  have hEpoch (x : Word) : ∀ w, some { s with sepoch := x } = some w → w.memWf := hSome wf
  have hPkg (x : Pkg) : ∀ w, some (s.setPkg (c / 8) x) = some w → w.memWf := hSome wf
  have hWindow : ∀ w, s.windowWrite c (n - 0x800) v = some w → w.memWf := fun _ => memWf_windowWrite wf
  unfold State.csrPut at hu
  exact hPut (hCore _) (hPut (hCore _) (hPut (hCore _) (hPut (hCore _) (hPut (hPut (hCore _) hNone) (hPut (hCore _)
    (hPut (hSlice _) (hPut (hEpoch _) (hPut (hSome (memWf_queueWrite wf)) (hPut (hPkg _) (hPut (hPkg _)
      (hPut (hSome (memWf_clearCtxErr wf)) (hPut (hCore _) hWindow)))))))))))) u hu

theorem State.memWf_scrubUnit {s : State} {p : Nat} {j : ScrubJob} (wf : s.memWf) : (s.scrubUnit p j).memWf := by
  unfold State.scrubUnit
  dsimp only
  split
  · split
    · exact memWf_setPkg wf
    · exact memWf_onTile (memWf_setPkg wf)
  · exact memWf_devWrite _ _ _ wf

theorem State.memWf_scrubEnds {s : State} {p : Nat} {j : ScrubJob} (wf : s.memWf) : (s.scrubEnds p j).memWf :=
  memWf_post wf

theorem State.memWf_submit {s : State} {fn : Nat} {d : TaskDesc} {core home op : Nat} {parent : Option Nat} (wf : s.memWf) :
    (s.submit fn d core home op parent).memWf := memWf_setTask (memWf_setFn wf)

theorem State.memWf_requestLaunch {s : State} {t : Nat} {g : Gang} {gid lcyc : Nat} {loc : DevLoc} (wf : s.memWf) :
    (s.requestLaunch t g gid lcyc loc).memWf := memWf_arrive wf

theorem State.memWf_launchChild {s : State} {t gid lcyc : Nat} {loc : DevLoc} (wf : s.memWf) :
    (s.launchChild t gid lcyc loc).memWf := by
  unfold State.launchChild
  dsimp only
  split
  · exact wf
  · split
    · exact memWf_post (memWf_noteBad wf)
    · exact memWf_submit (memWf_noteBad wf)

theorem State.memWf_tlaunch {s : State} {t ra : Nat} {g : Gang} {x : Tile} {o : Origin} (wf : s.memWf) :
    (s.tlaunch t ra g x o).memWf := by
  unfold State.tlaunch
  extract_lets rd va read r held
  have hRead : read.memWf := memWf_onGang _ _ _ wf
  have hHeld : held.memWf := memWf_ite (memWf_onGang _ _ _ hRead) hRead
  refine memWf_ite (memWf_onGang _ _ _ hRead) (memWf_ite (memWf_onGang _ _ _ hRead) ?_)
  split
  · exact memWf_ite (memWf_onGang _ _ _ hHeld) (memWf_requestLaunch hHeld)
  · exact memWf_onGang _ _ _ hHeld
  · exact memWf_onGang _ _ _ hHeld

theorem State.memWf_releaseLaunches {s : State} {t : Nat} (wf : s.memWf) : (s.releaseLaunches t).memWf := by
  unfold State.releaseLaunches
  split
  · exact wf
  · exact memWf_foldl (memWf_onGang _ _ _ wf) (fun _ _ hu => memWf_requestLaunch hu)

theorem State.memWf_accept {s : State} {e : Ev} (wf : s.memWf) : (s.accept e).memWf := by
  unfold State.accept
  split
  · exact memWf_takeRecord (memWf_counted wf)
  · exact memWf_launchChild (memWf_counted wf)
  · exact memWf_countGen (memWf_counted wf)
  · exact memWf_counted wf

theorem State.memWf_serialise {s : State} (wf : s.memWf) : s.serialise.memWf :=
  memWf_foldl wf (fun _ _ hu => memWf_accept hu)

theorem State.memWf_revertRegions {s : State} {g : Gang} (wf : s.memWf) : (s.revertRegions g).memWf :=
  memWf_foldl wf (fun _ _ hu => memWf_ite hu (memWf_foldl hu (fun _ _ hu2 => memWf_locRevert hu2)))

theorem State.memWf_keepLimits {s : State} {g : Gang} (wf : s.memWf) : (s.keepLimits g).memWf :=
  memWf_foldl wf (fun _ _ hu => memWf_setPkg hu)

theorem State.memWf_endTask {s : State} {t status : Nat} (wf : s.memWf) : (s.endTask t status).memWf := by
  unfold State.endTask
  split
  · exact wf
  next x _ =>
    extract_lets g lcyc reverted left forgotten ended e logged
    have hReverted : reverted.memWf := by
      unfold reverted
      cases g with
      | none => exact wf
      | some g => exact memWf_revertRegions wf
    have hLeft : left.memWf := by
      unfold left
      split
      · exact memWf_killTrees (memWf_leaveTiles (memWf_keepLimits hReverted))
      · exact hReverted
    have hEnded : ended.memWf := memWf_onTask _ _ _ (memWf_forgetTrees hLeft)
    exact memWf_post (memWf_ite (memWf_logEvent hEnded) hEnded)

theorem State.memWf_killWrite {s : State} {t : Nat} {o : Origin} {l : DevLoc} {bs : List PByte} (wf : s.memWf) :
    (s.killWrite t o l bs).memWf :=
  memWf_foldl wf (fun _ _ hu => memWf_ite (memWf_choose hu) (memWf_tileWrite (memWf_choose hu)))

theorem State.memWf_killDue {s : State} {t : Nat} {d : Due} (wf : s.memWf) : (s.killDue t d).memWf := by
  unfold State.killDue
  split
  · exact memWf_killWrite wf
  · exact memWf_ite wf (memWf_ite (memWf_choose wf) (memWf_atomApply (memWf_choose wf)))
  · exact wf

theorem State.memWf_killTask {s : State} {t status : Nat} (wf : s.memWf) : (s.killTask t status).memWf := by
  unfold State.killTask
  refine memWf_endTask ?_
  split
  · exact memWf_killTrees (memWf_foldl wf (fun _ _ hu => memWf_killDue hu))
  · exact wf

theorem State.memWf_clearIdle {s : State} {g : Gang} (wf : s.memWf) : (s.clearIdle g).memWf :=
  memWf_foldl wf (fun _ _ hu => memWf_setPkg hu)

theorem State.memWf_uncacheHost {s : State} {g : Gang} (wf : s.memWf) : (s.uncacheHost g).memWf := wf

theorem State.memWf_startTask {s : State} {x : Task} {b : List Nat} {pkgs : List Nat} {place : Nat}
    {frames : List (Nat × Nat)} (wf : s.memWf) : (s.startTask x b pkgs place frames).memWf :=
  memWf_onTask _ _ _ (memWf_clearIdle (memWf_uncacheHost (memWf_ite (memWf_onPewter wf) wf)))

theorem State.memWf_chooseFrom {α : Type} {s : State} {xs : List α} (wf : s.memWf) : (s.chooseFrom xs).2.memWf := by
  unfold State.chooseFrom
  dsimp only
  exact memWf_choose wf

theorem State.memWf_launchTask {s : State} {x : Task} (wf : s.memWf) : (s.launchTask x).memWf := by
  unfold State.launchTask
  split
  · exact memWf_endTask wf
  · extract_lets v map fixed drawn
    refine memWf_ite (memWf_endTask wf) (memWf_ite (memWf_endTask wf) ?_)
    have hDrawn : drawn.2.memWf := memWf_chooseFrom wf
    split
    · exact wf
    · split
      · exact memWf_endTask hDrawn
      · exact memWf_startTask hDrawn

theorem State.memWf_queueTasks {s : State} (wf : s.memWf) : s.queueTasks.memWf := by
  unfold State.queueTasks
  refine memWf_foldl wf ?_
  intro u a hu
  split
  · exact hu
  · exact memWf_ite hu (memWf_ite (memWf_endTask hu) (memWf_ite (memWf_onTask _ _ _ hu) hu))

theorem State.memWf_onOwnTask {s : State} {d id : Nat} {k : Task → State} (wf : s.memWf) (hk : ∀ x : Task, (k x).memWf) :
    (s.onOwnTask d id k).memWf := by
  unfold State.onOwnTask
  split
  · exact memWf_status wf
  · exact hk _

theorem State.memWf_applyMode {s : State} {t mode : Nat} (wf : s.memWf) : (s.applyMode t mode).memWf := by
  unfold State.applyMode
  split
  · exact wf
  · exact memWf_ite (memWf_releaseLaunches (memWf_onGang _ _ _ wf)) (memWf_onGang _ _ _ wf)

theorem State.memWf_snapGang {s : State} {t : Nat} (wf : s.memWf) : (s.snapGang t).memWf := memWf_onTask _ _ _ wf

theorem State.memWf_endFaultHold {s : State} {t : Nat} (wf : s.memWf) : (s.endFaultHold t).memWf := by
  unfold State.endFaultHold
  split
  · exact memWf_ite (memWf_snapGang wf) (memWf_ite (memWf_onTask _ _ _ wf) (memWf_endTask wf))
  · exact wf

theorem State.memWf_startSave {s : State} {t kind : Nat} (wf : s.memWf) : (s.startSave t kind).memWf := memWf_onTask _ _
    _ wf

theorem State.memWf_freezeGang {s : State} {t : Nat} (wf : s.memWf) : (s.freezeGang t).memWf := by
  unfold State.freezeGang
  split
  · exact wf
  next g _ =>
    refine memWf_ite wf (memWf_ite (memWf_onGang _ _ _ wf) ?_)
    extract_lets held stopped refilled reloaded moded kept
    have hStopped : stopped.memWf := memWf_onGang _ _ _ (memWf_onTask _ _ _ wf)
    have hRefilled : refilled.memWf := memWf_ite (memWf_refillArms hStopped) hStopped
    have hReloaded : reloaded.memWf :=
      memWf_ite (memWf_ite (memWf_killTask hRefilled) (memWf_onGang _ _ _ hRefilled)) hRefilled
    have hModed : moded.memWf := by
      unfold moded
      split
      · exact memWf_ite (memWf_applyMode hReloaded) hReloaded
      · exact hReloaded
    have hKept : kept.memWf := memWf_ite (memWf_snapGang hModed) hModed
    exact memWf_ite hModed (memWf_ite (memWf_endFaultHold hKept) (memWf_ite (memWf_startSave hKept) hKept))

theorem State.memWf_planResume {s : State} {t : Nat} (wf : s.memWf) : (s.planResume t).memWf := by
  unfold State.planResume
  split
  · exact memWf_ite (memWf_onGang _ _ _ (memWf_choose wf)) wf
  · exact wf

theorem State.memWf_thawAll {s u : State} {t : Nat} (wf : s.memWf) (hu : s.thawAll t = some u) : u.memWf := by
  refine memWf_foldl_bind (fun v e w hv hw => ?_) (fun v hv => Option.some.inj hv ▸ wf) hu
  split at hw
  · cases hw
  · obtain ⟨r, _, hr⟩ := Option.bind_eq_some_iff.mp hw
    exact memWf_thawTree hv hr

theorem State.memWf_runOn {s : State} {t : Nat} (wf : s.memWf) : (s.runOn t).memWf :=
  memWf_onGang _ _ _ (memWf_onTask _ _ _ wf)

theorem State.memWf_resumeGang {s : State} {t : Nat} (wf : s.memWf) : (s.resumeGang t).memWf := by
  unfold State.resumeGang
  split
  · split
    · split
      · split
        next u hu => exact memWf_runOn (memWf_thawAll wf hu)
        · exact wf
      · exact wf
    · exact wf
  · exact wf

theorem State.memWf_drainStop {s : State} {t : Nat} (wf : s.memWf) : (s.drainStop t).memWf := by
  unfold State.drainStop
  split
  · exact wf
  · split
    · exact memWf_ite (memWf_onGang _ _ _ wf) (memWf_ite (memWf_startSave (memWf_onGang _ _ _ wf)) wf)
    · exact wf

theorem State.memWf_toFront {s : State} {t : Nat} (wf : s.memWf) : (s.toFront t).memWf := memWf_onTask _ _ _ wf

theorem State.memWf_saveDone {s : State} {t : Nat} (wf : s.memWf) : (s.saveDone t).memWf := by
  unfold State.saveDone
  split
  · split
    · split
      · exact memWf_onTask _ _ _ (memWf_leaveTiles (memWf_keepLimits wf))
      · exact memWf_endTask (memWf_onTask _ _ _ (memWf_snapGang wf))
      · exact memWf_endTask (memWf_onTask _ _ _ (memWf_snapGang wf))
      · exact memWf_toFront (memWf_onTask _ _ _ (memWf_leaveTiles (memWf_keepLimits wf)))
    · exact wf
  · exact wf

theorem State.memWf_writeWords {s : State} {t : Tbl PByte} (wf : s.memWf) : (s.writeWords t).memWf :=
  memWf_foldl wf (fun _ _ hu => memWf_devWrite _ _ _ hu)

theorem State.memWf_revertDomain {s : State} {t dom : Nat} (wf : s.memWf) : (s.revertDomain t dom).memWf := by
  unfold State.revertDomain
  split
  · exact wf
  · exact memWf_writeWords wf

theorem State.memWf_restoreFails {s : State} {x : Task} {g : Gang} (wf : s.memWf) : (s.restoreFails x g).memWf :=
  memWf_ite (memWf_onTask _ _ _ (memWf_submit (memWf_foldl (memWf_endTask (memWf_onTask _ _ _ wf))
    (fun _ _ hu => memWf_revertDomain hu)))) (memWf_endTask wf)

theorem State.memWf_repin {s u : State} {t : Nat} (wf : s.memWf) (hu : s.repin t = some u) : u.memWf := by
  refine memWf_foldl_bind (fun v e w hv hw => ?_) (fun v hv => Option.some.inj hv ▸ wf) hu
  split at hw
  · exact Option.some.inj hw ▸ hv
  · refine memWf_foldl_bind (fun x a y hx hy => ?_) (fun x hx => Option.some.inj hx ▸ memWf_unpin hv) hw
    obtain ⟨q, hq, rfl⟩ := Option.map_eq_some_iff.mp hy
    exact memWf_pinArm (memWf_refillPath hx hq)

theorem State.memWf_place {s u : State} {x : Task} {g : Gang} (wf : s.memWf) (hu : s.place x g = some u) : u.memWf :=
  memWf_repin (memWf_releaseLaunches (memWf_onTask _ _ _ (memWf_clearIdle (memWf_uncacheHost wf)))) hu

theorem State.memWf_restore {s : State} {x : Task} {i : Image} (wf : s.memWf) : (s.restore x i).memWf := by
  refine memWf_ite (memWf_restoreFails wf) (memWf_ite wf ?_)
  split
  · exact wf
  · exact memWf_getD wf fun u hu => memWf_place wf hu

theorem State.memWf_restoreTask {s : State} {t kind : Nat} (wf : s.memWf) : (s.restoreTask t kind).memWf := by
  unfold State.restoreTask
  split
  · exact wf
  · split
    · exact memWf_ite (memWf_restore wf) wf
    · exact wf

theorem State.memWf_retire {s : State} {t : Nat} (wf : s.memWf) : (s.retire t).memWf := by
  unfold State.retire
  split
  · exact memWf_ite (memWf_endTask (memWf_releaseLaunches wf)) wf
  · exact wf

theorem State.memWf_askCheckpoint {s : State} {t extra : Nat} (wf : s.memWf) : (s.askCheckpoint t extra).memWf := by
  unfold State.askCheckpoint
  split
  · exact memWf_ite (memWf_ite wf (memWf_startSave wf)) (memWf_ite wf (memWf_onGang _ _ _ wf))
  · exact wf

theorem State.memWf_askDrain {s : State} {t extra : Nat} (wf : s.memWf) : (s.askDrain t extra).memWf := memWf_onGang _ _
    _ wf

theorem State.memWf_tprePark {s : State} {d a bit : Nat}
    {ask : State → Nat → Nat → State} (wf : s.memWf) (ha : ∀ (u : State) (t n : Nat), u.memWf → (ask u t n).memWf) :
      (s.tprePark d a bit ask).memWf := by
  unfold State.tprePark
  refine memWf_onOwnTask wf ?_
  intro a2
  split
  · exact memWf_status wf
  · exact memWf_status (memWf_onTask _ _ _ wf)
  · exact memWf_status (memWf_onTask _ _ _ wf)
  · exact memWf_ite (memWf_status (ha _ _ _ (memWf_onTask _ _ _ (memWf_choose wf)))) (memWf_status wf)
  · exact memWf_ite (memWf_status (ha _ _ _ (memWf_onTask _ _ _ (memWf_choose wf)))) (memWf_status wf)
  · exact memWf_status wf
  · exact memWf_status wf
  · exact memWf_status wf

theorem State.memWf_requeue {s : State} {x : Task} (wf : s.memWf) : (s.requeue x).memWf :=
  memWf_toFront (memWf_onTask _ _ _ wf)

theorem State.memWf_stepGang {s : State} {t : Nat} (wf : s.memWf) : (s.stepGang t).memWf := by
  unfold State.stepGang
  split
  · split
    · split
      next u hu => exact memWf_onGang _ _ _ (memWf_runOn (memWf_thawAll wf hu))
      · exact wf
    · exact wf
  · exact wf

theorem State.memWf_writeDctl {s : State} {t v : Nat} (wf : s.memWf) : (s.writeDctl t v).memWf := by
  unfold State.writeDctl
  split
  · refine memWf_ite wf ?_
    extract_lets claimed moded released
    have hClaimed : claimed.memWf := memWf_onGang _ _ _ wf
    have hModed : moded.memWf := memWf_ite (memWf_ite hClaimed (memWf_onGang _ _ _ (memWf_applyMode hClaimed)))
      (memWf_onGang _ _ _ hClaimed)
    have hReleased : released.memWf := memWf_ite (memWf_releaseLaunches hModed) hModed
    exact memWf_ite (memWf_endTask hReleased) hReleased
  · exact wf

theorem State.memWf_writeDebug {s : State} {p phys r v : Nat} (wf : s.memWf) : (s.writeDebug p phys r v).memWf := by
  unfold State.writeDebug
  dsimp only
  refine memWf_ite wf ?_
  split
  · exact memWf_onTile (memWf_setPkg wf)
  · exact memWf_setPkg wf

theorem State.memWf_actOn {s : State} {t row : Nat} (wf : s.memWf) : (s.actOn t row).memWf := by
  unfold State.actOn
  split
  · exact memWf_onTask _ _ _ wf
  · exact memWf_onGang _ _ _ wf
  · split
    · exact memWf_ite (memWf_ite wf (memWf_startSave wf)) (memWf_ite wf (memWf_onGang _ _ _ wf))
    · exact wf
  · exact memWf_onTask _ _ _ wf
  · exact wf

theorem State.memWf_decide {s : State} {t : Nat} {cand : Option Task} {again : Bool} (wf : s.memWf) :
    (s.decide t cand again).memWf := by
  unfold State.decide
  split
  · exact memWf_actOn (memWf_onTask _ _ _ wf)
  · exact wf

theorem State.memWf_ageHead {s : State} {fn : Nat} (wf : s.memWf) : (s.ageHead fn).memWf := by
  unfold State.ageHead
  split
  · exact wf
  · exact memWf_onTask _ _ _ wf

theorem State.memWf_dueKills {s : State} (wf : s.memWf) : s.dueKills.memWf := by
  unfold State.dueKills
  refine memWf_foldl wf ?_
  intro u a hu
  split
  · exact memWf_ite (memWf_killTask hu) hu
  · exact hu

theorem State.memWf_instant {s : State} {pkg : Nat} (wf : s.memWf) : (s.instant pkg).memWf := memWf_arrive wf

theorem State.memWf_trainLink {s : State} {p l : Nat} (wf : s.memWf) : (s.trainLink p l).memWf := wf

theorem State.memWf_announceWidth {s : State} {p l : Nat} (wf : s.memWf) : (s.announceWidth p l).memWf :=
  memWf_foldl wf (fun _ _ hu => memWf_onGang _ _ _ (memWf_choose hu))

theorem State.memWf_wantLanes {s : State} {p l : Nat} {x : Link} (wf : s.memWf) : (s.wantLanes p l x).memWf :=
  memWf_ite (memWf_announceWidth (memWf_setLink wf)) wf

theorem State.memWf_retireLane {s : State} {p l lane : Nat} (wf : s.memWf) : (s.retireLane p l lane).memWf :=
  memWf_ite wf (memWf_wantLanes wf)

theorem State.memWf_afterWidth {s : State} {t p l : Nat} (wf : s.memWf) : (s.afterWidth t p l).memWf := by
  unfold State.afterWidth
  split
  · exact memWf_ite wf (memWf_ite (memWf_onGang _ _ _ wf) (memWf_onTask _ _ _ (memWf_onGang _ _ _ wf)))
  · exact wf

theorem State.memWf_loseBeat {s : State} {t : Nat} {e : List Nat} (wf : s.memWf) : (s.loseBeat t e).memWf := by
  unfold State.loseBeat
  split
  · exact memWf_onGang _ _ _ wf
  · exact memWf_onTile wf
  · exact memWf_onTree wf
  · exact wf

theorem State.memWf_retireNoisy {s : State} {p l : Nat} (wf : s.memWf) : (s.retireNoisy p l).memWf :=
  memWf_ite wf (memWf_foldl wf (fun _ _ hu => memWf_retireLane hu))

theorem State.memWf_receiveFlit {s : State} {p l t : Nat} {beats : List (List Nat)} {symbols : List Nat} (wf : s.memWf) :
    (s.receiveFlit p l t beats symbols).memWf := by
  unfold State.receiveFlit
  dsimp only
  split
  · exact wf
  · exact memWf_retireNoisy (memWf_setLink wf)
  · exact memWf_foldl (memWf_logEvent (memWf_setLink wf)) (fun _ _ hu => memWf_loseBeat hu)

theorem State.memWf_dropLines {s : State} (wf : s.memWf) : s.dropLines.memWf := wf

theorem State.memWf_hostAnswer {s : State} {who : Nat} {bs : Option (List PByte)} (wf : s.memWf) :
    (s.hostAnswer who bs).memWf := by
  unfold State.hostAnswer
  split
  · exact memWf_emit wf
  · exact memWf_emit wf

theorem State.memWf_hostAccess {s : State} {who a n v : Nat} {write ep : Bool} (wf : s.memWf) :
    (s.hostAccess who a n v write ep).memWf :=
  memWf_ite (memWf_hostAnswer (memWf_devWrite _ _ _ wf)) (memWf_hostAnswer (memWf_noteBad wf))

theorem State.memWf_hostCaches {s : State} {a : Nat} (wf : s.memWf) : (s.hostCaches a).memWf := memWf_ite wf wf

theorem State.memWf_moveLines {s : State} {src dst : DevLoc} {n off : Nat} (wf : s.memWf) :
    (s.moveLines src dst n off).memWf := by
  induction n generalizing s off with
  | zero => exact wf
  | succ n ih => exact ih (memWf_locWrite (memWf_noteBad wf))

theorem State.memWf_movePage {s : State} {t : Nat} {i : Image} {k : Nat} {m : PageMove} (wf : s.memWf) :
    (s.movePage t i k m).memWf := by
  unfold State.movePage
  extract_lets e own lined e'
  have hLined : lined.memWf := memWf_moveLines wf
  exact memWf_onTask _ _ _ hLined

theorem State.memWf_answer {s : State} {ok : Bool} {value : List Nat} (wf : s.memWf) : (s.answer ok value).memWf :=
  memWf_emit wf

theorem State.memWf_losePackage {s : State} {p : Nat} (wf : s.memWf) : (s.losePackage p).memWf :=
  ⟨Memory.wf_filter _ wf.1, wf.2⟩

theorem State.memWf_resetDomain {s : State} (wf : s.memWf) : s.resetDomain.memWf := wf

theorem State.memWf_powerOn {s : State} {p : Nat} (wf : s.memWf) : (s.powerOn p).memWf := by
  unfold State.powerOn
  extract_lets k fw lost trained reset
  have hTrained : trained.memWf := memWf_foldl (memWf_setPkg (memWf_losePackage wf)) fun _ _ hu => memWf_trainLink hu
  have hReset : reset.memWf := memWf_ite (memWf_resetDomain hTrained) hTrained
  exact memWf_ite hReset (memWf_foldl hReset fun _ _ hu => memWf_setCore _ _ _ hu)

theorem State.memWf_resetContexts {s : State} {p : Nat} (wf : s.memWf) : (s.resetContexts p).memWf := memWf_setPkg wf

theorem State.memWf_noteTile {s : State} {t gid a : Nat} (wf : s.memWf) : (s.noteTile t gid a).memWf := by
  unfold State.noteTile
  split
  · exact wf
  · exact memWf_logEvent wf

theorem State.memWf_respond {s : State} {p code : Nat} {content : List Nat} (wf : s.memWf) :
    (s.respond p code content).memWf := memWf_emit wf

theorem State.memWf_spdmRefuse {s : State} {p why : Nat} (wf : s.memWf) : (s.spdmRefuse p why).memWf := memWf_respond wf

theorem State.memWf_onSpdm {s : State} {p : Nat} {f : Spdm → Spdm} (wf : s.memWf) : (s.onSpdm p f).memWf :=
    memWf_onPewter wf

theorem State.memWf_afterNegotiation {s : State} {p : Nat} {k : State} (wf : s.memWf) (hk : k.memWf) :
    (s.afterNegotiation p k).memWf := memWf_ite hk (memWf_spdmRefuse wf)

theorem State.memWf_inSession {s : State} {p what n key : Nat} (wf : s.memWf) : (s.inSession p what n key).memWf := by
  unfold State.inSession
  split
  · exact memWf_setPkg wf
  · exact wf
  · exact wf

theorem State.memWf_doomed {s : State} {t : Nat} (wf : s.memWf) : (s.doomed t).memWf := by
  unfold State.doomed
  split
  · exact memWf_ite wf (memWf_killTask (memWf_ite (memWf_onTask _ _ _ (memWf_snapGang wf)) wf))
  · exact wf

theorem State.memWf_noteHolds {s : State} {t : Nat} (wf : s.memWf) : (s.noteHolds t).memWf := by
  unfold State.noteHolds
  split
  · exact wf
  · exact memWf_foldl wf (fun _ _ hu => memWf_arrive hu)

theorem State.memWf_logFailures {s : State} {t : Nat} (wf : s.memWf) : (s.logFailures t).memWf := by
  unfold State.logFailures
  split
  · exact wf
  · exact memWf_onGang _ _ _ (memWf_foldl wf (fun _ _ hu => memWf_foldl hu (fun _ _ hu2 => memWf_logEvent hu2)))

theorem State.memWf_phaseAt {s : State} {t : Nat} {g : Gang} {k : Nat} (wf : s.memWf) : (s.phaseAt t g k).1.memWf := by
  simp only [State.phaseAt, apply_ite Prod.fst]
  refine memWf_ite (memWf_ite (memWf_onGang _ _ _ wf) wf) (memWf_ite (memWf_ite (memWf_onGang _ _ _ wf) wf) ?_)
  refine memWf_ite (memWf_onGang _ _ _ (memWf_landDeliveries wf)) (memWf_ite wf (memWf_ite wf ?_))
  refine memWf_ite (memWf_onGang _ _ _ wf) (memWf_ite wf (memWf_ite wf (memWf_ite wf ?_)))
  refine memWf_ite (memWf_commit wf) (memWf_ite (memWf_onGang _ _ _ wf) (memWf_ite (memWf_onGang _ _ _ wf) ?_))
  refine memWf_ite (memWf_doomed (memWf_logFailures (memWf_noteHolds wf))) (memWf_ite wf ?_)
  exact memWf_ite (memWf_onGang _ _ _ wf) wf

theorem State.memWf_runParts {s : State} {t n : Nat} (wf : s.memWf) : (s.runParts t n).memWf := by
  induction n generalizing s with
  | zero => exact wf
  | succ n ih =>
    unfold State.runParts
    split
    · exact wf
    · exact memWf_ite wf (memWf_ite (ih (memWf_phaseAt wf)) (memWf_before (memWf_phaseAt wf)))

theorem State.memWf_runPhase {s : State} {t k : Nat} (wf : s.memWf) : (s.runPhase t k).memWf := memWf_runParts wf

theorem State.memWf_tileTurn {s : State} {t gid : Nat} (wf : s.memWf) : (s.tileTurn t gid).memWf := by
  unfold State.tileTurn
  split
  · exact wf
  · split
    · exact memWf_before wf
    · exact wf

theorem State.memWf_idleFor {s : State} {t gid slot : Nat} {i : Instr} (wf : s.memWf) : (s.idleFor t gid slot i).memWf :=
  memWf_ite (memWf_onTile wf) wf

theorem State.memWf_undefinedAt {s : State} {t gid slot syl addr : Nat} {e : DecodeReject} (wf : s.memWf) :
    (s.undefinedAt t gid slot syl addr e).memWf := memWf_onGang _ _ _ wf

theorem State.memWf_endBundle {s : State} {t gid : Nat} (wf : s.memWf) : (s.endBundle t gid).memWf := memWf_onGang _ _ _ wf

theorem State.memWf_drainStore {s : State} {c : Nat} (wf : s.memWf) : (s.drainStore c).memWf := by
  unfold State.drainStore
  dsimp only
  split
  · exact memWf_chooseFrom wf
  · exact memWf_setCore _ _ _ (memWf_agentWrite _ _ _ _ (memWf_chooseFrom wf))

theorem State.memWf_setDue {s : State} (wf : s.memWf) : s.setDue.memWf := wf

theorem State.memWf_tick {s : State} (wf : s.memWf) : s.tick.memWf :=
  memWf_setDue (memWf_foldl (memWf_dueKills (memWf_queueTasks wf)) (fun _ _ hu => memWf_planResume hu))

theorem State.memWf_hostWrite {s : State} {a : Nat} {bs : List Byte} {ep : Bool} (wf : s.memWf) :
    (s.hostWrite a bs ep).memWf := memWf_sysWrite _ _ _ wf

end Sys2Proof.Machine
end

section
/-! SUPPORT. Every instruction, every event and every turn keeps the canonical form of the shared memories; reset has it
(R236, R244, R245). -/
namespace Sys2Proof.Machine
open State

/-! ### Outcomes -/

/-- What goes on from the outcome goes on with both memories in their canonical form. -/
def KeepsForm (o : Outcome) : Prop := ∀ u : State, o = .next u → u.memWf

theorem keepsForm_next {u : State} (wf : u.memWf) : KeepsForm (.next u) := fun _ h => Host.Outcome.next.inj h ▸ wf

theorem keepsForm_ite {p : Prop} [Decidable p] {o q : Outcome} (ho : KeepsForm o) (hq : KeepsForm q) :
    KeepsForm (if p then o else q) := by
  split
  · exact ho
  · exact hq

theorem State.keepsForm_guarded {s : State} {g n : Nat} {k : State → Outcome} (wf : s.memWf)
    (hk : ∀ u : State, u.memWf → KeepsForm (k u)) : KeepsForm (s.guarded g n k) :=
  keepsForm_ite (hk s wf) (keepsForm_next (memWf_onMe _ _ wf))

theorem State.keepsForm_deviceLevel {s : State} {k : State → Outcome} (wf : s.memWf)
    (hk : ∀ u : State, u.memWf → KeepsForm (k u)) : KeepsForm (s.deviceLevel k) :=
  keepsForm_ite (hk s wf) (keepsForm_next (memWf_exception wf))

theorem State.keepsForm_scalar {s : State} {guard : Option (Nat × Nat)} {srcs : List Nat} {d : Dst} {lat : Nat}
    {f : Inputs → Word × Nat} (wf : s.memWf) : KeepsForm (s.scalar guard srcs d lat f) := by
  unfold State.scalar
  split
  · exact keepsForm_next (memWf_onMe _ _ wf)
  · exact keepsForm_next (memWf_issueOn wf)

/-- Most instructions of a slot, whatever they do to the gang. -/
theorem keepsForm_issueOn {s : State} {k : Gang → Tile → Nat → Origin → Gang} (wf : s.memWf) :
    KeepsForm (.next (s.issueOn k)) := keepsForm_next (memWf_issueOn wf)

theorem State.keepsForm_vshift {s : State} {v : VOp} {f : ElemType → Nat → Nat → Nat} (wf : s.memWf) :
    KeepsForm (s.vshift v f) := keepsForm_ite (keepsForm_issueOn wf) (keepsForm_issueOn wf)

theorem State.keepsForm_badBlock {s : State} {d a n : Nat} (wf : s.memWf) : KeepsForm (s.badBlock d a n) :=
  keepsForm_next (memWf_status (memWf_noteAgent wf))

theorem keepsForm_performGang {s : State} {pick : Job → Bool} {run : Gang → Due → Gang} (wf : s.memWf) :
    KeepsForm (.next (s.performGang pick run)) := keepsForm_next (memWf_performGang wf)

theorem keepsForm_onGang {s : State} {t : Nat} {f : Gang → Gang} (wf : s.memWf) :
    KeepsForm (.next (s.onGang t f)) := keepsForm_next (memWf_onGang _ _ _ wf)

theorem State.keepsForm_agentAtomic {s : State} {op d a b c : Nat} (wf : s.memWf) : KeepsForm (s.agentAtomic op d a b c)
    := by
  unfold State.agentAtomic
  extract_lets at_ n s1 old r v s2
  have hs1 : s1.memWf := memWf_ite (memWf_flushAll wf) (memWf_beforeLoad wf)
  have hs2 : s2.memWf := memWf_ite (memWf_devWrite _ _ _ hs1) hs1
  refine keepsForm_ite (keepsForm_next (memWf_exception wf)) ?_
  refine keepsForm_ite (keepsForm_next (memWf_exception (memWf_noteAgent hs1))) ?_
  exact keepsForm_ite (keepsForm_next (memWf_finish (memWf_barrierAt hs1))) (keepsForm_next (memWf_finish hs2))

theorem keepsForm_execNop {s : State} (wf : s.memWf) : KeepsForm (execNop s) := by
  unfold execNop
  split
  · exact keepsForm_next (memWf_onMe _ _ wf)
  · exact keepsForm_next wf

theorem keepsForm_execBr {s : State} {pg pn d : Nat} (wf : s.memWf) : KeepsForm (execBr pg pn d s) := by
  unfold execBr
  split
  · exact keepsForm_next (memWf_onMe _ _ wf)
  · exact keepsForm_next (memWf_control wf)

theorem keepsForm_execCall {s : State} {r d : Nat} (wf : s.memWf) : KeepsForm (execCall r d s) := by
  unfold execCall
  split
  · exact keepsForm_next (memWf_onMe _ _ wf)
  · exact keepsForm_next (memWf_control wf)

theorem keepsForm_execRet {s : State} {a : Nat} (wf : s.memWf) : KeepsForm (execRet a s) := by
  unfold execRet
  split
  · exact keepsForm_next (memWf_onMe _ _ wf)
  · exact keepsForm_next (memWf_control wf)

theorem keepsForm_execTlaunch {s : State} {a : Nat} (wf : s.memWf) : KeepsForm (execTlaunch a s) := by
  unfold execTlaunch
  split
  · split
    · exact keepsForm_next wf
    · split
      · exact keepsForm_next wf
      · exact keepsForm_next (memWf_tlaunch wf)
  · exact keepsForm_next wf

theorem keepsForm_execDbgb {s : State} {tag : Nat} (wf : s.memWf) : KeepsForm (execDbgb tag s) :=
  keepsForm_next (memWf_ite (memWf_emit (memWf_control wf)) (memWf_control wf))

theorem keepsForm_execStsAgent {s : State} {d a z c o : Nat} (wf : s.memWf) : KeepsForm (execStsAgent d a z c o s) :=
  keepsForm_ite (keepsForm_next (memWf_onMe _ _ (memWf_cacheLine (memWf_agentStore _ _ _ _ _ wf))))
    (keepsForm_next (memWf_exception wf))

theorem keepsForm_execVshl {s : State} {v : VOp} (wf : s.memWf) : KeepsForm (execVshl v s) := State.keepsForm_vshift wf

theorem keepsForm_execVshr {s : State} {v : VOp} (wf : s.memWf) : KeepsForm (execVshr v s) := State.keepsForm_vshift wf

theorem keepsForm_execVsha {s : State} {v : VOp} (wf : s.memWf) : KeepsForm (execVsha v s) := State.keepsForm_vshift wf

theorem keepsForm_execTarm {s : State} {buf handle src aix : Nat} (wf : s.memWf) : KeepsForm
    (execTarm buf handle src aix s) :=
  keepsForm_next (memWf_armSlots (memWf_issueOn wf))

theorem keepsForm_execWaita {s : State} {d a b g n : Nat} (wf : s.memWf) : KeepsForm (execWaita d a b g n s) :=
  keepsForm_guarded wf (fun _ hu => keepsForm_ite (keepsForm_next (memWf_onMe _ _ hu))
    (keepsForm_next (memWf_exception hu)))

theorem keepsForm_execWaitt {s : State} {d a b g n : Nat} (wf : s.memWf) : KeepsForm (execWaitt d a b g n s) :=
  keepsForm_guarded wf (fun _ hu => keepsForm_ite (keepsForm_next (memWf_status hu)) (keepsForm_next (memWf_onMe _ _ hu)))

theorem keepsForm_execBatchClose {s : State} {d a g n : Nat} (wf : s.memWf) : KeepsForm (execBatchClose d a g n s) :=
  keepsForm_guarded wf (fun _ hu => keepsForm_ite (keepsForm_next (memWf_status hu))
    (keepsForm_next (memWf_status (memWf_onMe _ _ hu))))

theorem keepsForm_execWaitb {s : State} {d a b g n : Nat} (wf : s.memWf) : KeepsForm (execWaitb d a b g n s) :=
  keepsForm_guarded wf (fun _ hu => keepsForm_ite (keepsForm_next (memWf_status hu)) (keepsForm_next (memWf_onMe _ _ hu)))

theorem keepsForm_execLda {s : State} {d a c scope w : Nat} (wf : s.memWf) : KeepsForm (execLda d a c scope w s) :=
  keepsForm_next (memWf_ite (memWf_agentLoad wf (fun _ _ hu => memWf_finish hu)) (memWf_exception wf))

theorem keepsForm_execStl {s : State} {a b c scope w : Nat} (wf : s.memWf) : KeepsForm (execStl a b c scope w s) :=
  keepsForm_ite (keepsForm_next (memWf_onMe _ _ (memWf_cacheLine (memWf_agentStore _ _ _ _ _
    (memWf_ite wf (memWf_flushAll wf)))))) (keepsForm_next (memWf_exception wf))

theorem keepsForm_execCopy {s : State} {d a b g n : Nat} (wf : s.memWf) : KeepsForm (execCopy d a b g n s) := by
  unfold execCopy
  refine keepsForm_guarded wf ?_
  intro u hu
  refine keepsForm_ite (keepsForm_next (memWf_status (memWf_flushAll hu))) ?_
  split
  · exact keepsForm_badBlock (memWf_flushAll hu)
  · exact keepsForm_next (memWf_finish (memWf_onMe _ _ (memWf_flushAll hu)))

theorem keepsForm_execTaskq {s : State} {d a g n : Nat} (wf : s.memWf) : KeepsForm (execTaskq d a g n s) := by
  unfold execTaskq
  refine keepsForm_guarded wf ?_
  intro u hu
  refine keepsForm_ite (keepsForm_next (memWf_status (memWf_flushAll hu))) ?_
  split
  · exact keepsForm_badBlock (memWf_flushAll hu)
  · exact keepsForm_next (memWf_finish (memWf_submit (memWf_counted (memWf_onMe _ _ (memWf_flushAll hu)))))

theorem keepsForm_execTkill {s : State} {d a g n : Nat} (wf : s.memWf) : KeepsForm (execTkill d a g n s) :=
  keepsForm_guarded wf (fun _ hu => keepsForm_next (memWf_onOwnTask hu (fun _ => memWf_ite (memWf_status hu)
    (memWf_status (memWf_killTask hu)))))

theorem keepsForm_execTpreDrain {s : State} {d a b g n : Nat} (wf : s.memWf) : KeepsForm (execTpreDrain d a b g n s) :=
  keepsForm_guarded wf (fun _ hu => keepsForm_next (memWf_ite (memWf_exception hu)
    (memWf_tprePark hu (fun _ _ _ hu2 => memWf_askDrain hu2))))

theorem keepsForm_execTpreCheckpoint {s : State} {d a b g n : Nat} (wf : s.memWf) :
    KeepsForm (execTpreCheckpoint d a b g n s) :=
  keepsForm_guarded wf (fun _ hu => keepsForm_next (memWf_tprePark hu (fun _ _ _ hu2 => memWf_askCheckpoint hu2)))

theorem keepsForm_execTpreRequeue {s : State} {d a b g n : Nat} (wf : s.memWf) : KeepsForm (execTpreRequeue d a b g n s)
    := by
  unfold execTpreRequeue
  refine keepsForm_guarded wf ?_
  intro u hu
  refine keepsForm_next ?_
  refine memWf_onOwnTask hu ?_
  intro a2
  split
  · exact memWf_status hu
  · exact memWf_status (memWf_requeue hu)
  · exact memWf_status hu

theorem keepsForm_execTstatus {s : State} {d a g n : Nat} (wf : s.memWf) : KeepsForm (execTstatus d a g n s) :=
  keepsForm_guarded wf (fun _ hu => keepsForm_next (memWf_onOwnTask hu (fun _ => memWf_finish hu)))

theorem keepsForm_execCplpost {s : State} {d a g n : Nat} (wf : s.memWf) : KeepsForm (execCplpost d a g n s) :=
  keepsForm_guarded wf (fun _ hu => keepsForm_next (memWf_ite (memWf_exception (memWf_flushAll hu))
    (memWf_ite (memWf_exception (memWf_flushAll hu)) (memWf_status (memWf_post (memWf_flushAll hu))))))

theorem keepsForm_execIntr {s : State} {a g n : Nat} (wf : s.memWf) : KeepsForm (execIntr a g n s) :=
  keepsForm_guarded wf (fun _ hu => keepsForm_next (memWf_onMe _ _ (memWf_emit hu)))

theorem keepsForm_execEret {s : State} (wf : s.memWf) : KeepsForm (execEret s) :=
  keepsForm_deviceLevel wf (fun _ hu => keepsForm_next (memWf_onMe _ _ hu))

theorem keepsForm_execCsrr {s : State} {d c : Nat} (wf : s.memWf) : KeepsForm (execCsrr d c s) := by
  refine keepsForm_next (memWf_ite (memWf_exception wf) (memWf_ite (memWf_exception wf) ?_))
  have hRead : (s.finish d (s.csrValue s.coreId c)).memWf := memWf_finish wf
  exact hRead

theorem keepsForm_execCsrw {s : State} {a c : Nat} (wf : s.memWf) : KeepsForm (execCsrw a c s) := by
  refine keepsForm_next ?_
  split
  · exact memWf_exception wf
  · split
    · exact memWf_exception wf
    next t ht => exact memWf_onMe _ _ (memWf_csrPut wf ht)

theorem keepsForm_execScrub {s : State} {d a g n : Nat} (wf : s.memWf) : KeepsForm (execScrub d a g n s) := by
  unfold execScrub
  refine keepsForm_deviceLevel wf ?_
  intro u hu
  refine keepsForm_guarded hu ?_
  intro u2 hu2
  refine keepsForm_ite (keepsForm_next (memWf_status (memWf_flushAll hu2))) ?_
  split
  · exact keepsForm_badBlock (memWf_flushAll hu2)
  · exact keepsForm_next (memWf_status (memWf_setPkg (memWf_flushAll hu2)))

theorem keepsForm_execKeyz {s : State} {d a g n : Nat} (wf : s.memWf) : KeepsForm (execKeyz d a g n s) :=
  keepsForm_deviceLevel wf (fun _ hu => keepsForm_guarded hu (fun _ hu2 => keepsForm_next
    (memWf_status (memWf_setPkg hu2))))

theorem keepsForm_execKeyld {s : State} {d a b g n : Nat} (wf : s.memWf) : KeepsForm (execKeyld d a b g n s) := by
  unfold execKeyld
  refine keepsForm_deviceLevel wf ?_
  intro u hu
  refine keepsForm_guarded hu ?_
  intro u2 hu2
  refine keepsForm_ite (keepsForm_next (memWf_status (memWf_flushAll hu2))) ?_
  split
  · exact keepsForm_badBlock (memWf_flushAll hu2)
  · exact keepsForm_next (memWf_status (memWf_setPkg (memWf_flushAll hu2)))

theorem keepsForm_execMigr {s : State} {d a g n : Nat} (wf : s.memWf) : KeepsForm (execMigr d a g n s) := by
  unfold execMigr
  dsimp only
  refine keepsForm_deviceLevel wf ?_
  intro u hu
  refine keepsForm_guarded hu ?_
  intro u2 hu2
  split
  · exact keepsForm_badBlock (memWf_flushAll hu2)
  · split
    · exact keepsForm_next (memWf_status (memWf_flushAll hu2))
    · exact keepsForm_next (memWf_status (memWf_flushAll hu2))

theorem keepsForm_execImgchk {s : State} {d a b g n : Nat} (wf : s.memWf) : KeepsForm (execImgchk d a b g n s) := by
  unfold execImgchk
  refine keepsForm_guarded wf ?_
  intro u hu
  refine keepsForm_ite (keepsForm_next (memWf_exception (memWf_flushAll hu))) ?_
  split
  · exact keepsForm_badBlock (memWf_flushAll hu)
  · exact keepsForm_next (memWf_status (memWf_agentWrite _ _ _ _ (memWf_flushAll hu)))

theorem keepsForm_execTreeCreate {s : State} {d a : Nat} (wf : s.memWf) : KeepsForm (execTreeCreate d a s) := by
  unfold execTreeCreate
  dsimp only
  refine keepsForm_deviceLevel wf ?_
  intro u hu
  split
  · exact keepsForm_next (memWf_finish (memWf_flushAll hu))
  · exact keepsForm_next (memWf_status (memWf_flushAll hu))

theorem keepsForm_execTreeEdit {s : State} {d a : Nat} (wf : s.memWf) : KeepsForm (execTreeEdit d a s) := by
  unfold execTreeEdit
  dsimp only
  split
  · exact keepsForm_next (memWf_status (memWf_flushAll wf))
  · split
    · exact keepsForm_next (memWf_status (memWf_flushAll wf))
    · exact keepsForm_next (memWf_status (memWf_onTree (memWf_flushAll wf)))

theorem keepsForm_execTreeAlt {s : State} {d a b : Nat} (wf : s.memWf) : KeepsForm (execTreeAlt d a b s) := by
  unfold execTreeAlt
  dsimp only
  split
  · exact keepsForm_next (memWf_status wf)
  · exact keepsForm_next (memWf_status (memWf_onTree wf))

theorem keepsForm_execTreeFreeze {s : State} {d a : Nat} (wf : s.memWf) : KeepsForm (execTreeFreeze d a s) := by
  unfold execTreeFreeze
  dsimp only
  refine keepsForm_deviceLevel wf ?_
  intro u hu
  split
  · exact keepsForm_next (memWf_status hu)
  · exact keepsForm_ite (keepsForm_next (memWf_status hu)) (keepsForm_next (memWf_status (memWf_freezeTree hu)))

theorem keepsForm_execTreeThaw {s : State} {d a : Nat} (wf : s.memWf) : KeepsForm (execTreeThaw d a s) := by
  refine keepsForm_deviceLevel wf fun u hu => ?_
  dsimp only
  split
  · exact keepsForm_next (memWf_status hu)
  · refine keepsForm_ite (keepsForm_next (memWf_status hu)) ?_
    split
    next v hv => exact keepsForm_next (memWf_status (memWf_thawTree hu hv))
    · exact keepsForm_next (memWf_status hu)

theorem keepsForm_execTreeDestroy {s : State} {d a : Nat} (wf : s.memWf) : KeepsForm (execTreeDestroy d a s) := by
  unfold execTreeDestroy
  dsimp only
  refine keepsForm_deviceLevel wf ?_
  intro u hu
  split
  · exact keepsForm_next (memWf_status hu)
  · exact keepsForm_ite (keepsForm_next (memWf_status hu)) (keepsForm_next (memWf_status (memWf_dropSlots hu)))

theorem keepsForm_execBundleIssue {s : State} (wf : s.memWf) : KeepsForm (execBundleIssue s) :=
  keepsForm_next (memWf_withTile wf (fun _ _ _ _ => memWf_ite wf (memWf_bundleIssue wf)))

theorem keepsForm_execStickyReissue {s : State} (wf : s.memWf) : KeepsForm (execStickyReissue s) := by
  unfold execStickyReissue
  refine keepsForm_next ?_
  refine memWf_withTile wf ?_
  intro a a2 a3 a4
  split
  · exact wf
  · exact memWf_before (memWf_onTile wf)

theorem keepsForm_execQuiescenceOverdue {s : State} (wf : s.memWf) : KeepsForm (execQuiescenceOverdue s) :=
  keepsForm_next (memWf_withTile wf (fun _ _ _ _ => memWf_ite (memWf_onGang _ _ _ wf) wf))

theorem keepsForm_execTaskLaunch {s : State} (wf : s.memWf) : KeepsForm (execTaskLaunch s) := by
  unfold execTaskLaunch
  refine keepsForm_next ?_
  split
  · exact wf
  · exact memWf_ite (memWf_launchTask wf) wf

theorem keepsForm_execSliceBoundary {s : State} (wf : s.memWf) : KeepsForm (execSliceBoundary s) := by
  unfold execSliceBoundary
  refine keepsForm_next ?_
  split
  · exact wf
  · exact memWf_dueKills (memWf_foldl (memWf_instant wf) (fun _ _ hu => memWf_ageHead hu))

theorem keepsForm_execSchedulerDecision {s : State} (wf : s.memWf) : KeepsForm (execSchedulerDecision s) := by
  unfold execSchedulerDecision
  refine keepsForm_next ?_
  split
  · exact wf
  · exact memWf_foldl wf (fun _ _ hu => memWf_decide hu)

theorem keepsForm_execExtensionRedecide {s : State} (wf : s.memWf) : KeepsForm (execExtensionRedecide s) := by
  unfold execExtensionRedecide
  refine keepsForm_next ?_
  split
  · exact wf
  · split
    · exact memWf_ite (memWf_decide wf) wf
    · exact memWf_onTask _ _ _ wf
    · exact wf

theorem keepsForm_execDAccessPerform {s : State} (wf : s.memWf) : KeepsForm (execDAccessPerform s) := by
  unfold execDAccessPerform
  refine keepsForm_next ?_
  refine memWf_perform wf ?_
  intro u a a2 hu
  split
  · exact memWf_readPerform hu
  · exact memWf_onGang _ _ _ hu
  · exact memWf_onGang _ _ _ hu
  · exact hu

theorem keepsForm_execBeatRead {s : State} (wf : s.memWf) : KeepsForm (execBeatRead s) := by
  unfold execBeatRead
  refine keepsForm_next ?_
  refine memWf_perform wf ?_
  intro u a a2 hu
  split
  · exact memWf_readPerform hu
  · exact hu

theorem keepsForm_execNestStep {s : State} (wf : s.memWf) : KeepsForm (execNestStep s) :=
  keepsForm_next (memWf_withTile wf (fun _ _ _ _ => memWf_onGang _ _ _ wf))

theorem keepsForm_execAccLineMove {s : State} (wf : s.memWf) : KeepsForm (execAccLineMove s) := by
  unfold execAccLineMove
  refine keepsForm_next ?_
  refine memWf_perform wf ?_
  intro u a a2 hu
  split
  · exact memWf_readPerform hu
  · exact memWf_onGang _ _ _ hu

theorem keepsForm_execFactorisationStep {s : State} (wf : s.memWf) : KeepsForm (execFactorisationStep s) :=
  keepsForm_next (memWf_withTile wf (fun _ _ _ _ => memWf_onGang _ _ _ wf))

theorem keepsForm_execFactorisationEnd {s : State} (wf : s.memWf) : KeepsForm (execFactorisationEnd s) := by
  unfold execFactorisationEnd
  refine keepsForm_next ?_
  refine memWf_withTile wf ?_
  intro a a2 a3 a4
  split
  · exact memWf_ite (memWf_onGang _ _ _ wf) wf
  · exact wf

theorem keepsForm_execMpermRowWrite {s : State} (wf : s.memWf) : KeepsForm (execMpermRowWrite s) := by
  unfold execMpermRowWrite
  refine keepsForm_next ?_
  refine memWf_perform wf ?_
  intro u a a2 hu
  split
  · exact memWf_readPerform hu
  · exact memWf_onGang _ _ _ hu

theorem keepsForm_execSnapCycle {s : State} (wf : s.memWf) : KeepsForm (execSnapCycle s) := by
  unfold execSnapCycle
  extract_lets t
  split
  · exact keepsForm_next wf
  next g _ =>
    extract_lets r
    have hr : r.1.memWf := by
      refine memWf_foldl_fst wf fun q a hq => ?_
      dsimp only
      split
      · exact memWf_snapAt hq
      · exact hq
    exact keepsForm_next (memWf_onGang _ _ _ hr)

theorem keepsForm_execGenerationDrainComplete {s : State} (wf : s.memWf) : KeepsForm (execGenerationDrainComplete s) := by
  unfold execGenerationDrainComplete
  dsimp only
  split
  · exact keepsForm_next wf
  · exact keepsForm_next (memWf_ite (memWf_genDrained wf) wf)

theorem keepsForm_execTreeDelivery {s : State} (wf : s.memWf) : KeepsForm (execTreeDelivery s) :=
  keepsForm_next (memWf_ite (memWf_performGang wf) (memWf_foldl (memWf_performGang wf)
    (fun _ _ hu => memWf_foldl hu (fun _ _ hu2 => memWf_finishRange hu2))))

theorem keepsForm_execHandlerEntry {s : State} (wf : s.memWf) : KeepsForm (execHandlerEntry s) := by
  unfold execHandlerEntry
  refine keepsForm_next ?_
  refine memWf_withTile wf ?_
  intro a a2 a3 a4
  split
  · exact wf
  · exact memWf_before (memWf_onGang _ _ _ wf)

theorem keepsForm_execDebugRelease {s : State} (wf : s.memWf) : KeepsForm (execDebugRelease s) := by
  unfold execDebugRelease
  refine keepsForm_next ?_
  split
  · exact memWf_ite (memWf_endTask (memWf_releaseLaunches wf)) wf
  · exact wf

theorem keepsForm_execFreezeImageEdit {s : State} (wf : s.memWf) : KeepsForm (execFreezeImageEdit s) := by
  unfold execFreezeImageEdit
  refine keepsForm_next ?_
  split
  · exact wf
  · split
    · exact memWf_ite (memWf_snapGang (memWf_onGang _ _ _ wf)) wf
    · exact memWf_onTask _ _ _ wf

theorem keepsForm_execCopyComplete {s : State} (wf : s.memWf) : KeepsForm (execCopyComplete s) := by
  unfold execCopyComplete
  refine keepsForm_next ?_
  split
  · exact wf
  · exact memWf_copyStep (memWf_choose wf)

theorem keepsForm_execScrubUnitDone {s : State} (wf : s.memWf) : KeepsForm (execScrubUnitDone s) := by
  unfold execScrubUnitDone
  refine keepsForm_next ?_
  split
  · exact wf
  · exact memWf_ite wf (memWf_ite (memWf_scrubEnds (memWf_setPkg (memWf_scrubUnit wf))) (memWf_setPkg (memWf_scrubUnit wf)))

theorem keepsForm_execMigrationComplete {s : State} (wf : s.memWf) : KeepsForm (execMigrationComplete s) := by
  unfold execMigrationComplete
  dsimp only
  refine keepsForm_next ?_
  split
  · exact wf
  · split
    · exact wf
    · exact memWf_movePage wf

theorem keepsForm_execWarmReset {s : State} (wf : s.memWf) : KeepsForm (execWarmReset s) :=
  keepsForm_next (memWf_setPkg (memWf_resetContexts (memWf_foldl wf (fun _ _ hu => memWf_setCore _ _ _
    (memWf_ite (memWf_choose hu) (memWf_flushAll (memWf_choose hu)))))))

theorem keepsForm_execPartitionRequest {s : State} (wf : s.memWf) : KeepsForm (execPartitionRequest s) := by
  unfold execPartitionRequest
  refine keepsForm_next ?_
  split
  · exact memWf_answer wf
  · exact memWf_answer wf

theorem keepsForm_execErrorInjection {s : State} (wf : s.memWf) : KeepsForm (execErrorInjection s) := by
  unfold execErrorInjection
  refine keepsForm_next ?_
  split
  · exact memWf_ite (memWf_answer wf) (memWf_answer wf)
  · exact memWf_noteTile (memWf_onTile wf)
  · exact memWf_noteTile (memWf_onTile wf)
  · exact memWf_onTile wf
  · exact memWf_onTile wf
  · exact memWf_onTile wf
  · exact memWf_onGang _ _ _ wf
  · exact memWf_onTask _ _ _ wf
  · exact memWf_logEvent wf
  · exact memWf_noteTile (memWf_onTile wf)
  · exact wf

theorem keepsForm_execLogRead {s : State} (wf : s.memWf) : KeepsForm (execLogRead s) := by
  unfold execLogRead
  refine keepsForm_next ?_
  split
  · exact memWf_answer wf
  · exact memWf_answer wf

theorem keepsForm_execSensorRead {s : State} (wf : s.memWf) : KeepsForm (execSensorRead s) := by
  unfold execSensorRead
  refine keepsForm_next ?_
  split
  · exact memWf_answer wf
  · exact memWf_ite (memWf_answer wf) (memWf_answer wf)
  · exact memWf_answer wf

theorem keepsForm_execCriticalTemperature {s : State} (wf : s.memWf) : KeepsForm (execCriticalTemperature s) :=
  keepsForm_next wf

theorem keepsForm_execFirmwareUpdate {s : State} (wf : s.memWf) : KeepsForm (execFirmwareUpdate s) :=
  keepsForm_next (memWf_ite (memWf_answer (memWf_onPewter wf)) (memWf_answer wf))

theorem keepsForm_execGetCapabilities {s : State} (wf : s.memWf) : KeepsForm (execGetCapabilities s) :=
  keepsForm_next (memWf_ite (memWf_respond (memWf_onSpdm wf)) (memWf_spdmRefuse wf))

theorem keepsForm_execNegotiateAlgorithms {s : State} (wf : s.memWf) : KeepsForm (execNegotiateAlgorithms s) := by
  unfold execNegotiateAlgorithms
  refine keepsForm_next ?_
  refine memWf_ite (memWf_spdmRefuse wf) ?_
  split
  · exact memWf_respond (memWf_onSpdm wf)
  · exact memWf_spdmRefuse wf

theorem keepsForm_execGetCertificate {s : State} (wf : s.memWf) : KeepsForm (execGetCertificate s) :=
  keepsForm_next (memWf_afterNegotiation wf (memWf_ite (memWf_respond wf) (memWf_spdmRefuse wf)))

theorem keepsForm_execChallenge {s : State} (wf : s.memWf) : KeepsForm (execChallenge s) :=
  keepsForm_next (memWf_afterNegotiation wf (memWf_ite (memWf_respond wf) (memWf_spdmRefuse wf)))

theorem keepsForm_execGetMeasurements {s : State} (wf : s.memWf) : KeepsForm (execGetMeasurements s) :=
  keepsForm_next (memWf_afterNegotiation wf (memWf_ite (memWf_respond wf)
    (memWf_ite (memWf_respond wf) (memWf_ite (memWf_respond wf) (memWf_spdmRefuse wf)))))

theorem keepsForm_execKeyExchange {s : State} (wf : s.memWf) : KeepsForm (execKeyExchange s) :=
  keepsForm_next (memWf_afterNegotiation wf (memWf_ite (memWf_respond (memWf_onSpdm wf)) (memWf_spdmRefuse wf)))

theorem keepsForm_execFinish {s : State} (wf : s.memWf) : KeepsForm (execFinish s) :=
  keepsForm_next (memWf_ite (memWf_spdmRefuse wf) (memWf_ite (memWf_inSession (memWf_respond (memWf_onSpdm wf)))
    (memWf_spdmRefuse wf)))

theorem keepsForm_execLinkWidthChange {s : State} (wf : s.memWf) : KeepsForm (execLinkWidthChange s) :=
  keepsForm_next (memWf_ite (memWf_foldl (memWf_setLink wf) (fun _ _ hu => memWf_afterWidth hu)) wf)

theorem keepsForm_execBar2Access {s : State} (wf : s.memWf) : KeepsForm (execBar2Access s) := by
  unfold execBar2Access
  refine keepsForm_next ?_
  split
  · exact memWf_hostAnswer wf
  · exact memWf_ite (memWf_hostAnswer wf) (memWf_hostAccess wf)

theorem keepsForm_execCxlMemAccess {s : State} (wf : s.memWf) : KeepsForm (execCxlMemAccess s) := by
  unfold execCxlMemAccess
  refine keepsForm_next ?_
  split
  · exact memWf_hostAnswer wf
  · exact memWf_ite (memWf_ite (memWf_hostCaches (memWf_hostAccess wf)) (memWf_hostAccess wf)) (memWf_hostAnswer wf)

theorem keepsForm_execRegisterWrite {s : State} (wf : s.memWf) : KeepsForm (execRegisterWrite s) := by
  refine keepsForm_next ?_
  split
  · exact wf
  · exact memWf_getD wf fun _ hu => memWf_csrPut wf hu

theorem keepsForm_execDebugHoldRelease {s : State} (wf : s.memWf) : KeepsForm (execDebugHoldRelease s) := by
  unfold execDebugHoldRelease
  refine keepsForm_next ?_
  split
  · exact memWf_ite (memWf_planResume (memWf_onGang _ _ _ (memWf_releaseLaunches wf))) wf
  · exact wf

theorem exec_keepsForm (i : Instr) {s : State} (wf : s.memWf) : KeepsForm (exec i s) := by
  cases i with
  | sync | loop | loops | join | halt | trapInstr | fmt | segchk | crgnOpen | crgnClose | resync | phase | sysrd 
  | syswr | ringc | lds | sts | vadd | vsub | vmul | vfma | vfms | vfnma | vmin | vmax | vabs | vneg | vmulh | vand 
  | vor | vxor | vandn | vnot | vclz | vpopc | vcmp | vsel | vcvt | vqmx | vdqmx | vscl | vrsum | vrmax | vrmin 
  | vrarg | vscan | vtopk | vxpnd | vcount | viota | vbrd | vextr | vexp2 | vlog2 | vrcp | vrsq | vsqrt | vtanh 
  | vsig | vsin | vcos | vld | vst | vlds | vsts | vgath | vscat | vldb | advr | xperm | xrot | xshuf | xbrd | xpat 
  | mnest | mnestClr | mgo | mcfg | mzero | mmul | mmulg | mchk | mldacc | mstacc | mpermAcc | mpermScratch | aballoc 
  | abfree | mflu | mfch | mfqr | mtrs | xfer | xferr | rld | rst | chsend | chrecv | chbind | sacc | shist | ctrsnap 
  | atomAdd | atomAnd | atomOr | atomXor | atomMin | atomMax | atomMinn | atomMaxn | atomSwap | atomCas | atomFadd 
  | atomArv | atomBreg | atomBcpl | snap | genq | tpost | trecv | tstat =>
    exact keepsForm_issueOn wf
  | add | sub | mul | mulh | mulhn | div | divn | rem | remn | and | or | xor | andn | orn | shl | shr | sha | rotr 
  | clz | ctz | popc | min | max | minn | maxn | slt | sltn | sel | pcmp | plog | addi | andi | ori | xori | shli 
  | shri | shai | limm | limmh | fadd | fsub | fmul | ffma | fmin | fmax | fcmp | fcvt =>
    exact State.keepsForm_scalar wf
  | amoAdd | amoOr | amoAnd | amoSwap | amoMaxn | amoCas | amoArv | amoBreg =>
    exact State.keepsForm_agentAtomic wf
  | syncResolve | phaseSwitch | drainLimitExpiry | scalarResultWrite | vectorResultWrite | channelDepart | snapResult 
  | genqSample | genqResult =>
    exact keepsForm_onGang wf
  | fmtApply | systemRegisterWrite | xpatWrite | beatWrite | barrierRegister | barrierCompleteBeats | barrierArrival 
  | chsendPush | channelArrive | saccUpdate | shistIncrement | ctrsnapWrite | nestCWrite | mchkWrite =>
    exact keepsForm_performGang wf
  | ldsAgent =>
    exact keepsForm_next (memWf_agentLoad wf (fun _ _ hu => memWf_finish hu))
  | vNop | xNop | mNop | dNop | ptmSync =>
    exact keepsForm_next wf
  | xtrn =>
    exact keepsForm_next (memWf_issueOn wf)
  | fence =>
    exact keepsForm_next (memWf_onMe _ _ (memWf_ite wf (memWf_flush _ _ _ wf)))
  | scall =>
    exact keepsForm_next (memWf_systemCall wf)
  | trap =>
    exact keepsForm_next (memWf_onGang _ _ _ wf)
  | holdFreeze =>
    exact keepsForm_next (memWf_freezeGang wf)
  | holdResume =>
    exact keepsForm_next (memWf_resumeGang wf)
  | drainStop =>
    exact keepsForm_next (memWf_drainStop wf)
  | imageSaveComplete =>
    exact keepsForm_next (memWf_saveDone wf)
  | drainRestore | freezeRestore =>
    exact keepsForm_next (memWf_restoreTask wf)
  | taskRetire =>
    exact keepsForm_next (memWf_retire wf)
  | completionRecordWrite =>
    exact keepsForm_next (memWf_writeRecord wf)
  | nestStart =>
    exact keepsForm_next (memWf_onGang _ _ _ (memWf_performGang wf))
  | treeFold =>
    exact keepsForm_next (memWf_foldl wf (fun _ _ hu => memWf_foldTree hu))
  | debugStep =>
    exact keepsForm_next (memWf_stepGang wf)
  | dctlWrite =>
    exact keepsForm_next (memWf_writeDctl wf)
  | debugRegisterWrite =>
    exact keepsForm_next (memWf_writeDebug wf)
  | waitaReturn | waitaTimeout | waittReturn | waitbReturn =>
    exact keepsForm_next (memWf_returnWait wf)
  | patrolScrub =>
    exact keepsForm_next (memWf_setPkg wf)
  | powerOn =>
    exact keepsForm_next (memWf_ite (memWf_powerOn wf) wf)
  | functionReset =>
    exact keepsForm_next (memWf_setFn wf)
  | frameGrant =>
    exact keepsForm_next (memWf_ite (memWf_answer wf) (memWf_answer wf))
  | warningTemperature =>
    exact keepsForm_next (memWf_onPewter wf)
  | getVersion =>
    exact keepsForm_next (memWf_respond (memWf_onSpdm wf))
  | getDigests =>
    exact keepsForm_next (memWf_afterNegotiation wf (memWf_respond wf))
  | linkTraining =>
    exact keepsForm_next (memWf_ite (memWf_trainLink wf) wf)
  | flitReceive =>
    exact keepsForm_next (memWf_ite (memWf_receiveFlit wf) wf)
  | laneRetire =>
    exact keepsForm_next (memWf_retireLane wf)
  | lmapWrite =>
    exact keepsForm_next (memWf_wantLanes wf)
  | hostPortTraining =>
    exact keepsForm_next (memWf_ite (memWf_ite wf (memWf_dropLines wf)) wf)
  | cqheadWrite =>
    exact keepsForm_next (memWf_queueWrite wf)
  | ctxerrWrite =>
    exact keepsForm_next (memWf_clearCtxErr wf)
  | nop => exact keepsForm_execNop wf
  | br => exact keepsForm_execBr wf
  | call => exact keepsForm_execCall wf
  | ret => exact keepsForm_execRet wf
  | tlaunch => exact keepsForm_execTlaunch wf
  | dbgb => exact keepsForm_execDbgb wf
  | stsAgent => exact keepsForm_execStsAgent wf
  | vshl => exact keepsForm_execVshl wf
  | vshr => exact keepsForm_execVshr wf
  | vsha => exact keepsForm_execVsha wf
  | tarm => exact keepsForm_execTarm wf
  | waita => exact keepsForm_execWaita wf
  | waitt => exact keepsForm_execWaitt wf
  | batchClose => exact keepsForm_execBatchClose wf
  | waitb => exact keepsForm_execWaitb wf
  | lda _ _ _ scope => exact keepsForm_execLda (scope := scope) wf
  | stl => exact keepsForm_execStl wf
  | copy => exact keepsForm_execCopy wf
  | taskq => exact keepsForm_execTaskq wf
  | tkill => exact keepsForm_execTkill wf
  | tpreDrain => exact keepsForm_execTpreDrain wf
  | tpreCheckpoint _ _ b => exact keepsForm_execTpreCheckpoint (b := b) wf
  | tpreRequeue _ _ b => exact keepsForm_execTpreRequeue (b := b) wf
  | tstatus => exact keepsForm_execTstatus wf
  | cplpost => exact keepsForm_execCplpost wf
  | intr => exact keepsForm_execIntr wf
  | eret => exact keepsForm_execEret wf
  | csrr => exact keepsForm_execCsrr wf
  | csrw => exact keepsForm_execCsrw wf
  | scrub => exact keepsForm_execScrub wf
  | keyz => exact keepsForm_execKeyz wf
  | keyld => exact keepsForm_execKeyld wf
  | migr => exact keepsForm_execMigr wf
  | imgchk => exact keepsForm_execImgchk wf
  | treeCreate => exact keepsForm_execTreeCreate wf
  | treeEdit => exact keepsForm_execTreeEdit wf
  | treeAlt => exact keepsForm_execTreeAlt wf
  | treeFreeze => exact keepsForm_execTreeFreeze wf
  | treeThaw => exact keepsForm_execTreeThaw wf
  | treeDestroy => exact keepsForm_execTreeDestroy wf
  | bundleIssue => exact keepsForm_execBundleIssue wf
  | stickyReissue => exact keepsForm_execStickyReissue wf
  | quiescenceOverdue => exact keepsForm_execQuiescenceOverdue wf
  | taskLaunch => exact keepsForm_execTaskLaunch wf
  | sliceBoundary => exact keepsForm_execSliceBoundary wf
  | schedulerDecision => exact keepsForm_execSchedulerDecision wf
  | extensionRedecide => exact keepsForm_execExtensionRedecide wf
  | dAccessPerform => exact keepsForm_execDAccessPerform wf
  | beatRead => exact keepsForm_execBeatRead wf
  | nestStep => exact keepsForm_execNestStep wf
  | accLineMove => exact keepsForm_execAccLineMove wf
  | factorisationStep => exact keepsForm_execFactorisationStep wf
  | factorisationEnd => exact keepsForm_execFactorisationEnd wf
  | mpermRowWrite => exact keepsForm_execMpermRowWrite wf
  | snapCycle => exact keepsForm_execSnapCycle wf
  | generationDrainComplete => exact keepsForm_execGenerationDrainComplete wf
  | treeDelivery => exact keepsForm_execTreeDelivery wf
  | handlerEntry => exact keepsForm_execHandlerEntry wf
  | debugRelease => exact keepsForm_execDebugRelease wf
  | freezeImageEdit => exact keepsForm_execFreezeImageEdit wf
  | copyComplete => exact keepsForm_execCopyComplete wf
  | scrubUnitDone => exact keepsForm_execScrubUnitDone wf
  | migrationComplete => exact keepsForm_execMigrationComplete wf
  | warmReset => exact keepsForm_execWarmReset wf
  | partitionRequest => exact keepsForm_execPartitionRequest wf
  | errorInjection => exact keepsForm_execErrorInjection wf
  | logRead => exact keepsForm_execLogRead wf
  | sensorRead => exact keepsForm_execSensorRead wf
  | criticalTemperature => exact keepsForm_execCriticalTemperature wf
  | firmwareUpdate => exact keepsForm_execFirmwareUpdate wf
  | getCapabilities => exact keepsForm_execGetCapabilities wf
  | negotiateAlgorithms => exact keepsForm_execNegotiateAlgorithms wf
  | getCertificate => exact keepsForm_execGetCertificate wf
  | challenge => exact keepsForm_execChallenge wf
  | getMeasurements => exact keepsForm_execGetMeasurements wf
  | keyExchange => exact keepsForm_execKeyExchange wf
  | finish => exact keepsForm_execFinish wf
  | linkWidthChange => exact keepsForm_execLinkWidthChange wf
  | bar2Access => exact keepsForm_execBar2Access wf
  | cxlMemAccess => exact keepsForm_execCxlMemAccess wf
  | registerWrite => exact keepsForm_execRegisterWrite wf
  | debugHoldRelease => exact keepsForm_execDebugHoldRelease wf

theorem runTurn_keepsForm (t : Turn) {s : State} (wf : s.memWf) : KeepsForm (runTurn t s) := by
  cases t with
  | agentFetch c =>
    rw [runTurn]
    split
    · exact exec_keepsForm _ wf
    · exact keepsForm_next (memWf_fetchFails wf)
  | issue task gid slot k addr syl =>
    rw [runTurn]
    split
    · exact exec_keepsForm _ (memWf_idleFor wf)
    · exact keepsForm_next (memWf_undefinedAt wf)
  | act i who => exact exec_keepsForm i wf
  | phase => exact keepsForm_next (memWf_runPhase wf)
  | tileTurn => exact keepsForm_next (memWf_tileTurn wf)
  | endBundle => exact keepsForm_next (memWf_endBundle wf)
  | drainStore => exact keepsForm_next (memWf_drainStore wf)
  | hostWrite => exact keepsForm_next (memWf_hostWrite wf)
  | serialise => exact keepsForm_next (memWf_serialise wf)
  | drainGen => exact keepsForm_next (memWf_drainOn wf)

theorem step_keepsForm {s : State} (wf : s.memWf) : KeepsForm (step s) := by
  unfold step
  split
  · exact keepsForm_next (memWf_tick wf)
  · exact runTurn_keepsForm _ wf

end Sys2Proof.Machine

namespace Sys2Proof.Execution
open Machine Claims

/-- Settles O2. -/
theorem resetMemoryCanonical : Obligations.ResetMemoryCanonical := State.memWf_reset

/-- Settles O3: a step is a turn or a tick of the wall clock, and a turn is an instruction, an event or a part of a cycle. -/
theorem stepKeepsMemoryCanonical : Obligations.StepKeepsMemoryCanonical := fun _ t wf h => step_keepsForm wf t h

end Sys2Proof.Execution
end

section
/-! SUPPORT. A scalar instruction on an agent core and on a tile, and the tables of instructions of one shape: the equation of the
shared operation once for each of the two (07 R144 to R147, R170 to R179). -/
namespace Sys2Proof.Execution
open Machine Claims

/-! ### On an agent core -/

section Core
variable {s : State} {c : Nat}

/-- A scalar instruction of a core leaves the core that the shared operation gives. -/
theorem coreBecomes_of_scalar (h : AtCore s c) {i : Instr} {guard : Option (Nat × Nat)} {srcs : List Nat} {d : Dst} {lat : Nat}
    {f : Inputs → Word × Nat} {y : AgentCore} (hi : exec i s = s.scalar guard srcs d lat f)
    (hy : (s.core c).scalar guard srcs d (Config.agentRsd s.tape % 2 ^ 32) f = y) : CoreBecomes i s c y := by
  rw [CoreBecomes, hi, State.scalar_agent s c h, onMe_atCore h, hy]

theorem core_scalar_of_guard {x : AgentCore} {guard : Option (Nat × Nat)} (hg : guardOf guard x.guard = true) (srcs : List Nat)
    (d : Dst) (draw : Nat) (f : Inputs → Word × Nat) {r : Word × Nat}
    (hr : f { fmtr := Config.agentFmtr % 2 ^ 16, draw := draw, vals := srcs.map x.reg } = r) :
    x.scalar guard srcs d draw f = ((x.result d r.1).raise r.2).advance := by
  rw [AgentCore.scalar, if_pos hg, hr]

/-- The same for an instruction that raises no flag. -/
theorem core_scalar_of_no_flag {x : AgentCore} {guard : Option (Nat × Nat)} (hg : guardOf guard x.guard = true) (srcs : List Nat)
    (d : Dst) (draw : Nat) (f : Inputs → Word × Nat) {v : Word}
    (hr : f { fmtr := Config.agentFmtr % 2 ^ 16, draw := draw, vals := srcs.map x.reg } = (v, 0)) :
    x.scalar guard srcs d draw f = (x.result d v).advance := by
  rw [core_scalar_of_guard hg srcs d draw f hr, AgentCore.raise_zero]

theorem core_scalar_of_guard_false {x : AgentCore} {g n : Nat} (hg : x.guard g n = false) (srcs : List Nat) (d : Dst) (draw : Nat)
    (f : Inputs → Word × Nat) : x.scalar (some (g, n)) srcs d draw f = x.advance := by
  rw [AgentCore.scalar, if_neg (by simp [guardOf, hg])]

end Core

/-! ### On a tile -/

section OnTile
variable {s : State} {t gid slot k addr : Nat} {g : Gang} {x : Tile}

/-- A scalar instruction of a tile leaves the gang that the shared operation gives. -/
theorem gangBecomes_of_scalar (h : AtTile s t gid slot k addr g x) {i : Instr} {guard : Option (Nat × Nat)} {srcs : List Nat}
    {d : Dst} {lat : Nat} {f : Inputs → Word × Nat} {q : Gang} (hi : exec i s = s.scalar guard srcs d lat f)
    (hq : g.scalar x (opOf g gid slot addr) guard srcs d lat f = q) : GangBecomes i s t q := by
  obtain ⟨hc, hg, hx⟩ := h
  rw [GangBecomes, hi, State.scalar_tile s t gid slot k addr g x hc hg hx, ← hq]
  rfl

theorem scalar_of_guard_false {gd n : Nat} (hg : x.guard gd n = false) (o : Origin) (srcs : List Nat) (d : Dst) (lat : Nat)
    (f : Inputs → Word × Nat) : g.scalar x o (some (gd, n)) srcs d lat f = g := by
  rw [Gang.scalar, if_neg (by simp [guardOf, hg])]

/-- A result with its flags, for a register or a predicate. -/
theorem scalar_of_guard {guard : Option (Nat × Nat)} (hg : guardOf guard x.guard = true) (o : Origin) (srcs : List Nat) (d : Dst)
    (lat : Nat) (f : Inputs → Word × Nat) {r : Reads} (hr : r = x.readCodes g.lcyc o.slot o.addr srcs) {v : Word × Nat}
    (hv : f { fmtr := x.fmtr, draw := rsdBits x.seed.toNat o.gid o.slot 0 g.lcyc, vals := r.vals } = v) :
    g.scalar x o guard srcs d lat f
      = ((g.onTile o.gid (fun _ => r.x)).laterDst o (g.lcyc + lat) d v.1 r.poison).laterFlags o (g.lcyc + lat) v.2 := by
  subst hr hv
  rw [Gang.scalar, if_pos hg]

/-- The same for an instruction that raises no flag. -/
theorem scalar_of_no_flag {guard : Option (Nat × Nat)} (hg : guardOf guard x.guard = true) (o : Origin) (srcs : List Nat) (d : Dst)
    (lat : Nat) (f : Inputs → Word × Nat) {r : Reads} (hr : r = x.readCodes g.lcyc o.slot o.addr srcs) {v : Word}
    (hv : f { fmtr := x.fmtr, draw := rsdBits x.seed.toNat o.gid o.slot 0 g.lcyc, vals := r.vals } = (v, 0)) :
    g.scalar x o guard srcs d lat f = (g.onTile o.gid (fun _ => r.x)).laterDst o (g.lcyc + lat) d v r.poison :=
  scalar_of_guard hg o srcs d lat f hr hv

end OnTile

/-! ### The tables -/

theorem exec_binaryRow {e : (Nat → Nat → Nat → Nat → Nat → Instr) × Nat × (Word → Word → Word)} (he : e ∈ binaryRows)
    (s : State) (d a b g n : Nat) : exec (e.1 d a b g n) s = s.alu2 d a b g n e.2.1 e.2.2 := by
  fin_cases he <;> rfl

theorem exec_unaryRow {e : (Nat → Nat → Nat → Nat → Instr) × (Word → Word)} (he : e ∈ unaryRows) (s : State) (d a g n : Nat) :
    exec (e.1 d a g n) s = s.alu1 d a g n e.2 := by
  fin_cases he <;> rfl

theorem exec_immediateRow {e : (Nat → Nat → Nat → Instr) × (Nat → Word → Word)} (he : e ∈ immediateRows) (s : State) (d a i : Nat) :
    exec (e.1 d a i) s = s.alui d a (e.2 i) := by
  fin_cases he <;> rfl

theorem exec_floatRow {e : (Nat → Nat → Nat → Nat → Nat → Nat → Instr) × (Nat → Nat → Nat → Nat → Rounded)} (he : e ∈ floatRows)
    (s : State) (d a b g n f : Nat) : exec (e.1 d a b g n f) s = s.fp2 d a b g n (e.2 f) := by
  fin_cases he <;> rfl

/-! ### Integer instructions -/

/-- Settles O10: every row of the table is the shared operation of two sources. -/
theorem binaryOnCore : Obligations.BinaryOnCore := by
  intro e he s c d a b g n hat
  refine ⟨fun hg => ?_, fun hg => ?_⟩
  · exact coreBecomes_of_scalar hat (exec_binaryRow he s d a b g n) (core_scalar_of_no_flag (guard := some (g, n)) hg _ _ _ _ rfl)
  · exact coreBecomes_of_scalar hat (exec_binaryRow he s d a b g n) (core_scalar_of_guard_false hg _ _ _ _)

/-- Settles O11: the same on a tile, with the latency of the row. -/
theorem binaryOnTile : Obligations.BinaryOnTile := by
  intro e he s t gid slot k addr d a b gd n g x hat
  refine ⟨fun hg => ?_, fun hg => ?_⟩
  · exact gangBecomes_of_scalar hat (exec_binaryRow he s d a b gd n) (scalar_of_no_flag (guard := some (gd, n)) hg _ _ _ _ _ rfl rfl)
  · exact gangBecomes_of_scalar hat (exec_binaryRow he s d a b gd n) (scalar_of_guard_false hg _ _ _ _ _)

/-- Settles O12: the rows of one source, with a guard or an immediate, and the two loads of an immediate. -/
theorem unaryAndImmediate : Obligations.UnaryAndImmediate := by
  refine ⟨fun e he s c d a g n hat => ⟨fun hg => ?_, fun hg => ?_⟩, fun e he s c d a i hat => ?_,
    fun s c d i hat => ⟨?_, ?_⟩, fun s t gid slot k addr d a gd n i g x r hat hr => ⟨fun e he => ⟨fun hg => ?_, fun hg => ?_⟩,
      fun e he => ?_, ?_, ?_⟩⟩
  · exact coreBecomes_of_scalar hat (exec_unaryRow he s d a g n) (core_scalar_of_no_flag (guard := some (g, n)) hg _ _ _ _ rfl)
  · exact coreBecomes_of_scalar hat (exec_unaryRow he s d a g n) (core_scalar_of_guard_false hg _ _ _ _)
  · exact coreBecomes_of_scalar hat (exec_immediateRow he s d a i) (core_scalar_of_no_flag rfl _ _ _ _ rfl)
  · exact coreBecomes_of_scalar hat (i := .limm d i) rfl (core_scalar_of_no_flag rfl _ _ _ _ rfl)
  · exact coreBecomes_of_scalar hat (i := .limmh d i) rfl (core_scalar_of_no_flag rfl _ _ _ _ rfl)
  · exact gangBecomes_of_scalar hat (exec_unaryRow he s d a gd n) (scalar_of_no_flag (guard := some (gd, n)) hg _ _ _ _ _ hr rfl)
  · exact gangBecomes_of_scalar hat (exec_unaryRow he s d a gd n) (scalar_of_guard_false hg _ _ _ _ _)
  · exact gangBecomes_of_scalar hat (exec_immediateRow he s d a i) (scalar_of_no_flag rfl _ _ _ _ _ hr rfl)
  · exact gangBecomes_of_scalar hat (i := .limm d i) rfl (scalar_of_no_flag rfl _ _ _ _ _ rfl rfl)
  · exact gangBecomes_of_scalar hat (i := .limmh a i) rfl (scalar_of_no_flag rfl _ _ _ _ _ hr rfl)

/-! ### Predicates -/

/-- A truth value written to a predicate is that truth value. -/
theorem core_result_pred (x : AgentCore) (d : Nat) (b : Bool) : x.result (.pred d) (boolWord b) = x.setPred d b :=
  congrArg (x.setPred d) (boolWord_ne b)

theorem laterDst_pred (g : Gang) (o : Origin) (due d : Nat) (b poison : Bool) :
    g.laterDst o due (.pred d) (boolWord b) poison = g.laterPred o g.lcyc due d b poison :=
  congrArg (g.laterPred o g.lcyc due d · poison) (boolWord_ne b)

theorem predAt_atCore {s : State} {c : Nat} (h : AtCore s c) (n : Nat) : s.predAt n = (s.core c).pred n := by
  unfold State.predAt
  rw [h]

theorem predAt_atTile {s : State} {t gid slot k addr : Nat} {g : Gang} {x : Tile} (h : AtTile s t gid slot k addr g x) (n : Nat) :
    s.predAt n = x.pred n := by
  obtain ⟨hc, hg, hx⟩ := h
  simp only [State.predAt, State.tile, hc, hg, hx]

/-- Settles O13: the core's part and the tile's, each instruction by the equation of the shared operation. -/
theorem selectCompareLogic : Obligations.SelectCompareLogic := by
  refine ⟨fun s c d a b p n g f hat => ⟨?sel, fun hg => ?pcmp, fun hg => ?plog, fun hg => ⟨?_, ?_⟩⟩,
    fun s t gid slot k addr d a b p n gd f g x r h hat hr hh => ⟨?tileSel, fun hg => ?tilePcmp, fun hg => ?tilePlog,
      fun hg => ⟨?_, ?_⟩⟩⟩
  case sel =>
    refine coreBecomes_of_scalar hat (i := .sel d a b p n) rfl (core_scalar_of_no_flag rfl _ _ _ _ ?_)
    rw [predAt_atCore hat]
    rfl
  case pcmp =>
    refine coreBecomes_of_scalar hat (i := .pcmp d a b g n f) rfl ?_
    rw [core_scalar_of_no_flag (guard := some (g, n)) hg _ _ _ _ rfl, core_result_pred]
    rfl
  case plog =>
    refine coreBecomes_of_scalar hat (i := .plog d f a b g n) rfl ?_
    rw [core_scalar_of_no_flag (guard := some (g, n)) hg _ _ _ _ rfl, core_result_pred, predAt_atCore hat, predAt_atCore hat]
  case tileSel =>
    subst hh
    refine gangBecomes_of_scalar hat (i := .sel d a b p n) rfl (scalar_of_no_flag rfl _ _ _ _ _ hr ?_)
    rw [predAt_atTile hat]
    rfl
  case tilePcmp =>
    subst hh
    refine gangBecomes_of_scalar hat (i := .pcmp d a b gd n f) rfl ?_
    rw [scalar_of_no_flag (guard := some (gd, n)) hg _ _ _ _ _ hr rfl, laterDst_pred, Gang.laterPred, Gang.onTile_lcyc]
    rfl
  case tilePlog =>
    refine gangBecomes_of_scalar hat (i := .plog d f a b gd n) rfl ?_
    rw [scalar_of_no_flag (guard := some (gd, n)) hg _ _ _ _ _ rfl rfl, laterDst_pred, predAt_atTile hat, predAt_atTile hat]
    rfl
  · exact coreBecomes_of_scalar hat (i := .pcmp d a b g n f) rfl (core_scalar_of_guard_false hg _ _ _ _)
  · exact coreBecomes_of_scalar hat (i := .plog d f a b g n) rfl (core_scalar_of_guard_false hg _ _ _ _)
  · exact gangBecomes_of_scalar hat (i := .pcmp d a b gd n f) rfl (scalar_of_guard_false hg _ _ _ _ _)
  · exact gangBecomes_of_scalar hat (i := .plog d f a b gd n) rfl (scalar_of_guard_false hg _ _ _ _ _)

/-! ### Floating instructions -/

/-- Settles O14: the table of floating instructions, FFMA, FCMP and FCVT, on a core and on a tile. -/
theorem scalarFloat : Obligations.ScalarFloat := by
  refine ⟨fun s c d a b g n f y hat hy hg => ⟨fun e he => ?_, fun i hi => ?_⟩,
    fun s t gid slot k addr d a b gd n f g x hat hg => ⟨fun e he => ?_, fun i hi => ?_⟩,
    fun s c d a b g n f w y hat hy hg hw => ⟨fun e he => ?_, ?_, ?fcmp, ?_⟩,
    fun s t gid slot k addr d a b gd n f w g x o hat hg ho hw => ⟨fun r h hr hh => ⟨fun e he => ?_, ?tileFcmp⟩,
      fun r v hr hv => ?_, fun r v hr hv => ?_⟩⟩
  · subst hy
    exact coreBecomes_of_scalar hat (exec_floatRow he s d a b g n f) (core_scalar_of_guard_false hg _ _ _ _)
  · subst hy
    have idle (srcs : List Nat) (dst : Dst) (draw : Nat) (v : Inputs → Word × Nat) := core_scalar_of_guard_false hg srcs dst draw v
    simp only [List.mem_cons, List.not_mem_nil, or_false] at hi
    rcases hi with rfl | rfl | rfl
    · exact coreBecomes_of_scalar hat (i := .ffma d a b g n f) rfl (idle _ _ _ _)
    · exact coreBecomes_of_scalar hat (i := .fcmp d a b g n f) rfl (idle _ _ _ _)
    · exact coreBecomes_of_scalar hat (i := .fcvt d a g n f) rfl (idle _ _ _ _)
  · exact gangBecomes_of_scalar hat (exec_floatRow he s d a b gd n f) (scalar_of_guard_false hg _ _ _ _ _)
  · simp only [List.mem_cons, List.not_mem_nil, or_false] at hi
    rcases hi with rfl | rfl | rfl
    · exact gangBecomes_of_scalar hat (i := .ffma d a b gd n f) rfl (scalar_of_guard_false hg _ _ _ _ _)
    · exact gangBecomes_of_scalar hat (i := .fcmp d a b gd n f) rfl (scalar_of_guard_false hg _ _ _ _ _)
    · exact gangBecomes_of_scalar hat (i := .fcvt d a gd n f) rfl (scalar_of_guard_false hg _ _ _ _ _)
  · subst hy hw
    exact coreBecomes_of_scalar hat (exec_floatRow he s d a b g n f) (core_scalar_of_guard (guard := some (g, n)) hg _ _ _ _ rfl)
  · subst hy hw
    exact coreBecomes_of_scalar hat (i := .ffma d a b g n f) rfl (core_scalar_of_guard (guard := some (g, n)) hg _ _ _ _ rfl)
  case fcmp =>
    subst hy
    refine coreBecomes_of_scalar hat (i := .fcmp d a b g n f) rfl ?_
    rw [core_scalar_of_guard (guard := some (g, n)) hg _ _ _ _ rfl, core_result_pred]
    rfl
  · subst hy hw
    exact coreBecomes_of_scalar hat (i := .fcvt d a g n f) rfl (core_scalar_of_guard (guard := some (g, n)) hg _ _ _ _ rfl)
  · subst ho hw hh
    exact gangBecomes_of_scalar hat (exec_floatRow he s d a b gd n f)
      (scalar_of_guard (guard := some (gd, n)) hg _ _ _ _ _ hr rfl)
  case tileFcmp =>
    subst ho hh
    refine gangBecomes_of_scalar hat (i := .fcmp d a b gd n f) rfl ?_
    rw [scalar_of_guard (guard := some (gd, n)) hg _ _ _ _ _ hr rfl, laterDst_pred, Gang.onTile_lcyc]
    rfl
  · subst ho hw
    exact gangBecomes_of_scalar hat (i := .ffma d a b gd n f) rfl
      (hv ▸ scalar_of_guard (guard := some (gd, n)) hg _ _ _ _ _ hr rfl)
  · subst ho hw
    exact gangBecomes_of_scalar hat (i := .fcvt d a gd n f) rfl
      (hv ▸ scalar_of_guard (guard := some (gd, n)) hg _ _ _ _ _ hr rfl)

/-! ### The scratch memory of a tile -/

theorem ldsTile_eq (g : Gang) (x : Tile) (o : Origin) (d a z off : Nat) (r : Reads) (ea : Nat)
    (hr : r = x.readCodes g.lcyc o.slot o.addr [a]) (hea : ea = scratchAddr (nthD 0 r.vals 0) z off) :
    g.ldsTile x o d a z off = ((reading g o r (BitVec.ofNat 64 ea)).later o (g.lcyc + 2)
      (.read 1 (.scratch o.gid (x.map ea)) (accessSize z) (.toReg d (accessSize z) z (g.lcyc + 4)))).busy o (g.lcyc + 4) := by
  subst hea hr
  simp only [Gang.ldsTile, consume_read_eq, reading_lcyc]

theorem stsTile_eq (g : Gang) (x : Tile) (o : Origin) (d a z off : Nat) (r v : Reads) (ea : Nat)
    (hr : r = x.readCodes g.lcyc o.slot o.addr [a]) (hv : v = r.x.readCodes g.lcyc o.slot o.addr [d])
    (hea : ea = scratchAddr (nthD 0 r.vals 0) z off) :
    g.stsTile x o d a z off = (reading g o { r with x := v.x } (BitVec.ofNat 64 ea)).later o (g.lcyc + 2)
      (.write 1 (.scratch o.gid (x.map ea)) (pbytes (accessSize z) (nthD 0 v.vals 0).toNat v.poison)) := by
  subst hea hv hr
  unfold Gang.stsTile
  extract_lets ra rv n at_ g1 g2
  have read : g2 = reading g o { ra with x := rv.x } _ := consume_read_eq g o { ra with x := rv.x } _
  rw [read, reading_lcyc]

/-- Settles O15: the address is read first, its consumption comes before the access, and STS reads its value after it. -/
theorem scratchOnTile : Obligations.ScratchOnTile := by
  intro s t gid slot k addr d a z off n ea g h x o r v hat ho hr hn hea hv
  subst ho hn
  refine ⟨fun hh => ?_, fun hh => ?_⟩
  · exact gangBecomes_of_issueOn hat (i := .lds d a z off) rfl (hh ▸ ldsTile_eq g x _ d a z off r ea hr hea)
  · exact gangBecomes_of_issueOn hat (i := .sts d a z off) rfl (hh ▸ stsTile_eq g x _ d a z off r v ea hr hv hea)

/-! ### Control on an agent core -/

/-- Settles O16: NOP, BR, CALL and RET are changes of the core in turn. -/
theorem controlOnCore : Obligations.ControlOnCore := by
  intro s c g n d r a hat
  have becomes {i : Instr} {f : AgentCore → AgentCore} (hi : exec i s = .next (s.onMe f)) : CoreBecomes i s c (f (s.core c)) := by
    rw [CoreBecomes, hi, onMe_atCore hat]
  have nop : exec .nop s = .next (s.onMe (·.advance)) := by
    show execNop s = _
    rw [execNop, hat]
  have br : exec (.br g n d) s = .next (s.onMe (fun x => if x.guard g n then x.jump 21 d else x.advance)) := by
    show execBr g n d s = _
    rw [execBr, hat]
  have call : exec (.call r d) s = .next (s.onMe (fun x => (x.setReg r (x.pc + 4)).jump 19 d)) := by
    show execCall r d s = _
    rw [execCall, hat]
  have ret : exec (.ret a) s = .next (s.onMe (fun x => { x with pc := x.reg a })) := by
    show execRet a s = _
    rw [execRet, hat]
  refine ⟨becomes nop, fun hg => ?_, fun hg => ?_, ?_, becomes ret⟩
  · have taken := becomes br
    rwa [if_pos hg] at taken
  · have untaken := becomes br
    rwa [if_neg (by simp [hg])] at untaken
  · have linked := becomes call
    rwa [AgentCore.jump, AgentCore.setReg_pc] at linked

end Sys2Proof.Execution
end

section
/-! SUPPORT. FMT, SEGCHK, RINGC, DBGB, containment regions, system registers and TLAUNCH: what each does to the gang of the bundle that
issues it (07 R160 to R169, 25 R420 to R438). -/
namespace Sys2Proof.Execution
open Machine Claims

section Bundle
variable {s : State} {t gid k addr : Nat} {g : Gang} {x : Tile} {a : Active}

/-! ### SEGCHK and DBGB -/

/-- The word that a failing SEGCHK records (R416). -/
def segmentInfo (g : Gang) (x : Tile) : Word :=
  BitVec.ofNat 64 (crcEnd x.segCrc * 2 ^ 32 + (g.lcyc - x.segBase) % 2 ^ 32)

theorem segchk_of_unlisted {seg : Nat} (o : Origin) (hs : x.segs[seg]? = none) :
    g.segchk x o seg = g.record o 10 2 g.lcyc (segmentInfo g x) := by
  unfold Gang.segchk
  rw [hs]
  rfl

theorem segchk_of_listed {seg : Nat} {e : SegSig} (o : Origin) (hs : x.segs[seg]? = some e) :
    g.segchk x o seg = if (g.lcyc - x.segBase) % 2 ^ 32 ≠ e.count then g.record o 10 0 g.lcyc (segmentInfo g x)
      else if e.nocrc = false ∧ crcEnd x.segCrc ≠ e.crc then g.record o 10 1 g.lcyc (segmentInfo g x) else g := by
  unfold Gang.segchk
  rw [hs]
  rfl

/-- DBGB asks the debugger's control word of its gang. -/
theorem exec_dbgb_atBundle (h : AtBundle s t gid k addr g x a) (tag : Nat) :
    exec (.dbgb tag) s = .next (if bitAt g.dctl 3 = true then (s.onGang t (fun _ => g.announce 3 gid 0)).emit 10 t [gid, tag]
      else s.onGang t (fun _ => g)) := by
  have control := control_atBundle h
  obtain ⟨⟨hc, hg, -⟩, -⟩ := h
  have task : s.evTask = t := by simp only [State.evTask, hc]
  have tile : s.evGid = gid := by simp only [State.evGid, hc]
  show execDbgb tag s = _
  simp only [execDbgb, task, tile, hg, control]
  cases bitAt g.dctl 3 <;> rfl

theorem announce_debug (g : Gang) (gid : Nat) : g.announce 3 gid 0 =
    { g with holds := g.holds ++ [{ cause := 3, ta := g.lcyc, th := g.lcyc + (if g.dctl % 8 = 0 then max 1 g.h else 1),
                                    gid := gid, buf := 0 }] } := by
  by_cases hd : g.dctl % 8 = 0 <;> simp [Gang.announce, Gang.horizon, hd]

/-- Settles O20: FMT and RINGC put a change off, SEGCHK compares, DBGB asks whether it is armed. -/
theorem formatSegmentRing : Obligations.FormatSegmentRing := by
  intro s t gid k addr v seg h base ls clr tag count crc g x a o hat ho hcount hcrc
  subst ho hcount hcrc
  refine ⟨gangBecomes_of_control hat (i := .fmt v) rfl rfl, gangBecomes_of_control hat (i := .ringc h base ls clr) rfl rfl,
    fun e he => ⟨fun hn hc => ?_, fun hn => ?_, fun hn hc hne => ?_⟩, fun hs => ?_, fun hd => ?_, fun hd th hth => ?_⟩
  · have crcPasses : ¬(e.nocrc = false ∧ crcEnd x.segCrc ≠ e.crc) := fun ⟨asked, differs⟩ =>
      hc.elim (fun h => Bool.noConfusion (asked.symm.trans h)) (fun h => differs h.symm)
    refine gangBecomes_of_control hat (i := .segchk seg) rfl ?_
    rw [segchk_of_listed _ he, if_neg (not_not_intro hn), if_neg crcPasses]
  · refine gangBecomes_of_control hat (i := .segchk seg) rfl ?_
    rw [segchk_of_listed _ he, if_pos hn]
    rfl
  · refine gangBecomes_of_control hat (i := .segchk seg) rfl ?_
    rw [segchk_of_listed _ he, if_neg (not_not_intro hn), if_pos ⟨hc, Ne.symm hne⟩]
    rfl
  · exact gangBecomes_of_control hat (i := .segchk seg) rfl (segchk_of_unlisted _ hs)
  · rw [GangBecomes, exec_dbgb_atBundle hat, hd]
    rfl
  · rw [exec_dbgb_atBundle hat, if_pos hd, announce_debug, hth]

/-! ### Containment regions -/

theorem region_onRegion (x : Tile) (d i : Nat) (f : Region → Region) :
    (x.onRegion d f).region i = if i = d then f (x.region d) else x.region i := by
  simp only [Tile.region, Tile.onRegion, look_setKey]

theorem openRegion_of_quiescent (o : Origin) (d : Nat) (hq : a.q = true) (hd : x.depth < 4) :
    g.openRegion x a o d = g.onTile o.gid (fun y =>
      { y with
        regions := setKey y.regions y.depth
          { v := true, failed := false, logged := false, pseen := false, point := 0, ldep := x.loops.length,
            mg := (x.mg + 1) % 2 ^ 16, haddr := (((o.addr : Int) + 4 * sextInt 21 d) % (2 ^ 32 : Int)).toNat, saved := [] }
        depth := y.depth + 1
        mg := (x.mg + 1) % 2 ^ 16 }) := by
  unfold Gang.openRegion
  rw [if_neg (by simp [hq]), if_neg (by omega)]
  rfl

theorem closeRegion_of_open (o : Origin) {e : Nat} (hq : a.q = true) (hd : x.depth = e + 1) :
    g.closeRegion x a o = if (x.region e).pseen = true then g.onTile o.gid (fun y => y.failRegion e 5)
      else if (x.region e).failed = true then g else g.onTile o.gid Tile.popRegion := by
  unfold Gang.closeRegion
  rw [if_neg (by simp [hq, hd])]
  simp only [hd, Nat.add_sub_cancel]

/-- A region that has failed is left as it is by another failure (R426). -/
theorem region_failRegion_of_failed {e : Nat} (hf : (x.region e).failed = true) (point i : Nat) :
    (x.failRegion e point).region i = x.region i := by
  rw [Tile.failRegion, region_onRegion, if_pos hf]
  split
  next hi => rw [hi]
  · rfl

theorem popRegion_depth (x : Tile) : x.popRegion.depth = x.depth - 1 := rfl

/-- A region as a close leaves it in the table. -/
def closed (r : Region) : Region := { r with v := false, saved := [] }

theorem popRegion_region {e : Nat} (hd : x.depth = e + 1) (i : Nat) : x.popRegion.region i
    = (if e = 0 then x.onRegion e closed else (x.onRegion e closed).onRegion (e - 1)
        (fun q => { q with saved := mergeSaved q.saved (x.region e).saved })).region i := by
  simp only [Tile.popRegion, hd, Nat.add_sub_cancel]
  rfl

theorem popRegion_region_of_outer {e i : Nat} (hd : x.depth = e + 1) (hi : i + 1 < e) : x.popRegion.region i = x.region i := by
  have below : e ≠ 0 ∧ i ≠ e - 1 ∧ i ≠ e := by omega
  obtain ⟨inner, next, innermost⟩ := below
  rw [popRegion_region hd, if_neg inner, region_onRegion, if_neg next, region_onRegion, if_neg innermost]

theorem popRegion_region_of_next {i : Nat} (hd : x.depth = i + 1 + 1) :
    x.popRegion.region i = { x.region i with saved := mergeSaved (x.region i).saved (x.region (i + 1)).saved } := by
  rw [popRegion_region hd, if_neg (Nat.succ_ne_zero i), region_onRegion, if_pos (Nat.add_sub_cancel i 1).symm, Nat.add_sub_cancel,
    region_onRegion, if_neg (Nat.succ_ne_self i).symm]

/-- Settles O21: the flag Q, the depth and the marks of the innermost region decide. -/
theorem containmentRegions : Obligations.ContainmentRegions := by
  intro s t gid k addr d g x a o hat ho
  subst ho
  have hx : g.tile gid = some x := hat.1.2.2
  refine ⟨fun hq hd => ?_, fun hq hd => ?_, fun hq => ⟨?_, ?_⟩, fun hd => ?_, fun hq e he => ⟨fun hp hf => ?_, fun hp hf => ?_,
    fun hf => ?_, ?_, fun i hi => popRegion_region_of_outer he hi, fun i hi => ?_⟩⟩
  · exact gangBecomes_of_control hat (i := .crgnOpen d) rfl (openRegion_of_quiescent _ d hq hd)
  · refine gangBecomes_of_control hat (i := .crgnOpen d) rfl ?_
    rw [Gang.openRegion, if_neg (by simp [hq]), if_pos hd]
    rfl
  · exact gangBecomes_of_control hat (i := .crgnOpen d) rfl (if_pos hq)
  · exact gangBecomes_of_control hat (i := .crgnClose) rfl (if_pos (Or.inl hq))
  · exact gangBecomes_of_control hat (i := .crgnClose) rfl (if_pos (Or.inr hd))
  · refine gangBecomes_of_control hat (i := .crgnClose) rfl ?_
    rw [closeRegion_of_open _ hq he, if_neg (by simp [hp]), if_neg (by simp [hf])]
    rfl
  · refine gangBecomes_of_control hat (i := .crgnClose) rfl ?_
    rw [closeRegion_of_open _ hq he, if_pos hp]
    refine Gang.onTile_at g gid x hx ?_
    simp only [Tile.failRegion, Tile.onRegion, hf]
    rfl
  · refine ⟨_, gangBecomes_of_control hat (i := .crgnClose) rfl (closeRegion_of_open _ hq he), ?_⟩
    split
    · refine ⟨x.failRegion e 5, ?_, rfl, fun i => region_failRegion_of_failed hf 5 i⟩
      show (g.onTile gid _).tile gid = _
      rw [Gang.tile_onTile, if_pos rfl, hx]
      rfl
    · exact ⟨x, hx, rfl, fun _ => rfl⟩
  · rw [popRegion_depth, he, Nat.add_sub_cancel]
  · subst hi
    exact popRegion_region_of_next he

/-! ### System registers -/

theorem sregPrivileged_iff (r : Nat) : sregPrivileged r = true ↔ r = 0x001 ∨ (0x00C ≤ r ∧ r ≤ 0x011) := by
  simp [sregPrivileged]

theorem syswr_of_task_register (o : Origin) {ra r : Nat} {v : Reads} (hv : v = x.readCodes g.lcyc o.slot o.addr [ra])
    (hr : sregPrivileged r = false) :
    g.syswr x o ra r = if sregValueOk r (nthD 0 v.vals 0) = true
      then (reading g o v 0).later o (g.lcyc + 1) (.sysw r (nthD 0 v.vals 0)) else (reading g o v 0).record o 2 10 g.lcyc 0 := by
  subst hv
  simp only [Gang.syswr, hr, consume_read_eq, Gang.cFault, reading_lcyc]
  rfl

/-- Settles O22: a register of device privilege is a fault and nothing is read or written, any other is read or written. -/
theorem systemRegistersOnTile : Obligations.SystemRegistersOnTile := by
  intro s t gid k addr d ra r g x a o v hat ho hv
  subst ho
  refine ⟨fun hr => ?_, rfl, sregPrivileged_iff r, fun hr => ?_, fun hr hok => ?_, fun hr hok => ?_, fun hr => ?_⟩
  · exact gangBecomes_of_control hat (i := .sysrd d r) rfl (if_neg (by simp [hr]))
  · refine gangBecomes_of_control hat (i := .sysrd d r) rfl ?_
    rw [Gang.sysrd, if_pos hr]
    rfl
  · refine gangBecomes_of_control hat (i := .syswr ra r) rfl ?_
    rw [syswr_of_task_register (opOf g gid 0 addr) hv hr, if_pos hok]
  · refine gangBecomes_of_control hat (i := .syswr ra r) rfl ?_
    rw [syswr_of_task_register (opOf g gid 0 addr) hv hr, if_neg (Bool.not_eq_true _ ▸ hok)]
  · exact gangBecomes_of_control hat (i := .syswr ra r) rfl (if_pos hr)

end Bundle

/-! ### TLAUNCH -/

section Launch
variable {s : State} {t gid slot k addr : Nat} {g : Gang} {x : Tile}

theorem exec_tlaunch_atTile (hat : AtTile s t gid slot k addr g x) (ra : Nat) :
    exec (.tlaunch ra) s = .next (s.tlaunch t ra g x (opOf g gid slot addr)) := by
  obtain ⟨hc, hg, hx⟩ := hat
  show execTlaunch ra s = _
  simp only [execTlaunch, hc, hg, hx]
  rfl

/-- The address is read first; whatever follows is done to the gang that has read it. -/
theorem onGang_after_read (hg : s.gang t = some g) (i : Nat) (y : Tile) (f : Gang → Gang) :
    (s.onGang t (fun g => g.onTile i (fun _ => y))).onGang t f = s.onGang t (fun _ => f (g.onTile i (fun _ => y))) := by
  rw [State.onGang_onGang]
  exact State.onGang_at s t g hg rfl

/-- Settles O23: the address is read, then its poison, its alignment and its translation decide, in that order. -/
theorem tileLaunch : Obligations.TileLaunch := by
  intro s q t gid k addr ra va g h x o v w loc hat ho hv hva hh hw
  subst ho hv hva hh hw
  have hg : s.gang t = some g := hat.2.1
  have after := fun f => onGang_after_read hg gid (x.readCodes g.lcyc 0 addr [ra]).x f
  refine ⟨fun hp => ?_, fun hp => ⟨fun hm => ?_, fun hm hn => ⟨fun hl hd hq => ?_, fun hl hd => ?_, fun hl => ?_, fun hl => ?_⟩⟩⟩
  · rw [GangBecomes, exec_tlaunch_atTile hat]
    simp only [State.tlaunch, opOf, hp, if_true, after, Gang.onTile_lcyc, BitVec.ofNat_toNat, BitVec.setWidth_eq]
  · rw [GangBecomes, exec_tlaunch_atTile hat]
    simp only [State.tlaunch, opOf, hp, Bool.false_eq_true, if_false, if_pos hm, after, Gang.cFault, Gang.onTile_lcyc]
  · have read : s.onGang t (fun h => h.onTile gid (fun _ => (x.readCodes g.lcyc 0 addr [ra]).x))
      = s.onGang t (fun _ => g.onTile gid (fun _ => (x.readCodes g.lcyc 0 addr [ra]).x)) := State.onGang_at s t g hg rfl
    rw [exec_tlaunch_atTile hat, hq]
    simp only [State.tlaunch, opOf, hp, Bool.false_eq_true, if_false, if_neg (not_not_intro hm), hn, hl, if_neg hd]
    rw [read]
    rfl
  · rw [GangBecomes, exec_tlaunch_atTile hat]
    simp only [State.tlaunch, opOf, hp, Bool.false_eq_true, if_false, if_neg (not_not_intro hm), hn, hl, if_pos hd, after,
      Gang.onTile_lcyc, Gang.onTile_launches]
  · rw [GangBecomes, exec_tlaunch_atTile hat]
    simp only [State.tlaunch, opOf, hp, Bool.false_eq_true, if_false, if_neg (not_not_intro hm), hn, hl, after, Gang.cFault,
      Gang.onTile_lcyc]
  · rw [GangBecomes, exec_tlaunch_atTile hat]
    simp only [State.tlaunch, opOf, hp, Bool.false_eq_true, if_false, if_neg (not_not_intro hm), hn, hl, after, Gang.onTile_lcyc]

end Launch

end Sys2Proof.Execution
end

section
/-! SUPPORT. The results that land in a cycle: one alone, and the lower of two for one destination (07 R144 to R146, R162 to R167, 09
R192, 11 R229, 15 R281 to R286). -/
namespace Sys2Proof.Execution
open Machine Claims

/-! ### One result alone -/

section Sole
variable {s : State} {t gid : Nat} {g h : Gang} {d : Due} (sole : SoleDue s t gid g h d)
include sole

theorem sole_lcyc : h.lcyc = g.lcyc := by
  obtain ⟨-, -, -, -, l, r, -, rfl, -⟩ := sole
  rfl

theorem sole_tile (i : Nat) : h.tile i = g.tile i := by
  obtain ⟨-, -, -, -, l, r, -, rfl, -⟩ := sole
  rfl

theorem sole_gid : d.o.gid = gid := by
  obtain ⟨-, -, -, own, -⟩ := sole
  exact own

/-- An event that performs the effects of a kind performs the one that is due. -/
theorem gangBecomes_of_sole {i : Instr} {pick : Job → Bool} {run : Gang → Due → Gang} {q : Gang}
    (hi : exec i s = .next (s.performGang pick run)) (hp : pick d.job = true) (hq : run h d = q) : GangBecomes i s t q := by
  rw [GangBecomes, hi, performGang_of_sole sole hp, hq]

theorem scalarResultWrite_of_sole (hp : d.job.isScalar = true) : GangBecomes .scalarResultWrite s t (h.landScalar d) := by
  obtain ⟨event, gang, -⟩ := id sole
  refine congrArg Host.Outcome.next (onGang_evTask event gang ?_)
  rw [evGid_atEvent event, takeDue_of_sole sole hp]
  by_cases hk : d.job.scalarKey = 0
  · simp [hk, Gang.landScalars]
  · simp [hk, Gang.landScalars]

theorem vectorResultWrite_of_sole (hp : d.job.isVector = true) : GangBecomes .vectorResultWrite s t (h.landVectors [d]) := by
  obtain ⟨event, gang, -⟩ := id sole
  refine congrArg Host.Outcome.next (onGang_evTask event gang ?_)
  rw [evGid_atEvent event, takeDue_of_sole sole hp]

end Sole

/-! ### A push of an outgoing FIFO -/

theorem pushOut_eq_pushed {g : Gang} {o : Origin} {x : Tile} (hx : g.tile o.gid = some x) (ch at_ : Nat) (bs : List PByte) :
    g.pushOut o ch at_ bs = pushed g o x ch at_ bs := by
  have cycle : (if anyPoison bs = true then (g.onTile o.gid Tile.sawPoison).consume o 3 g.lcyc (BitVec.ofNat 64 at_) else g).lcyc
      = g.lcyc := by
    split
    · rw [Gang.consume_lcyc, Gang.onTile_lcyc]
    · rfl
  simp only [Gang.pushOut, hx, pushed, cycle, Nat.lt_iff_add_one_le]

theorem writeCode_of_register {g : Gang} (o : Origin) {c : Nat} (hc : c < 32) (v : Word) (p : Bool) :
    g.writeCode o c v p = g.onTile o.gid (fun x => x.setSreg c { val := v, poison := p }) := if_pos hc

theorem writeCode_of_channel {g : Gang} {o : Origin} {c : Nat} {x : Tile} (hc : 32 ≤ c) (hx : g.tile o.gid = some x)
    (v : Word) (p : Bool) : g.writeCode o c v p = if (x.bound (c - 32)).chs < 64
      then pushed g o x (x.bound (c - 32)).chs 0 (pbytes 8 v.toNat p) else g.record o 1 4 g.lcyc 0 := by
  rw [Gang.writeCode, if_neg (Nat.not_lt.mpr hc)]
  simp only [hx, pushOut_eq_pushed hx]

/-! ### Two results for one destination (R145, R192) -/

section Two
variable {s : State} {t gid : Nat} {g : Gang} {d e : Due} (two : TwoDue s t gid g d e)
include two

theorem takeDue_of_two {pick : Job → Bool} (hd : pick d.job = true) (he : pick e.job = true) :
    g.takeDue gid pick = ([d, e], { g with dues := [] }) := by
  obtain ⟨-, -, dDue, eDue, dOwn, eOwn, rank, order⟩ := two
  have mine : pickedAt g.lcyc gid pick d = true ∧ pickedAt g.lcyc gid pick e = true := by
    simp [pickedAt, dDue, eDue, dOwn, eOwn, hd, he]
  obtain ⟨mineD, mineE⟩ := mine
  rw [takeDue_eq]
  rcases order with h | h
  · simp [h, mineD, mineE, sortBy, insertBy, Nat.le_of_lt rank]
  · simp [h, mineD, mineE, sortBy, insertBy, Nat.not_le.mpr rank]

theorem scalarResultWrite_of_two (hd : d.job.isScalar = true) (he : e.job.isScalar = true) (hk : d.job.scalarKey ≠ 0)
    (same : e.job.scalarKey = d.job.scalarKey) :
    GangBecomes .scalarResultWrite s t ((({ g with dues := [] } : Gang).record d.o 2 6 g.lcyc 0).landScalar e) := by
  have taken := takeDue_of_two two hd he
  obtain ⟨event, gang, -⟩ := id two
  refine congrArg Host.Outcome.next (onGang_evTask event gang ?_)
  rw [evGid_atEvent event, taken]
  simp [hk, same, Gang.landScalars]

theorem vectorResultWrite_of_two (hd : d.job.isVector = true) (he : e.job.isVector = true) :
    GangBecomes .vectorResultWrite s t (({ g with dues := [] } : Gang).landVectors [d, e]) := by
  have taken := takeDue_of_two two hd he
  obtain ⟨event, gang, -⟩ := id two
  refine congrArg Host.Outcome.next (onGang_evTask event gang ?_)
  rw [evGid_atEvent event, taken]

end Two

/-! ### Results of one entry or mask (R192) -/

theorem and_not_zero {w : Nat} (a : BitVec w) : a &&& ~~~0#w = a := by
  rw [BitVec.not_zero, BitVec.and_allOnes]

/-- Bits taken as a number, joined with none, and back. -/
theorem ofNat_toNat_or_zero {w : Nat} (a : BitVec w) : BitVec.ofNat w (a.toNat ||| 0) = a := by
  rw [Nat.or_zero, BitVec.ofNat_toNat, BitVec.setWidth_eq]

section Entries
variable (g : Gang) {d e : Due} (ds : List Due)

theorem landVectors_entry {k : Nat} {v en : VWord} {p : BitVec 32} (hj : d.job = .vent k v en p) {up : VWord}
    (hu : BitVec.ofNat 1024 (higherBits true (k % 128) ds) = up) :
    g.landVectors (d :: ds) = ((if en &&& up = 0 then g else g.record d.o 2 6 g.lcyc 0).onTile d.o.gid
      (fun x => x.setEntry k v (en &&& ~~~up) (p &&& hitWords (en &&& ~~~up)))).landVectors ds := by
  subst hu
  rw [Gang.landVectors, hj]

theorem landVectors_mask {m : Nat} {v en : BitVec 128} (hj : d.job = .mask m v en) {up : BitVec 128}
    (hu : BitVec.ofNat 128 (higherBits false m ds) = up) :
    g.landVectors (d :: ds) = ((if en &&& up = 0 ∨ m = 0 then g else g.record d.o 2 6 g.lcyc 0).onTile d.o.gid
      (fun x => x.setMask m v (en &&& ~~~up))).landVectors ds := by
  subst hu
  rw [Gang.landVectors, hj]

theorem landVectors_entry_alone {k : Nat} {v en : VWord} {p : BitVec 32} (hj : d.job = .vent k v en p) :
    g.landVectors [d] = g.onTile d.o.gid (fun x => x.setEntry k v en (p &&& hitWords en)) := by
  rw [landVectors_entry g [] hj rfl, higherBits, if_pos (show en &&& 0#1024 = 0 from BitVec.and_zero), and_not_zero,
    Gang.landVectors]

theorem landVectors_mask_alone {m : Nat} {v en : BitVec 128} (hj : d.job = .mask m v en) :
    g.landVectors [d] = g.onTile d.o.gid (fun x => x.setMask m v en) := by
  rw [landVectors_mask g [] hj rfl, higherBits,
    if_pos (show en &&& 0#128 = 0 ∨ m = 0 from Or.inl BitVec.and_zero), and_not_zero, Gang.landVectors]

theorem higherBits_entry {k : Nat} {v en : VWord} {p : BitVec 32} (hj : d.job = .vent k v en p) :
    BitVec.ofNat 1024 (higherBits true (k % 128) [d]) = en := by
  rw [higherBits, hj]
  simp only [and_self, if_true, higherBits]
  exact ofNat_toNat_or_zero en

theorem higherBits_mask {m : Nat} {v en : BitVec 128} (hj : d.job = .mask m v en) : BitVec.ofNat 128 (higherBits false m [d]) = en := by
  rw [higherBits, hj]
  simp only [Bool.not_false, and_self, if_true, higherBits]
  exact ofNat_toNat_or_zero en

end Entries

/-! ### The statement -/

section Landing
variable {s : State} {t gid : Nat} {g h : Gang} {d : Due} (sole : SoleDue s t gid g h d)
include sole

theorem register_lands {c : Nat} {v : Word} {p : Bool} (hj : d.job = .sreg c v p) (hc : c < 32) :
    GangBecomes .scalarResultWrite s t (h.onTile gid (fun x => x.setSreg c { val := v, poison := p })) := by
  have lands := scalarResultWrite_of_sole sole (by rw [hj]; rfl)
  simpa only [Gang.landScalar, hj, writeCode_of_register d.o hc, sole_gid sole] using lands

theorem channel_takes {c : Nat} {v : Word} {p : Bool} {x : Tile} (hj : d.job = .sreg c v p) (hc : 32 ≤ c) (hx : g.tile gid = some x) :
    GangBecomes .scalarResultWrite s t (if (x.bound (c - 32)).chs < 64
      then pushed h d.o x (x.bound (c - 32)).chs 0 (pbytes 8 v.toNat p) else h.record d.o 1 4 g.lcyc 0) := by
  have own : h.tile d.o.gid = some x := by rw [sole_tile sole, sole_gid sole, hx]
  have lands := scalarResultWrite_of_sole sole (by rw [hj]; rfl)
  simpa only [Gang.landScalar, hj, writeCode_of_channel hc own, sole_lcyc sole] using lands

theorem predicate_lands {n : Nat} {v : Bool} (hj : d.job = .pred n v) :
    GangBecomes .scalarResultWrite s t (h.onTile gid (fun x => x.setPred n v)) := by
  have lands := scalarResultWrite_of_sole sole (by rw [hj]; rfl)
  rwa [Gang.landScalar, hj, sole_gid sole] at lands

theorem binding_lands {n chs chr : Nat} (hj : d.job = .chbind n chs chr) : GangBecomes .scalarResultWrite s t (h.onTile gid (fun x =>
    { x with kbind := put KBind.none x.kbind n { chs := chs, chr := chr } })) := by
  have lands := scalarResultWrite_of_sole sole (by rw [hj]; rfl)
  rwa [Gang.landScalar, hj, sole_gid sole] at lands

theorem charge_lands {b rd wr : Nat} (hj : d.job = .charge b rd wr) : GangBecomes .scalarResultWrite s t (h.onTile gid (fun x =>
    { x with brd := put 0 x.brd b (look 0 x.brd b + BitVec.ofNat 64 rd)
             bwr := put 0 x.bwr b (look 0 x.bwr b + BitVec.ofNat 64 wr) })) := by
  have lands := scalarResultWrite_of_sole sole (by rw [hj]; rfl)
  rwa [Gang.landScalar, hj, sole_gid sole] at lands

theorem entry_lands {e : Nat} {v en : VWord} {p : BitVec 32} (hj : d.job = .vent e v en p) :
    GangBecomes .vectorResultWrite s t (h.onTile gid (fun x => x.setEntry e v en (p &&& hitWords en))) := by
  have lands := vectorResultWrite_of_sole sole (by rw [hj]; rfl)
  rwa [landVectors_entry_alone h hj, sole_gid sole] at lands

theorem mask_lands {m : Nat} {v en : BitVec 128} (hj : d.job = .mask m v en) :
    GangBecomes .vectorResultWrite s t (h.onTile gid (fun x => x.setMask m v en)) := by
  have lands := vectorResultWrite_of_sole sole (by rw [hj]; rfl)
  rwa [landVectors_mask_alone h hj, sole_gid sole] at lands

theorem pointers_land {hd : Nat} {dh dt : Int} (hj : d.job = .advr hd dh dt) :
    GangBecomes .vectorResultWrite s t (h.onTile gid (fun x => x.moveRing hd dh dt)) := by
  have lands := vectorResultWrite_of_sole sole (by rw [hj]; rfl)
  simpa only [Gang.landVectors, hj, sole_gid sole] using lands

end Landing

section Colliding
variable {s : State} {t gid : Nat} {g f : Gang} {d e : Due} (two : TwoDue s t gid g d e)
  (hf : f = ({ g with dues := [] } : Gang).record d.o 2 6 g.lcyc 0)
include two hf

theorem higher_register_lands {c : Nat} {v w : Word} {p q : Bool} (hd : d.job = .sreg c v p) (he : e.job = .sreg c w q) (h1 : 1 ≤ c)
    (h32 : c < 32) : GangBecomes .scalarResultWrite s t (f.onTile gid (fun x => x.setSreg c { val := w, poison := q })) := by
  have key : d.job.scalarKey ≠ 0 := by
    rw [hd]
    exact Nat.ne_of_gt h1
  have lands := scalarResultWrite_of_two two (by rw [hd]; rfl) (by rw [he]; rfl) key (by rw [hd, he]; rfl)
  obtain ⟨-, -, -, -, -, own, -⟩ := two
  simpa only [Gang.landScalar, he, writeCode_of_register e.o h32, own, hf] using lands

theorem higher_predicate_lands {n : Nat} {v w : Bool} (hd : d.job = .pred n v) (he : e.job = .pred n w) (h1 : 1 ≤ n) :
    GangBecomes .scalarResultWrite s t (f.onTile gid (fun x => x.setPred n w)) := by
  have key : d.job.scalarKey ≠ 0 := by
    rw [hd, Job.scalarKey, if_neg (by omega)]
    omega
  have lands := scalarResultWrite_of_two two (by rw [hd]; rfl) (by rw [he]; rfl) key (by rw [hd, he]; rfl)
  obtain ⟨-, -, -, -, -, own, -⟩ := two
  rwa [Gang.landScalar, he, own, ← hf] at lands

theorem lower_entry_keeps {k : Nat} {v w a b : VWord} {p q : BitVec 32} (hd : d.job = .vent k v a p) (he : e.job = .vent k w b q)
    (meet : a &&& b ≠ 0) : GangBecomes .vectorResultWrite s t
      ((f.onTile gid (fun x => x.setEntry k v (a &&& ~~~b) (p &&& hitWords (a &&& ~~~b)))).onTile gid
        (fun x => x.setEntry k w b (q &&& hitWords b))) := by
  have lands := vectorResultWrite_of_two two (by rw [hd]; rfl) (by rw [he]; rfl)
  obtain ⟨-, -, -, -, dOwn, eOwn, -⟩ := two
  rwa [landVectors_entry _ [e] hd (higherBits_entry he), if_neg meet, landVectors_entry_alone _ he, dOwn, eOwn, ← hf] at lands

theorem lower_mask_keeps {m : Nat} {v w a b : BitVec 128} (hd : d.job = .mask m v a) (he : e.job = .mask m w b)
    (meet : a &&& b ≠ 0) (hm : m ≠ 0) : GangBecomes .vectorResultWrite s t
      ((f.onTile gid (fun x => x.setMask m v (a &&& ~~~b))).onTile gid (fun x => x.setMask m w b)) := by
  have lands := vectorResultWrite_of_two two (by rw [hd]; rfl) (by rw [he]; rfl)
  obtain ⟨-, -, -, -, dOwn, eOwn, -⟩ := two
  rwa [landVectors_mask _ [e] hd (higherBits_mask he), if_neg (not_or.mpr ⟨meet, hm⟩), landVectors_mask_alone _ he, dOwn, eOwn,
    ← hf] at lands

end Colliding

/-- Settles O53: each kind of result alone, then the lower of two for one destination. -/
theorem resultsLand : Obligations.ResultsLand := by
  refine ⟨fun s t gid g h d sole => ?_, fun s t gid g f d e two hf => ?_⟩
  · have own := sole_gid sole
    refine ⟨fun c v p hj => ⟨fun hc => register_lands sole hj hc, fun x ch hc hx hch => ⟨fun h64 => ?_, fun h64 => ?_⟩⟩,
      fun n v hj => predicate_lands sole hj, fun n chs chr hj => binding_lands sole hj, fun b rd wr hj => charge_lands sole hj,
      fun e v en p hj => entry_lands sole hj, fun m v en hj => mask_lands sole hj, fun hd dh dt hj => pointers_land sole hj,
      fun v hj => ?fmt, fun r v hj => ?sysw, fun hd b n c hj => ?ringc, fun n ps hj => ?xpat, fun bs hj => ?hist⟩
    · have takes := channel_takes sole hj hc hx
      rwa [← hch, if_neg (Nat.not_lt.mpr h64)] at takes
    · have takes := channel_takes sole hj hc hx
      rwa [← hch, if_pos h64] at takes
    case fmt => exact gangBecomes_of_sole sole (i := .fmtApply) rfl (by rw [hj]) (by simp only [hj, own]; rfl)
    case sysw => exact gangBecomes_of_sole sole (i := .systemRegisterWrite) rfl (by rw [hj]) (by simp only [hj, own])
    case ringc => exact gangBecomes_of_sole sole (i := .systemRegisterWrite) rfl (by rw [hj]) (by simp only [hj, own]; rfl)
    case xpat => exact gangBecomes_of_sole sole (i := .xpatWrite) rfl (by rw [hj]) (by simp only [hj, own])
    case hist => exact gangBecomes_of_sole sole (i := .shistIncrement) rfl (by rw [hj]) (by simp only [hj, own]; rfl)
  · exact ⟨fun c v w p q hd he h1 h32 => higher_register_lands two hf hd he h1 h32,
      fun n v w hd he h1 => higher_predicate_lands two hf hd he h1,
      fun k v w a b p q hd he meet => lower_entry_keeps two hf hd he meet,
      fun m v w a b hd he meet hm => lower_mask_keeps two hf hd he meet hm⟩

end Sys2Proof.Execution
end

section
/-! SUPPORT. The accesses that perform in a cycle: reads with what their bytes go to, staged writes and atomics, pushes, lines of the
accumulator memory, the departure and the arrival of channel elements (13 R244 to R246, R263, 15 R270 to R287, 17 R310, R314 to R316,
19 R337). -/
namespace Sys2Proof.Execution
open Machine Claims

/-! ### Device memory does not depend on a gang -/

theorem devRead_onGang (s : State) (t : Nat) (f : Gang → Gang) (n : Nat) : ∀ a, (s.onGang t f).devRead a n = s.devRead a n := by
  induction n with
  | zero => intro a; rfl
  | succ n ih => intro a; simp only [State.devRead, State.onGang_devBad, State.onGang_dev, State.onGang_devPoison, ih]

theorem locRead_onGang (s : State) (t : Nat) (f : Gang → Gang) (l : DevLoc) (n : Nat) :
    (s.onGang t f).locRead l n = s.locRead l n := by
  have slot : (s.onGang t f).keySlot l.addr l.key = s.keySlot l.addr l.key := by
    simp only [State.keySlot, State.pkg, State.onGang_pkgs]
  unfold State.locRead
  simp only [slot, devRead_onGang, State.onGang_devBad]

/-! ### The log of an uncorrectable word changes no task -/

theorem noteBad_cfg (s : State) (t a n : Nat) : (s.noteBad t a n).cfg = s.cfg := by
  unfold State.noteBad
  split
  · rfl
  · exact State.logEvent_cfg ..

theorem noteBad_gang (s : State) (t a n u : Nat) : (s.noteBad t a n).gang u = s.gang u := by
  unfold State.noteBad
  split
  · rfl
  · simp only [State.gang, State.task, State.logEvent_tasks]

/-! ### The events that perform state by state -/

theorem gang_at_onGang {s : State} {t : Nat} {g : Gang} (hg : s.gang t = some g) (f : Gang → Gang) :
    (s.onGang t f).gang t = some (f g) := by
  rw [State.gang_onGang, if_pos rfl, hg]
  rfl

section Sole
variable {s : State} {t gid : Nat} {g h : Gang} {d : Due} (sole : SoleDue s t gid g h d)
include sole

/-- An event that performs the effects of a kind performs the one that is due, in the state without it. -/
theorem perform_of_sole {pick : Job → Bool} (hp : pick d.job = true) (run : State → Nat → Due → State) :
    s.perform pick run = run (s.onGang t (fun _ => h)) t d := by
  obtain ⟨event, gang, -⟩ := id sole
  simp only [State.perform, evTask_atEvent event, evGid_atEvent event, gang, takeDue_of_sole sole hp, List.foldl_cons,
    List.foldl_nil]

/-- Where what it performs is a change of the gang, the gang becomes what the change gives. -/
theorem gangBecomes_of_perform {i : Instr} {pick : Job → Bool} {run : State → Nat → Due → State} {f : Gang → Gang} {q : Gang}
    (hi : exec i s = .next (s.perform pick run)) (hp : pick d.job = true) (hf : ∀ u, run u t d = u.onGang t f) (hq : f h = q) :
    GangBecomes i s t q := by
  rw [GangBecomes, hi, perform_of_sole sole hp, hf, State.onGang_onGang, hq]

theorem sole_gang : (s.onGang t (fun _ => h)).gang t = some h := by
  obtain ⟨-, gang, -⟩ := id sole
  exact gang_at_onGang gang _

end Sole

/-! ### A read and what its bytes go to (R239, R272) -/

theorem placeRead_eq_shown {s : State} {t : Nat} {h : Gang} (hg : (s.onGang t (fun _ => h)).gang t = some h) (p : Place) (n : Nat) :
    (s.onGang t (fun _ => h)).placeRead t p n = shown s h p n := by
  cases p with
  | scratch i off =>
    simp only [State.placeRead, hg, shown, Gang.scratch]
    cases h.tile i <;> rfl
  | dev l => exact locRead_onGang ..
  | denied => rfl
  | unresolved => rfl

/-- The offset in a slice that a read names. -/
def offsetOf (p : Place) : Nat :=
  match p with
  | .scratch _ off => off
  | _ => 0

/-- The state once a read has been seen: the counters, the watch, the log of an uncorrectable word, PSEEN. -/
def readSeen (s : State) (t : Nat) (h : Gang) (o : Origin) (port : Nat) (src : Place) (n : Nat) (bs : List PByte) : State :=
  if port = 15 then sawBytes s t h o .denied n bs else sawBytes s t h o src n bs

/-- What a read's bytes go to, once they have been seen. -/
def handOn (s : State) (t : Nat) (o : Origin) (after : After) (at_ : Nat) (bs : List PByte) : State :=
  match after with
  | .toReg code _ sz due => s.onGang t (fun g => g.laterReg o due code (extendLoad sz (pval bs)) (anyPoison bs))
  | .toBeat dst due a b => s.sendOn t o dst due a b bs
  | .toPush ch base due sofar rest => s.onGang t (fun g =>
      match rest with
      | [] => g.later o due (.push ch base (sofar ++ bs))
      | l :: ls => g.later o (g.lcyc + 1) (.read 4 (.scratch o.gid l) bs.length (.toPush ch base due (sofar ++ bs) ls)))
  | .toAcc ag off due => s.onGang t (fun g => g.later o due (.accPut ag off bs))
  | .toRow r => s.onGang t (fun g => g.onTile o.gid (fun x => { x with factor := x.factor.map (fun f => f.addRow r bs) }))
  | .toPost h seg beat off node => s.postBeat t o h seg beat off node at_ bs

theorem deliver_eq_handOn (s : State) (t : Nat) (o : Origin) (after : After) (at_ : Nat) (bs : List PByte) :
    s.deliver t o after at_ bs = handOn (s.onGang t (fun g => g.sawPoison o (anyPoison bs))) t o after at_ bs := rfl

section Read
variable {s : State} {t : Nat} {h : Gang} (hg : (s.onGang t (fun _ => h)).gang t = some h)
include hg

/-- A read that performs is seen, and its bytes go on. -/
theorem readPerform_eq (o : Origin) {port : Nat} {src : Place} (hp : port = 15 → ∀ l, src ≠ .dev l) (n : Nat) (after : After)
    {bs : List PByte} (hbs : bs = if port = 15 then pbytes n 0 true else shown s h src n) :
    (s.onGang t (fun _ => h)).readPerform t o port src n after
      = handOn (readSeen s t h o port src n bs) t o after (offsetOf src) bs := by
  have bytes : (if port = 15 then droppedBytes n else (s.onGang t (fun _ => h)).placeRead t src n) = bs := by
    rw [placeRead_eq_shown hg, hbs]
    rfl
  unfold State.readPerform
  rw [bytes, deliver_eq_handOn]
  cases src with
  | scratch i off =>
    by_cases h15 : port = 15
    · simp only [if_pos h15, readSeen, sawBytes, State.onGang_onGang, Gang.sawPoison, offsetOf]
    · simp only [if_neg h15, readSeen, sawBytes, State.onGang_onGang, Gang.sawPoison, offsetOf]
  | dev l =>
    have h15 : port ≠ 15 := fun e => hp e l rfl
    simp only [if_neg h15, readSeen, sawBytes, Gang.sawPoison, offsetOf]
  | denied => simp only [readSeen, sawBytes, State.onGang_onGang, Gang.sawPoison, offsetOf, ite_self]
  | unresolved => simp only [readSeen, sawBytes, State.onGang_onGang, Gang.sawPoison, offsetOf, ite_self]

end Read

theorem sawBytes_cfg (s : State) (t : Nat) (h : Gang) (o : Origin) (p : Place) (n : Nat) (bs : List PByte) :
    (sawBytes s t h o p n bs).cfg = s.cfg := by
  cases p with
  | scratch i off => exact State.onGang_cfg ..
  | dev l => exact (State.onGang_cfg ..).trans ((noteBad_cfg ..).trans (State.onGang_cfg ..))
  | denied => exact State.onGang_cfg ..
  | unresolved => exact State.onGang_cfg ..

theorem readSeen_cfg (s : State) (t : Nat) (h : Gang) (o : Origin) (port : Nat) (src : Place) (n : Nat) (bs : List PByte) :
    (readSeen s t h o port src n bs).cfg = s.cfg := by
  unfold readSeen
  split <;> exact sawBytes_cfg ..

theorem watch_lcyc (g : Gang) (i off n : Nat) (w : Bool) : (g.watch i off n w).lcyc = g.lcyc := by
  unfold Gang.watch
  split
  · rfl
  · split <;> rfl

/-- The gang of a task stands at a logical cycle. -/
def StandsAt (s : State) (t c : Nat) : Prop := ∃ k, s.gang t = some k ∧ k.lcyc = c

theorem standsAt_onGang {s : State} {t c : Nat} (hs : StandsAt s t c) {f : Gang → Gang} (hf : ∀ g, (f g).lcyc = g.lcyc) :
    StandsAt (s.onGang t f) t c := by
  obtain ⟨k, hk, rfl⟩ := hs
  exact ⟨f k, gang_at_onGang hk f, hf k⟩

/-- To have seen bytes takes no time. -/
theorem sawBytes_standsAt {s : State} {t : Nat} {h : Gang} (hg : (s.onGang t (fun _ => h)).gang t = some h) (o : Origin) (p : Place)
    (n : Nat) (bs : List PByte) : StandsAt (sawBytes s t h o p n bs) t h.lcyc := by
  have start : StandsAt (s.onGang t (fun _ => h)) t h.lcyc := ⟨h, hg, rfl⟩
  have seen : ∀ g : Gang, (if anyPoison bs = true then g.onTile o.gid Tile.sawPoison else g).lcyc = g.lcyc :=
    fun g => sawPoison_lcyc g o (anyPoison bs)
  have changed {f : Gang → Gang} (hf : ∀ g, (f g).lcyc = g.lcyc) : StandsAt (s.onGang t (fun _ => f h)) t h.lcyc := by
    rw [← State.onGang_onGang s t (fun _ => h) f]
    exact standsAt_onGang start hf
  cases p with
  | scratch i off =>
    exact changed (f := fun g => if anyPoison bs = true
        then ((g.onTile o.gid (fun y => y.count 7 n)).watch i off n false).onTile o.gid Tile.sawPoison
        else (g.onTile o.gid (fun y => y.count 7 n)).watch i off n false)
      (fun g => (seen _).trans ((watch_lcyc ..).trans (Gang.onTile_lcyc ..)))
  | dev l =>
    obtain ⟨k, hk, c⟩ := start
    exact standsAt_onGang ⟨k, (noteBad_gang ..).trans hk, c⟩ seen
  | denied => exact changed (f := fun g => if anyPoison bs = true then g.onTile o.gid Tile.sawPoison else g) seen
  | unresolved => exact changed (f := fun g => if anyPoison bs = true then g.onTile o.gid Tile.sawPoison else g) seen

theorem readSeen_standsAt {s : State} {t : Nat} {h : Gang} (hg : (s.onGang t (fun _ => h)).gang t = some h) (o : Origin)
    (port : Nat) (src : Place) (n : Nat) (bs : List PByte) : StandsAt (readSeen s t h o port src n bs) t h.lcyc := by
  unfold readSeen
  split
  · exact sawBytes_standsAt hg ..
  · exact sawBytes_standsAt hg ..

/-! ### A beat that leaves (R271, R273, R357) -/

theorem routed_eq_onItsWay (c : Cfg) (g : Gang) (o : Origin) (a b : Nat) (bs : List PByte) :
    g.routed c o a b g.lcyc bs = onItsWay c g o a b bs := by
  unfold Gang.routed onItsWay
  cases c.strayAt g a b g.lcyc <;> rfl

theorem record_lcyc (g : Gang) (o : Origin) (cls detail cycle : Nat) (info : Word) :
    (g.record o cls detail cycle info).lcyc = g.lcyc := by
  simp [Gang.record]

theorem onItsWay_lcyc (c : Cfg) (g : Gang) (o : Origin) (a b : Nat) (bs : List PByte) :
    (onItsWay c g o a b bs).1.lcyc = g.lcyc := by
  unfold onItsWay
  split
  · rfl
  · dsimp only
    split
    · exact record_lcyc ..
    · rfl

theorem sendOn_eq_sent {s : State} {t c : Nat} (hs : StandsAt s t c) (o : Origin) (dst : Place) (due a b : Nat)
    (bs : List PByte) : s.sendOn t o dst due a b bs = s.onGang t (fun k => sent s.cfg k o dst due a b bs) := by
  obtain ⟨g, hg, -⟩ := hs
  have cycle : (if a = b then (onItsWay s.cfg g o a b bs).1
      else (onItsWay s.cfg g o a b bs).1.onTile o.gid (fun y => y.count 9 1)).lcyc = g.lcyc := by
    split
    · exact onItsWay_lcyc ..
    · exact (Gang.onTile_lcyc ..).trans (onItsWay_lcyc ..)
  have same : s.sendOn t o dst due a b bs = s.onGang t (fun _ => sent s.cfg g o dst due a b bs) := by
    unfold State.sendOn sent
    simp only [hg]
    rw [routed_eq_onItsWay]
    cases dst with
    | scratch i off => rfl
    | dev l => simp only [cycle]
    | denied => rfl
    | unresolved => rfl
  exact same.trans (State.onGang_at s t g hg rfl)

theorem postBeat_eq_posted (s : State) (t : Nat) (o : Origin) (hd seg beat node at_ : Nat) (bs : List PByte) :
    s.postBeat t o hd seg beat 0 node at_ bs = s.onGang t (fun k => posted s.cfg k o hd seg beat node at_ bs) := by
  unfold State.postBeat
  congr 1
  funext k
  simp only [if_true, routed_eq_onItsWay, posted]

/-! ### The reads of a cycle -/

section Reads
variable {s : State} {t gid : Nat} {g h : Gang} {d : Due} (sole : SoleDue s t gid g h d) {p n : Nat} {src : Place} {bs : List PByte}
  (hbs : bs = if p = 15 then pbytes n 0 true else shown s h src n) (hsrc : p = 15 → ∀ l, src ≠ .dev l)
include sole hbs hsrc

/-- An event that performs a due read hands its bytes on. -/
theorem exec_read {i : Instr} {pick : Job → Bool} {run : State → Nat → Due → State} {after : After}
    (hi : exec i s = .next (s.perform pick run)) (hp : pick d.job = true)
    (hr : ∀ u, run u t d = u.readPerform t d.o p src n after) :
    exec i s = .next (handOn (readSeen s t h d.o p src n bs) t d.o after (offsetOf src) bs) := by
  rw [hi, perform_of_sole sole hp, hr, readPerform_eq (sole_gang sole) d.o hsrc n after hbs]

theorem read_toReg {code m sz due : Nat} (hj : d.job = .read p src n (.toReg code m sz due)) :
    exec .dAccessPerform s = .next ((readSeen s t h d.o p src n bs).onGang t (fun k =>
      k.later d.o due (.sreg code (extendLoad sz (pval bs)) (anyPoison bs)))) :=
  (exec_read sole hbs hsrc rfl (by rw [hj]) (fun u => by rw [hj])).trans rfl

theorem read_toBeat {dst : Place} {due a b : Nat} (hj : d.job = .read p src n (.toBeat dst due a b)) :
    exec .beatRead s = .next ((readSeen s t h d.o p src n bs).onGang t (fun k => sent s.cfg k d.o dst due a b bs)) := by
  refine (exec_read sole hbs hsrc rfl (by rw [hj]) (fun u => by rw [hj])).trans (congrArg _ ?_)
  exact (sendOn_eq_sent (readSeen_standsAt (sole_gang sole) ..) ..).trans (by rw [readSeen_cfg])

theorem read_toPush_last {ch base due : Nat} {sofar : List PByte} (hj : d.job = .read p src n (.toPush ch base due sofar [])) :
    exec .beatRead s = .next ((readSeen s t h d.o p src n bs).onGang t (fun k =>
      k.later d.o due (.push ch base (sofar ++ bs)))) :=
  (exec_read sole hbs hsrc rfl (by rw [hj]) (fun u => by rw [hj])).trans rfl

theorem read_toPush_more {ch base due l : Nat} {sofar : List PByte} {ls : List Nat}
    (hj : d.job = .read p src n (.toPush ch base due sofar (l :: ls))) :
    exec .beatRead s = .next ((readSeen s t h d.o p src n bs).onGang t (fun k => k.later d.o (g.lcyc + 1)
      (.read 4 (.scratch gid l) bs.length (.toPush ch base due (sofar ++ bs) ls)))) := by
  refine (exec_read sole hbs hsrc rfl (by rw [hj]) (fun u => by rw [hj])).trans (congrArg _ ?_)
  obtain ⟨k, hk, cycle⟩ := readSeen_standsAt (sole_gang sole) d.o p src n bs
  refine State.onGang_at _ t k hk ?_
  simp only [cycle, sole_lcyc sole, sole_gid sole]

theorem read_toPost {hd seg beat node i off : Nat} (place : src = .scratch i off)
    (hj : d.job = .read p src n (.toPost hd seg beat 0 node)) :
    exec .beatRead s = .next ((readSeen s t h d.o p src n bs).onGang t (fun k =>
      posted s.cfg k d.o hd seg beat node off bs)) := by
  refine (exec_read sole hbs hsrc rfl (by rw [hj]) (fun u => by rw [hj])).trans (congrArg _ ?_)
  refine (postBeat_eq_posted ..).trans ?_
  rw [readSeen_cfg, place]
  rfl

theorem read_toAcc {ag off due : Nat} (hj : d.job = .read p src n (.toAcc ag off due)) :
    exec .accLineMove s = .next ((readSeen s t h d.o p src n bs).onGang t (fun k => k.later d.o due (.accPut ag off bs))) :=
  (exec_read sole hbs hsrc rfl (by rw [hj]) (fun u => by rw [hj])).trans rfl

theorem read_toRow {r : Nat} (hj : d.job = .read p src n (.toRow r)) :
    exec .mpermRowWrite s = .next ((readSeen s t h d.o p src n bs).onGang t (fun k => k.onTile gid (fun y =>
      { y with factor := y.factor.map (fun f => f.addRow r bs) }))) := by
  refine (exec_read sole hbs hsrc rfl (by rw [hj]) (fun u => by rw [hj])).trans ?_
  rw [← sole_gid sole]
  rfl

end Reads

/-! ### The writes, atomics and pushes of a cycle -/

section Writes
variable {s : State} {t gid : Nat} {g h : Gang} {d : Due} (sole : SoleDue s t gid g h d)
include sole

theorem write_staged {i : Instr} {port : Nat} (row : (i, port) ∈ writeRows) {p : Place} {bs : List PByte}
    (hj : d.job = .write port p bs) : GangBecomes i s t (stagedTo h d.o p bs) := by
  have staged : ∀ port, port ≠ 15 → h.writePerform d.o port p bs = stagedTo h d.o p bs := fun port h15 =>
    (if_neg h15).trans (stage_eq_stagedTo ..)
  simp only [writeRows, List.mem_cons, Prod.mk.injEq, List.not_mem_nil, or_false] at row
  obtain ⟨rfl, rfl⟩ | ⟨rfl, rfl⟩ | ⟨rfl, rfl⟩ | ⟨rfl, rfl⟩ | ⟨rfl, rfl⟩ | ⟨rfl, rfl⟩ := row
  · exact gangBecomes_of_perform sole rfl (by rw [hj]; rfl) (fun u => by rw [hj]) (staged 1 (by decide))
  · exact gangBecomes_of_perform sole rfl (by rw [hj]; rfl) (fun u => by rw [hj]) (staged 4 (by decide))
  · exact gangBecomes_of_sole sole rfl (by rw [hj]; rfl) (by rw [hj]; exact staged 5 (by decide))
  · exact gangBecomes_of_perform sole (f := fun k => k.accMove d) rfl (by rw [hj]; rfl) (fun u => by rw [hj])
      (by rw [Gang.accMove, hj]; exact staged 6 (by decide))
  · exact gangBecomes_of_sole sole rfl (by rw [hj]; rfl) (by rw [hj]; exact staged 7 (by decide))
  · exact gangBecomes_of_perform sole (f := fun k => k.permRow d) rfl (by rw [hj]; rfl) (fun u => by rw [hj])
      (by rw [Gang.permRow, hj]; exact staged 8 (by decide))

theorem write_dropped {p : Place} {bs : List PByte} (hj : d.job = .write 15 p bs) : GangBecomes .beatWrite s t h :=
  gangBecomes_of_sole sole rfl (by rw [hj]; rfl) (by rw [hj]; rfl)

theorem ctrsnap_written {off : Nat} {bs : List PByte} (hj : d.job = .ctrsnap off bs) (hb : bs ≠ []) :
    GangBecomes .ctrsnapWrite s t (stagedTo h d.o (.scratch gid off) bs) := by
  refine gangBecomes_of_sole sole rfl (by rw [hj]) ?_
  rw [hj, ← sole_gid sole]
  exact (if_neg (by simpa using hb)).trans (stage_eq_stagedTo ..)

theorem ctrsnap_dropped {off : Nat} (hj : d.job = .ctrsnap off []) : GangBecomes .ctrsnapWrite s t h :=
  gangBecomes_of_sole sole rfl (by rw [hj]) (by rw [hj]; rfl)

theorem sacc_staged {off p dr sty m n : Nat} {q sat : Bool} (hj : d.job = .sacc off p q dr sty m sat)
    (hn : n = (ElemType.ofCode sty).width / 8) : GangBecomes .saccUpdate s t
      ((((h.onTile gid (fun y => (y.count 7 n).count 8 n)).watch gid off n false).watch gid off n true).stageAtomic
        d.o 0 gid off n none d.job) := by
  refine gangBecomes_of_sole sole rfl (by rw [hj]) ?_
  rw [hj, ← sole_gid sole, hn]

theorem atom_staged {op w b c code due : Nat} {p : Bool} {l : DevLoc} (hj : d.job = .atom op l w b c p code due) :
    GangBecomes .dAccessPerform s t (h.stageAtomic d.o 2 0 l.addr (if 11 ≤ op then 16 else w) (some l) d.job) :=
  gangBecomes_of_perform sole (f := fun k => k.stageAtomic d.o 2 0 l.addr (if 11 ≤ op then 16 else w) (some l) d.job)
    rfl (by rw [hj]) (fun u => by rw [hj]) rfl

theorem barrier_staged {i : Instr} {kind : Nat} (hi : exec i s = s.barrierStage kind) {v : BarrierUpdate}
    {rest : List (Nat × BarrierUpdate)} {c : Option Nat} {due : Nat} (hj : d.job = .barrier v rest c due) (hk : v.kind = kind) :
    GangBecomes i s t (h.stageAtomic d.o 2 0 v.loc.addr 16 (some v.loc) d.job) :=
  gangBecomes_of_sole sole hi (by rw [hj]; simp [hk]) (by rw [hj])

theorem push_performed {x : Tile} (tile : g.tile gid = some x) {ch at_ : Nat} {bs : List PByte} (hj : d.job = .push ch at_ bs) :
    GangBecomes .chsendPush s t (pushed h d.o x ch at_ bs) := by
  have tile' : h.tile d.o.gid = some x := by rw [sole_gid sole, sole_tile sole, tile]
  exact gangBecomes_of_sole sole rfl (by rw [hj]) (by rw [hj]; exact pushOut_eq_pushed tile' ch at_ bs)

theorem arrive_kept {x : Tile} (tile : g.tile gid = some x) {ch : Nat} {bs : List PByte} (hj : d.job = .arrive ch bs)
    (room : (x.fifo ch).elems.length ≤ (x.chan ch).depth) : GangBecomes .channelArrive s t (h.onTile gid (fun y =>
      y.setFifo ch { y.fifo ch with elems := (y.fifo ch).elems ++ [{ data := bs, pushed := g.lcyc }] })) := by
  refine gangBecomes_of_sole sole rfl (by rw [hj]) ?_
  rw [Gang.arriveAt, hj, sole_gid sole]
  refine Gang.onTile_at h gid x ((sole_tile sole gid).trans tile) ?_
  simp only [sole_lcyc sole]
  exact if_neg (by omega)

theorem arrive_discarded {x : Tile} (tile : g.tile gid = some x) {ch : Nat} {bs : List PByte} (hj : d.job = .arrive ch bs)
    (full : (x.chan ch).depth < (x.fifo ch).elems.length) : GangBecomes .channelArrive s t (h.onTile gid (fun y =>
      y.record 1 4 6 (if y.active.isSome ∨ y.last = (g.lcyc : Int) then y.issuedAt else y.pc) g.lcyc (BitVec.ofNat 64 ch))) := by
  refine gangBecomes_of_sole sole rfl (by rw [hj]) ?_
  rw [Gang.arriveAt, hj, sole_gid sole]
  refine Gang.onTile_at h gid x ((sole_tile sole gid).trans tile) ?_
  simp only [sole_lcyc sole]
  exact if_pos full

end Writes

/-! ### The accumulator memory (R310, R314 to R316, R337) -/

section Accumulator
variable {s : State} {t gid : Nat} {g h : Gang} {d : Due} {x : Tile} (sole : SoleDue s t gid g h d)
include sole

/-- An ACC_LINE_MOVE of an effect that is no read is that effect's move. -/
theorem accLineMove_of_sole {q : Gang} {j : Job} (hj : d.job = j)
    (kind : (∃ ag off dst due, j = .accGet ag off dst due) ∨ (∃ ag off bs, j = .accPut ag off bs) ∨ ∃ ag bank nb, j = .mzero ag bank nb)
    (hq : h.accMove d = q) : GangBecomes .accLineMove s t q := by
  obtain ⟨ag, off, dst, due, rfl⟩ | ⟨ag, off, bs, rfl⟩ | ⟨ag, bank, nb, rfl⟩ := kind
  · exact gangBecomes_of_perform sole (f := fun k => k.accMove d) rfl (by rw [hj]) (fun u => by rw [hj]) hq
  · exact gangBecomes_of_perform sole (f := fun k => k.accMove d) rfl (by rw [hj]) (fun u => by rw [hj]) hq
  · exact gangBecomes_of_perform sole (f := fun k => k.accMove d) rfl (by rw [hj]) (fun u => by rw [hj]) hq

/-- An MPERM_ROW_WRITE of an effect that is no read is that effect's row. -/
theorem mpermRowWrite_of_sole {q : Gang} {j : Job} (hj : d.job = j)
    (kind : (∃ r, j = .permGet r) ∨ ∃ ag off bs, j = .permRow ag off bs) (hq : h.permRow d = q) :
    GangBecomes .mpermRowWrite s t q := by
  obtain ⟨r, rfl⟩ | ⟨ag, off, bs, rfl⟩ := kind
  · exact gangBecomes_of_perform sole (f := fun k => k.permRow d) rfl (by rw [hj]) (fun u => by rw [hj]) hq
  · exact gangBecomes_of_perform sole (f := fun k => k.permRow d) rfl (by rw [hj]) (fun u => by rw [hj]) hq

variable (tile : g.tile gid = some x)
include tile

theorem sole_ownTile : h.tile d.o.gid = some x := by rw [sole_gid sole, sole_tile sole, tile]

theorem accPut_nowhere {ag off : Nat} {bs : List PByte} (hj : d.job = .accPut ag off bs) (free : x.group ag = []) :
    GangBecomes .accLineMove s t h := by
  refine accLineMove_of_sole sole hj (.inr (.inl ⟨ag, off, bs, rfl⟩)) ?_
  simp only [Gang.accMove, hj, sole_ownTile sole tile, if_pos free]

theorem accPut_staged {ag off : Nat} {bs : List PByte} (hj : d.job = .accPut ag off bs) (held : x.group ag ≠ []) :
    GangBecomes .accLineMove s t (h.stageAcc d.o (x.accByte ag (off : Int)) bs) := by
  refine accLineMove_of_sole sole hj (.inr (.inl ⟨ag, off, bs, rfl⟩)) ?_
  simp only [Gang.accMove, hj, sole_ownTile sole tile, if_neg held]

theorem accGet_read {ag off dst due : Nat} {bs : List PByte} (hj : d.job = .accGet ag off dst due)
    (hb : bs = x.accRead ag (off : Int) 64) :
    GangBecomes .accLineMove s t ((h.sawPoison d.o (anyPoison bs)).later d.o due (.write 6 (.scratch gid dst) bs)) := by
  refine accLineMove_of_sole sole hj (.inl ⟨ag, off, dst, due, rfl⟩) ?_
  simp only [Gang.accMove, hj, sole_gid sole, sole_tile sole, tile, hb]

theorem mzero_staged {ag bank nb n : Nat} (hj : d.job = .mzero ag bank nb) (hn : n = (x.group ag).length) :
    GangBecomes .accLineMove s t ((dedupNat ((List.range (min nb n)).map (fun i => (bank + i) % n))).foldl (fun k b =>
      k.stageAcc d.o (x.accByte ag ((2048 * b : Nat) : Int)) (pbytes 2048 0 false)) h) := by
  refine accLineMove_of_sole sole hj (.inr (.inr ⟨ag, bank, nb, rfl⟩)) ?_
  simp only [Gang.accMove, hj, sole_ownTile sole tile, hn]

theorem permRow_nowhere {ag off : Nat} {bs : List PByte} (hj : d.job = .permRow ag off bs) (free : x.group ag = []) :
    GangBecomes .mpermRowWrite s t h := by
  refine mpermRowWrite_of_sole sole hj (.inr ⟨ag, off, bs, rfl⟩) ?_
  simp only [Gang.permRow, hj, sole_ownTile sole tile, if_pos free]

theorem permRow_staged {ag off : Nat} {bs : List PByte} (hj : d.job = .permRow ag off bs) (held : x.group ag ≠ []) :
    GangBecomes .mpermRowWrite s t (((List.range (bs.length / 4)).zip (chunks 4 (bs.length / 4) bs)).foldl (fun k e =>
      k.stageAcc d.o (x.accByte ag ((off + 4 * e.1 : Nat) : Int)) e.2) h) := by
  refine mpermRowWrite_of_sole sole hj (.inr ⟨ag, off, bs, rfl⟩) ?_
  simp only [Gang.permRow, hj, sole_ownTile sole tile, if_neg held, Gang.stageRow]

theorem permGet_nothing {r : Nat} (hj : d.job = .permGet r) (none : x.factor = none) : GangBecomes .mpermRowWrite s t h := by
  refine mpermRowWrite_of_sole sole hj (.inl ⟨r, rfl⟩) ?_
  simp only [Gang.permRow, hj, sole_ownTile sole tile, none]

theorem permGet_read (own : x.gid = gid) {r : Nat} (hj : d.job = .permGet r) {f : Factor} (some : x.factor = some f)
    {bs : List PByte}
    (hb : bs = (List.range f.words).flatMap (fun j => x.accRead f.ag ((f.d1.at r 0 + 4 * j : Nat) : Int) 4)) :
    GangBecomes .mpermRowWrite s t
      ((h.onTile gid (fun y => { y with factor := Option.some (f.addRow r bs) })).sawPoison d.o (anyPoison bs)) := by
  refine mpermRowWrite_of_sole sole hj (.inl ⟨r, rfl⟩) ?_
  simp only [Gang.permRow, hj, sole_ownTile sole tile, some, hb, own]

theorem mchk_written {ag c me ne base due : Nat} (hj : d.job = .mchk ag c me ne base due) {sums : List (Nat × Nat × Bool)}
    {bytes : List PByte} (hs : sums = x.checkSums ag c me ne) (hb : bytes = sums.flatMap (fun v => pbytes 4 v.1 v.2.2)) :
    GangBecomes .mchkWrite s t
      (((List.range (chunks 64 (ceilDiv bytes.length 64) bytes).length).zip (chunks 64 (ceilDiv bytes.length 64) bytes)).foldl
        (fun k l => k.later d.o (due + l.1 / 32) (.write 7 (.scratch gid (x.map (base + 64 * l.1))) l.2))
        ((h.sawPoison d.o (anyPoison bytes)).laterFlags d.o due (sums.foldl (fun f v => f ||| v.2.1) 0))) := by
  refine gangBecomes_of_sole sole rfl (by rw [hj]) ?_
  simp only [Gang.runMchk, hj, sole_gid sole, sole_tile sole, tile, hb, hs]

theorem nestC_nowhere {q : Group} (hj : d.job = .nestC q) (free : x.group q.ag = []) : GangBecomes .nestCWrite s t h := by
  refine gangBecomes_of_sole sole rfl (by rw [hj]) ?_
  simp only [Gang.nestWrite, hj, sole_ownTile sole tile, if_pos free]

theorem nestC_summed {q : Group} (hj : d.job = .nestC q) (held : x.group q.ag ≠ []) {ws : List (Nat × Nat × Nat × Bool)}
    (hw : ws = q.words x) : GangBecomes .nestCWrite s t
      (ws.foldl (fun k w => k.stageAcc d.o w.1 (pbytes 4 w.2.1 w.2.2.2))
        ((h.sawPoison d.o (ws.any (fun w => w.2.2.2))).laterFlags d.o g.lcyc (ws.foldl (fun f w => f ||| w.2.2.1) 0))) := by
  refine gangBecomes_of_sole sole rfl (by rw [hj]) ?_
  simp only [Gang.nestWrite, hj, sole_ownTile sole tile, if_neg held, hw, sole_lcyc sole]

end Accumulator

/-! ### Channels (R273, R281) -/

section Channel
variable {g : Gang} {cfg : Cfg} {x : Tile} {ch : Nat}

theorem depart_of_empty (empty : (x.fifo ch).elems = []) : g.depart cfg x ch = g := by
  simp only [Gang.depart, empty]

/-- The head of an outgoing FIFO may leave: its channel is in use, this is a slot cycle of it, the head was pushed before this cycle,
and the beats of the last one have left. -/
def mayDepart (g : Gang) (c : Chan) (e : Elem) (departed : Option Nat) : Prop :=
  c.mode = 1 ∧ (g.lcyc % 256 + 256 - c.first % 256) % 2 ^ c.per = 0 ∧ e.pushed + 1 ≤ g.lcyc
    ∧ ∀ v, departed = some v → v + c.beats ≤ g.lcyc

theorem depart_guard (g : Gang) (c : Chan) (e : Elem) (departed : Option Nat) :
    (c.mode = 1 ∧ c.slotCycle g.lcyc = true ∧ e.pushed + 1 ≤ g.lcyc
        ∧ (match departed with
          | some d => decide (d + c.beats ≤ g.lcyc)
          | none => true) = true) ↔ mayDepart g c e departed := by
  cases departed with
  | none => simp [mayDepart, Chan.slotCycle]
  | some v => simp [mayDepart, Chan.slotCycle]

theorem depart_of_not {e : Elem} {es : List Elem} (head : (x.fifo ch).elems = e :: es)
    (stay : ¬ mayDepart g (x.chan ch) e (x.fifo ch).departed) : g.depart cfg x ch = g := by
  rw [← depart_guard] at stay
  simp only [Gang.depart, head]
  exact if_neg stay

/-- The head leaves: its beats have their routes, and the element is due at the peer, to which it is addressed until then. -/
theorem depart_of_head {e : Elem} {es : List Elem} (head : (x.fifo ch).elems = e :: es)
    (leave : mayDepart g (x.chan ch) e (x.fifo ch).departed) {c : Chan} (hc : c = x.chan ch) {gid : Nat} (own : x.gid = gid)
    {o : Origin} (ho : o = { gid := gid, slot := 6, addr := x.pc, issue := g.lcyc, buf := 0 }) {due : Nat}
    (hdue : due = g.lcyc + c.lat + c.beats - 1) {h : Gang}
    (hh : h = g.onTile gid (fun y => (y.setFifo ch { elems := es, departed := some g.lcyc }).count 9 c.beats))
    {r : Gang × List PByte} (hr : r = h.routedBeats cfg o (h.endOf gid) (h.endOf c.peer) g.lcyc
      (chunks (max 1 (c.size / c.beats)) c.beats e.data)) {d : Due}
    (hd : d = { due := due, o := { o with gid := c.peer }, job := .arrive c.pch r.2 }) :
    g.depart cfg x ch = ({ r.1 with dues := r.1.dues ++ [d] } : Gang).onTile c.peer (fun y =>
      { y with addrTo := max y.addrTo (due : Int) }) := by
  rw [← depart_guard] at leave
  have cycle : h.lcyc = g.lcyc := by rw [hh, Gang.onTile_lcyc]
  subst hd hr hdue ho hc own
  simp only [Gang.depart, head]
  refine (if_pos leave).trans ?_
  rw [← hh, cycle]

theorem routedBeats_of_kept {o : Origin} {a b cycle : Nat} (kept : cfg.strayAt g a b cycle = none) (bs : List PByte)
    (rest : List (List PByte)) : g.routedBeats cfg o a b cycle (bs :: rest)
      = ((g.routedBeats cfg o a b (cycle + 1) rest).1, bs ++ (g.routedBeats cfg o a b (cycle + 1) rest).2) := by
  simp only [Gang.routedBeats, Gang.routed, kept]

theorem routedBeats_of_stray {o : Origin} {a b cycle at_ : Nat} (stray : cfg.strayAt g a b cycle = some at_) (bs : List PByte)
    (rest : List (List PByte)) {f : Gang} (hf : f = g.faultAt o at_ 2 11 0) : g.routedBeats cfg o a b cycle (bs :: rest)
      = ((f.routedBeats cfg o a b (cycle + 1) rest).1, poisonAll bs ++ (f.routedBeats cfg o a b (cycle + 1) rest).2) := by
  simp only [Gang.routedBeats, Gang.routed, stray, hf]

theorem channelDepart_becomes {s : State} {t gid : Nat} (event : AtEvent s t gid) (gang : s.gang t = some g) :
    GangBecomes .channelDepart s t ((List.range 64).foldl (fun k i => match k.tile gid with
      | none => k
      | some y => k.depart s.cfg y i) g) := by
  refine congrArg Host.Outcome.next (onGang_evTask event gang ?_)
  exact evGid_atEvent event ▸ rfl

end Channel

end Sys2Proof.Execution
end

section
/-! SUPPORT. The statement of the accesses that perform in a cycle. -/
namespace Sys2Proof.Execution
open Machine Claims

/-- The head of an outgoing FIFO stays where its channel is not in use, the cycle is no slot cycle of it, it was pushed in this cycle
or the beats of the last one have not left. -/
theorem not_mayDepart {g : Gang} {c : Chan} {e : Elem} {departed : Option Nat}
    (stay : c.mode ≠ 1 ∨ (g.lcyc % 256 + 256 - c.first % 256) % 2 ^ c.per ≠ 0 ∨ g.lcyc ≤ e.pushed
      ∨ ∃ v, departed = some v ∧ g.lcyc < v + c.beats) : ¬ mayDepart g c e departed := by
  rintro ⟨used, slot, after, free⟩
  obtain unused | off | same | ⟨v, hv, busy⟩ := stay
  · exact unused used
  · exact off slot
  · omega
  · exact absurd (free v hv) (Nat.not_le.mpr busy)

/-- Settles O54: each kind of access by the lemma of its event, reads through what they show and what their bytes go to. -/
theorem accessesPerform : Obligations.AccessesPerform := by
  refine ⟨?_, ?_, ?_⟩
  · intro s u t gid g h d x sole tile _
    refine ⟨?_, fun w hw p bs hj => write_staged sole hw hj, fun p bs hj => write_dropped sole hj, fun off bs hj => ⟨?_, ?_⟩,
      fun off p q dr sty m sat n hj hn => sacc_staged sole hj hn, fun op l w b c p code due hj => atom_staged sole hj,
      fun v rest c due hj => ⟨barrier_staged sole rfl hj, barrier_staged sole rfl hj, barrier_staged sole rfl hj⟩,
      fun ch at_ bs hj => push_performed sole tile hj,
      fun ch bs hj => ⟨arrive_kept sole tile hj, arrive_discarded sole tile hj⟩⟩
    · rintro p src n bs hbs rfl hsrc
      refine ⟨fun code m sz due hj => read_toReg sole hbs hsrc hj, fun dst due a b hj => read_toBeat sole hbs hsrc hj,
        fun ch base due sofar rest hj => ⟨?_, ?_⟩,
        fun hd seg beat node i off place hj => read_toPost sole hbs hsrc place hj,
        fun ag off due hj => read_toAcc sole hbs hsrc hj, fun r hj => read_toRow sole hbs hsrc hj⟩
      · rintro rfl
        exact read_toPush_last sole hbs hsrc hj
      · rintro l ls rfl
        exact read_toPush_more sole hbs hsrc hj
    · exact ctrsnap_written sole hj
    · rintro rfl
      exact ctrsnap_dropped sole hj
  · intro s t gid g h d x sole tile own
    exact ⟨fun ag off bs hj => ⟨accPut_nowhere sole tile hj, accPut_staged sole tile hj⟩,
      fun ag off dst due bs hj hb => accGet_read sole tile hj hb,
      fun ag bank nb n hj hn => mzero_staged sole tile hj hn,
      fun ag off bs hj => ⟨permRow_nowhere sole tile hj, permRow_staged sole tile hj⟩,
      fun r hj => ⟨permGet_nothing sole tile hj, fun f bs hf hb => permGet_read sole tile own hj hf hb⟩,
      fun ag c me ne base due sums bytes hj hs hb => mchk_written sole tile hj hs hb,
      fun q ws hj hw => ⟨nestC_nowhere sole tile hj, fun held => nestC_summed sole tile hj held hw⟩⟩
  · rintro s t gid ch g x c event gang _ own rfl
    refine ⟨channelDepart_becomes event gang, ?_, fun e es head stay => depart_of_not head (not_mayDepart stay), depart_of_empty, ?_⟩
    · intro e es o due h head used slot after free ho hdue hh r d hr hd
      exact depart_of_head head ⟨used, slot, after, free⟩ rfl own ho hdue hh hr hd
    · intro o a b cyc bs rest
      refine ⟨rfl, fun kept => ?_, fun at_ f stray hf => ?_⟩
      · rw [routedBeats_of_kept kept]
        exact ⟨rfl, rfl⟩
      · rw [routedBeats_of_stray stray bs rest hf]
        exact ⟨rfl, rfl⟩

end Sys2Proof.Execution
end

section
/-! SUPPORT. What an issue leaves alone: the registers and the bytes of every tile and the logical time of the gang, one lemma per
operation of an issue cycle (07 R144, 09 R191, 15 R270, R271). -/
namespace Sys2Proof.Execution
open Machine Claims

/-! ### The part of a gang that results change -/

/-- What a tile keeps while an instruction issues on it (the fields of `Keeps`). -/
def keptPart (x : Tile) :=
  (x.s, x.p, x.m, x.v, x.rings, x.scratch, x.scratchPoison, x.acc, x.accPoison, x.fmtr, x.xp, x.kbind, x.vct, x.perm, x.groups,
    x.nestShadow)

theorem kept_eq_iff (x y : Tile) : keptPart y = keptPart x ↔ Keeps x y := by
  simp only [keptPart, Keeps, Prod.mk.injEq]

/-- The logical time of a gang and what its tiles keep. -/
def frame (g : Gang) := (g.lcyc, fun j => (g.tile j).map keptPart)

theorem frame_lcyc {g h : Gang} (e : frame h = frame g) : h.lcyc = g.lcyc := congrArg Prod.fst e

theorem frame_tile {g h : Gang} (e : frame h = frame g) {j : Nat} {y : Tile} (hy : h.tile j = some y) :
    ∃ z, g.tile j = some z ∧ Keeps z y := by
  have at_ : (h.tile j).map keptPart = (g.tile j).map keptPart := congrFun (congrArg Prod.snd e) j
  rw [hy] at at_
  obtain ⟨z, hz, same⟩ := Option.map_eq_some_iff.mp at_.symm
  exact ⟨z, hz, (kept_eq_iff z y).mp same.symm⟩

/-- What a tile keeps stands in a frame, if anything stands there. -/
def StandsFor {α : Type} (F : Nat × (Nat → Option α)) (i : Nat) (k : α) : Prop := ∀ z, F.2 i = some z → z = k

theorem frame_at {g : Gang} {i : Nat} {x : Tile} (hx : g.tile i = some x) : (frame g).2 i = some (keptPart x) :=
  congrArg (Option.map keptPart) hx

theorem standsFor_tile {g : Gang} {i : Nat} {x : Tile} (hx : g.tile i = some x) : StandsFor (frame g) i (keptPart x) :=
  fun _ hz => Option.some.inj (hz.symm.trans (frame_at hx))

/-- A change of a tile that keeps what it must leaves the frame alone. -/
theorem frame_onTile (g : Gang) (i : Nat) (f : Tile → Tile) (hf : ∀ y, keptPart (f y) = keptPart y) :
    frame (g.onTile i f) = frame g := by
  refine Prod.ext (Gang.onTile_lcyc ..) (funext fun j => ?_)
  show ((g.onTile i f).tile j).map keptPart = (g.tile j).map keptPart
  rw [Gang.tile_onTile]
  split
  · subst j
    cases g.tile i with
    | none => rfl
    | some y => exact congrArg some (hf y)
  · rfl

/-- So does a tile put in the place of one that keeps the same. -/
@[simp] theorem frame_put (g : Gang) (i : Nat) (y : Tile) (hy : StandsFor (frame g) i (keptPart y)) :
    frame (g.onTile i (fun _ => y)) = frame g := by
  refine Prod.ext (Gang.onTile_lcyc ..) (funext fun j => ?_)
  show ((g.onTile i (fun _ => y)).tile j).map keptPart = (g.tile j).map keptPart
  rw [Gang.tile_onTile]
  split
  · subst j
    cases hz : g.tile i with
    | none => rfl
    | some z => exact congrArg some (hy (keptPart z) (frame_at hz)).symm
  · rfl

@[simp] theorem frame_foldl {α : Type} (f : Gang → α → Gang) (hf : ∀ g a, frame (f g a) = frame g) (l : List α) (g : Gang) :
    frame (l.foldl f g) = frame g := foldl_keeps frame f hf l g

@[simp] theorem frame_ite (c : Prop) [Decidable c] (g h : Gang) : frame (if c then g else h) = if c then frame g else frame h :=
  apply_ite frame c g h

@[simp] theorem kept_ite (c : Prop) [Decidable c] (x y : Tile) :
    keptPart (if c then x else y) = if c then keptPart x else keptPart y :=
  apply_ite keptPart c x y

/-! ### Tiles: counters, faults, regions, reads -/

@[simp] theorem kept_count (x : Tile) (e n : Nat) : keptPart (x.count e n) = keptPart x := rfl

@[simp] theorem kept_record (x : Tile) (cls detail slot addr cycle : Nat) (info : Word) :
    keptPart (x.record cls detail slot addr cycle info) = keptPart x := by
  unfold Tile.record
  split
  · rfl
  · split
    · rfl
    · split <;> rfl

@[simp] theorem kept_onRegion (x : Tile) (d : Nat) (f : Region → Region) : keptPart (x.onRegion d f) = keptPart x := rfl

@[simp] theorem kept_failRegion (x : Tile) (d p : Nat) : keptPart (x.failRegion d p) = keptPart x := rfl

@[simp] theorem kept_sawPoison (x : Tile) : keptPart x.sawPoison = keptPart x := by
  unfold Tile.sawPoison
  split <;> rfl

@[simp] theorem kept_setFifo (x : Tile) (ch : Nat) (f : Fifo) : keptPart (x.setFifo ch f) = keptPart x := rfl

@[simp] theorem kept_popRegion (x : Tile) : keptPart x.popRegion = keptPart x := by
  unfold Tile.popRegion
  dsimp only
  split <;> rfl

@[simp] theorem kept_readK (x : Tile) (k c slot addr : Nat) : keptPart (x.readK k c slot addr).1 = keptPart x := by
  unfold Tile.readK
  dsimp only
  split
  · rfl
  · split
    · rfl
    · split
      · split
        · rfl
        · exact kept_record ..
      · exact kept_record ..

@[simp] theorem kept_readCode (x : Tile) (code c slot addr : Nat) : keptPart (x.readCode code c slot addr).1 = keptPart x := by
  unfold Tile.readCode
  split
  · rfl
  · exact kept_readK ..

@[simp] theorem kept_readCodes (c slot addr : Nat) (codes : List Nat) :
    ∀ x : Tile, keptPart (x.readCodes c slot addr codes).x = keptPart x := by
  induction codes with
  | nil => intro x; rfl
  | cons r rs ih => intro x; simp [Tile.readCodes, ih]

@[simp] theorem kept_readOperand (x : Tile) (c : Nat) (o : Origin) (v : VOp) (k : Nat) (d : Opd) (w n : Nat) :
    keptPart (x.readOperand c o v k d w n).1 = keptPart x := by
  unfold Tile.readOperand
  split
  · rfl
  · exact kept_readCode ..
  · rfl

@[simp] theorem kept_readSources (c : Nat) (o : Origin) (v : VOp) (k n : Nat) (ss : List Source) :
    ∀ x : Tile, keptPart (x.readSources c o v k n ss).1 = keptPart x := by
  induction ss with
  | nil => intro x; rfl
  | cons s ss ih => intro x; simp [Tile.readSources, ih]

@[simp] theorem kept_useGroup (x : Tile) (ag c : Nat) : keptPart (x.useGroup ag c) = keptPart x := rfl

@[simp] theorem kept_onArms (x : Tile) (pick : Arm → Bool) (f : Arm → Arm) : keptPart (x.onArms pick f) = keptPart x := rfl

@[simp] theorem kept_markArmed (x : Tile) (h : Nat) : keptPart (x.markArmed h) = keptPart x := rfl

@[simp] theorem kept_undefined (x : Tile) (slot syl addr c : Nat) (e : DecodeReject) :
    keptPart (x.undefined slot syl addr c e) = keptPart x := kept_record ..

/-! ### Gangs: effects put off, faults, poison -/

section Gangs
variable (g : Gang) (o : Origin)

@[simp] theorem frame_later (due : Nat) (j : Job) : frame (g.later o due j) = frame g :=
  frame_onTile _ _ _ (fun _ => rfl)

@[simp] theorem frame_busy (due : Nat) : frame (g.busy o due) = frame g := frame_onTile _ _ _ (fun _ => rfl)

@[simp] theorem frame_addresses (target due : Nat) : frame (g.addresses o target due) = frame g := by
  unfold Gang.addresses
  split
  · rfl
  · exact frame_onTile _ _ _ (fun _ => rfl)

@[simp] theorem frame_record (cls detail cycle : Nat) (info : Word) : frame (g.record o cls detail cycle info) = frame g :=
  frame_onTile _ _ _ (fun _ => kept_record ..)

@[simp] theorem frame_killMark (i p : Nat) (v : Word) : frame (g.killMark i p v) = frame g := by
  unfold Gang.killMark
  split <;> rfl

@[simp] theorem frame_consume (point cycle : Nat) (info : Word) : frame (g.consume o point cycle info) = frame g := by
  unfold Gang.consume
  split
  · rfl
  · split
    · exact frame_onTile _ _ _ (fun _ => rfl)
    · split
      · exact frame_record ..
      · exact frame_killMark ..

@[simp] theorem frame_sawPoison (p : Bool) : frame (g.sawPoison o p) = frame g := by
  unfold Gang.sawPoison
  split
  · exact frame_onTile _ _ _ kept_sawPoison
  · rfl

@[simp] theorem frame_laterReg (due code : Nat) (v : Word) (p : Bool) : frame (g.laterReg o due code v p) = frame g :=
  frame_later ..

@[simp] theorem frame_laterPred (now due n : Nat) (v p : Bool) : frame (g.laterPred o now due n v p) = frame g := by
  simp [Gang.laterPred]

@[simp] theorem frame_laterFlags (due f : Nat) : frame (g.laterFlags o due f) = frame g := by
  simp [Gang.laterFlags]

@[simp] theorem frame_laterDst (due : Nat) (d : Dst) (v : Word) (p : Bool) : frame (g.laterDst o due d v p) = frame g := by
  cases d with
  | reg r => exact frame_laterReg ..
  | pred n => exact frame_laterPred ..

@[simp] theorem frame_laterEntry (due entry : Nat) (e : EntryWrite) : frame (g.laterEntry o due entry e) = frame g := by
  simp [Gang.laterEntry]

@[simp] theorem frame_announce (cause gid buf : Nat) : frame (g.announce cause gid buf) = frame g := rfl

@[simp] theorem frame_cFault (cls detail : Nat) (info : Word) : frame (g.cFault o cls detail info) = frame g := frame_record ..

@[simp] theorem frame_onActive (f : Active → Active) : frame (g.onActive o f) = frame g := by
  refine frame_onTile _ _ _ (fun y => ?_)
  split <;> rfl

@[simp] theorem frame_inFlight (end_ : Nat) : frame (g.inFlight o end_) = frame g :=
  (frame_busy ..).trans (frame_onTile _ _ _ (fun _ => rfl))

@[simp] theorem frame_flit (port : Option Nat) : frame (g.flit o port) = frame g := by
  unfold Gang.flit
  split
  · exact frame_onTile _ _ _ (fun _ => rfl)
  · rfl

@[simp] theorem frame_charge (rd wr : Nat) : frame (g.charge o rd wr) = frame g := by
  simp [Gang.charge]

@[simp] theorem frame_refetch (r : Xlat) : frame (g.refetch o r) = frame g := by
  simp [Gang.refetch]

@[simp] theorem frame_reaches (p : Place) (due : Nat) : frame (g.reaches o p due) = frame g := by
  cases p with
  | scratch i off => exact frame_addresses ..
  | dev l => rfl
  | denied => rfl
  | unresolved => rfl

@[simp] theorem frame_laterDrop (due off : Nat) : frame (g.laterDrop o due off) = frame g := frame_later ..

end Gangs

/-! ### The C slot -/

section Issue
variable {g : Gang} {x : Tile} {o : Origin}

@[simp] theorem frame_branch (target : Int) (inLoop : Bool) : frame (g.branch x o target inLoop) = frame g := by
  simp [Gang.branch]

theorem frame_sync (a : Active) (whole : Bool) : frame (g.sync x a o whole) = frame g := by
  unfold Gang.sync
  split
  · exact frame_cFault ..
  · split
    · rfl
    · simp [frame_onTile, kept_eq_iff, Keeps]

@[simp] theorem frame_loop (count endw lb : Nat) : frame (g.loop x o count endw lb) = frame g := by
  simp [Gang.loop]

theorem frame_segchk (seg : Nat) : frame (g.segchk x o seg) = frame g := by
  unfold Gang.segchk
  dsimp only
  split
  · exact frame_cFault ..
  · simp

theorem frame_openRegion (a : Active) (d : Nat) : frame (g.openRegion x a o d) = frame g := by
  unfold Gang.openRegion
  split
  · exact frame_cFault ..
  · split
    · exact frame_cFault ..
    · exact frame_onTile _ _ _ (fun _ => rfl)

theorem frame_closeRegion (a : Active) : frame (g.closeRegion x a o) = frame g := by
  unfold Gang.closeRegion
  split
  · exact frame_cFault ..
  · dsimp only
    split
    · exact frame_onTile _ _ _ (fun _ => rfl)
    · split
      · rfl
      · exact frame_onTile _ _ _ kept_popRegion

theorem frame_br (pg pn d : Nat) : frame (g.br x o pg pn d) = frame g := by
  simp [Gang.br, frame_onTile, kept_eq_iff, Keeps]

theorem frame_call (a : Active) (rd d : Nat) : frame (g.call x a o rd d) = frame g := by
  simp [Gang.call]

theorem frame_sysrd (d r : Nat) : frame (g.sysrd x o d r) = frame g := by
  simp [Gang.sysrd]

section Reads
variable (hx : StandsFor (frame g) o.gid (keptPart x))
include hx

theorem frame_loops (ra endw lb : Nat) : frame (g.loops x o ra endw lb) = frame g := by
  simp [Gang.loops, hx]

theorem frame_ret (ra : Nat) : frame (g.ret x o ra) = frame g := by
  simp [Gang.ret, hx]

theorem frame_resync (a : Active) (ra : Nat) : frame (g.resync x a o ra) = frame g := by
  simp [Gang.resync, hx]

theorem frame_syswr (ra r : Nat) : frame (g.syswr x o ra r) = frame g := by
  simp [Gang.syswr, hx]

/-! ### The S slot -/

theorem frame_scalar (guard : Option (Nat × Nat)) (srcs : List Nat) (d : Dst) (lat : Nat) (f : Inputs → Word × Nat) :
    frame (g.scalar x o guard srcs d lat f) = frame g := by
  simp [Gang.scalar, hx]

theorem frame_ldsTile (d a z off : Nat) : frame (g.ldsTile x o d a z off) = frame g := by
  simp [Gang.ldsTile, hx]

theorem frame_stsTile (d a z off : Nat) : frame (g.stsTile x o d a z off) = frame g := by
  simp [Gang.stsTile, hx]

/-! ### The V slots -/

theorem frame_vmap (v : VOp) (k lat : Nat) (srcs : List Source) (dst : ElemType) (f : Nat → List Nat → Rounded) :
    frame (g.vmap x o v k lat srcs dst f) = frame g := by
  simp [Gang.vmap, hx]

theorem frame_vcmp (v : VOp) (k : Nat) : frame (g.vcmp x o v k) = frame g := by
  simp [Gang.vcmp, hx]

theorem frame_vsel (v : VOp) (k : Nat) : frame (g.vsel x o v k) = frame g := by
  simp [Gang.vsel, hx]

theorem frame_vqmx (v : VOp) (k : Nat) : frame (g.vqmx x o v k) = frame g := by
  simp [Gang.vqmx, hx]

theorem frame_vscl (v : VOp) (k : Nat) : frame (g.vscl x o v k) = frame g := by
  simp [Gang.vscl, hx, apply_ite]

end Reads

theorem frame_vdqmx (v : VOp) (k : Nat) : frame (g.vdqmx x o v k) = frame g := by
  simp [Gang.vdqmx]

theorem frame_single (v : VOp) (k lat : Nat) (r : Rounded) (p : Bool) : frame (g.single x o v k lat r p) = frame g := by
  simp [Gang.single]

theorem frame_vtopk (v : VOp) (k : Nat) : frame (g.vtopk x o v k) = frame g := by
  simp [Gang.vtopk]

theorem frame_moveElems (v : VOp) (k : Nat) (rs : List (Option LaneOut)) : frame (g.moveElems x o v k rs) = frame g := by
  simp [Gang.moveElems]

/-! ### The frame of a vector operation -/

/-- An operation of a slot that keeps what stands, once its guard and its fill have been checked. -/
theorem frame_vectorWith (hx : StandsFor (frame g) o.gid (keptPart x)) (v : VOp) {slip : Gang → Gang}
    {run : Gang → Tile → Bool → Gang}
    (hs : ∀ h, frame (slip h) = frame h)
    (hr : ∀ h y ok, StandsFor (frame h) o.gid (keptPart y) → frame (run h y ok) = frame h) :
    frame (g.vectorWith x o v slip run) = frame g := by
  unfold Gang.vectorWith
  dsimp only
  split
  · simp [hx]
  · generalize hy : (if o.slot = 2 then _ else x.count 5 1 : Tile) = y
    have same : keptPart y = keptPart x := by
      rw [← hy]
      split <;> rfl
    split
    · simp [hs, same, hx]
    · rw [hr _ _ _ (by simp [same, hx])]
      simp [same, hx]

theorem frame_vector (hx : StandsFor (frame g) o.gid (keptPart x)) (v : VOp) {run : Gang → Tile → Gang}
    (hr : ∀ h y, StandsFor (frame h) o.gid (keptPart y) → frame (run h y) = frame h) : frame (g.vector x o v run) = frame g := by
  refine frame_vectorWith hx v (fun _ => rfl) (fun h y ok hy => ?_)
  cases ok with
  | false => rfl
  | true => exact hr h y hy

/-! ### Vector memory -/

theorem frame_direct (write : Bool) (offs : List Nat) {run : Gang → Gang} (hr : ∀ h, frame (run h) = frame h) :
    frame (g.direct o write offs run) = frame g := by
  unfold Gang.direct
  split
  · rfl
  · dsimp only
    split
    · exact frame_laterDrop ..
    · exact (hr _).trans (frame_onTile _ _ _ (fun _ => rfl))

@[simp] theorem frame_loadPieces (entry : Nat) (reads : List Nat) (pieces : List (Nat × Nat)) (en due : Nat) :
    frame (g.loadPieces o entry reads pieces en due) = frame g := by
  simp [Gang.loadPieces]

@[simp] theorem frame_dropFirst (due : Nat) (addrs : List Nat) (served : List Bool) :
    frame (g.dropFirst x o due addrs served) = frame g := by
  unfold Gang.dropFirst
  split
  · exact frame_laterDrop ..
  · rfl

@[simp] theorem frame_gatherLoad (v : VOp) (k w : Nat) (addrs : List Nat) (ens : List Bool) :
    frame (g.gatherLoad x o v k w addrs ens) = frame g := by
  simp [Gang.gatherLoad]

@[simp] theorem frame_gatherStore (w : Nat) (addrs : List Nat) (ens : List Bool) (lanes : List Lane) :
    frame (g.gatherStore x o w addrs ens lanes) = frame g := by
  simp [Gang.gatherStore]

@[simp] theorem frame_indexPoison (idx : List Lane) (addrs : List Nat) (ens : List Bool) :
    frame (g.indexPoison o idx addrs ens) = frame g := by
  unfold Gang.indexPoison
  split
  · simp
  · rfl

section Memory
variable (hx : StandsFor (frame g) o.gid (keptPart x))
include hx

@[simp] theorem frame_vmemRead (v : VOp) (k : Nat) : frame (g.vmemRead x o v k).1 = frame g := by
  simp [Gang.vmemRead, hx]

theorem frame_vld (v : VOp) (k : Nat) : frame (g.vld x o v k) = frame g := by
  unfold Gang.vld
  dsimp only
  split
  · exact (frame_direct _ _ (fun _ => frame_loadPieces ..)).trans (frame_vmemRead hx v k)
  · exact (frame_direct _ _ (fun _ => frame_loadPieces ..)).trans (frame_vmemRead hx v k)

theorem frame_vldb (v : VOp) (k : Nat) : frame (g.vldb x o v k) = frame g := by
  unfold Gang.vldb
  dsimp only
  exact (frame_direct _ _ (fun _ => frame_loadPieces ..)).trans (frame_vmemRead hx v k)

theorem frame_vst (v : VOp) (k : Nat) : frame (g.vst x o v k) = frame g := by
  unfold Gang.vst
  dsimp only
  exact (frame_direct _ _ (fun _ => frame_later ..)).trans ((frame_sawPoison ..).trans (frame_vmemRead hx v k))

theorem frame_gatherPort (ok : Bool) {run : Gang → Tile → Gang}
    (hr : ∀ h y, StandsFor (frame h) o.gid (keptPart y) → frame (run h y) = frame h) :
    frame (g.gatherPort x o ok run) = frame g := by
  have taken : frame ((g.onTile o.gid (fun _ => { x with gatherPort := some (g.lcyc + 6) })).busy o (g.lcyc + 6)) = frame g :=
    (frame_busy ..).trans (frame_put _ _ _ hx)
  unfold Gang.gatherPort
  split
  · exact frame_record ..
  · dsimp only
    split
    · exact (hr _ _ (taken ▸ hx)).trans taken
    · exact taken

end Memory

/-! ### The X slot -/

theorem frame_cross (hd hs k : Nat) (routes : List (Nat × Nat)) : frame (g.cross x o hd hs k routes) = frame g := by
  simp [Gang.cross]

theorem frame_xpat (hs n k : Nat) : frame (g.xpat x o hs n k) = frame g := by
  simp [Gang.xpat]

/-! ### The M slot -/

section Matrix
variable (hx : StandsFor (frame g) o.gid (keptPart x))
include hx

@[simp] theorem frame_dRead (point : Nat) (codes : List Nat) (at_ : List Word → Nat) :
    frame (g.dRead x o point codes at_).1 = frame g := by
  simp [Gang.dRead, hx]

/-- The tile that a read of registers gives keeps what the one that it read from keeps. -/
@[simp] theorem kept_dRead (point : Nat) (codes : List Nat) (at_ : List Word → Nat) :
    keptPart (g.dRead x o point codes at_).2.1 = keptPart x := by
  show keptPart (((g.dRead x o point codes at_).1.tile o.gid).getD (x.readCodes g.lcyc o.slot o.addr codes).x) = keptPart x
  cases hz : (g.dRead x o point codes at_).1.tile o.gid with
  | none => exact kept_readCodes ..
  | some z => exact hx (keptPart z) (frame_dRead hx point codes at_ ▸ frame_at hz)

/-- Registers read, taken apart: the gang and the tile keep what they kept. -/
theorem dRead_keeps {point : Nat} {codes : List Nat} {at_ : List Word → Nat} {h : Gang} {y : Tile} {r : List Word × Bool}
    (hr : g.dRead x o point codes at_ = (h, y, r)) : frame h = frame g ∧ keptPart y = keptPart x := by
  have hg := frame_dRead hx point codes at_
  have ht := kept_dRead hx point codes at_
  rw [hr] at hg ht
  exact ⟨hg, ht⟩

omit hx in
theorem frame_shadow {w : Gang → Gang × Option ShadowWrite} (hw : frame (w g).1 = frame g) : frame (g.shadow x o w) = frame g := by
  unfold Gang.shadow
  split
  · exact frame_record ..
  · generalize hr : w g = r at hw
    obtain ⟨h, j⟩ := r
    cases j with
    | none => exact hw
    | some j => exact (frame_later ..).trans hw

theorem frame_mcfg (n a : Nat) : frame (g.mcfg x o n a) = frame g := by
  unfold Gang.mcfg
  split
  · simp [hx]
  · exact frame_shadow (by simp [hx])

theorem frame_mnest (lv rc rs : Nat) : frame (g.mnest x o lv rc rs) = frame g := by
  refine frame_shadow ?_
  dsimp only
  split <;> simp [hx]

theorem frame_mmul (a b c ag : Nat) (ring : Option Nat) : frame (g.mmul x o a b c ag ring) = frame g := by
  unfold Gang.mmul
  split
  · exact frame_record ..
  · refine frame_shadow ?_
    simp [hx]

omit hx in
@[simp] theorem frame_takePath (ag c : Nat) : frame (g.takePath o ag c) = frame g :=
  (frame_busy ..).trans (frame_onTile _ _ _ (fun _ => rfl))

theorem frame_moveAcc (load : Bool) (a l ag bank : Nat) : frame (g.moveAcc x o load a l ag bank) = frame g := by
  unfold Gang.moveAcc
  split
  · exact frame_record ..
  · split
    · exact frame_record ..
    · simp [hx]

theorem frame_mchk (a c ag : Nat) : frame (g.mchk x o a c ag) = frame g := by
  simp [Gang.mchk, hx]

omit hx in
@[simp] theorem frame_startFactor (f : Factor) : frame (g.startFactor o f) = frame g := by
  refine (frame_busy ..).trans (frame_onTile _ _ _ (fun y => ?_))
  dsimp only
  split <;> rfl

theorem frame_factorise (kind ag rt : Nat) : frame (g.factorise x o kind ag rt) = frame g := by
  unfold Gang.factorise
  split
  · exact frame_record ..
  · dsimp only
    split <;> simp [hx]

theorem frame_mtrs (ag rt rx : Nat) (up tr unit : Bool) : frame (g.mtrs x o ag rt rx up tr unit) = frame g := by
  unfold Gang.mtrs
  split
  · exact frame_record ..
  · dsimp only
    split <;> simp [hx]

theorem frame_mperm (scratch : Bool) (ag rx inv w : Nat) : frame (g.mperm x o scratch ag rx inv w) = frame g := by
  unfold Gang.mperm
  split
  · exact frame_record ..
  · dsimp only
    split <;> simp [hx]

end Matrix

theorem frame_aballoc (ag count : Nat) : frame (g.aballoc x o ag count) = frame g := by
  simp [Gang.aballoc]

theorem frame_abfree (ag : Nat) : frame (g.abfree x o ag) = frame g := by
  simp [Gang.abfree]

theorem frame_mzero (ag bank nb : Nat) : frame (g.mzero x o ag bank nb) = frame g := by
  simp [Gang.mzero]

theorem frame_mgo : frame (g.mgo x o) = frame g := by
  unfold Gang.mgo
  dsimp only
  split
  · exact frame_record ..
  · split
    · exact frame_record ..
    · split
      · exact (frame_busy ..).trans ((frame_later ..).trans (frame_onTile _ _ _ (fun _ => rfl)))
      · exact (frame_busy ..).trans (frame_onTile _ _ _ (fun _ => rfl))

/-! ### The D slot -/

@[simp] theorem frame_sendBeat (own : Nat) (b : Beat) : frame (g.sendBeat o own b) = frame g := by
  simp [Gang.sendBeat]

@[simp] theorem frame_xferRecord (c : Cfg) (va nb arv w wl : Nat) (dst : Option Nat) :
    frame (g.xferRecord c x o va nb arv w wl dst) = frame g := by
  unfold Gang.xferRecord
  dsimp only
  split
  · split <;> simp
  · simp
  · simp

@[simp] theorem frame_recvBeats (ls : List Nat) : ∀ (g : Gang) (j : Nat) (bs : List (List PByte)),
    frame (g.recvBeats o j ls bs) = frame g := by
  induction ls with
  | nil => intro g j bs; rfl
  | cons l ls ih =>
    intro g j bs
    cases bs with
    | nil => rfl
    | cons b bs => exact (ih _ _ _).trans (frame_later ..)

theorem frame_snap (d dom : Nat) : frame (g.snap o d dom) = frame g := by
  unfold Gang.snap
  split
  · exact frame_record ..
  · exact frame_inFlight ..

theorem frame_genq (c : Cfg) (d dom : Nat) : frame (g.genq c x o d dom) = frame g := frame_inFlight ..

section Transfers
variable (hx : StandsFor (frame g) o.gid (keptPart x))
include hx

theorem frame_xfer (c : Cfg) (rd rs dsp ssp nb : Nat) (rb : Option (Nat × Nat)) :
    frame (g.xfer c x o rd rs dsp ssp nb rb) = frame g := by
  unfold Gang.xfer
  split
  next h y vs p hr =>
  obtain ⟨hh, hy⟩ := dRead_keeps hx hr
  extract_lets d s own bs sent faulted consumed charged w
  have hsent : frame sent = frame h := frame_foldl _ (fun _ _ => frame_sendBeat ..) ..
  have hfaulted : frame faulted = frame sent := by
    dsimp only [faulted]
    split
    · exact frame_later ..
    · rfl
  have hconsumed : frame consumed = frame faulted := by
    dsimp only [consumed]
    split
    · exact frame_consume ..
    · rfl
  have hcharged : frame charged = frame g := by
    rw [frame_charge, hconsumed, hfaulted, hsent, hh]
  split
  · exact (frame_xferRecord ..).trans ((frame_busy ..).trans hcharged)
  · exact (frame_inFlight ..).trans hcharged

theorem frame_rld (c : Cfg) (d a sp z off : Nat) : frame (g.rld c x o d a sp z off) = frame g := by
  simp [Gang.rld, hx]

theorem frame_rst (c : Cfg) (d a sp z off : Nat) : frame (g.rst c x o d a sp z off) = frame g := by
  simp [Gang.rst, hx, kept_dRead hx]

theorem frame_chsend (k a ch astep : Nat) : frame (g.chsend x o k a ch astep) = frame g := by
  unfold Gang.chsend
  dsimp only
  split
  · exact frame_record ..
  · split <;> simp [hx]

theorem frame_chrecv (k a ch astep : Nat) : frame (g.chrecv x o k a ch astep) = frame g := by
  unfold Gang.chrecv
  dsimp only
  split
  · exact frame_record ..
  · split
    · simp [hx]
    · rw [frame_charge, frame_inFlight, frame_recvBeats]
      refine (frame_onTile _ _ _ (fun _ => ?_)).trans (frame_dRead hx ..)
      rfl

theorem frame_sacc (k a hi hv it ioff voff istep vstep : Nat) :
    frame (g.sacc x o k a hi hv it ioff voff istep vstep) = frame g := by
  unfold Gang.sacc
  dsimp only
  split
  · exact frame_onTile _ _ _ (fun _ => kept_undefined ..)
  · split
    · exact frame_record ..
    · rw [frame_inFlight, frame_charge]
      refine (frame_onTile _ _ _ (fun _ => ?_)).trans ?_
      · rfl
      · split <;> simp [hx]

theorem frame_shist (k a hi it ioff istep : Nat) : frame (g.shist x o k a hi it ioff istep) = frame g := by
  simp [Gang.shist, hx]

theorem frame_ctrsnap (a : Nat) : frame (g.ctrsnap x o a) = frame g := by
  simp [Gang.ctrsnap, hx, frame_onTile, kept_eq_iff, Keeps]

theorem frame_atomOp (c : Cfg) (op d a b : Nat) (cas : Option Nat) (w : Nat) :
    frame (g.atomOp c x o op d a b cas w) = frame g := by
  unfold Gang.atomOp
  dsimp only
  split <;> simp [hx, kept_dRead hx]

theorem frame_tarm (r : Option Tree) (h rs aix : Nat) : frame (g.tarm x o r h rs aix) = frame g := by
  unfold Gang.tarm
  dsimp only
  split
  · split
    · simp [hx]
    · refine (frame_onTile _ _ _ (fun _ => ?_)).trans (frame_dRead hx ..)
      rfl
  · simp [hx]

theorem frame_tpost (k : Nat) (r : Option Tree) (h rs ra step : Nat) : frame (g.tpost x o k r h rs ra step) = frame g := by
  unfold Gang.tpost
  dsimp only
  split
  · simp [hx]
  · split
    · simp [hx]
    · split
      · simp [hx]
      · rw [frame_inFlight, frame_charge, frame_foldl _ (fun _ _ => frame_foldl _ (fun _ _ => frame_later ..) ..)]
        refine (frame_onTile _ _ _ (fun _ => ?_)).trans (frame_dRead hx ..)
        rfl

theorem frame_trecv (c : Cfg) (k : Nat) (r : Option Tree) (h rs ra step : Nat) :
    frame (g.trecv c x o k r h rs ra step) = frame g := by
  unfold Gang.trecv
  dsimp only
  split
  · simp [hx]
  · split
    · simp [hx]
    · split
      · simp [hx]
      · rw [frame_charge, frame_busy]
        refine (frame_onTile _ _ _ (fun _ => ?_)).trans (frame_dRead hx ..)
        rfl

end Transfers

end Issue

/-! ### The part of the state that an issue leaves alone -/

/-- The memories, the cores, Pewter of every package, the other tasks, and the frame of a task's gang. -/
def results (s : State) (t : Nat) :=
  (s.dev, s.devPoison, s.sys, s.sysPoison, s.cores, fun q => (s.pkg q).pewter, fun v => if v = t then none else s.task v,
    (s.gang t).map frame)

theorem results_onGang {s : State} {t : Nat} {f : Gang → Gang} (hf : ∀ g, s.gang t = some g → frame (f g) = frame g) :
    results (s.onGang t f) t = results s t := by
  have others : (fun v => if v = t then none else (s.onGang t f).task v) = fun v => if v = t then none else s.task v := by
    funext v
    split
    · rfl
    · next h => exact State.task_onGang_other s t v f h
  have own : ((s.onGang t f).gang t).map frame = (s.gang t).map frame := by
    rw [State.gang_onGang, if_pos rfl]
    cases hg : s.gang t with
    | none => rfl
    | some g => exact congrArg some (hf g hg)
  simp only [results, State.onGang_dev, State.onGang_devPoison, State.onGang_sys, State.onGang_sysPoison, State.onGang_cores,
    State.pkg, State.onGang_pkgs, others, own]

theorem results_onTile (s : State) (t i : Nat) {f : Tile → Tile} (hf : ∀ y, keptPart (f y) = keptPart y) :
    results (s.onTile t i f) t = results s t := results_onGang (fun g _ => frame_onTile g i f hf)

/-- A change of a package that keeps its Pewter. -/
theorem results_setPkg (s : State) (t p : Nat) {w : Pkg} (hw : w.pewter = (s.pkg p).pewter) :
    results (s.setPkg p w) t = results s t := by
  have pewters : (fun q => ((s.setPkg p w).pkg q).pewter) = fun q => (s.pkg q).pewter := by
    funext q
    simp only [State.pkg, State.setPkg, look_setKey]
    split
    · next h => exact h ▸ hw
    · rfl
  show (s.dev, s.devPoison, s.sys, s.sysPoison, s.cores, fun q => ((s.setPkg p w).pkg q).pewter, _, _) = _
  rw [pewters]
  rfl

theorem results_pinSlot (s : State) (t : Nat) (g : Gang) (e h : Nat) (pin : Nat × Nat × Nat) :
    results (s.pinSlot g e h pin) t = results s t := by
  unfold State.pinSlot
  split
  · rfl
  · exact results_setPkg _ _ _ rfl

theorem results_onTree (s : State) (t h : Nat) (f : Tree → Tree) : results (s.onTree h f) t = results s t := by
  unfold State.onTree
  split <;> rfl

theorem results_pinArm (s : State) (t gid : Nat) (g : Gang) (r : Tree) (h : Nat) (a : Arm) :
    results (s.pinArm t gid g r h a) t = results s t :=
  (results_onTile _ _ _ (fun _ => kept_onArms ..)).trans
    (foldl_keeps (fun u => results u t) _ (fun _ _ => results_pinSlot ..) _ _)

theorem results_armSlots (s : State) (t gid buf h : Nat) : results (s.armSlots t gid buf h) t = results s t := by
  unfold State.armSlots
  split
  · split
    · rfl
    · split
      · rfl
      · dsimp only
        split
        · exact (results_pinArm ..).trans (results_onTree ..)
        · exact (results_onGang (fun _ _ => frame_announce ..)).trans (results_onTree ..)
  · rfl

/-! ### The answers -/

/-- An instruction answers, and leaves the results of a task, every other task and the packages alone. -/
def Answers (i : Instr) (s : State) (t : Nat) : Prop :=
  ∃ u, exec i s = .next u ∧ results u t = results s t ∧ u.pkgs = s.pkgs

/-- What a slot does in its issue cycle keeps the frame of its gang. -/
def Quiet (run : Gang → Tile → Nat → Origin → Gang) : Prop :=
  ∀ g x k o, StandsFor (frame g) o.gid (keptPart x) → frame (run g x k o) = frame g

theorem answers_of_nop {i : Instr} {s : State} {t : Nat} (hi : exec i s = .next s) : Answers i s t := ⟨s, hi, rfl, rfl⟩

section Answer
variable {s : State} {t gid slot k addr : Nat} {g : Gang} {x : Tile} (hat : AtTile s t gid slot k addr g x) {i : Instr}
include hat

theorem answers_of_becomes {h : Gang} (hb : GangBecomes i s t h) (hf : frame h = frame g) : Answers i s t := by
  obtain ⟨-, gang, -⟩ := hat
  refine ⟨_, hb, results_onGang (fun z hz => ?_), State.onGang_pkgs ..⟩
  rw [hf, Option.some.inj (hz.symm.trans gang)]

theorem stands_atTile : StandsFor (frame g) gid (keptPart x) := by
  obtain ⟨-, -, tile⟩ := hat
  exact standsFor_tile tile

theorem answers_of_issueOn {run : Gang → Tile → Nat → Origin → Gang} (hi : exec i s = .next (s.issueOn run)) (hr : Quiet run) :
    Answers i s t :=
  answers_of_becomes hat (gangBecomes_of_issueOn hat hi rfl) (hr g x k _ (stands_atTile hat))

theorem answers_of_control {f : Gang → Tile → Active → Origin → Gang} (hi : exec i s = .next (s.control f))
    (hf : ∀ g x a o, StandsFor (frame g) o.gid (keptPart x) → frame (f g x a o) = frame g) : Answers i s t := by
  refine answers_of_issueOn hat hi (fun g x k o hx => ?_)
  split
  · rfl
  · exact hf g x _ o hx

theorem answers_of_scalar {guard : Option (Nat × Nat)} {srcs : List Nat} {d : Dst} {lat : Nat} {f : Inputs → Word × Nat}
    (hi : exec i s = s.scalar guard srcs d lat f) : Answers i s t := by
  obtain ⟨cur, -, -⟩ := id hat
  refine answers_of_issueOn hat (hi.trans ?_) (fun g x k o hx => frame_scalar hx guard srcs d lat f)
  simp only [State.scalar, cur]

theorem answers_of_vector {v : VOp} {run : Gang → Tile → Nat → Origin → Gang} (hi : exec i s = s.vector v run) (hr : Quiet run) :
    Answers i s t :=
  answers_of_issueOn hat hi (fun _ _ k o hx => frame_vector hx v (fun h y hy => hr h y k o hy))

theorem answers_of_vmap {v : VOp} {lat : Nat} {srcs : List Source} {dst : ElemType} {f : Nat → List Nat → Rounded}
    (hi : exec i s = s.vector v (fun g x k o => g.vmap x o v k lat srcs dst f)) : Answers i s t :=
  answers_of_vector hat hi (fun _ _ _ _ hx => frame_vmap hx ..)

theorem answers_of_gather {v : VOp} {run : Gang → Tile → Nat → Origin → Gang} (hi : exec i s = s.gatherOp v run) (hr : Quiet run) :
    Answers i s t := by
  refine answers_of_issueOn hat hi (fun g x k o hx => ?_)
  refine frame_vectorWith hx v (fun h => ?_) (fun h y ok hy => frame_gatherPort hy ok (fun h y hy => hr h y k o hy))
  split
  · exact frame_record ..
  · rfl

theorem answers_of_cross {hd hs : Nat} {routes : List (Nat × Nat)} (hi : exec i s = s.cross hd hs routes) : Answers i s t :=
  answers_of_issueOn hat hi (fun _ _ _ _ _ => frame_cross ..)

/-- The state after an operation of the D slot, whether it was refused or not. -/
theorem dslot_keeps (own : x.gid = gid) {buf : Nat} {run : Gang → Tile → Nat → Origin → Gang} (hr : Quiet run) :
    ∃ u, s.dslot buf run = .next u ∧ results u t = results s t ∧ u.pkgs = s.pkgs := by
  subst own
  obtain ⟨cur, gang, tile⟩ := id hat
  refine ⟨_, rfl, ?_, ?_⟩
  · rw [State.issueOn_tile s t _ slot k addr g x cur gang tile]
    refine results_onGang (fun z hz => ?_)
    rw [← Option.some.inj (gang.symm.trans hz)]
    have stands := stands_atTile hat
    have put : frame (g.onTile x.gid (fun _ => { x with dEnds := x.dEnds.filter (fun e => g.lcyc ≤ e) })) = frame g :=
      frame_put _ _ _ stands
    dsimp only
    split
    · exact frame_record ..
    · refine (hr _ _ _ _ ?_).trans put
      rw [put]
      exact stands
  · rw [State.issueOn_tile s t _ slot k addr g x cur gang tile]
    exact State.onGang_pkgs ..

theorem answers_of_dslot (own : x.gid = gid) {buf : Nat} {run : Gang → Tile → Nat → Origin → Gang} (hi : exec i s = s.dslot buf run)
    (hr : Quiet run) : Answers i s t := by
  obtain ⟨u, hu, same⟩ := dslot_keeps hat own hr
  exact ⟨u, hi.trans hu, same⟩

theorem answers_of_atom (own : x.gid = gid) {buf op d a b w : Nat} {cas : Option Nat} (hi : exec i s = s.atom buf op d a b cas w) :
    Answers i s t :=
  answers_of_dslot hat own hi (fun _ _ _ _ hx => frame_atomOp hx ..)

end Answer

/-! ### One answer per instruction of a slot -/

section Slots
variable {s : State} {t gid slot k addr : Nat} {g : Gang} {x : Tile} (hat : AtTile s t gid slot k addr g x)
include hat

theorem answers_nop : Answers .nop s t := by
  obtain ⟨cur, -, -⟩ := hat
  refine answers_of_nop ?_
  show execNop s = _
  simp only [execNop, cur]

theorem answers_br (pg pn d : Nat) : Answers (.br pg pn d) s t := by
  obtain ⟨cur, -, -⟩ := id hat
  refine answers_of_control hat (f := fun g x _ o => g.br x o pg pn d) ?_ (fun _ _ _ _ _ => frame_br ..)
  show execBr pg pn d s = _
  simp only [execBr, cur]

theorem answers_call (r d : Nat) : Answers (.call r d) s t := by
  obtain ⟨cur, -, -⟩ := id hat
  refine answers_of_control hat (f := fun g x a o => g.call x a o r d) ?_ (fun _ _ _ _ _ => frame_call ..)
  show execCall r d s = _
  simp only [execCall, cur]

theorem answers_ret (a : Nat) : Answers (.ret a) s t := by
  obtain ⟨cur, -, -⟩ := id hat
  refine answers_of_control hat (f := fun g x _ o => g.ret x o a) ?_ (fun _ _ _ _ hx => frame_ret hx ..)
  show execRet a s = _
  simp only [execRet, cur]

theorem answers_join (e : Nat) : Answers (.join e) s t := by
  refine answers_of_control hat rfl (fun g x a o _ => ?_)
  split
  · rfl
  · exact frame_cFault ..

theorem answers_halt : Answers .halt s t :=
  answers_of_control hat rfl (fun _ _ _ _ _ => (frame_onActive ..).trans (frame_onTile _ _ _ (fun _ => rfl)))

theorem answers_phase (bank : Nat) : Answers (.phase bank) s t := by
  refine answers_of_control hat rfl (fun g x a o _ => ?_)
  split
  · rfl
  · exact frame_cFault ..

/-- DBGB changes no package: it announces a hold and reports its tag. -/
theorem answers_dbgb (tag : Nat) : Answers (.dbgb tag) s t := by
  obtain ⟨cur, gang, tile⟩ := id hat
  have announced (armed : Bool) : ∃ f : Gang → Gang, s.control (fun g _ _ o => if armed = true then g.announce 3 o.gid 0 else g)
      = s.onGang t f ∧ ∀ z, s.gang t = some z → frame (f z) = frame z := by
    refine ⟨_, State.issueOn_tile s t gid slot k addr g x cur gang tile _, fun z hz => ?_⟩
    rw [← Option.some.inj (gang.symm.trans hz)]
    split
    · rfl
    · simp
  obtain ⟨armed, hi⟩ : ∃ armed : Bool, exec (.dbgb tag) s = .next (if armed = true
      then (s.control (fun g _ _ o => if armed = true then g.announce 3 o.gid 0 else g)).emit 10 s.evTask [s.evGid, tag]
      else s.control (fun g _ _ o => if armed = true then g.announce 3 o.gid 0 else g)) := ⟨_, rfl⟩
  obtain ⟨f, hs, hf⟩ := announced armed
  rw [hs] at hi
  refine ⟨_, hi, ?_, ?_⟩
  · split
    · exact results_onGang hf
    · exact results_onGang hf
  · split
    · exact State.onGang_pkgs ..
    · exact State.onGang_pkgs ..

theorem answers_advr (v : VOp) : Answers (.advr v) s t := by
  refine answers_of_issueOn hat rfl (fun g x k o _ => ?_)
  have counted : frame (g.onTile o.gid (fun y => y.count 5 1)) = frame g := frame_onTile _ _ _ (fun _ => rfl)
  dsimp only
  split
  · exact (frame_later ..).trans counted
  · exact counted

theorem answers_vscan (v : VOp) : Answers (.vscan v) s t :=
  answers_of_vector hat rfl (fun _ _ _ _ _ => by simp)

theorem answers_vbrd (v : VOp) : Answers (.vbrd v) s t :=
  answers_of_vector hat rfl (fun _ _ _ _ hx => (frame_moveElems ..).trans (by simp [hx]))

theorem answers_vlds (v : VOp) : Answers (.vlds v) s t :=
  answers_of_gather hat rfl (fun _ _ _ _ hx => (frame_gatherLoad ..).trans (frame_vmemRead hx ..))

theorem answers_vsts (v : VOp) : Answers (.vsts v) s t :=
  answers_of_gather hat rfl (fun _ _ _ _ hx => (frame_gatherStore ..).trans (frame_vmemRead hx ..))

theorem answers_vgath (v : VOp) : Answers (.vgath v) s t :=
  answers_of_gather hat rfl (fun _ _ _ _ hx =>
    (frame_gatherLoad ..).trans ((frame_indexPoison ..).trans (frame_vmemRead hx ..)))

theorem answers_vscat (v : VOp) : Answers (.vscat v) s t :=
  answers_of_gather hat rfl (fun _ _ _ _ hx =>
    (frame_gatherStore ..).trans ((frame_indexPoison ..).trans (frame_vmemRead hx ..)))

theorem answers_xperm (hd hs n : Nat) : Answers (.xperm hd hs n) s t := by
  refine answers_of_issueOn hat rfl (fun g x k o _ => ?_)
  dsimp only
  split
  · exact frame_cross ..
  · exact frame_record ..

section Transfer
variable (own : x.gid = gid)
include own

theorem answers_chbind (buf n chs chr : Nat) : Answers (.chbind buf n chs chr) s t := by
  refine answers_of_dslot hat own (exec_chbind ..) (fun g x k o _ => ?_)
  split
  · exact frame_record ..
  · exact (frame_inFlight ..).trans (frame_later ..)

theorem answers_tstat (buf h d clr : Nat) : Answers (.tstat buf h d clr) s t := by
  refine answers_of_dslot hat own (exec_tstat_eq ..) (fun g x k o _ => ?_)
  split
  · refine (frame_onTile _ _ _ (fun y => ?_)).trans (by simp)
    unfold clearSticky
    split <;> rfl
  · simp

/-- TARM leaves the same alone, though it pins tree slots of packages (R354). -/
theorem answers_tarm (buf h r a : Nat) :
    ∃ u, exec (.tarm buf h r a) s = .next u ∧ results u t = results s t := by
  obtain ⟨cur, -, -⟩ := id hat
  have task : s.evTask = t := by rw [State.evTask, cur]
  obtain ⟨u, hu, same, -⟩ := dslot_keeps hat own (buf := buf)
    (run := fun g x _ o => g.tarm x o (find? s.trees h) h r a) (fun _ _ _ _ hx => frame_tarm hx ..)
  refine ⟨u.armSlots t s.evGid buf h, ?_, (results_armSlots ..).trans same⟩
  show execTarm buf h r a s = _
  unfold execTarm
  rw [hu, task]

end Transfer

end Slots

/-! ### One slot after another -/

section Streams
variable {s : State} {t gid slot k addr : Nat} {g : Gang} {x : Tile} (hat : AtTile s t gid slot k addr g x)
include hat

theorem answers_of_shift {i : Instr} {v : VOp} {f : ElemType → Nat → Nat → Nat} (hi : exec i s = s.vshift v f) : Answers i s t := by
  unfold State.vshift at hi
  split at hi
  · exact answers_of_vmap hat hi
  · exact answers_of_vmap hat hi

theorem answers_of_reduce {i : Instr} {v : VOp} {f : Tile → Origin → List (Option Lane) → Rounded} (hi : exec i s = s.reduce v f) :
    Answers i s t :=
  answers_of_vector hat hi (fun _ _ _ _ _ => frame_single ..)

theorem answers_inC {i : Instr} (hi : i.standsIn .c = true) (hn : ∀ a, i ≠ .tlaunch a) : Answers i s t := by
  cases i with
  | nop => exact answers_nop hat
  | sync => exact answers_of_control hat rfl (fun _ _ _ _ _ => frame_sync ..)
  | loop c e lb => exact answers_of_control hat rfl (fun _ _ _ _ _ => frame_loop ..)
  | loops a e lb => exact answers_of_control hat rfl (fun _ _ _ _ hx => frame_loops hx ..)
  | br pg pn d => exact answers_br hat pg pn d
  | join e => exact answers_join hat e
  | call r d => exact answers_call hat r d
  | ret a => exact answers_ret hat a
  | halt => exact answers_halt hat
  | trapInstr code => exact answers_of_control hat rfl (fun _ _ _ _ _ => frame_cFault ..)
  | fmt v => exact answers_of_control hat rfl (fun _ _ _ _ _ => frame_later ..)
  | segchk seg => exact answers_of_control hat rfl (fun _ _ _ _ _ => frame_segchk ..)
  | crgnOpen d => exact answers_of_control hat rfl (fun _ _ _ _ _ => frame_openRegion ..)
  | crgnClose => exact answers_of_control hat rfl (fun _ _ _ _ _ => frame_closeRegion ..)
  | resync a => exact answers_of_control hat rfl (fun _ _ _ _ hx => frame_resync hx ..)
  | phase bank => exact answers_phase hat bank
  | tlaunch a => exact absurd rfl (hn a)
  | dbgb tag => exact answers_dbgb hat tag
  | sysrd d r => exact answers_of_control hat rfl (fun _ _ _ _ _ => frame_sysrd ..)
  | syswr a r => exact answers_of_control hat rfl (fun _ _ _ _ hx => frame_syswr hx ..)
  | ringc h b l c => exact answers_of_control hat rfl (fun _ _ _ _ _ => frame_later ..)
  | _ => cases hi

theorem answers_inS {i : Instr} (hi : i.standsIn .s = true) : Answers i s t := by
  cases i with
  | nop => exact answers_nop hat
  | lds d a z o => exact answers_of_issueOn hat rfl (fun _ _ _ _ hx => frame_ldsTile hx ..)
  | sts d a z o => exact answers_of_issueOn hat rfl (fun _ _ _ _ hx => frame_stsTile hx ..)
  | add | sub | mul | mulh | mulhn | div | divn | rem | remn | and | or | xor | andn | orn | shl | shr | sha | rotr | min | max
  | minn | maxn | slt | sltn => exact answers_of_scalar hat rfl
  | clz | ctz | popc | sel | pcmp | plog | addi | andi | ori | xori | shli | shri | shai | limm | limmh =>
    exact answers_of_scalar hat rfl
  | fadd | fsub | fmul | ffma | fmin | fmax | fcmp | fcvt => exact answers_of_scalar hat rfl
  | _ => cases hi

theorem answers_inV {i : Instr} (hi : i.standsIn .v = true) : Answers i s t := by
  cases i with
  | vNop => exact answers_of_nop rfl
  | vadd | vsub | vmul | vfma | vfms | vfnma | vmin | vmax | vabs | vneg | vmulh | vand | vor | vxor | vandn | vnot | vclz | vpopc
  | vcvt | vexp2 | vlog2 | vrcp | vrsq | vsqrt | vtanh | vsig | vsin | vcos => exact answers_of_vmap hat rfl
  | vshl v => exact answers_of_shift hat (exec_vshl v s)
  | vshr v => exact answers_of_shift hat (exec_vshr v s)
  | vsha v => exact answers_of_shift hat (exec_vsha v s)
  | vrsum | vrmax | vrmin | vrarg => exact answers_of_reduce hat rfl
  | vcmp v => exact answers_of_vector hat rfl (fun _ _ _ _ hx => frame_vcmp hx ..)
  | vsel v => exact answers_of_vector hat rfl (fun _ _ _ _ hx => frame_vsel hx ..)
  | vqmx v => exact answers_of_vector hat rfl (fun _ _ _ _ hx => frame_vqmx hx ..)
  | vdqmx v => exact answers_of_vector hat rfl (fun _ _ _ _ _ => frame_vdqmx ..)
  | vscl v => exact answers_of_vector hat rfl (fun _ _ _ _ hx => frame_vscl hx ..)
  | vscan v => exact answers_vscan hat v
  | vtopk v => exact answers_of_vector hat rfl (fun _ _ _ _ _ => frame_vtopk ..)
  | vxpnd | viota => exact answers_of_vector hat rfl (fun _ _ _ _ _ => frame_moveElems ..)
  | vcount | vextr => exact answers_of_vector hat rfl (fun _ _ _ _ _ => frame_single ..)
  | vbrd v => exact answers_vbrd hat v
  | vld v => exact answers_of_vector hat rfl (fun _ _ _ _ hx => frame_vld hx ..)
  | vst v => exact answers_of_vector hat rfl (fun _ _ _ _ hx => frame_vst hx ..)
  | vldb v => exact answers_of_vector hat rfl (fun _ _ _ _ hx => frame_vldb hx ..)
  | vlds v => exact answers_vlds hat v
  | vsts v => exact answers_vsts hat v
  | vgath v => exact answers_vgath hat v
  | vscat v => exact answers_vscat hat v
  | advr v => exact answers_advr hat v
  | _ => cases hi

theorem answers_inX {i : Instr} (hi : i.standsIn .x = true) : Answers i s t := by
  cases i with
  | xNop => exact answers_of_nop rfl
  | xperm hd hs n => exact answers_xperm hat hd hs n
  | xrot | xshuf | xtrn | xbrd => exact answers_of_cross hat rfl
  | xpat hs n => exact answers_of_issueOn hat rfl (fun _ _ _ _ _ => frame_xpat ..)
  | _ => cases hi

theorem answers_inM {i : Instr} (hi : i.standsIn .m = true) : Answers i s t := by
  cases i with
  | mNop => exact answers_of_nop rfl
  | mnest => exact answers_of_issueOn hat rfl (fun _ _ _ _ hx => frame_mnest hx ..)
  | mnestClr => exact answers_of_issueOn hat rfl (fun _ _ _ _ _ => frame_shadow rfl)
  | mgo => exact answers_of_issueOn hat rfl (fun _ _ _ _ _ => frame_mgo)
  | mcfg => exact answers_of_issueOn hat rfl (fun _ _ _ _ hx => frame_mcfg hx ..)
  | mzero => exact answers_of_issueOn hat rfl (fun _ _ _ _ _ => frame_mzero ..)
  | mmul | mmulg => exact answers_of_issueOn hat rfl (fun _ _ _ _ hx => frame_mmul hx ..)
  | mchk => exact answers_of_issueOn hat rfl (fun _ _ _ _ hx => frame_mchk hx ..)
  | mldacc | mstacc => exact answers_of_issueOn hat rfl (fun _ _ _ _ hx => frame_moveAcc hx ..)
  | mpermAcc | mpermScratch => exact answers_of_issueOn hat rfl (fun _ _ _ _ hx => frame_mperm hx ..)
  | aballoc => exact answers_of_issueOn hat rfl (fun _ _ _ _ _ => frame_aballoc ..)
  | abfree => exact answers_of_issueOn hat rfl (fun _ _ _ _ _ => frame_abfree ..)
  | mflu | mfch | mfqr => exact answers_of_issueOn hat rfl (fun _ _ _ _ hx => frame_factorise hx ..)
  | mtrs => exact answers_of_issueOn hat rfl (fun _ _ _ _ hx => frame_mtrs hx ..)
  | _ => cases hi

theorem answers_inD (own : x.gid = gid) {i : Instr} (hi : i.standsIn .d = true) (hn : ∀ b h r a, i ≠ .tarm b h r a) :
    Answers i s t := by
  cases i with
  | dNop => exact answers_of_nop rfl
  | xfer => exact answers_of_dslot hat own (exec_xfer ..) (fun _ _ _ _ hx => frame_xfer hx ..)
  | xferr => exact answers_of_dslot hat own (exec_xferr ..) (fun _ _ _ _ hx => frame_xfer hx ..)
  | rld => exact answers_of_dslot hat own (exec_rld ..) (fun _ _ _ _ hx => frame_rld hx ..)
  | rst => exact answers_of_dslot hat own (exec_rst ..) (fun _ _ _ _ hx => frame_rst hx ..)
  | chsend => exact answers_of_dslot hat own (exec_chsend ..) (fun _ _ _ _ hx => frame_chsend hx ..)
  | chrecv => exact answers_of_dslot hat own (exec_chrecv ..) (fun _ _ _ _ hx => frame_chrecv hx ..)
  | chbind b n u v => exact answers_chbind hat own b n u v
  | sacc => exact answers_of_dslot hat own (exec_sacc ..) (fun _ _ _ _ hx => frame_sacc hx ..)
  | shist => exact answers_of_dslot hat own (exec_shist ..) (fun _ _ _ _ hx => frame_shist hx ..)
  | ctrsnap => exact answers_of_dslot hat own (exec_ctrsnap ..) (fun _ _ _ _ hx => frame_ctrsnap hx ..)
  | atomAdd | atomAnd | atomOr | atomXor | atomMin | atomMax | atomMinn | atomMaxn | atomSwap | atomCas | atomFadd | atomArv
  | atomBreg | atomBcpl => exact answers_of_atom hat own rfl
  | snap => exact answers_of_dslot hat own (exec_snap ..) (fun _ _ _ _ _ => frame_snap ..)
  | genq => exact answers_of_dslot hat own (exec_genq ..) (fun _ _ _ _ _ => frame_genq ..)
  | tarm b h r a => exact absurd rfl (hn b h r a)
  | tpost => exact answers_of_dslot hat own (exec_tpost ..) (fun _ _ _ _ hx => frame_tpost hx ..)
  | trecv => exact answers_of_dslot hat own (exec_trecv ..) (fun _ _ _ _ hx => frame_trecv hx ..)
  | tstat b h d c => exact answers_tstat hat own b h d c
  | _ => cases hi

/-- An instruction of a slot that is neither TLAUNCH nor TARM answers so. -/
theorem answers_inSlot (own : x.gid = gid) {i : Instr} {p : Stream} (hp : p ∈ [Stream.c, .s, .v, .x, .m, .d])
    (hi : i.standsIn p = true) (launch : ∀ a, i ≠ .tlaunch a) (arm : ∀ b h r a, i ≠ .tarm b h r a) : Answers i s t := by
  simp only [List.mem_cons, List.not_mem_nil, or_false] at hp
  obtain rfl | rfl | rfl | rfl | rfl | rfl := hp
  · exact answers_inC hat hi launch
  · exact answers_inS hat hi
  · exact answers_inV hat hi
  · exact answers_inX hat hi
  · exact answers_inM hat hi
  · exact answers_inD hat own hi arm

end Streams

/-! ### The statement -/

/-- What a state with the results of another has in common with it. -/
theorem results_iff {s u : State} {t : Nat} {g : Gang} (hg : s.gang t = some g) (e : results u t = results s t) :
    u.dev = s.dev ∧ u.devPoison = s.devPoison ∧ u.sys = s.sys ∧ u.sysPoison = s.sysPoison ∧ u.cores = s.cores
      ∧ (∀ q, (u.pkg q).pewter = (s.pkg q).pewter) ∧ (∀ v, v ≠ t → u.task v = s.task v)
      ∧ ∃ h, u.gang t = some h ∧ h.lcyc = g.lcyc ∧ ∀ j y, h.tile j = some y → ∃ z, g.tile j = some z ∧ Keeps z y := by
  simp only [results, Prod.mk.injEq, hg, Option.map_some, Option.map_eq_some_iff] at e
  obtain ⟨dev, devPoison, sys, sysPoison, cores, pewters, others, h, hu, same⟩ := e
  refine ⟨dev, devPoison, sys, sysPoison, cores, fun q => congrFun pewters q, fun v hv => ?_, h, hu, frame_lcyc same,
    fun j y hy => frame_tile same hy⟩
  have other := congrFun others v
  rwa [if_neg hv, if_neg hv] at other

/-- Settles O60: every operation of an issue cycle keeps the frame of its gang, slot by slot; TARM besides changes tree slots
alone. -/
theorem issueChangesNoResult : Obligations.IssueChangesNoResult := by
  intro s t gid slot k addr g x i p hat own hp hi launch
  have answer : ∃ u, exec i s = .next u ∧ results u t = results s t ∧ ((∀ b h r a, i ≠ .tarm b h r a) → u.pkgs = s.pkgs) := by
    by_cases arm : ∃ b h r a, i = .tarm b h r a
    · obtain ⟨b, h, r, a, rfl⟩ := arm
      obtain ⟨u, hu, same⟩ := answers_tarm hat own b h r a
      exact ⟨u, hu, same, fun no => absurd rfl (no b h r a)⟩
    · have no : ∀ b h r a, i ≠ .tarm b h r a := fun b h r a e => arm ⟨b, h, r, a, e⟩
      obtain ⟨u, hu, same, pkgs⟩ := answers_inSlot hat own hp hi launch no
      exact ⟨u, hu, same, fun _ => pkgs⟩
  obtain ⟨u, hu, same, pkgs⟩ := answer
  obtain ⟨-, gang, -⟩ := hat
  obtain ⟨dev, devPoison, sys, sysPoison, cores, pewters, others, h, hh, tiles⟩ := results_iff gang same
  exact ⟨u, hu, dev, devPoison, sys, sysPoison, cores, pewters, pkgs, others, h, hh, tiles⟩

end Sys2Proof.Execution
end
